-- ==== Sys2Proof/Word.lean ====
section
/-! DEFINITION. Bytes, words and times: the plain types every other file uses. -/

namespace Sys2Proof

/-- One byte. -/
abbrev Byte := BitVec 8
/-- A string of bytes, first byte first. -/
abbrev Bytes := List Byte
/-- Fabric time in units of 1/256 ns (R28). -/
abbrev FT64 := BitVec 64

end Sys2Proof
end

