-- ==== Sys2Proof/Syntax.lean ====
section
/-! DEFINITION. The commands the block takes: what the outside world and the block's own clocks and engines can do to it.
An operand is what comes from outside with the command: the value a host writes, the bytes a frame or a host memory read
brings, which unit is meant. Everything the block holds itself is in its State. -/

namespace Sys2Proof

/-- Fabric port p0–p23 (R13). -/
abbrev Port := Fin 24
/-- A port whose links run retry: p0–p23, or 24 for the two mirror ports, which are its logical ports 0 and 1 (R47, R57, R72). -/
abbrev LlrPort := Fin 25
/-- A port whose FEC is counted: p0–p23, then m0 and m1 (R53, R72). -/
abbrev FecPort := Fin 26
/-- Logical port within a fabric port (R49). -/
abbrev Lp := Fin 8
/-- Channel CH0–CH7 (R13). -/
abbrev Ch := Fin 8
/-- Device-wide context: channel × 32 + core × 8 + context (R140). -/
abbrev Cx := Fin 256
/-- Traffic class tc0–tc7 (R120). -/
abbrev Cls := Fin 8
/-- Optical tile OT0–OT7, OTM is 8; also the laser module that feeds it (R48, R451). -/
abbrev Tile := Fin 9
/-- Store die slice SD0–SD5 (R102). -/
abbrev Slice := Fin 6
/-- Buffer pool P0–P5 (R99). -/
abbrev Pool := Fin 6
/-- Submission or completion ring number (R362). -/
abbrev Ring := Fin 1024
/-- Mirror port m0, m1, or out-of-band port 0, 1 (R72, R426). -/
abbrev Mlink := Fin 2

/-- How an access to host memory ends (R359): done, failed (completed with error or poisoned), or failed by a loss of IDE integrity. -/
inductive HostEnd where
  | done | error | ide
  deriving DecidableEq, Repr

/-- What a device read of host memory brings: the bytes, or the failure of the access (R359). -/
inductive HostData where
  | ok (b : Bytes)
  | error
  | ide
  deriving DecidableEq, Repr

/-- How the read ended. -/
def HostData.how : HostData → HostEnd
  | .ok _ => .done
  | .error => .error
  | .ide => .ide

/-- What NEGOTIATE_ALGORITHMS offers beside its hashes (R394): extended asymmetric algorithm IDs, and bit numbers of DHE groups and AEADs. -/
structure AlgOffer where
  asyms : List Nat
  dhes : List Nat
  aeads : List Nat
  deriving DecidableEq, Repr

/-- What made the active time source lost (R40). The table has no row for FT_REF itself: the two events of that pin that come before its loss, or
end it, arrive by this command and lose nothing. -/
inductive LossCause where
  | beacons | syncs | delayResponses | pps | linkDown
  /-- FT_REF has had no edge for 1 µs. -/
  | ref
  /-- The last edge of FT_REF before it stops. -/
  | refStops
  /-- FT_REF runs again. -/
  | refRuns
  deriving DecidableEq, Repr

/-- What a port's FEC reports of an interval (R53): the codewords corrected, by their number of symbol errors 0–15, and those uncorrectable. -/
structure FecCount where
  hist : List Nat
  uncor : Nat
  deriving DecidableEq, Repr

/-- An M queue repeat that runs (R234): its context, and the cycles for which the tiles waited for its operands. -/
structure MmaRun where
  cx : Cx
  waited : Nat
  deriving DecidableEq, Repr

/-- A supply droop (R351): a channel of the die that sees it, and its depth against PWR_DROOP_CFG.thresh. -/
structure Droop where
  ch : Ch
  depth : Nat
  deriving DecidableEq, Repr

/-- A frame on the wire of a mirror port: the six preamble bytes before the SFD (R57) and the bytes without FCS. -/
structure WireFrame where
  pre : Bytes
  bytes : Bytes
  deriving DecidableEq, Repr

/-- How a frame's tail arrives: a good FCS, a bad FCS or an overlap with an uncorrectable codeword, or the
inverted FCS of the tail abort code (R52, R76, R88). -/
inductive Fcs where
  | good | bad | abort
  deriving DecidableEq, Repr

/-- Who met a store word (STORE_ECC_LOG.requester, R114). The argument names the item that read it. -/
inductive EccReq where
  /-- The egress copy on the logical port of this source number. -/
  | egress (src : Nat)
  /-- The combine engine, reading the waiting frame of this index. -/
  | combine (k : Nat)
  /-- Queue `q` of a context. -/
  | channel (cx : Cx) (q : Fin 5)
  /-- The host descriptor of this intake number. -/
  | host (d : Nat)
  | seedbank
  | ringFetch
  deriving DecidableEq, Repr

/-- What the patrol scrubber finds (R117). -/
inductive EccResult where
  | clean | corrected | uncorrectable
  deriving DecidableEq, Repr

/-- What the PMC samples at an interval boundary (R342, R354, R355): events that no command of this interface stands for, the reading of each
die sensor, the temperature of each stack. -/
structure PmcSample where
  /-- Events of classes 0–10 beside those that the commands' own work has counted. -/
  counts : List Nat
  /-- The readings of the die sensors, each with its die's code of PWR_TJ; the highest is Tj (R354). -/
  sensors : List (Nat × Int)
  hbm : List Nat
  deriving DecidableEq, Repr

/-- Where an internal error is found: a block that a class 3 error takes down (R434), or what a class 2 error of an engine or of a channel's
memories is confined to (R430, R431). -/
inductive Block where
  | port (p : Port)
  | channel (ch : Ch)
  /-- A parity error of the V, S, X or P engine at the head entry of a queue (R177). -/
  | entry (cx : Cx) (q : Fin 5)
  /-- A 32-byte word of channel scratch. -/
  | scratch (ch : Ch) (word : Nat)
  /-- An accumulator bank of a tile. -/
  | bank (ch : Ch) (tile : Fin 256) (bank : Fin 4)
  /-- An instruction in a context's instruction memory. -/
  | instruction (cx : Cx) (n : Nat)
  /-- An error of class 1 that was corrected (R430): 0 a single bit of an SRAM, 1 a CRC retry of a die link, 2 one of the CXL link. -/
  | corrected (k : Fin 3)
  deriving DecidableEq, Repr

/-- What causes a warm reset (R438), coded for HUB_RESET_STATUS.last. -/
inductive WarmSrc where
  | resetN | cxl
  | ctrl (key : Nat)
  deriving DecidableEq, Repr

/-- The outcome of a bring-up phase (R443): done, self-test with the failed tiles of (channel, group) as a count, or failed. -/
inductive PhaseResult where
  | done
  | selfTest (failed : List (Nat × Nat))
  | fail
  deriving DecidableEq, Repr

/-- The commands of the block: one constructor for each row of spec/opcode_table.json (R-number in each docstring). -/
inductive Instr where
  /-- REGISTER_WRITE (R8). A host write to a register without behaviour of its own updates RW fields, clears W1C bits and ignores RO and RSV fields; an access of the wrong width or alignment has no effect. -/
  | registerWrite (off : Nat) (width : Nat) (val : Nat)
  /-- SCHEDULED_EVENT_FIRE (R46). A scheduled event fires in the first TIME cycle in which device time is at or after its scheduled time. -/
  | scheduledEventFire (cycles : Nat)
  /-- TIME_SRC_CFG_WRITE (R34). A write to TIME_SRC_CFG selects the source and backup; src_sel 3 forces FREE at once, and any other new source takes over at its first valid measurement. -/
  | timeSrcCfgWrite (v : Nat)
  /-- TIME_RATE_WRITE (R31). A host write to TIME_RATE while servo_en is 0 sets the rate, limited to ±200 ppm. -/
  | timeRateWrite (v : Nat)
  /-- BEACON_RX (R37). A time beacon arrives; on the designated logical port it is judged, rejected and counted, or used to form an offset measurement. -/
  | beaconRx (p : Port) (l : Lp)
  /-- BEACON_TX_TIMER (R37). At each beacon interval in LOCKED or HOLDOVER, the device regenerates a beacon on every UP logical port in tx_mask. -/
  | beaconTxTimer
  /-- LINK_DELAY_REQ_TIMER (R36). Every ldelay_interval the requester on the designated port sends a link delay request carrying t1. -/
  | linkDelayReqTimer
  /-- LINK_DELAY_REQ_RX (R36). A port that receives a link delay request answers with a link delay response carrying t1 and t2. -/
  | linkDelayReqRx (p : Port) (l : Lp)
  /-- LINK_DELAY_RESP_RX (R36). A link delay response yields a link delay result, and the median of the last 8 results goes into TIME_PATH_DELAY. -/
  | linkDelayRespRx (p : Port) (l : Lp)
  /-- PTP_SYNC_RX (R38). A PTP Sync in the profile on the designated port forms an offset measurement (one-step) or awaits its Follow_Up (two-step). -/
  | ptpSyncRx (p : Port) (l : Lp)
  /-- PTP_FOLLOW_UP_RX (R38). A PTP Follow_Up completes a two-step Sync measurement. -/
  | ptpFollowUpRx (p : Port) (l : Lp)
  /-- PTP_PDELAY_REQ_RX (R38). A Pdelay_Req on the designated port is answered. -/
  | ptpPdelayReqRx (p : Port) (l : Lp)
  /-- PTP_PDELAY_RESP_RX (R38). A Pdelay_Resp or its Follow_Up updates the peer delay median. -/
  | ptpPdelayRespRx (p : Port) (l : Lp)
  /-- PTP_ANNOUNCE_RX (R38). A PTP Announce is recorded in TIME_PTP_GM and is not used to select a source. -/
  | ptpAnnounceRx (p : Port) (l : Lp)
  /-- FT_PPS_EDGE (R39). A rising FT_PPS_IN edge in pin mode is captured, forms an offset against TIME_PPS_NEXT, and advances TIME_PPS_NEXT by 10^9 ns. -/
  | ftPpsEdge
  /-- SOURCE_LOSS (R40). A loss timer or count expires, and the active time source is declared lost, possibly moving to the backup source. -/
  | sourceLoss (cause : LossCause)
  /-- HOLDOVER_EXPIRE (R41). Time in holdover reaches holdover_max, and the discipline enters FREE. -/
  | holdoverExpire
  /-- LASER_LOSS (R48). A laser input of a tile leaves its power range, and every logical port of the tile goes down. -/
  | laserLoss (t : Tile)
  /-- LASER_RESTORE (R48). Laser inputs return within range, and the tile's ports restart the link-up sequence. -/
  | laserRestore (t : Tile)
  /-- PORT_ENABLE (R54). PORT_CFG.enable written 1 moves the port's logical ports from DISABLED to DOWN. -/
  | portEnable (p : Port) (brk : Fin 4)
  /-- PORT_DISABLE (R54). PORT_CFG.enable written 0 takes the logical ports to DISABLED and discards their queued frames. -/
  | portDisable (p : Port) (brk : Fin 4)
  /-- PORT_FC_CFG_WRITE (R65). A write to PORT_FC_CFG sets the flow-control mode per logical port, leaving fields written with 3 unchanged. -/
  | portFcCfgWrite (p : Port) (v : Nat)
  /-- PORT_CLASS_CFG_WRITE (R122). A write to PORT_CLASS_CFG sets trust, default class and lossless mask, with the ignore rules for trust 3 and for lossless_mask while the port is not DISABLED. -/
  | portClassCfgWrite (p : Port) (v : Nat)
  /-- SIGNAL_DETECT (R54). Signal is detected on all lanes of a DOWN logical port, which moves to ALIGN. -/
  | signalDetect (p : Port) (l : Lp)
  /-- ALIGN_LOCK_DONE (R54). Alignment and FEC lock have held for 1 ms, and the logical port moves to LLR_INIT or FC_INIT. -/
  | alignLockDone (p : Port) (l : Lp)
  /-- ALIGN_LOSS_TIMEOUT (R54). Loss of alignment lock lasts beyond 4 µs, and the logical port goes DOWN. -/
  | alignLossTimeout (p : Port) (l : Lp)
  /-- FEC_DEGRADE_INTERVAL (R53). At the end of each 1 ms interval, a corrected-symbol count above the threshold sets degrade_ev. -/
  | fecDegradeInterval (p : FecPort) (c : FecCount)
  /-- LLR_INIT_TIMER (R62). In LLR_INIT, each side sends an LLR_INIT frame every 100 µs. -/
  | llrInitTimer (p : LlrPort) (l : Lp)
  /-- LLR_INIT_RX (R62). An LLR_INIT frame arrives, sets the link session, and activates retry when both sides requested it. -/
  | llrInitRx (p : LlrPort) (l : Lp)
  /-- LLR_INIT_TIMEOUT (R62). No LLR_INIT arrives within 1 ms, and the logical port runs without retry. -/
  | llrInitTimeout (p : LlrPort) (l : Lp)
  /-- CREDIT_INIT_RX (R69). CREDIT_INIT zeroes the credit limits and counts, and the receiver sends its first CREDIT_UPDATE. -/
  | creditInitRx (p : Port) (l : Lp)
  /-- LLR_ACK_RX (R58). An LLR_ACK frees the acknowledged frames from the retry buffer. -/
  | llrAckRx (p : LlrPort) (l : Lp)
  /-- LLR_NACK_RX (R58). An LLR_NACK makes the sender finish the frame in progress and resend every held frame from the NACKed sequence onward. -/
  | llrNackRx (p : LlrPort) (l : Lp)
  /-- LLR_RETRY_TIMEOUT (R58). No ACK advances for retry_timeout while frames are held, and the sender resends from the oldest held frame. -/
  | llrRetryTimeout (p : LlrPort) (l : Lp)
  /-- LLR_ACK_TIMER (R59). Every ack_interval while next_expected has advanced, the receiver sends an LLR_ACK. -/
  | llrAckTimer (p : LlrPort) (l : Lp)
  /-- PFC_FRAME_RX (R67). A PFC frame received on a PFC-mode logical port pauses, resumes or extends the pause of the named classes, apart from tc7. -/
  | pfcFrameRx (p : Port) (l : Lp)
  /-- PFC_PAUSE_EXPIRE (R67). The pause time of a class runs out, and the class may start frames again. -/
  | pfcPauseExpire (p : Port) (l : Lp) (c : Cls)
  /-- PFC_REFRESH_TIMER (R66). While back-pressure lasts, the port repeats the PFC frame every refresh interval. -/
  | pfcRefreshTimer (p : Port) (l : Lp)
  /-- CREDIT_UPDATE_RX (R69). A CREDIT_UPDATE sets the cumulative credit limit of each lossless class. -/
  | creditUpdateRx (p : Port) (l : Lp)
  /-- CREDIT_KEEPALIVE_TIMER (R71). The receiver sends CREDIT_UPDATE at least every keepalive interval. -/
  | creditKeepaliveTimer (p : Port) (l : Lp)
  /-- CREDIT_TIMEOUT (R71). No CREDIT_UPDATE arrives for the credit timeout while a frame waits for credit, and credit_timeout_ev is set. -/
  | creditTimeout (p : Port) (l : Lp)
  /-- PORT_COUNTER_CLEAR (R73). PORT_CTR_CTRL.clear zeroes all counters of the fabric port and its logical ports. -/
  | portCounterClear (p : Port)
  /-- FRAME_RX_START (R45). The first bit of a frame after the SFD reaches the receive reference plane; it is stamped and its LLR tag is checked. -/
  | frameRxStart (p : Port) (l : Lp) (pre : Bytes)
  /-- FRAME_DECISION (R21). At the 256th byte, or at the tail of a shorter frame, the frame is policed, classified and looked up, receives its fate and requests a buffer. -/
  | frameDecision (p : Port) (l : Lp) (bytes : Bytes) (whole : Bool)
  /-- FRAME_TAIL (R76). The tail of a frame arrives; its FCS decides whether it is used, stored-and-forwarded, tail-aborted or discarded, and its charge is corrected. -/
  | frameTail (p : Port) (l : Lp) (rest : Bytes) (fcs : Fcs)
  /-- EGRESS_SELECT (R127). When the link can start a frame, tc7 or a DRR-selected eligible class starts its head frame, and the shaper and deficit are debited. -/
  | egressSelect (p : Port) (l : Lp)
  /-- FRAME_TX_END (R132). A frame finishes transmission; the shaper and deficit are corrected to its actual length and its share of the buffer is released. -/
  | frameTxEnd (p : Port) (l : Lp)
  /-- EGRESS_UNDERRUN (R89). A cut-through copy has waited 200 ns for an uncommitted unit and ends with the tail abort code. -/
  | egressUnderrun (p : Port) (l : Lp)
  /-- SHAPER_ELIGIBLE (R131). A calendar-wheel slot boundary at or after E makes a parked shaper eligible, or re-parks it. -/
  | shaperEligible (p : Port) (l : Lp) (c : Cls)
  /-- GATE_CFG_CHANGE (R136). PORT_GATE_CTRL.cfg_change written 1 checks the administrative list and schedules the change time T. -/
  | gateCfgChange (p : Port)
  /-- GATE_CONFIG_APPLY (R136). At T the administrative gate list becomes operational. -/
  | gateConfigApply (p : Port)
  /-- GATE_CHANGE (R133). An entry boundary of the operational gate list opens or closes classes. -/
  | gateChange (p : Port)
  /-- POLICER_RATE_WRITE (R126). A write to PORT_POL_RATE sets the rates; an en change from 0 to 1 fills both buckets. -/
  | policerRateWrite (p : Port) (l : Lp) (c : Fin 7) (v : Nat)
  /-- STORE_ENABLE (R94). STORE_CTRL.enable written 1 checks the region and pool configuration and lays out the pools, or sets cfg_err. -/
  | storeEnable (scrub : Bool)
  /-- STORE_DISABLE (R94). STORE_CTRL.enable written 0 disables the store, after which non-consumed frames are discarded. -/
  | storeDisable (scrub : Bool)
  /-- STORE_REGION_CFG_WRITE (R94). A write to STORE_REGION_CFG sets the region sizes, and is ignored while the store is enabled or a bundle is loading. -/
  | storeRegionCfgWrite (v : Nat)
  /-- POOL_CACHE_REFILL (R102). A slice cache below refill_low moves up to 64 entries from the ring head. -/
  | poolCacheRefill (sl : Slice) (k : Pool) (bad : List Nat)
  /-- POOL_CACHE_SPILL (R102). A slice cache above spill_high moves 64 entries to the ring tail. -/
  | poolCacheSpill (sl : Slice) (k : Pool)
  /-- OWNER_COMMIT (R107). POOL_OWN_CTRL.commit applies an owner's four limits together, or sets cfg_err. -/
  | ownerCommit (o : Fin 226)
  /-- ECC_RETRY_READ (R114). 100 ns after a detected uncorrectable error the word is reread; a clean read counts as corrected, a second failure as uncorrectable. -/
  | eccRetryRead (addr : Nat) (req : EccReq) (clean : Bool)
  /-- SCRUB_READ (R117). The patrol scrubber reads the next unit of the store with leftover bandwidth. -/
  | scrubRead (res : List EccResult)
  /-- STORE_COUNTER_CLEAR (R73). STORE_CTR_CTRL.clear zeroes the store counters and restarts the low-water and peak marks. -/
  | storeCounterClear
  /-- CH_CORE_CFG_WRITE (R141). A write to CH_CORE_CFG changes a core between shared and solo mode only while all its contexts are IDLE. -/
  | chCoreCfgWrite (ch : Ch) (v : Nat)
  /-- IMAGE_LOAD_DONE (R147). The whole image is in instruction memory, the load checks pass, and the context enters RUN. -/
  | imageLoadDone (cx : Cx)
  /-- ENGINE_ISSUE (R158). An engine instruction or marker is placed in its queue; the context waits when the queue is full. -/
  | engineIssue (cx : Cx)
  /-- LOOP (R153). loop latches its count and starts a hardware loop, or skips a body with count zero. -/
  | loop (cx : Cx)
  /-- BRK (R156). brk leaves the named loop and its inner loops when the comparator is true. -/
  | brk (cx : Cx)
  /-- CNT (R149). cnt sets or adds to an a, c or x register at issue. -/
  | cnt (cx : Cx)
  /-- CMP (R157). cmp sets a comparator at issue from a signed or unsigned comparison. -/
  | cmp (cx : Cx)
  /-- PSET (R163). pset places a marker in a queue or, with q 7, sets its pip at issue. -/
  | pset (cx : Cx)
  /-- PSET_MARKER_COMPLETE (R163). A pset marker completes once the earlier entries of its queue are complete and visible, and sets its pip. -/
  | psetMarkerComplete (cx : Cx) (q : Fin 5)
  /-- PCLR (R164). pclr clears its pips at issue. -/
  | pclr (cx : Cx)
  /-- PWAIT (R165). pwait makes the context wait for its pip condition. -/
  | pwait (cx : Cx)
  /-- PWAIT_RELEASE (R165). The pip condition of a waiting context holds; it is released, auto-clear applies, and a solo core wakes. -/
  | pwaitRelease (cx : Cx)
  /-- BAR (R166). bar places a bar marker in each named queue of the context. -/
  | bar (cx : Cx)
  /-- BAR_MARKER_PASS (R166). Every pip of a bar marker's mask is set, and the entries behind it may start. -/
  | barMarkerPass (cx : Cx) (q : Fin 5)
  /-- HINT (R350). hint passes an expected activity phase to the power manager, which reserves power for it. -/
  | hint (cx : Cx)
  /-- MMA (R239). A repeat of mma adds A × B block products, grouped and rounded once, into a bank of every tile of the gmask. -/
  | mma (x : MmaRun)
  /-- MMZ (R193). A repeat of mmz zeroes one accumulator bank in every tile of the gmask. -/
  | mmz (cx : Cx)
  /-- CVT (R226). A repeat of cvt reads a bank, applies scale, bias and clip, and writes the output with one rounding. -/
  | cvt (cx : Cx)
  /-- VOP (R195). A repeat of vop computes 512 elements and rounds each once to fd. -/
  | vop (cx : Cx)
  /-- RED (R196). A repeat of red runs an EAGER, ANCHORED accumulate or ANCHORED resolve step on the combine engine. -/
  | red (cx : Cx)
  /-- SRT (R197). A repeat of srt stably sorts one run of records. -/
  | srt (cx : Cx)
  /-- TPK (R198). A repeat of tpk selects the k largest values of one row and writes the records. -/
  | tpk (cx : Cx)
  /-- FLT (R199). A repeat of flt writes the records of a run that pass the test, and completion writes the survivor count. -/
  | flt (cx : Cx)
  /-- HST (R200). A repeat of hst counts the records of a run into bins and may write capacity slots. -/
  | hst (cx : Cx)
  /-- MOV (R201). A repeat of mov copies len bytes between spaces. -/
  | mov (cx : Cx) (host : HostData)
  /-- GAT (R202). A repeat of gat copies an indexed row to its destination, or faults or skips on an index out of range. -/
  | gat (cx : Cx) (host : HostData)
  /-- SCT (R202). A repeat of sct copies a row to an indexed destination, or faults or skips on an index out of range. -/
  | sct (cx : Cx) (host : HostData)
  /-- PSEND (R205). A repeat of psend builds a frame in a new buffer and queues it for egress, bound or looked up. -/
  | psend (cx : Cx)
  /-- PRECV (R204). A repeat of precv takes the oldest frame of the receive FIFO and copies or holds it, writing a receive record. -/
  | precv (cx : Cx)
  /-- PFREE (R206). A repeat of pfree releases a held buffer, or faults when the release is refused. -/
  | pfree (cx : Cx)
  /-- PROGRAM_END (R148). Past the last instruction with all queues empty, the context returns to IDLE and the START_PROGRAM completion is written. -/
  | programEnd (cx : Cx)
  /-- DRAIN_COMPLETE (R168). All queues of a draining context are empty; it frees its resources and reports the fault or fence. -/
  | drainComplete (cx : Cx)
  /-- WATCHDOG_TIMEOUT (R167). A pwait or head bar marker has waited beyond the timeout, and the context faults with ST_TIMEOUT. -/
  | watchdogTimeout (cx : Cx)
  /-- RAMP_OPEN (R172). A quiet channel's ramp opens after the 129-cycle spacing, in phase order. -/
  | rampOpen (ch : Ch)
  /-- TILE_START_ADMIT (R171). At each 8-cycle window a channel admits up to 16 waiting tile starts. -/
  | tileStartAdmit (die : Fin 4) (half : Fin 2)
  /-- SPARE_REMAP_APPLY (R174). A requested spare remap takes effect once no running program holds the group. -/
  | spareRemapApply (ch : Ch) (g : Fin 16)
  /-- TILE_FAIL (R176). A tile fails during an entry, which faults with ST_TILE_FAULT. -/
  | tileFail (ch : Ch) (g : Fin 16)
  /-- CH_COUNTER_CLEAR (R73). CH_CTR_CTRL.clear zeroes the channel, tile, sparse and exception counters. -/
  | chCounterClear (ch : Ch)
  /-- EXC_REARM (R231). CH_EXC_CTRL.rearm clears the recorded first inv so that the next inv is recorded. -/
  | excRearm (ch : Ch)
  /-- DATA_RX (R274). An ECH DATA chunk passes the admission checks and is added into its slot under the chunk state machine, then acknowledged. -/
  | dataRx (k : Nat)
  /-- ANCHOR_UP_RX (R280). A child's ANCHOR_UP merges its anchor codes into the chunk. -/
  | anchorUpRx (k : Nat)
  /-- ANCHOR_DOWN_RX (R278). ANCHOR_DOWN from the parent fixes the global anchors and is passed to the child members. -/
  | anchorDownRx (k : Nat)
  /-- INT_UP_RX (R284). An INT_UP part's 96-bit integers are added into the accumulator. -/
  | intUpRx (k : Nat)
  /-- SPARSE_RX (R286). A SPARSE frame's records are matched and added, spilling into the dense slot when the index memory is full. -/
  | sparseRx (k : Nat)
  /-- RESULT_RX (R287). A RESULT or SPARSE_RESULT from the parent is CRC-checked and passed on to the members. -/
  | resultRx (k : Nat)
  /-- ACK_RX (R276). An ACK acknowledges a result sent to a child, or renews a member's lease. -/
  | ackRx (k : Nat)
  /-- NACK_RX (R272). A NACK reports a refused frame with its status and the current epoch. -/
  | nackRx (k : Nat)
  /-- NOTICE_RX (R414). A notice NACK is consumed before admission, and firmware rewrites the sender's endpoint entry. -/
  | noticeRx (k : Nat)
  /-- ABORT_REQ_RX (R289). ABORT_REQ from a child is passed up, or becomes ABORT at the root. -/
  | abortReqRx (k : Nat)
  /-- ABORT_RX (R289). ABORT from the parent discards the step, is passed on, and advances cur_step. -/
  | abortRx (k : Nat)
  /-- RETRACT_REQ_RX (R290). RETRACT_REQ from a child is passed up, or triggers the retraction at the root. -/
  | retractReqRx (k : Nat)
  /-- RETRACT_RX (R290). RETRACT with the current epoch adopts the new epoch and resume step and discards all step state. -/
  | retractRx (k : Nat)
  /-- STEP_DONE_RX (R288). STEP_DONE from the parent is passed to the members and advances cur_step. -/
  | stepDoneRx (k : Nat)
  /-- STEP_DONE_SEND (R288). At the root, once every chunk is DONE and any step fence allows, STEP_DONE with the step digest is sent and cur_step advances. -/
  | stepDoneSend (gid : Nat)
  /-- RESEND_REQ_RX (R276). RESEND_REQ is answered with the held result, or with NACK ST_STEP_RANGE. -/
  | resendReqRx (k : Nat)
  /-- STEP_WINDOW_END (R277). At the window end, members with no frame are marked late and, under wpol 1, an incomplete step aborts. -/
  | stepWindowEnd (gid : Nat) (step : Nat)
  /-- CHUNK_SLOT_FREE (R278). A slot frees, and a waiting chunk leaves IDLE with its buffered contributions. -/
  | chunkSlotFree (gid : Nat) (step : Nat) (chunk : Nat)
  /-- GROUP_RELEASE (R278). rel_pip is found set, and every HELD chunk of the group is sent and rel_pip cleared. -/
  | groupRelease (gid : Nat)
  /-- GRP_COUNTER_CLEAR (R73). GRP_CTR_CTRL.clear zeroes the group and dispatch counters. -/
  | grpCounterClear
  /-- TOKEN_RX (R299). A TOKEN frame is checked, and its tokens enter the intake ring and are acknowledged. -/
  | tokenRx (k : Nat)
  /-- TOKEN_END_RX (R299). TOKEN_END records a source's token count, which may close the step. -/
  | tokenEndRx (k : Nat)
  /-- BATCH_FLUSH_TIMEOUT (R301). flush expires after the first token of a filling batch, and the batch completes. -/
  | batchFlushTimeout (gid : Nat)
  /-- BATCH_READY (R303). A queued batch becomes READY once every earlier batch is committed or free, clearing rel_pip and setting done_pip. -/
  | batchReady (gid : Nat)
  /-- BATCH_COMMIT (R306). rel_pip found set commits the READY batch, checks its assignments, sends drop records and arms the deadline. -/
  | batchCommit (gid : Nat)
  /-- EXPERT_RESULT_RX (R309). An EXPERT_RESULT is checked, and its rows are combined under R311 or held. -/
  | expertResultRx (k : Nat)
  /-- RESULT_DEADLINE (R310). A batch deadline passes, and unreturned mapped assignments are dropped with ST_TIMEOUT. -/
  | resultDeadline (gid : Nat) (batch : Nat)
  /-- TOKEN_GO_HOME (R313). Complete tokens whose lower-numbered tokens are home are sent to their source in a TOKEN_RESULT. -/
  | tokenGoHome (gid : Nat) (src : Nat)
  /-- SEED_WRITE (R326). A write to an SBK_SEED register sets the seed slot and is recorded. -/
  | seedWrite (n : Fin 16) (v : Nat)
  /-- SBK_POLICY_WRITE (R327). A write to SBK_POLICY sets sr_rne and anchored_only unless a context is not IDLE or a valid entry would be refused. -/
  | sbkPolicyWrite (v : Nat)
  /-- RECORD_START (R336). RECORD_CTRL op 0 writes START and begins recording. -/
  | recordStart (d : Nat)
  /-- RECORD_STOP (R336). RECORD_CTRL op 1 writes STOP and ends recording. -/
  | recordStop (d : Nat)
  /-- RECORD_MARK (R336). RECORD_CTRL op 2 writes a MARK record with the tag. -/
  | recordMark (d : Nat)
  /-- REPLAY_START (R337). RECORD_CTRL op 3 checks the START tag, sets device time and begins the replay. -/
  | replayStart (d : Nat) (ring : Bytes)
  /-- REPLAY_STOP (R339). RECORD_CTRL op 4 ends the replay. -/
  | replayStop (d : Nat)
  /-- SBK_RECORD_WRITE (R330). After its 4 µs hold, a record is written to the ring, preceded by PAD or GAP as needed. -/
  | sbkRecordWrite
  /-- REPLAY_PRESENT (R337). When device time reaches a record's stamp, the record is presented as an input or ends the replay. -/
  | replayPresent
  /-- SBK_COUNTER_CLEAR (R73). SBK_CTR_CLEAR zeroes the Seedbank counters. -/
  | sbkCounterClear
  /-- PMC_INTERVAL (R347). At each 10 µs boundary the PMC computes model power, target, bubble count and the power and thermal levels. -/
  | pmcInterval (act : PmcSample)
  /-- CORE_LEVEL_CHANGE (R349). A requested CORE level change takes effect through the divider within 1 µs. -/
  | coreLevelChange
  /-- DROOP_TRIP (R351). A droop detector trips, and every CORE period of its die doubles within 2 ns. -/
  | droopTrip (d : Droop)
  /-- DROOP_STRETCH_END (R351). After min_stretch cycles without a trip, the die's CORE periods return to normal. -/
  | droopStretchEnd (cd : Fin 4)
  /-- THERMAL_TRIP (R356). A sensor at 115 °C or more stops clocks, puts the HBM in self-refresh, turns off transmitters and drives THERM_TRIP_N. -/
  | thermalTrip (die : Nat) (temp : Nat)
  /-- PWR_LIMIT_WRITE (R345). A write to PWR_LIMIT sets cap, exc and window, clamped, from the next interval. -/
  | pwrLimitWrite (v : Nat)
  /-- PWR_PHASE_WRITE (R353). A write to PWR_PHASE sets the ramp order when it is a permutation. -/
  | pwrPhaseWrite (v : Nat)
  /-- PWR_CAL_WRITE (R343). A write to the gain or calibration registers takes effect at the next interval. -/
  | pwrCalWrite (off : Nat) (v : Nat)
  /-- PWR_COUNTER_CLEAR (R73). PWR_CTR_CTRL.clear zeroes the power counters and tj_peak. -/
  | pwrCounterClear
  /-- SQ_TAIL_DOORBELL (R363). An SQ tail doorbell makes descriptors visible and stamps them, or puts the ring in error. -/
  | sqTailDoorbell (i : Ring) (v : Nat)
  /-- CQ_HEAD_DOORBELL (R363). A CQ head doorbell frees completion entries, or puts the ring in error. -/
  | cqHeadDoorbell (i : Ring) (v : Nat)
  /-- DESCRIPTOR_FETCH (R367). The device fetches one descriptor from an SQ in round robin and takes it into intake. -/
  | descriptorFetch (i : Ring) (data : HostData)
  /-- COMPLETION_WRITE (R365). A completion record is written to its CQ when there is room, with the phase bit. -/
  | completionWrite (j : Ring) (how : HostEnd)
  /-- CQ_IRQ_DELAY_EXPIRE (R379). The moderation delay runs out, and the CQ signals its vector. -/
  | cqIrqDelayExpire (j : Ring)
  /-- SQ_ENABLE (R362). RING_SQ_CFG.en written 1 resets head and tail, or is refused when its CQ is not enabled. -/
  | sqEnable (i : Ring) (v : Nat)
  /-- SQ_DISABLE (R362). RING_SQ_CFG.en written 0 disables the SQ; fetched descriptors still complete. -/
  | sqDisable (i : Ring) (v : Nat)
  /-- CQ_ENABLE (R362). RING_CQ_CFG.en written 1 resets head, tail and phase. -/
  | cqEnable (i : Ring) (v : Nat)
  /-- CQ_DISABLE (R381). RING_CQ_CFG.en written 0 discards waiting records and puts bound SQs in error. -/
  | cqDisable (i : Ring) (v : Nat)
  /-- RING_COUNTER_CLEAR (R73). RING_CTR_CTRL.clear zeroes the ring counters. -/
  | ringCounterClear
  /-- LOAD_PROGRAM (R372). LOAD_PROGRAM checks an image and writes it to the program region. -/
  | loadProgram (d : Nat) (data : HostData)
  /-- START_PROGRAM (R146). START_PROGRAM passes the intake checks and takes the context into LOADING, or is refused. -/
  | startProgram (d : Nat)
  /-- GROUP_UPDATE (R271). GROUP_UPDATE checks group entries and applies them together at one apply stamp. -/
  | groupUpdate (d : Nat) (data : HostData)
  /-- TABLE_WRITE (R79). TABLE_WRITE applies its records to every table copy at one apply stamp, or is refused whole. -/
  | tableWrite (d : Nat) (data : HostData)
  /-- STORE_COPY (R95). STORE_COPY copies bytes between host memory and the store or within the store. -/
  | storeCopy (d : Nat) (data : HostData)
  /-- FENCE_RING (R368). FENCE mode 0 completes after every earlier descriptor of its SQ. -/
  | fenceRing (d : Nat)
  /-- FENCE_CONTEXT (R375). FENCE mode 1 ends a context through the drain. -/
  | fenceContext (d : Nat)
  /-- STEP_FENCE (R420). FENCE mode 2 sets or leaves step-fence mode and advances fence_step. -/
  | stepFence (d : Nat)
  /-- QUERY_DEVICE (R376). QUERY kind 0 writes the capability, identity and time words. -/
  | queryDevice (d : Nat) (how : HostEnd)
  /-- QUERY_GROUP (R376). QUERY kind 1 writes a group table entry. -/
  | queryGroup (d : Nat) (how : HostEnd)
  /-- QUERY_TABLE_ENTRY (R376). QUERY kind 2 writes the matching table record, or completes ST_KEY_ABSENT. -/
  | queryTableEntry (d : Nat) (how : HostEnd)
  /-- QUERY_CONTEXT (R376). QUERY kind 3 writes a context's state, fault, stamp and step value. -/
  | queryContext (d : Nat) (how : HostEnd)
  /-- BAR4_READ (R361). A CXL.mem read through BAR4 returns store data, or all ones with an error response. -/
  | bar4Read (addr : Nat) (len : Nat)
  /-- BAR4_WRITE (R361). A CXL.mem write through BAR4 writes the store, or receives an error response. -/
  | bar4Write (addr : Nat) (bytes : Bytes)
  /-- CXL_LINK_UP (R443). The CXL link completes training, and configuration and SPDM requests are answered. -/
  | cxlLinkUp
  /-- BUNDLE_CHUNK (R388). BUNDLE_LOAD op 0 takes an in-order bundle chunk, hashes and places it, and runs first-chunk checks 1–5. -/
  | bundleChunk (d : Nat) (data : HostData)
  /-- BUNDLE_FINISH (R390). BUNDLE_LOAD op 1 verifies the signatures and releases the bundle, or zeroes everything written and returns to AWAIT. -/
  | bundleFinish (d : Nat)
  /-- COMMIT_SVN (R392). BUNDLE_LOAD op 2 blows svn fuses up to the running bundle's svn. -/
  | commitSvn (d : Nat)
  /-- BUNDLE_ABORT (R390). BUNDLE_LOAD op 3 zeroes what was written and returns to AWAIT. -/
  | bundleAbort (d : Nat)
  /-- GET_VERSION (R394). SPDM GET_VERSION is answered with version 1.3. -/
  | getVersion
  /-- GET_CAPABILITIES (R394). SPDM GET_CAPABILITIES is answered. -/
  | getCapabilities
  /-- NEGOTIATE_ALGORITHMS (R394). SPDM NEGOTIATE_ALGORITHMS selects SHA3-512 and ML-DSA-87. -/
  | negotiateAlgorithms (hashes : List Nat) (offer : AlgOffer)
  /-- GET_DIGESTS (R394). SPDM GET_DIGESTS returns the digest of certificate slot 0. -/
  | getDigests
  /-- GET_CERTIFICATE (R393). SPDM GET_CERTIFICATE returns the slot 0 chain. -/
  | getCertificate (slot : Nat) (off : Nat) (len : Nat)
  /-- CHALLENGE (R394). SPDM CHALLENGE is answered with a signature by the identity key, or ERROR after a level 2 grant. -/
  | challenge (slot : Nat) (nonce : Bytes)
  /-- GET_MEASUREMENTS (R395). SPDM GET_MEASUREMENTS reports the five measurement blocks, signed on request. -/
  | getMeasurements (index : Nat) (signed : Bool) (nonce : Bytes)
  /-- KEY_EXCHANGE (R394). SPDM KEY_EXCHANGE begins a secured session with secp384r1. -/
  | keyExchange (pub : Bytes)
  /-- SPDM_FINISH (R394). SPDM FINISH completes the secured session. -/
  | spdmFinish (mac : Bytes)
  /-- HEARTBEAT (R394). SPDM HEARTBEAT keeps a session alive. -/
  | heartbeat
  /-- KEY_UPDATE (R394). SPDM KEY_UPDATE updates session keys. -/
  | keyUpdate
  /-- END_SESSION (R394). SPDM END_SESSION ends a session. -/
  | endSession
  /-- CHUNK_GET (R394). SPDM CHUNK_GET returns the next part of a large response. -/
  | chunkGet (seq : Nat)
  /-- VENDOR_DEFINED_REQUEST (R394). An SPDM vendor-defined request programs CXL IDE keys within a secured session. -/
  | vendorDefinedRequest (body : Bytes)
  /-- NC_REQUEST (R397). SEC_NC_CTRL.request draws a fresh nonce for the requested debug level. -/
  | ncRequest (level : Fin 4)
  /-- NC_SUBMIT (R397). SEC_NC_CTRL.submit verifies the response window and grants the level or counts a failure. -/
  | ncSubmit
  /-- NC_RELOCK (R399). SEC_NC_CTRL.relock returns the device to debug level 0. -/
  | ncRelock
  /-- NONCE_EXPIRE (R398). A nonce becomes void 60 s after it was drawn. -/
  | nonceExpire
  /-- MIR_JOIN (R403). MIR_CTRL.join starts sending JOIN records to pair with the twin. -/
  | mirJoin
  /-- MIR_LEAVE (R402). MIR_CTRL.leave takes the device to SOLO. -/
  | mirLeave
  /-- JOIN_TIMER (R403). JOIN records are resent every 100 µs on each UP mirror port. -/
  | joinTimer
  /-- JOIN_TIMEOUT (R403). No answer arrives within 10 ms, and the join is refused with code 5. -/
  | joinTimeout
  /-- JOIN_RX (R403). A JOIN record is accepted, starting SYNC, or refused with a join error code. -/
  | joinRx (m : Mlink)
  /-- MIRROR_FRAME_RX (R406). A mirror frame arrives; its confirm frees sender records, and actions waiting for confirmation proceed. -/
  | mirrorFrameRx (m : Mlink) (f : WireFrame) (good : Bool)
  /-- HB_RX (R412). An HB record renews the twin's liveness, or reports SURVIVOR and makes the device drop ownership. -/
  | hbRx
  /-- GROUP_RECORD_RX (R408). A GROUP record applies the twin's group entry with own inverted. -/
  | groupRecordRx
  /-- MEMBER_RECORD_RX (R408). A MEMBER record applies an eviction's member flags. -/
  | memberRecordRx
  /-- CVEC_RECORD_RX (R408). A CVEC record mirrors an acknowledged contribution or released result. -/
  | cvecRecordRx
  /-- HOME_RECORD_RX (R408). A HOME record mirrors a source's token home mark. -/
  | homeRecordRx
  /-- TABLE_RECORD_RX (R405). A TABLE record part is held, and the apply is applied at one stamp when last is set. -/
  | tableRecordRx
  /-- REG_RECORD_RX (R408). A REG record applies a mirrored policer or shaper register write. -/
  | regRecordRx
  /-- SBK_RECORD_RX (R335). An SBK record mirrors the Seedbank pointers and sequence. -/
  | sbkRecordRx
  /-- SYNC_END_RX (R403). SYNC_END completes the copy, and the pair enters PAIRED. -/
  | syncEndRx
  /-- SBK_MIRROR_TIMER (R408). Every 10 µs while recording, an SBK record is sent to the twin. -/
  | sbkMirrorTimer
  /-- MIRROR_LINK_DOWN (R406). A mirror link goes down; unconfirmed records are resent on the other link, or DETACHED is entered. -/
  | mirrorLinkDown (m : Mlink)
  /-- TWIN_HB_TIMEOUT (R412). No HB arrives for hb_timeout, and the twin is declared lost or the device becomes DETACHED. -/
  | twinHbTimeout
  /-- ALIVE_IN_SILENT (R412). MIRROR_ALIVE_IN has no edge for 2 µs; it is silent and sets alive_ev while heartbeats still arrive. -/
  | aliveInSilent
  /-- OOB_HB_TIMER (R426). Every 100 µs an out-of-band HB is sent to the twin. -/
  | oobHbTimer
  /-- OOB_HB_RX (R412). An out-of-band heartbeat from the twin renews its liveness. -/
  | oobHbRx (bytes : Bytes)
  /-- OOB_HB_TIMEOUT (R412). No out-of-band heartbeat arrives for oob_timeout. -/
  | oobHbTimeout
  /-- OOB_LINK_LOSS (R426). The active out-of-band port loses its link, and the other port takes over within 1 ms. -/
  | oobLinkLoss (k : Mlink)
  /-- LEASE_EXPIRE (R416). A member's lease ends without renewal, and the detector evicts it. -/
  | leaseExpire (gid : Nat) (member : Nat)
  /-- REHEARSE_LINK_DROP (R424). REHEARSE kind 0 schedules a logical port drop for a duration. -/
  | rehearseLinkDrop (d : Nat)
  /-- REHEARSE_MEMBER_STALL (R424). REHEARSE kind 1 schedules holding a member's frames for a duration. -/
  | rehearseMemberStall (d : Nat)
  /-- REHEARSE_CHUNK_CORRUPT (R424). REHEARSE kind 2 schedules a result release with an inverted chunk CRC. -/
  | rehearseChunkCorrupt (d : Nat)
  /-- REHEARSE_TWIN_LOSS (R424). REHEARSE kind 3 schedules self-fencing so that the twin takes over. -/
  | rehearseTwinLoss (d : Nat)
  /-- REHEARSE_INJECT (R424). At time at the rehearsed fault is injected. -/
  | rehearseInject
  /-- TABLE_WORD_REPAIR (R433). A lookup meets an uncorrectable table word, which is refetched from the master copy within 2 µs, or is device-fatal. -/
  | tableWordRepair (masterBad : Bool)
  /-- BLOCK_ERROR (R434). A block error takes down a fabric port or channel until its reset. -/
  | blockError (b : Block)
  /-- MCP_WATCHDOG (R434). An MCP core watchdog expires, and the core is restarted within 10 ms, or a third restart is fatal. -/
  | mcpWatchdog (core : Fin 4)
  /-- DEVICE_FATAL (R435). A device-fatal error drives FAULT_N, self-fences, darkens transmitters, stops channels and logs. -/
  | deviceFatal (unit : Nat) (cause : Nat) (index : Nat)
  /-- WARM_RESET (R440). RESET_N, a CXL hot or bus reset, or the keyed HUB_RESET_CTRL write reinitializes the device while the store keeps its contents. -/
  | warmReset (src : WarmSrc)
  /-- PORT_RESET (R441). HUB_RESET_CTRL.port_rst reinitializes one fabric port within 10 µs. -/
  | portReset (p : Port)
  /-- CHANNEL_RESET (R441). HUB_RESET_CTRL.ch_rst reinitializes one channel within 50 µs, or is refused. -/
  | channelReset (ch : Ch)
  /-- BRINGUP_PHASE_COMPLETE (R443). A bring-up phase completes and the next begins, up to AWAIT. -/
  | bringupPhaseComplete (res : PhaseResult)
  /-- LASER_MODULE_REMOVED (R452). LS_PRES_N goes high, and the tile's inputs count as out of range within 10 µs. -/
  | laserModuleRemoved (t : Tile) (busy : Bool)
  /-- LASER_MODULE_INSERTED (R452). A reinserted module is held in reset for 100 ms and then enabled. -/
  | laserModuleInserted (t : Tile)
  /-- SIDEBAND_READ (R458). A sideband read command returns the 8 bytes of an allowed register, or zero. -/
  | sidebandRead (addr : Nat) (cmd : Nat) (off : Nat)
  /-- ALIGNMENT_LOCK_LOSS (R54). An UP logical port loses PCS alignment or FEC lock, or signal on a lane, which starts the 4 µs gap in which frames count as bad FCS. -/
  | alignmentLockLoss (p : Port) (l : Lp)
  /-- ALIGNMENT_LOCK_RETURN (R54). Signal and lock return within 4 µs, and the logical port stays UP without passing through another state. -/
  | alignmentLockReturn (p : Port) (l : Lp)
  /-- SBK_RD_PTR_WRITE (R332). Host software advances SBK_RD_PTR, which frees host-ring space in no-wrap mode so that waiting records, and a waiting STOP, can be written. -/
  | sbkRdPtrWrite (v : Nat)
  /-- MIR_PORT_CFG_WRITE (R72). A write to MIR_PORT_CFG enables or disables mirror port m0 or m1, starting its link-up or taking it down. -/
  | mirPortCfgWrite (v : Nat)
  /-- MIR_OOB_CFG_WRITE (R429). A write to MIR_OOB_CFG enables an out-of-band port at once, or takes a port whose en bit is cleared down. -/
  | mirOobCfgWrite (v : Nat)
  /-- OOB_LINK_UP (R426). An out-of-band 10GBASE-KR port completes clause 72 link training and comes up, and may become the active port. -/
  | oobLinkUp (k : Mlink)
  /-- HBM_HOT_REFRESH (R355). An HBM stack reports 85 °C or more, and its controller doubles the refresh rate. -/
  | hbmHotRefresh (stack : Fin 24) (temp : Nat)
  /-- SELF_FENCE (R412). The device's own engine has sent no HB for hb_timeout/2; it drops ownership and enters SOLO. -/
  | selfFence
  /-- REHEARSE_END (R425). The rehearsed fault ends after its duration, or at the retraction, and REHEARSE completes. -/
  | rehearseEnd
  /-- HB_TX_TIMER (R406). Each hb_interval an HB record is sent on each UP mirror port. -/
  | hbTxTimer
  /-- MIR_COUNTER_CLEAR (R73). MIR_CTR_CTRL.clear zeroes the MIR_ counters. -/
  | mirCounterClear
  /-- AON_POWER_UP (R438). The AON rail comes up, and every state is reinitialized. -/
  | aonPowerUp
  /-- COLD_RESET (R439). PWRGOOD rises with AON up, and all but the AON state is reinitialized and the store zero-filled. -/
  | coldReset
  /-- FLR (R441). A CXL function level reset discards fetched descriptors and ends every context. -/
  | flr
  /-- RAS_COUNTER_CLEAR (R73). HUB_RAS_CTR_CLEAR zeroes the RAS counters and ls_i2c_errors. -/
  | rasCounterClear
  /-- PWRGOOD_FALL (R454). PWRGOOD falls, and the device stops every clock except AON and THERM and drives LS_RST_N low. -/
  | pwrgoodFall
  /-- JTAG_IDCODE (R459). The JTAG IDCODE instruction returns the version, part number and manufacturer. -/
  | jtagIdcode
  /-- RESET_END (R438). RESET_N and PWRGOOD are both high, which ends a warm or cold reset and starts bring-up, with the HBM leaving the self-refresh it held during the reset. -/
  | resetEnd
  deriving DecidableEq, Repr

end Sys2Proof
end

