-- ==== Sys2Proof/Machine/Tab.lean ====
section
/-! DEFINITION. Sparse tables: a list of (key, value) pairs with rising keys. A key not listed holds the table's default,
which the reader names, so a table of 192 ports or of 2^39 bytes of store is plain data. -/

namespace Sys2Proof.Machine

/-- A sparse table keyed by a number. -/
abbrev Tab (α : Type) := List (Nat × α)

/-- The entry listed for `k`. -/
def Tab.find? {α : Type} : Tab α → Nat → Option α
  | [], _ => none
  | (k', v) :: r, k => if k = k' then some v else Tab.find? r k

/-- `m` without an entry for `k`. -/
def Tab.erase {α : Type} (m : Tab α) (k : Nat) : Tab α := m.filter (fun e => e.1 != k)

/-- `(k, v)` put before the first entry of a larger key. -/
def Tab.place {α : Type} : Tab α → Nat → α → Tab α
  | [], k, v => [(k, v)]
  | (k', v') :: r, k, v => if k < k' then (k, v) :: (k', v') :: r else (k', v') :: Tab.place r k v

/-- `m` with `v` listed for `k`. -/
def Tab.insert {α : Type} (m : Tab α) (k : Nat) (v : α) : Tab α := Tab.place (Tab.erase m k) k v

/-- The value of `k`, where an unlisted key holds `d`. -/
def Tab.get {α : Type} (m : Tab α) (d : α) (k : Nat) : α := (Tab.find? m k).getD d

/-- `m` with `k` holding `v`, where an unlisted key holds `d`: `d` itself is never listed. -/
def Tab.put {α : Type} [DecidableEq α] (m : Tab α) (d : α) (k : Nat) (v : α) : Tab α :=
  if v = d then Tab.erase m k else Tab.insert m k v

/-- Keys strictly rise. -/
def Tab.rising {α : Type} : Tab α → Bool
  | [] => true
  | (k, _) :: r => r.all (fun e => decide (k < e.1)) && Tab.rising r

/-- The canonical form: keys strictly rise and no entry holds the default. -/
def Tab.wf {α : Type} [DecidableEq α] (m : Tab α) (d : α) : Bool :=
  Tab.rising m && m.all (fun e => decide (e.2 ≠ d))

/-- Every listed value changed by `f`. -/
def Tab.mapVals {α : Type} (m : Tab α) (f : Nat → α → α) : Tab α := m.map (fun e => (e.1, f e.1 e.2))

/-- The value of `k` changed by `f`. -/
def Tab.modify {α : Type} [DecidableEq α] (m : Tab α) (d : α) (k : Nat) (f : α → α) : Tab α := m.put d k (f (m.get d k))

/-- `x` put into a sorted list, before the first element that must not come before it. -/
def insertBy {α : Type} (le : α → α → Bool) (x : α) : List α → List α
  | [] => [x]
  | y :: r => if le x y then x :: y :: r else y :: insertBy le x r

/-- A list sorted by `le`; elements that are equal under it keep their order. -/
def sortBy {α : Type} (le : α → α → Bool) : List α → List α
  | [] => []
  | x :: r => insertBy le x (sortBy le r)

end Sys2Proof.Machine
end

