-- ==== Sys2Proof/Machine/Bytes.lean ====
section
/-! DEFINITION. Bytes and bits: the two byte orders (R6), fields of bytes, checksums, memories of bytes. -/

namespace Sys2Proof.Machine

/-- A byte as a number. -/
def byteAt (b : Bytes) (i : Nat) : Nat := (b.getD i 0).toNat

/-- `n` bytes from `i` on. -/
def slice (b : Bytes) (i n : Nat) : Bytes := (b.drop i).take n

/-- Most significant byte first (R6, frames). -/
def beNat (b : Bytes) : Nat := b.foldl (fun a x => a * 256 + x.toNat) 0

/-- Least significant byte first (R6, registers and structures). -/
def leNat : Bytes → Nat
  | [] => 0
  | x :: r => x.toNat + 256 * leNat r

/-- `n` bytes of `v`, least significant first. -/
def leBytes : Nat → Nat → Bytes
  | 0, _ => []
  | n + 1, v => BitVec.ofNat 8 v :: leBytes n (v / 256)

/-- `n` bytes of `v`, most significant first. -/
def beBytes (n v : Nat) : Bytes := (leBytes n v).reverse

/-- The big-endian field of `n` bytes at `i`. -/
def beAt (b : Bytes) (i n : Nat) : Nat := beNat (slice b i n)

/-- The little-endian field of `n` bytes at `i`. -/
def leAt (b : Bytes) (i n : Nat) : Nat := leNat (slice b i n)

/-- Bits [lo + w − 1 : lo] of `v` (R5). -/
def bits (v lo w : Nat) : Nat := v / 2 ^ lo % 2 ^ w

/-- Bit `i` of `v`. -/
def bitOf (v i : Nat) : Bool := v / 2 ^ i % 2 == 1

/-- `v` with bit `i` set. -/
def setBit (v i : Nat) : Nat := if bitOf v i then v else v + 2 ^ i

/-- `v` with bit `i` clear. -/
def clearBit (v i : Nat) : Nat := if bitOf v i then v - 2 ^ i else v

/-- One as a bit. -/
def bit1 (b : Bool) : Nat := if b then 1 else 0

/-- `v` of `w` bits as two's complement. -/
def signed (w v : Nat) : Int := if v % 2 ^ w < 2 ^ (w - 1) then ((v % 2 ^ w : Nat) : Int) else ((v % 2 ^ w : Nat) : Int) - ((2 ^ w : Nat) : Int)

/-- Two's complement of `i` in `w` bits. -/
def unsigned (w : Nat) (i : Int) : Nat := (i % ((2 ^ w : Nat) : Int)).toNat

/-- The quotient rounded up. -/
def ceilDiv (a b : Nat) : Nat := (a + b - 1) / b

/-- `bs` with `new` written over it from `i` on. -/
def overwrite (bs : Bytes) (i : Nat) (new : Bytes) : Bytes := bs.take i ++ new ++ bs.drop (i + new.length)

/-- `b` filled with zero bytes to length `n`. -/
def padTo (n : Nat) (b : Bytes) : Bytes := b ++ List.replicate (n - b.length) 0

/-- One bit of a reflected CRC-32C (polynomial 0x1EDC_6F41 reflected is 0x82F6_3B78, R83, R266). -/
def crcBit (c : Nat) : Nat := (c / 2) ^^^ (c % 2 * 0x82F63B78)

/-- One byte of a reflected CRC-32C. -/
def crcByte (c : Nat) (b : Byte) : Nat :=
  crcBit (crcBit (crcBit (crcBit (crcBit (crcBit (crcBit (crcBit (c ^^^ b.toNat))))))))

/-- The CRC-32C register after `b`, started at `init`, without final XOR (R83). -/
def crcRaw (init : Nat) (b : Bytes) : Nat := b.foldl crcByte init

/-- CRC-32C as R266 gives it. -/
def crc32c (b : Bytes) : Nat := crcRaw 0xFFFFFFFF b ^^^ 0xFFFFFFFF

/-- One bit of the reflected CRC-32 of Ethernet. -/
def fcsBit (c : Nat) : Nat := (c / 2) ^^^ (c % 2 * 0xEDB88320)

/-- One byte of the Ethernet CRC. -/
def fcsByte (c : Nat) (b : Byte) : Nat :=
  fcsBit (fcsBit (fcsBit (fcsBit (fcsBit (fcsBit (fcsBit (fcsBit (c ^^^ b.toNat))))))))

/-- The FCS of a frame, as its four bytes on the wire (IEEE 802.3). -/
def fcsOf (b : Bytes) : Bytes := leBytes 4 (b.foldl fcsByte 0xFFFFFFFF ^^^ 0xFFFFFFFF)

/-- The tail abort code of a frame: its FCS inverted (R88). -/
def abortOf (b : Bytes) : Bytes := (fcsOf b).map (fun x => ~~~x)

/-! ### Memories -/

/-- A memory of bytes: (address, byte) pairs in canonical form; an unlisted address reads as zero (R439). -/
abbrev Mem := List (Nat × Byte)

/-- The canonical form: addresses rise and no listed byte is zero. -/
def Mem.wf (m : Mem) : Bool := Tab.wf m (0 : Byte)

/-- One byte. -/
def Mem.get (m : Mem) (a : Nat) : Byte := Tab.get m 0 a

/-- `n` bytes from `a` on. -/
def Mem.read (m : Mem) (a n : Nat) : Bytes :=
  let seg := m.filter (fun c => decide (a ≤ c.1) && decide (c.1 < a + n))
  (List.range n).map (fun i => Tab.get seg 0 (a + i))

/-- The cells that `bs` at `a` lists: its nonzero bytes. -/
def Mem.cells : Nat → Bytes → Mem
  | _, [] => []
  | a, b :: r => if b = 0 then Mem.cells (a + 1) r else (a, b) :: Mem.cells (a + 1) r

/-- `m` with `bs` written from `a` on. -/
def Mem.write (m : Mem) (a : Nat) (bs : Bytes) : Mem :=
  m.filter (fun c => decide (c.1 < a)) ++ Mem.cells a bs ++ m.filter (fun c => decide (a + bs.length ≤ c.1))

/-- `m` with the range [a, a + n) zero. -/
def Mem.clear (m : Mem) (a n : Nat) : Mem :=
  m.filter (fun c => decide (c.1 < a) || decide (a + n ≤ c.1))

end Sys2Proof.Machine
end

