-- ==== Sys2Proof/Machine/Formats.lean ====
section
/-! DEFINITION. Number formats: values, encodings, rounding, conversion, Sesame (chapter 09). Exact values are dyadic. -/

namespace Sys2Proof.Machine

/-- An exact or special value: (−1)^neg × m × 2^e. -/
inductive FVal where
  | nan (signaling : Bool)
  | inf (neg : Bool)
  | fin (neg : Bool) (m : Nat) (e : Int)
  deriving DecidableEq, Repr

/-- The exception flags of R228 as bits: inv 1, dbz 2, ovf 4, unf 8, inx 16. -/
abbrev Flags := Nat

def fInv : Flags := 1
def fDbz : Flags := 2
def fOvf : Flags := 4
def fUnf : Flags := 8
def fInx : Flags := 16

/-- A float format (R208): exponent and mantissa widths, bias, where the code starts in its container, infinity, NaN:
0 none, 1 as IEEE, 2 only the all-ones code (E4M3). -/
structure Fmt where
  width : Nat
  ew : Nat
  mw : Nat
  bias : Nat
  pad : Nat := 0
  hasInf : Bool := true
  nan : Nat := 1
  deriving DecidableEq, Repr

/-- The float formats by code; the float bank of R218 has its own record. -/
def fmtOf : Nat → Option Fmt
  | 0 => some { width := 64, ew := 11, mw := 52, bias := 1023 }
  | 1 => some { width := 32, ew := 8, mw := 23, bias := 127 }
  | 2 => some { width := 32, ew := 8, mw := 10, bias := 127, pad := 13 }
  | 3 => some { width := 16, ew := 8, mw := 7, bias := 127 }
  | 4 => some { width := 16, ew := 5, mw := 10, bias := 15 }
  | 5 => some { width := 8, ew := 4, mw := 3, bias := 7, hasInf := false, nan := 2 }
  | 6 => some { width := 8, ew := 5, mw := 2, bias := 15 }
  | 7 => some { width := 6, ew := 3, mw := 2, bias := 3, hasInf := false, nan := 0 }
  | 8 => some { width := 6, ew := 2, mw := 3, bias := 1, hasInf := false, nan := 0 }
  | 9 => some { width := 4, ew := 2, mw := 1, bias := 1, hasInf := false, nan := 0 }
  | _ => none

/-- A float accumulator element (R218). -/
def bankFmt : Fmt := { width := 34, ew := 10, mw := 23, bias := 511 }

/-- Width of the integer formats. -/
def intWidth : Nat → Option Nat
  | 0xA => some 32 | 0xB => some 16 | 0xC => some 8 | 0xD => some 4 | _ => none

/-- Bits an element occupies (R209). -/
def elemBits : Nat → Nat
  | 0 => 64 | 1 => 32 | 2 => 32 | 3 => 16 | 4 => 16 | 5 => 8 | 6 => 8 | 7 => 8 | 8 => 8 | 9 => 4
  | 0xA => 32 | 0xB => 16 | 0xC => 8 | 0xD => 4 | _ => 8

/-- Bytes of `n` elements. -/
def elemBytes (f n : Nat) : Nat := n * elemBits f / 8

/-- Element `i` of an array (R209). -/
def element (f : Nat) (b : Bytes) (i : Nat) : Nat :=
  if elemBits f = 4 then byteAt b (i / 2) / (if i % 2 = 0 then 1 else 16) % 16
  else leAt b (i * (elemBits f / 8)) (elemBits f / 8)

/-- A code without the bits that are ignored on input: bits 12:0 of TF32 and bits 7:6 of the 6-bit formats (R209). -/
def significant (f code : Nat) : Nat := if f = 2 then code / 2 ^ 13 * 2 ^ 13 else if f = 7 ∨ f = 8 then code % 64 else code

/-- All `n` elements of an array. -/
def elements (f n : Nat) (b : Bytes) : List Nat := (List.range n).map (element f b)

/-- 4-bit codes packed two to a byte. -/
def packNibbles : List Nat → Bytes
  | a :: b :: r => BitVec.ofNat 8 (a % 16 + b % 16 * 16) :: packNibbles r
  | [a] => [BitVec.ofNat 8 (a % 16)]
  | [] => []

/-- An array of codes as bytes (R209). -/
def pack (f : Nat) (vs : List Nat) : Bytes :=
  if elemBits f = 4 then packNibbles vs else vs.flatMap (leBytes (elemBits f / 8))

/-! ### Decoding (R208, R210, R212) -/

/-- A code of a float format as a value. -/
def Fmt.decode (f : Fmt) (code : Nat) : FVal :=
  let c := code / 2 ^ f.pad
  let man := c % 2 ^ f.mw
  let ex := c / 2 ^ f.mw % 2 ^ f.ew
  let neg := bitOf c (f.mw + f.ew)
  let top := ex + 1 = 2 ^ f.ew
  if top && f.nan == 1 then
    (if man = 0 then .inf neg else .nan (decide (8 ≤ f.ew ∨ f.width = 16) && !bitOf man (f.mw - 1)))
  else if top && f.nan == 2 && man + 1 == 2 ^ f.mw then .nan false
  else if ex = 0 then .fin neg man (1 - (f.bias : Int) - f.mw)
  else .fin neg (2 ^ f.mw + man) ((ex : Int) - f.bias - f.mw)

/-- A code of any format as a value. -/
def decodeVal (f code : Nat) : FVal :=
  match fmtOf f with
  | some k => k.decode code
  | none =>
    match intWidth f with
    | some w => let v := signed w code; .fin (decide (v < 0)) v.natAbs 0
    | none => if code % 256 = 255 then .nan false else .fin false 1 ((code % 256 : Nat) - 127)

/-! ### Exact values -/

/-- The value is a NaN. -/
def FVal.isNan : FVal → Bool
  | .nan _ => true
  | _ => false

def FVal.isZero : FVal → Bool
  | .fin _ 0 _ => true
  | _ => false

def FVal.signaling : FVal → Bool
  | .nan s => s
  | _ => false

/-- floor(log2) of a nonzero magnitude. -/
def magLog (m : Nat) (e : Int) : Int := (Nat.log2 m : Int) + e

/-- Signed mantissa on the grid 2^q, for q at most the exponent of the value. -/
def onGrid (neg : Bool) (m : Nat) (e q : Int) : Int :=
  let v : Int := ((m * 2 ^ (e - q).toNat : Nat) : Int)
  if neg then -v else v

/-- `a < b` for values that are no NaN. -/
def FVal.lt : FVal → FVal → Bool
  | .nan _, _ => false
  | _, .nan _ => false
  | .inf a, .inf b => a && !b
  | .inf a, .fin _ _ _ => a
  | .fin _ _ _, .inf b => !b
  | .fin n m e, .fin n' m' e' => let q := min e e'; decide (onGrid n m e q < onGrid n' m' e' q)

/-- Values equal as numbers. -/
def FVal.eqv (a b : FVal) : Bool := !a.isNan && !b.isNan && !a.lt b && !b.lt a

def FVal.neg : FVal → FVal
  | .nan s => .nan s
  | .inf n => .inf (!n)
  | .fin n m e => .fin (!n) m e

/-- The exact product (R213): flag inv for 0 × ∞ or a signaling operand. -/
def FVal.mul (a b : FVal) : FVal × Flags :=
  match a, b with
  | .nan s, y => (.nan false, if s || y.signaling then fInv else 0)
  | _, .nan s => (.nan false, if s then fInv else 0)
  | .inf n, .inf n' => (.inf (n != n'), 0)
  | .inf n, .fin n' m _ => if m = 0 then (.nan false, fInv) else (.inf (n != n'), 0)
  | .fin n m _, .inf n' => if m = 0 then (.nan false, fInv) else (.inf (n != n'), 0)
  | .fin n m e, .fin n' m' e' => (.fin (n != n') (m * m') (e + e'), 0)

/-- The exact sum under rounding mode `rnd` (R213): an exact zero of unlike terms is +0, under RDN −0. -/
def FVal.add (rnd : Nat) (a b : FVal) : FVal × Flags :=
  match a, b with
  | .nan s, y => (.nan false, if s || y.signaling then fInv else 0)
  | _, .nan s => (.nan false, if s then fInv else 0)
  | .inf n, .inf n' => if n = n' then (.inf n, 0) else (.nan false, fInv)
  | .inf n, .fin _ _ _ => (.inf n, 0)
  | .fin _ _ _, .inf n => (.inf n, 0)
  | .fin n m e, .fin n' m' e' =>
    let q := min e e'
    let v := onGrid n m e q + onGrid n' m' e' q
    if v = 0 then (.fin (if m = 0 ∧ m' = 0 ∧ n = n' then n else decide (rnd = 2)) 0 0, 0)
    else (.fin (decide (v < 0)) v.natAbs q, 0)

/-! ### Rounding (R220, R221) -/

/-- The magnitude m × 2^e on the grid 2^q: the grid count, and whether it was exact. SR draws `u` (R221). -/
def roundMag (neg : Bool) (m : Nat) (e q : Int) (rnd u : Nat) : Nat × Bool :=
  if q ≤ e then (m * 2 ^ (e - q).toNat, true)
  else
    let k := (q - e).toNat
    let hi := m / 2 ^ k
    let lo := m % 2 ^ k
    let up := match rnd with
      | 0 => decide (2 ^ k < 2 * lo) || (decide (2 * lo = 2 ^ k) && hi % 2 == 1)
      | 1 => false
      | 2 => neg && lo != 0
      | 3 => !neg && lo != 0
      | _ => lo != 0 && decide (2 ^ 32 ≤ lo * 2 ^ 32 / 2 ^ k + u)
    (if up then hi + 1 else hi, lo == 0)

/-- The grid exponent on which a float format keeps m × 2^e, with its subnormal grid below. -/
def Fmt.grid (f : Fmt) (m : Nat) (e : Int) : Int := max (magLog m e - f.mw) (1 - (f.bias : Int) - f.mw)

/-- Exponent field of the largest finite value, and its mantissa. -/
def Fmt.topExp (f : Fmt) : Nat := if f.nan = 1 then 2 ^ f.ew - 2 else 2 ^ f.ew - 1
def Fmt.topMan (f : Fmt) : Nat := if f.nan = 2 then 2 ^ f.mw - 2 else 2 ^ f.mw - 1

/-- A code from its parts. -/
def Fmt.code (f : Fmt) (neg : Bool) (ex man : Nat) : Nat := ((bit1 neg * 2 ^ f.ew + ex) * 2 ^ f.mw + man) * 2 ^ f.pad

def Fmt.largest (f : Fmt) (neg : Bool) : Nat := f.code neg f.topExp f.topMan
def Fmt.infinity (f : Fmt) (neg : Bool) : Nat := f.code neg (2 ^ f.ew - 1) 0

/-- The canonical NaN (R210). -/
def Fmt.nanCode (f : Fmt) : Nat :=
  if f.nan = 2 then f.code false (2 ^ f.ew - 1) (2 ^ f.mw - 1) else f.code false (2 ^ f.ew - 1) (2 ^ (f.mw - 1))

/-- n × 2^q as a code, where it is a value of the format's precision; `none` beyond the largest finite value. -/
def Fmt.encode (f : Fmt) (neg : Bool) (n : Nat) (q : Int) : Option Nat :=
  if n = 0 then some (f.code neg 0 0)
  else
    let l := magLog n q
    if l < 1 - (f.bias : Int) then some (f.code neg 0 (n * 2 ^ (q - (1 - (f.bias : Int) - f.mw)).toNat))
    else
      let ex := (l + f.bias).toNat
      let man := (if (Nat.log2 n) ≤ f.mw then n * 2 ^ (f.mw - Nat.log2 n) else n / 2 ^ (Nat.log2 n - f.mw)) - 2 ^ f.mw
      if f.topExp < ex || (ex = f.topExp && f.topMan < man) then none else some (f.code neg ex man)

/-- The overflow result of R220. -/
def Fmt.overflow (f : Fmt) (neg : Bool) (rnd : Nat) : Nat :=
  let infty := rnd = 0 || rnd = 4 || (rnd = 2 && neg) || (rnd = 3 && !neg)
  if infty then (if f.hasInf then f.infinity neg else if f.nan = 2 then f.nanCode else f.largest neg) else f.largest neg

/-- Conversion into UE8M0 (R224). -/
def toUe8m0 (x : FVal) (rnd u : Nat) : Nat × Flags :=
  match x with
  | .nan s => (0xFF, if s then fInv else 0)
  | .inf _ => (0xFF, fInv)
  | .fin neg m e =>
    if m = 0 || neg then (0xFF, fInv)
    else
      let n := magLog m e
      let (r, ex) := roundMag false m e n (if rnd = 2 then 1 else rnd) u
      let r := match rnd with
        | 0 => if 3 * 2 ^ Nat.log2 m ≤ 2 * m then 2 else 1
        | _ => r
      let k := (if r = 1 then n else n + 1) + 127
      if 254 < k then (0xFE, fOvf + fInx)
      else if k < 0 then (0x00, fUnf + fInx)
      else (k.toNat, if ex then 0 else fInx)

/-- The conversion routine (R223) into format `f`: the code and the flags. -/
def convert (x : FVal) (f rnd u : Nat) : Nat × Flags :=
  match fmtOf f with
  | some k =>
    match x with
    | .nan s => if k.nan = 0 then (0, fInv) else (k.nanCode, if s then fInv else 0)
    | .inf n =>
      if k.hasInf then (k.infinity n, 0)
      else if k.nan = 2 then (k.nanCode, fInv) else (k.largest n, fInv)
    | .fin n m e =>
      if m = 0 then (k.code n 0 0, 0)
      else
        let q := k.grid m e
        let (r, ex) := roundMag n m e q rnd u
        match k.encode n r q with
        | none => (k.overflow n rnd, fOvf + fInx)
        | some c => (c, if ex then 0 else fInx + (if magLog m e < 1 - (k.bias : Int) then fUnf else 0))
  | none =>
    match intWidth f with
    | some w =>
      let lim : Nat := 2 ^ (w - 1)
      match x with
      | .nan _ => (0, fInv)
      | .inf n => (if n then lim + 1 else lim - 1, fInv)
      | .fin n m e =>
        let (r, ex) := roundMag n m e 0 rnd u
        if n then (if lim < r then (lim, fInv) else ((2 ^ w - r) % 2 ^ w, if ex then 0 else fInx))
        else if lim ≤ r then (lim - 1, fInv)
        else (r, if ex then 0 else fInx)
    | none => toUe8m0 x rnd u

/-- Sesame (R222). -/
def sesame (seed step tid idx : Nat) : Nat :=
  let w := 2 ^ 32
  let rotl := fun (x n : Nat) => (x * 2 ^ n % w) ||| (x / 2 ^ (32 - n))
  let k0 := seed % w
  let k1 := seed / w % w
  let round := fun (v : Nat × Nat × Nat × Nat) (r : Nat) =>
    let v0 := (v.1 + (k0 ^^^ r)) % w
    let v2 := (v.2.2.1 + (k1 ^^^ (r * 65536))) % w
    let v1 := rotl v.2.1 7 ^^^ v0
    let v3 := rotl v.2.2.2 9 ^^^ v2
    let v0 := (v0 + v3) % w
    let v2 := (v2 + v1) % w
    let v1 := rotl v1 13 ^^^ v2
    let v3 := rotl v3 18 ^^^ v0
    (v0, v1, v2, v3)
  let v := [0, 1, 2, 3].foldl round (step % w, step / w % w, tid % w, idx % w)
  v.1 ^^^ v.2.1 ^^^ v.2.2.1 ^^^ v.2.2.2

/-- Flags united. -/
def orFlags (l : List Flags) : Flags := l.foldl (· ||| ·) 0

/-- How many of a list of flag sets hold flag bit `i` (R229). -/
def countFlag (l : List Flags) (i : Nat) : Nat := (l.filter (fun f => bitOf f i)).length

end Sys2Proof.Machine
end

