-- ==== Sys2Proof/Config.lean ====
section
/-! DEFINITION. What an implementation fixes and what the spec leaves open. Every `opaque` here is a free value: it has no
body, so nothing can be proved of it, and a claim holds whatever it is. -/

namespace Sys2Proof.Config

/-- The n-th free number drawn: nonces, ratcheted secrets, a choice among equals, a value an implementation measures. -/
opaque freeNat : Nat → Nat

/-- The n-th free string of bytes drawn; its use says how long it is. -/
opaque freeBytes : Nat → Nat → List (BitVec 8)

/-- The rate that the servo sets (R31): the spec gives its limits and not its law. Arguments: the frequency correction
held, the offset just measured, the number of values drawn so far. -/
opaque servoFreq : Int → Int → Nat → Int

/-- The phase slew term of the servo (R31), before the slew limit. -/
opaque servoSlew : Int → Int → Nat → Int

/-- How far a die's copy of device time stands from the hub counter, in FT64 units (R32 gives its bound alone): die, TIME cycle. -/
opaque copyError : Nat → Nat → Int

/-- The error of a port stamp against device time, in FT64 units (R45 gives its bound alone): source number, TIME cycle. -/
opaque stampError : Nat → Nat → Int

/-- The error with which an FT_PPS_IN edge is captured, in FT64 units (R39 gives its bound alone): TIME cycle. -/
opaque ppsError : Nat → Int

/-- The frequency correction that FT_REF gives in pin mode (R39), by the number of values drawn so far. -/
opaque refFreq : Nat → Int

/-- The endpoint ID that a device names itself by (R289) where no endpoint entry carries the MAC of one of its ports. -/
opaque ownEndpoint : Nat

/-- Which of the values within one unit in the last place vop's approximation takes (R195, R225): by operation, format and operand. -/
opaque ulpChoice : Nat → Nat → Nat → Nat

/-- The integer that an infinity or NaN adds under a finite anchor that a program supplied (R196, R281): by operand code and anchor. -/
opaque anchorOpen : Nat → Nat → Nat

/-! Algorithms that the spec names and does not define (R383–R398). -/

/-- The ML-DSA-87 public key of a seed (R393). -/
opaque mldsaPub : Bytes → Bytes
/-- An ML-DSA-87 signature by the key of a seed; the last argument is the randomness drawn. -/
opaque mldsaSign : Bytes → Bytes → Nat → Bytes
/-- An ML-DSA-87 signature verifies: public key, message, signature, with an empty context string (R386, R397). -/
opaque mldsaOk : Bytes → Bytes → Bytes → Bool
/-- The two certificates of a chain of DER X.509 certificates (R386); `none` when it is no such chain. -/
opaque certSplit : Bytes → Option (Bytes × Bytes)
/-- A certificate's ML-DSA-87 public key, and its serial number. -/
opaque certKey : Bytes → Bytes
opaque certSerial : Bytes → Nat
/-- A certificate verifies under a public key. -/
opaque certOk : Bytes → Bytes → Bool
/-- secp384r1: the public value and the shared secret of the n-th private value drawn (R394). -/
opaque dhPub : Nat → Bytes
opaque dhShared : Nat → Bytes → Bytes
/-- The check value of a session's handshake keys over a transcript digest (R394): shared secret, the requester's or the responder's, digest. -/
opaque sessionMac : Bytes → Bool → Bytes → Bytes
/-- A message of a session protected by AES-256-GCM (R394): shared secret, generation of the keys, number under them, message. -/
opaque aeadSeal : Bytes → Nat → Nat → Bytes → Bytes
/-- The device certificate that the vendor issued (R393): identity public key, the subject's serialNumber. -/
opaque deviceCert : Bytes → Bytes → Bytes

/-- Ivonayn's assigned manufacturer identity in the JTAG IDCODE (R459). -/
opaque jtagMaker : Nat

end Sys2Proof.Config
end

