-- ==== Sys2Proof/Machine/RegFile.lean ====
section
/-! DEFINITION. The register file: every field that a host can read at a BAR0 offset has its one home here (R7, R8, R10, R360). -/

namespace Sys2Proof.Machine

/-- A field of a register: the register's BAR0 offset, the field's lowest bit, its width and its reset value (R10). -/
structure Fld where
  off : Nat
  lo : Nat
  w : Nat
  rst : Nat
  deriving DecidableEq, Repr

/-- The access codes (R8). -/
inductive Access where
  | rw | ro | wo | w1c | w1s
  deriving DecidableEq, Repr

/-- A field as its register's table row gives it. -/
structure FldDef where
  lo : Nat
  w : Nat
  acc : Access
  rst : Nat
  deriving DecidableEq, Repr

/-- A register or an array of registers: the first offset, the (count, stride) of each index, the width in bits (R7), the fields. -/
structure RegDef where
  base : Nat
  dims : List (Nat × Nat)
  width : Nat
  fields : List FldDef
  deriving DecidableEq, Repr

/-- The register file: a field's key is its offset × 64 + its lowest bit; a field not listed holds its reset value. -/
abbrev Regs := Tab Nat

/-- The key of a field. -/
def Fld.key (f : Fld) : Nat := f.off * 64 + f.lo

/-- The value of a field. -/
def Regs.get (r : Regs) (f : Fld) : Nat := Tab.get r f.rst f.key

/-- `r` with field `f` holding `v`, cut to the field's width. -/
def Regs.set (r : Regs) (f : Fld) (v : Nat) : Regs := Tab.put r f.rst f.key (v % 2 ^ f.w)

/-- A 64-bit counter adds `n` and wraps (R73). -/
def Regs.count (r : Regs) (f : Fld) (n : Nat) : Regs := r.set f (r.get f + n)

/-- A field that saturates adds `n`. -/
def Regs.countSat (r : Regs) (f : Fld) (n : Nat) : Regs := r.set f (min (2 ^ f.w - 1) (r.get f + n))

/-- A field read as two's complement. -/
def Regs.getInt (r : Regs) (f : Fld) : Int :=
  let v := r.get f
  if v < 2 ^ (f.w - 1) then (v : Int) else (v : Int) - (2 ^ f.w : Nat)

/-- `r` with field `f` holding the two's complement of `v`. -/
def Regs.setInt (r : Regs) (f : Fld) (v : Int) : Regs := r.set f (v % ((2 ^ f.w : Nat) : Int)).toNat

/-- Field `f` is one. -/
def Regs.flag (r : Regs) (f : Fld) : Bool := r.get f != 0

/-- Offset `off` is an element of the array that starts at `base`; the outer index has the larger stride. -/
def arrayHit (base : Nat) : List (Nat × Nat) → Nat → Bool
  | [], off => off == base
  | (n, st) :: ds, off =>
    decide (base ≤ off) && decide ((off - base) / st < n) && arrayHit (base + (off - base) / st * st) ds off

/-- The register of `tab` at offset `off`. -/
def regAt (tab : List RegDef) (off : Nat) : Option RegDef :=
  tab.find? (fun d => arrayHit d.base d.dims off)

/-- The field a table row describes at an offset. -/
def FldDef.at (d : FldDef) (off : Nat) : Fld := ⟨off, d.lo, d.w, d.rst⟩

/-- What a write of `val` to a register at `off` leaves in one field (R8): RW takes the value, W1C clears and W1S sets
the bits written 1, RO and WO hold. Bits of a W1C field in `fresh`, which hardware sets in this cycle, stay set (R9). -/
def writeField (fresh : Fld → Nat) (r : Regs) (off val : Nat) (d : FldDef) : Regs :=
  let f := d.at off
  let v := val / 2 ^ d.lo % 2 ^ d.w
  match d.acc with
  | .rw => r.set f v
  | .ro => r
  | .wo => r
  | .w1c => r.set f (r.get f &&& ((2 ^ d.w - 1 - v) ||| fresh f))
  | .w1s => r.set f (r.get f ||| v)

/-- A write of a register's full width at its own offset (R7, R8). -/
def writeFields (fresh : Fld → Nat) (r : Regs) (off val : Nat) (d : RegDef) : Regs :=
  d.fields.foldl (fun r f => writeField fresh r off val f) r

/-- What a read of a register returns: RO, RW, W1C and W1S fields at their values, all else zero (R8). -/
def readFields (r : Regs) (off : Nat) (d : RegDef) : Nat :=
  d.fields.foldl (fun v f => if f.acc = .wo then v else v + r.get (f.at off) % 2 ^ f.w * 2 ^ f.lo) 0

/-- Every register whose offset lies in [lo, hi) takes its reset values (R10, R439). -/
def Regs.resetRange (r : Regs) (lo hi : Nat) : Regs :=
  r.filter (fun e => !(decide (lo ≤ e.1 / 64) && decide (e.1 / 64 < hi)))

end Sys2Proof.Machine
end

