-- ==== Sys2Proof/Machine/RegMap.lean ====
section
/-! DEFINITION. The register map of BAR0 (R360 and the register tables of every chapter): each field of each register as a `Fld`,
and the whole table, by which a host access is decoded (R7, R8). A reset entry HW is 0 here; `hwLoad` of Machine/Reset.lean writes it. -/

namespace Sys2Proof.Machine


/-! ### Registers of spec/02_fabric_time.md -/

def TIME_CTRL_servo_en : Fld := ⟨0x700000, 0, 1, 0x0⟩
def TIME_CTRL_step_allow : Fld := ⟨0x700000, 1, 1, 0x1⟩
def TIME_SRC_CFG_src_sel : Fld := ⟨0x700004, 0, 2, 0x3⟩
def TIME_SRC_CFG_backup_sel : Fld := ⟨0x700004, 2, 2, 0x3⟩
def TIME_SRC_CFG_auto_switch : Fld := ⟨0x700004, 4, 1, 0x0⟩
def TIME_SRC_CFG_beacon_port : Fld := ⟨0x700004, 8, 5, 0x0⟩
def TIME_SRC_CFG_ptp_port : Fld := ⟨0x700004, 16, 5, 0x0⟩
def TIME_SRC_CFG_logical : Fld := ⟨0x700004, 24, 3, 0x0⟩
def TIME_NOW_now : Fld := ⟨0x700008, 0, 64, 0x0⟩
def TIME_STATUS_state : Fld := ⟨0x700010, 0, 2, 0x0⟩
def TIME_STATUS_src_active : Fld := ⟨0x700010, 2, 2, 0x3⟩
def TIME_STATUS_step_ev : Fld := ⟨0x700010, 8, 1, 0x0⟩
def TIME_STATUS_lock_ev : Fld := ⟨0x700010, 9, 1, 0x0⟩
def TIME_STATUS_holdover_ev : Fld := ⟨0x700010, 10, 1, 0x0⟩
def TIME_STATUS_free_ev : Fld := ⟨0x700010, 11, 1, 0x0⟩
def TIME_STATUS_loss_ev : Fld := ⟨0x700010, 12, 1, 0x0⟩
def TIME_INTR_EN_en : Fld := ⟨0x700014, 0, 5, 0x0⟩
def TIME_OFFSET_offset : Fld := ⟨0x700018, 0, 64, 0x0⟩
def TIME_RATE_rate : Fld := ⟨0x700020, 0, 32, 0x0⟩
def TIME_LOCK_CFG_lock_thresh : Fld := ⟨0x700024, 0, 16, 0x14⟩
def TIME_LOCK_CFG_unlock_thresh : Fld := ⟨0x700024, 16, 16, 0x64⟩
def TIME_LIMIT_CFG_holdover_max : Fld := ⟨0x700028, 0, 16, 0x7d0⟩
def TIME_LIMIT_CFG_slew_max : Fld := ⟨0x700028, 16, 8, 0x14⟩
def TIME_LIMIT_CFG_step_limit : Fld := ⟨0x700028, 24, 8, 0x4⟩
def TIME_HOLDOVER_TIME_elapsed : Fld := ⟨0x70002c, 0, 32, 0x0⟩
def TIME_PATH_DELAY_delay : Fld := ⟨0x700030, 0, 32, 0x0⟩
def TIME_ASYM_asym : Fld := ⟨0x700034, 0, 32, 0x0⟩
def TIME_PPS_NEXT_next : Fld := ⟨0x700038, 0, 64, 0x0⟩
def TIME_BEACON_CFG_tx_mask : Fld := ⟨0x700040, 0, 24, 0x0⟩
def TIME_BEACON_CFG_interval : Fld := ⟨0x700040, 32, 16, 0x3e8⟩
def TIME_BEACON_CFG_ldelay_interval : Fld := ⟨0x700040, 48, 16, 0x7d⟩
def TIME_PTP_CFG_domain : Fld := ⟨0x700048, 0, 8, 0x0⟩
def TIME_PTP_CFG_log_sync : Fld := ⟨0x700048, 8, 4, 0xd⟩
def TIME_PTP_GM_gm_identity : Fld := ⟨0x700050, 0, 64, 0x0⟩
def TIME_COUNTS_step_count : Fld := ⟨0x700058, 0, 16, 0x0⟩
def TIME_COUNTS_src_faults : Fld := ⟨0x700058, 16, 16, 0x0⟩
def TIME_ASYM_BACKUP_asym : Fld := ⟨0x700060, 0, 32, 0x0⟩

/-! ### Registers of spec/03_optical_ports_and_links.md -/

def PORT_CFG_enable (n : Nat) : Fld := ⟨0x400000 + 0x20000 * n, 0, 1, 0x0⟩
def PORT_CFG_breakout (n : Nat) : Fld := ⟨0x400000 + 0x20000 * n, 1, 2, 0x0⟩
def PORT_STATUS_link_up (n : Nat) : Fld := ⟨0x400004 + 0x20000 * n, 0, 8, 0x0⟩
def PORT_STATUS_laser_ok (n : Nat) : Fld := ⟨0x400004 + 0x20000 * n, 8, 1, 0x0⟩
def PORT_STATUS_signal_ok (n : Nat) : Fld := ⟨0x400004 + 0x20000 * n, 9, 1, 0x0⟩
def PORT_STATUS_align_lock (n : Nat) : Fld := ⟨0x400004 + 0x20000 * n, 10, 1, 0x0⟩
def PORT_STATUS_llr_active (n : Nat) : Fld := ⟨0x400004 + 0x20000 * n, 16, 8, 0x0⟩
def PORT_FRAME_CFG_max_frame (n : Nat) : Fld := ⟨0x400008 + 0x20000 * n, 0, 17, 0x2400⟩
def PORT_LLR_CFG_en (n : Nat) : Fld := ⟨0x40000c + 0x20000 * n, 0, 8, 0x0⟩
def PORT_LLR_CFG_max_retries (n : Nat) : Fld := ⟨0x40000c + 0x20000 * n, 8, 8, 0x8⟩
def PORT_LLR_CFG_ack_interval (n : Nat) : Fld := ⟨0x40000c + 0x20000 * n, 16, 8, 0x8⟩
def PORT_LLR_CFG_retry_timeout (n : Nat) : Fld := ⟨0x40000c + 0x20000 * n, 24, 8, 0x14⟩
def PORT_FC_CFG_mode (n : Nat) : Fld := ⟨0x400010 + 0x20000 * n, 0, 16, 0x0⟩
def PORT_PFC_CFG_xoff_quanta (n : Nat) : Fld := ⟨0x400014 + 0x20000 * n, 0, 16, 0xffff⟩
def PORT_PFC_CFG_refresh (n : Nat) : Fld := ⟨0x400014 + 0x20000 * n, 16, 16, 0x7d⟩
def PORT_CREDIT_CFG_update_interval (n : Nat) : Fld := ⟨0x400018 + 0x20000 * n, 0, 12, 0x32⟩
def PORT_CREDIT_CFG_keepalive (n : Nat) : Fld := ⟨0x400018 + 0x20000 * n, 12, 12, 0xa⟩
def PORT_CREDIT_CFG_timeout (n : Nat) : Fld := ⟨0x400018 + 0x20000 * n, 24, 8, 0xa⟩
def PORT_CTLMAC_DA_da (n : Nat) : Fld := ⟨0x400020 + 0x20000 * n, 0, 48, 0x180c200000e⟩
def PORT_FEC_DEGRADE_threshold (n : Nat) : Fld := ⟨0x400028 + 0x20000 * n, 0, 32, 0x4000⟩
def PORT_INTR_STATUS_link_ev (n : Nat) : Fld := ⟨0x400030 + 0x20000 * n, 0, 8, 0x0⟩
def PORT_INTR_STATUS_laser_ev (n : Nat) : Fld := ⟨0x400030 + 0x20000 * n, 8, 1, 0x0⟩
def PORT_INTR_STATUS_degrade_ev (n : Nat) : Fld := ⟨0x400030 + 0x20000 * n, 9, 1, 0x0⟩
def PORT_INTR_STATUS_llr_fail_ev (n : Nat) : Fld := ⟨0x400030 + 0x20000 * n, 10, 1, 0x0⟩
def PORT_INTR_STATUS_credit_timeout_ev (n : Nat) : Fld := ⟨0x400030 + 0x20000 * n, 11, 1, 0x0⟩
def PORT_INTR_EN_en (n : Nat) : Fld := ⟨0x400034 + 0x20000 * n, 0, 12, 0x0⟩
def PORT_CTR_CTRL_clear (n : Nat) : Fld := ⟨0x400038 + 0x20000 * n, 0, 1, 0x0⟩

/-! ### Registers of spec/04_forwarding_and_cut_through.md -/

def PORT_LOOKUP_CFG_ech_ethertype (n : Nat) : Fld := ⟨0x400040 + 0x20000 * n, 0, 16, 0x88b5⟩
def PORT_LOOKUP_CFG_cut_through (n : Nat) : Fld := ⟨0x400040 + 0x20000 * n, 16, 1, 0x1⟩
def PORT_HASH_SEED_seed (n : Nat) : Fld := ⟨0x400044 + 0x20000 * n, 0, 32, 0x0⟩
def PORT_STATION_MAC_mac (n : Nat) : Fld := ⟨0x400048 + 0x20000 * n, 0, 48, 0x0⟩

/-! ### Registers of spec/05_central_store_and_pools.md -/

def STORE_CTRL_enable : Fld := ⟨0x1000000, 0, 1, 0x0⟩
def STORE_CTRL_scrub_en : Fld := ⟨0x1000000, 1, 1, 0x1⟩
def STORE_STATUS_ready : Fld := ⟨0x1000004, 0, 1, 0x0⟩
def STORE_STATUS_cfg_err : Fld := ⟨0x1000004, 1, 1, 0x0⟩
def STORE_STATUS_cfg_err_code : Fld := ⟨0x1000004, 8, 8, 0x0⟩
def STORE_REGION_CFG_pkt_size : Fld := ⟨0x1000008, 0, 8, 0x20⟩
def STORE_REGION_CFG_sbk_size : Fld := ⟨0x1000008, 8, 8, 0x20⟩
def STORE_HOME_CFG_home : Fld := ⟨0x100000c, 0, 27, 0x222c688⟩
def STORE_PROG_BASE_base : Fld := ⟨0x1000010, 0, 48, 0x800000000⟩
def STORE_PROG_BASE_size_gib : Fld := ⟨0x1000010, 48, 16, 0x200⟩
def STORE_SBK_BASE_base : Fld := ⟨0x1000018, 0, 48, 0x8800000000⟩
def STORE_SHARED_CFG_shared_xoff : Fld := ⟨0x1000020, 0, 32, 0xffffffff⟩
def STORE_SHARED_CFG_shared_xon : Fld := ⟨0x1000020, 32, 32, 0xffffffff⟩
def STORE_SHARED_STATUS_total : Fld := ⟨0x1000028, 0, 32, 0x0⟩
def STORE_SHARED_STATUS_shared_used : Fld := ⟨0x1000028, 32, 32, 0x0⟩
def STORE_SCRUB_CFG_period : Fld := ⟨0x1000030, 0, 8, 0x18⟩
def STORE_INTR_STATUS_ce_ev : Fld := ⟨0x1000034, 0, 1, 0x0⟩
def STORE_INTR_STATUS_ue_ev : Fld := ⟨0x1000034, 1, 1, 0x0⟩
def STORE_INTR_STATUS_overrun_ev : Fld := ⟨0x1000034, 2, 1, 0x0⟩
def STORE_INTR_STATUS_ring_ev : Fld := ⟨0x1000034, 3, 1, 0x0⟩
def STORE_INTR_EN_en : Fld := ⟨0x1000038, 0, 4, 0x0⟩
def STORE_CTR_CTRL_clear : Fld := ⟨0x100003c, 0, 1, 0x0⟩
def STORE_ECC_LOG_addr : Fld := ⟨0x1000040, 0, 48, 0x0⟩
def STORE_ECC_LOG_stack : Fld := ⟨0x1000040, 48, 5, 0x0⟩
def STORE_ECC_LOG_requester : Fld := ⟨0x1000040, 53, 3, 0x0⟩
def STORE_ECC_LOG_valid : Fld := ⟨0x1000040, 63, 1, 0x0⟩
def STORE_ECC_STAMP_stamp : Fld := ⟨0x1000048, 0, 64, 0x0⟩
def POOL_CFG_count (k : Nat) : Fld := ⟨0x1010000 + 0x40 * k, 0, 30, 0x0⟩
def POOL_FLOOR_floor (k : Nat) : Fld := ⟨0x1010004 + 0x40 * k, 0, 30, 0x0⟩
def POOL_CACHE_CFG_refill_low (k : Nat) : Fld := ⟨0x1010008 + 0x40 * k, 0, 10, 0x80⟩
def POOL_CACHE_CFG_spill_high (k : Nat) : Fld := ⟨0x1010008 + 0x40 * k, 16, 10, 0x1c0⟩
def POOL_BASE_base (k : Nat) : Fld := ⟨0x1010010 + 0x40 * k, 0, 48, 0x0⟩
def POOL_RING_BASE_base (k : Nat) : Fld := ⟨0x1010018 + 0x40 * k, 0, 48, 0x0⟩
def POOL_FREE_free (k : Nat) : Fld := ⟨0x1010020 + 0x40 * k, 0, 30, 0x0⟩
def POOL_LOW_WATER_low (k : Nat) : Fld := ⟨0x1010024 + 0x40 * k, 0, 30, 0x0⟩
def POOL_COUNTS_fallback_out (k : Nat) : Fld := ⟨0x1010028 + 0x40 * k, 0, 32, 0x0⟩
def POOL_COUNTS_refusals (k : Nat) : Fld := ⟨0x1010028 + 0x40 * k, 32, 32, 0x0⟩
def POOL_OWN_MIN_min (o : Nat) : Fld := ⟨0x1020000 + 0x20 * o, 0, 32, 0x0⟩
def POOL_OWN_XON_xon (o : Nat) : Fld := ⟨0x1020004 + 0x20 * o, 0, 32, 0x2c000⟩
def POOL_OWN_XOFF_xoff (o : Nat) : Fld := ⟨0x1020008 + 0x20 * o, 0, 32, 0x30000⟩
def POOL_OWN_CEIL_ceil (o : Nat) : Fld := ⟨0x102000c + 0x20 * o, 0, 32, 0x40000⟩
def POOL_OWN_USAGE_usage (o : Nat) : Fld := ⟨0x1020010 + 0x20 * o, 0, 32, 0x0⟩
def POOL_OWN_PEAK_peak (o : Nat) : Fld := ⟨0x1020014 + 0x20 * o, 0, 32, 0x0⟩
def POOL_OWN_CTRL_commit (o : Nat) : Fld := ⟨0x1020018 + 0x20 * o, 0, 1, 0x0⟩
def POOL_OWN_CTRL_cfg_err (o : Nat) : Fld := ⟨0x1020018 + 0x20 * o, 1, 1, 0x0⟩
def POOL_OWN_CTRL_bp (o : Nat) : Fld := ⟨0x1020018 + 0x20 * o, 2, 1, 0x0⟩

/-! ### Registers of spec/06_traffic_classes_and_scheduling.md -/

def PORT_CLASS_CFG_trust (n : Nat) : Fld := ⟨0x400100 + 0x20000 * n, 0, 2, 0x1⟩
def PORT_CLASS_CFG_default_tc (n : Nat) : Fld := ⟨0x400100 + 0x20000 * n, 4, 3, 0x0⟩
def PORT_CLASS_CFG_lossless_mask (n : Nat) : Fld := ⟨0x400100 + 0x20000 * n, 8, 7, 0x0⟩
def PORT_PCP_MAP_map (n : Nat) : Fld := ⟨0x400104 + 0x20000 * n, 0, 24, 0xfac688⟩
def PORT_DSCP_MAP_tc (n : Nat) (j : Nat) (i : Nat) : Fld := ⟨0x400120 + 0x20000 * n + 0x4 * j, 0 + 4 * i, 3, 0x0⟩
def PORT_DRR_QUANTUM_quantum (n : Nat) (c : Nat) : Fld := ⟨0x400140 + 0x20000 * n + 0x4 * c, 0, 20, 0x4000⟩
def PORT_TC7_CFG_rate (n : Nat) : Fld := ⟨0x400160 + 0x20000 * n, 0, 21, 0x3e80⟩
def PORT_TC7_CFG_burst (n : Nat) : Fld := ⟨0x400160 + 0x20000 * n, 32, 24, 0x2710⟩
def PORT_GATE_CTRL_en (n : Nat) : Fld := ⟨0x400180 + 0x20000 * n, 0, 1, 0x0⟩
def PORT_GATE_CTRL_cfg_change (n : Nat) : Fld := ⟨0x400180 + 0x20000 * n, 1, 1, 0x0⟩
def PORT_GATE_CTRL_pending (n : Nat) : Fld := ⟨0x400180 + 0x20000 * n, 2, 1, 0x0⟩
def PORT_GATE_CTRL_cfg_err (n : Nat) : Fld := ⟨0x400180 + 0x20000 * n, 3, 1, 0x0⟩
def PORT_GATE_CTRL_admin_len (n : Nat) : Fld := ⟨0x400180 + 0x20000 * n, 4, 9, 0x1⟩
def PORT_GATE_CTRL_oper_len (n : Nat) : Fld := ⟨0x400180 + 0x20000 * n, 16, 9, 0x0⟩
def PORT_GATE_BASE_base (n : Nat) : Fld := ⟨0x400188 + 0x20000 * n, 0, 64, 0x0⟩
def PORT_GATE_CYCLE_cycle (n : Nat) : Fld := ⟨0x400190 + 0x20000 * n, 0, 32, 0xf4240⟩
def PORT_GATE_OPER_BASE_base (n : Nat) : Fld := ⟨0x400198 + 0x20000 * n, 0, 64, 0x0⟩
def PORT_GATE_OPER_CYCLE_cycle (n : Nat) : Fld := ⟨0x4001a0 + 0x20000 * n, 0, 32, 0x0⟩
def PORT_GATE_CFG_TIME_t (n : Nat) : Fld := ⟨0x4001a8 + 0x20000 * n, 0, 64, 0x0⟩
def PORT_GATE_ADMIN_mask (n : Nat) (i : Nat) : Fld := ⟨0x404000 + 0x20000 * n + 0x4 * i, 0, 8, 0xff⟩
def PORT_GATE_ADMIN_interval (n : Nat) (i : Nat) : Fld := ⟨0x404000 + 0x20000 * n + 0x4 * i, 8, 24, 0x0⟩
def PORT_GATE_OPER_mask (n : Nat) (i : Nat) : Fld := ⟨0x404400 + 0x20000 * n + 0x4 * i, 0, 8, 0xff⟩
def PORT_GATE_OPER_interval (n : Nat) (i : Nat) : Fld := ⟨0x404400 + 0x20000 * n + 0x4 * i, 8, 24, 0x0⟩
def PORT_POL_RATE_cir (n : Nat) (s : Nat) (c : Nat) : Fld := ⟨0x402000 + 0x20000 * n + 0x200 * s + 0x40 * c, 0, 21, 0x0⟩
def PORT_POL_RATE_en (n : Nat) (s : Nat) (c : Nat) : Fld := ⟨0x402000 + 0x20000 * n + 0x200 * s + 0x40 * c, 31, 1, 0x0⟩
def PORT_POL_RATE_pir (n : Nat) (s : Nat) (c : Nat) : Fld := ⟨0x402000 + 0x20000 * n + 0x200 * s + 0x40 * c, 32, 21, 0x0⟩
def PORT_POL_BURST_cbs (n : Nat) (s : Nat) (c : Nat) : Fld := ⟨0x402008 + 0x20000 * n + 0x200 * s + 0x40 * c, 0, 24, 0x0⟩
def PORT_POL_BURST_pbs (n : Nat) (s : Nat) (c : Nat) : Fld := ⟨0x402008 + 0x20000 * n + 0x200 * s + 0x40 * c, 32, 24, 0x0⟩
def PORT_POL_GREEN_count (n : Nat) (s : Nat) (c : Nat) : Fld := ⟨0x402010 + 0x20000 * n + 0x200 * s + 0x40 * c, 0, 64, 0x0⟩
def PORT_POL_YELLOW_count (n : Nat) (s : Nat) (c : Nat) : Fld := ⟨0x402018 + 0x20000 * n + 0x200 * s + 0x40 * c, 0, 64, 0x0⟩
def PORT_POL_RED_count (n : Nat) (s : Nat) (c : Nat) : Fld := ⟨0x402020 + 0x20000 * n + 0x200 * s + 0x40 * c, 0, 64, 0x0⟩
def PORT_SHP_CFG_rate (n : Nat) (s : Nat) (c : Nat) : Fld := ⟨0x403000 + 0x20000 * n + 0x100 * s + 0x20 * c, 0, 21, 0x0⟩
def PORT_SHP_CFG_burst (n : Nat) (s : Nat) (c : Nat) : Fld := ⟨0x403000 + 0x20000 * n + 0x100 * s + 0x20 * c, 32, 24, 0x0⟩
def PORT_SHP_STATE_e_time (n : Nat) (s : Nat) (c : Nat) : Fld := ⟨0x403008 + 0x20000 * n + 0x100 * s + 0x20 * c, 0, 64, 0x0⟩

/-! ### Registers of spec/07_channel_machine_model.md -/

def CH_CORE_CFG_solo (n : Nat) : Fld := ⟨0x800000 + 0x100000 * n, 0, 4, 0x0⟩
def CH_STATUS_busy (n : Nat) : Fld := ⟨0x800004 + 0x100000 * n, 0, 4, 0x0⟩
def CH_STATUS_gated (n : Nat) : Fld := ⟨0x800004 + 0x100000 * n, 4, 4, 0x0⟩
def CH_STATUS_ramp_active (n : Nat) : Fld := ⟨0x800004 + 0x100000 * n, 8, 1, 0x0⟩
def CH_WDOG_CFG_timeout (n : Nat) : Fld := ⟨0x800008 + 0x100000 * n, 0, 24, 0x186a0⟩
def CH_INTR_STATUS_fault_ev (n : Nat) : Fld := ⟨0x80000c + 0x100000 * n, 0, 1, 0x0⟩
def CH_INTR_STATUS_timeout_ev (n : Nat) : Fld := ⟨0x80000c + 0x100000 * n, 1, 1, 0x0⟩
def CH_INTR_STATUS_overset_ev (n : Nat) : Fld := ⟨0x80000c + 0x100000 * n, 2, 1, 0x0⟩
def CH_INTR_STATUS_remap_ev (n : Nat) : Fld := ⟨0x80000c + 0x100000 * n, 3, 1, 0x0⟩
def CH_INTR_EN_en (n : Nat) : Fld := ⟨0x800010 + 0x100000 * n, 0, 4, 0x0⟩
def CH_CTR_CTRL_clear (n : Nat) : Fld := ⟨0x800014 + 0x100000 * n, 0, 1, 0x0⟩
def CH_PIP_pips (n : Nat) (k : Nat) : Fld := ⟨0x800020 + 0x100000 * n + 0x8 * k, 0, 48, 0x0⟩
def CH_PIP_OVERSET_overset (n : Nat) (k : Nat) : Fld := ⟨0x800040 + 0x100000 * n + 0x8 * k, 0, 48, 0x0⟩
def CH_SPARE_STATUS_group (n : Nat) (g : Nat) : Fld := ⟨0x800060 + 0x100000 * n, 0 + 2 * g, 2, 0x0⟩
def CH_CTX_STATE_state (n : Nat) (c : Nat) : Fld := ⟨0x800100 + 0x100000 * n + 0x8 * c, 0, 3, 0x0⟩
def CH_CTX_STATE_pc (n : Nat) (c : Nat) : Fld := ⟨0x800100 + 0x100000 * n + 0x8 * c, 8, 14, 0x0⟩
def CH_CTX_STATE_busy_q (n : Nat) (c : Nat) : Fld := ⟨0x800100 + 0x100000 * n + 0x8 * c, 24, 5, 0x0⟩
def CH_CTX_STATE_wait_kind (n : Nat) (c : Nat) : Fld := ⟨0x800100 + 0x100000 * n + 0x8 * c, 32, 2, 0x0⟩
def CH_CTX_STATE_loop_depth (n : Nat) (c : Nat) : Fld := ⟨0x800100 + 0x100000 * n + 0x8 * c, 34, 2, 0x0⟩
def CH_CTX_FAULT_status (n : Nat) (c : Nat) : Fld := ⟨0x800200 + 0x100000 * n + 0x8 * c, 0, 8, 0x0⟩
def CH_CTX_FAULT_unit (n : Nat) (c : Nat) : Fld := ⟨0x800200 + 0x100000 * n + 0x8 * c, 8, 3, 0x0⟩
def CH_CTX_FAULT_instr (n : Nat) (c : Nat) : Fld := ⟨0x800200 + 0x100000 * n + 0x8 * c, 16, 14, 0x0⟩
def CH_CTX_FAULT_repeat (n : Nat) (c : Nat) : Fld := ⟨0x800200 + 0x100000 * n + 0x8 * c, 32, 16, 0x0⟩
def CH_CTX_FAULT_valid (n : Nat) (c : Nat) : Fld := ⟨0x800200 + 0x100000 * n + 0x8 * c, 63, 1, 0x0⟩
def CH_CTX_FAULT_STAMP_stamp (n : Nat) (c : Nat) : Fld := ⟨0x800300 + 0x100000 * n + 0x8 * c, 0, 64, 0x0⟩

/-! ### Registers of spec/09_number_formats_and_conversion.md -/

def CH_EXC_CTRL_rearm (n : Nat) : Fld := ⟨0x800400 + 0x100000 * n, 0, 1, 0x0⟩
def CH_EXC_INV_SRC_ctx (n : Nat) : Fld := ⟨0x800440 + 0x100000 * n, 0, 5, 0x0⟩
def CH_EXC_INV_SRC_instr (n : Nat) : Fld := ⟨0x800440 + 0x100000 * n, 8, 14, 0x0⟩
def CH_EXC_INV_SRC_repeat (n : Nat) : Fld := ⟨0x800440 + 0x100000 * n, 24, 16, 0x0⟩
def CH_EXC_INV_SRC_unit (n : Nat) : Fld := ⟨0x800440 + 0x100000 * n, 40, 3, 0x0⟩
def CH_EXC_INV_SRC_valid (n : Nat) : Fld := ⟨0x800440 + 0x100000 * n, 63, 1, 0x0⟩
def CH_EXC_INV_COORD_row (n : Nat) : Fld := ⟨0x800448 + 0x100000 * n, 0, 5, 0x0⟩
def CH_EXC_INV_COORD_column (n : Nat) : Fld := ⟨0x800448 + 0x100000 * n, 8, 13, 0x0⟩
def CH_EXC_INV_COORD_k (n : Nat) : Fld := ⟨0x800448 + 0x100000 * n, 32, 21, 0x0⟩
def CH_EXC_INV_STAMP_stamp (n : Nat) : Fld := ⟨0x800450 + 0x100000 * n, 0, 64, 0x0⟩

/-! ### Registers of spec/10_matrix_tiles_and_resident_layers.md -/

def CH_TILE_HOLD_held (n : Nat) : Fld := ⟨0x800068 + 0x100000 * n, 0, 16, 0x0⟩

/-! ### Registers of spec/11_sparsity.md -/

def CH_SPARSE_FAULT_tile (n : Nat) (c : Nat) : Fld := ⟨0x800500 + 0x100000 * n + 0x8 * c, 0, 8, 0x0⟩
def CH_SPARSE_FAULT_kk (n : Nat) (c : Nat) : Fld := ⟨0x800500 + 0x100000 * n + 0x8 * c, 8, 5, 0x0⟩
def CH_SPARSE_FAULT_g (n : Nat) (c : Nat) : Fld := ⟨0x800500 + 0x100000 * n + 0x8 * c, 13, 2, 0x0⟩
def CH_SPARSE_FAULT_tr (n : Nat) (c : Nat) : Fld := ⟨0x800500 + 0x100000 * n + 0x8 * c, 15, 1, 0x0⟩
def CH_SPARSE_FAULT_count (n : Nat) (c : Nat) : Fld := ⟨0x800500 + 0x100000 * n + 0x8 * c, 16, 4, 0x0⟩
def CH_SPARSE_FAULT_c (n : Nat) (c : Nat) : Fld := ⟨0x800500 + 0x100000 * n + 0x8 * c, 20, 4, 0x0⟩
def CH_SPARSE_FAULT_valid (n : Nat) (c : Nat) : Fld := ⟨0x800500 + 0x100000 * n + 0x8 * c, 63, 1, 0x0⟩

/-! ### Registers of spec/12_collectives.md -/

def GRP_CFG_nack_gap : Fld := ⟨0x1600000, 0, 8, 0xa⟩
def GRP_INTR_STATUS_abort_ev : Fld := ⟨0x1600004, 0, 1, 0x0⟩
def GRP_INTR_STATUS_retract_ev : Fld := ⟨0x1600004, 1, 1, 0x0⟩
def GRP_INTR_STATUS_epoch_ev : Fld := ⟨0x1600004, 2, 1, 0x0⟩
def GRP_INTR_STATUS_late_ev : Fld := ⟨0x1600004, 3, 1, 0x0⟩
def GRP_INTR_STATUS_spill_ev : Fld := ⟨0x1600004, 4, 1, 0x0⟩
def GRP_INTR_STATUS_crc_ev : Fld := ⟨0x1600004, 5, 1, 0x0⟩
def GRP_INTR_EN_en : Fld := ⟨0x1600008, 0, 6, 0x0⟩
def GRP_CTR_CTRL_clear : Fld := ⟨0x160000c, 0, 1, 0x0⟩
def GRP_COUNT_valid : Fld := ⟨0x1600010, 0, 13, 0x0⟩
def GRP_ABORT_LOG_group_id : Fld := ⟨0x1600018, 0, 16, 0x0⟩
def GRP_ABORT_LOG_status : Fld := ⟨0x1600018, 16, 8, 0x0⟩
def GRP_ABORT_LOG_member : Fld := ⟨0x1600018, 24, 12, 0x0⟩
def GRP_ABORT_LOG_detector : Fld := ⟨0x1600018, 36, 16, 0x0⟩
def GRP_ABORT_LOG_valid : Fld := ⟨0x1600018, 63, 1, 0x0⟩
def GRP_ABORT_STEP_step : Fld := ⟨0x1600020, 0, 32, 0x0⟩
def GRP_ABORT_STEP_epoch : Fld := ⟨0x1600020, 32, 16, 0x0⟩
def GRP_ABORT_STAMP_stamp : Fld := ⟨0x1600028, 0, 64, 0x0⟩
def GRP_RETRACT_LOG_group_id : Fld := ⟨0x1600030, 0, 16, 0x0⟩
def GRP_RETRACT_LOG_cause : Fld := ⟨0x1600030, 16, 8, 0x0⟩
def GRP_RETRACT_LOG_new_epoch : Fld := ⟨0x1600030, 24, 16, 0x0⟩
def GRP_RETRACT_LOG_valid : Fld := ⟨0x1600030, 63, 1, 0x0⟩
def GRP_RETRACT_STEP_step : Fld := ⟨0x1600038, 0, 32, 0x0⟩
def GRP_RETRACT_STEP_resume : Fld := ⟨0x1600038, 32, 32, 0x0⟩
def GRP_RETRACT_STAMP_stamp : Fld := ⟨0x1600040, 0, 64, 0x0⟩

/-! ### Registers of spec/13_token_dispatch.md -/

def GRP_TOK_INTR_STATUS_map_ev : Fld := ⟨0x1600080, 0, 1, 0x0⟩
def GRP_TOK_INTR_STATUS_timeout_ev : Fld := ⟨0x1600080, 1, 1, 0x0⟩
def GRP_TOK_INTR_STATUS_gap_ev : Fld := ⟨0x1600080, 2, 1, 0x0⟩
def GRP_TOK_INTR_EN_en : Fld := ⟨0x1600084, 0, 3, 0x0⟩
def GRP_TOK_LOG_group_id : Fld := ⟨0x1600088, 0, 16, 0x0⟩
def GRP_TOK_LOG_batch : Fld := ⟨0x1600088, 16, 8, 0x0⟩
def GRP_TOK_LOG_assign : Fld := ⟨0x1600088, 24, 16, 0x0⟩
def GRP_TOK_LOG_status : Fld := ⟨0x1600088, 40, 8, 0x0⟩
def GRP_TOK_LOG_valid : Fld := ⟨0x1600088, 63, 1, 0x0⟩

/-! ### Registers of spec/14_determinism_and_replay.md -/

def HUB_BITID_SEL_ctx : Fld := ⟨0x400, 0, 8, 0x0⟩
def HUB_BITID_arith_rev : Fld := ⟨0x408, 0, 16, 0x0⟩
def HUB_BITID_policy_ver : Fld := ⟨0x408, 16, 16, 0x1⟩
def HUB_BITID_sr_rne : Fld := ⟨0x408, 32, 1, 0x0⟩
def HUB_BITID_anchored_only : Fld := ⟨0x408, 33, 1, 0x0⟩
def HUB_BITID_BUNDLE_digest (i : Nat) : Fld := ⟨0x440 + 0x8 * i, 0, 64, 0x0⟩
def HUB_BITID_PROG_digest (i : Nat) : Fld := ⟨0x480 + 0x8 * i, 0, 64, 0x0⟩
def HUB_BITID_TAG_tag : Fld := ⟨0x4c0, 0, 64, 0x0⟩
def SBK_CFG_target : Fld := ⟨0x1500000, 0, 1, 0x0⟩
def SBK_CFG_wrap : Fld := ⟨0x1500000, 1, 1, 0x0⟩
def SBK_CFG_desc_en : Fld := ⟨0x1500000, 2, 1, 0x1⟩
def SBK_CFG_host_data : Fld := ⟨0x1500000, 3, 1, 0x0⟩
def SBK_CFG_snap : Fld := ⟨0x1500000, 4, 1, 0x0⟩
def SBK_CFG_tc_mask : Fld := ⟨0x1500000, 8, 8, 0xff⟩
def SBK_PORT_MASK_ports : Fld := ⟨0x1500004, 0, 24, 0x0⟩
def SBK_STATUS_state : Fld := ⟨0x1500008, 0, 2, 0x0⟩
def SBK_STATUS_gap_ev : Fld := ⟨0x1500008, 8, 1, 0x0⟩
def SBK_STATUS_full_ev : Fld := ⟨0x1500008, 9, 1, 0x0⟩
def SBK_STATUS_corrupt_ev : Fld := ⟨0x1500008, 10, 1, 0x0⟩
def SBK_STATUS_done_ev : Fld := ⟨0x1500008, 11, 1, 0x0⟩
def SBK_INTR_EN_en : Fld := ⟨0x150000c, 0, 4, 0x0⟩
def SBK_POLICY_sr_rne : Fld := ⟨0x1500010, 0, 1, 0x0⟩
def SBK_POLICY_anchored_only : Fld := ⟨0x1500010, 1, 1, 0x0⟩
def SBK_HOST_BASE_base : Fld := ⟨0x1500018, 0, 64, 0x0⟩
def SBK_HOST_SIZE_size : Fld := ⟨0x1500020, 0, 40, 0x0⟩
def SBK_WR_PTR_wr : Fld := ⟨0x1500028, 0, 40, 0x0⟩
def SBK_RD_PTR_rd : Fld := ⟨0x1500030, 0, 40, 0x0⟩
def SBK_SEQ_seq : Fld := ⟨0x1500038, 0, 32, 0x0⟩
def SBK_REPLAY_CFG_lead : Fld := ⟨0x1500040, 0, 16, 0x64⟩
def SBK_REPLAY_CFG_cq : Fld := ⟨0x1500040, 16, 10, 0x0⟩
def SBK_REPLAY_POS_stamp : Fld := ⟨0x1500048, 0, 64, 0x0⟩
def SBK_SEED_seed (i : Nat) : Fld := ⟨0x1500100 + 0x8 * i, 0, 64, 0x0⟩
def SBK_CTR_CLEAR_clear : Fld := ⟨0x15000f0, 0, 1, 0x0⟩

/-! ### Registers of spec/15_power_and_thermal.md -/

def PWR_CTRL_hint_en : Fld := ⟨0x200000, 0, 1, 0x1⟩
def PWR_LIMIT_cap : Fld := ⟨0x200008, 0, 11, 0x44c⟩
def PWR_LIMIT_exc : Fld := ⟨0x200008, 11, 11, 0x578⟩
def PWR_LIMIT_window : Fld := ⟨0x200008, 32, 15, 0xfa0⟩
def PWR_LIMIT_exc_ms : Fld := ⟨0x200008, 48, 8, 0x14⟩
def PWR_LIMIT_exc_gap : Fld := ⟨0x200008, 56, 8, 0x50⟩
def PWR_STATUS_level : Fld := ⟨0x200010, 0, 3, 0x0⟩
def PWR_STATUS_power_level : Fld := ⟨0x200010, 3, 3, 0x0⟩
def PWR_STATUS_therm_level : Fld := ⟨0x200010, 6, 3, 0x0⟩
def PWR_STATUS_d : Fld := ⟨0x200010, 9, 6, 0x0⟩
def PWR_STATUS_exc_active : Fld := ⟨0x200010, 15, 1, 0x0⟩
def PWR_STATUS_exc_blocked : Fld := ⟨0x200010, 16, 1, 0x0⟩
def PWR_STATUS_droop_active : Fld := ⟨0x200010, 17, 1, 0x0⟩
def PWR_STATUS_freq_pending : Fld := ⟨0x200010, 18, 1, 0x0⟩
def PWR_FREQ_CFG_floor_level : Fld := ⟨0x200014, 0, 3, 0x0⟩
def PWR_INTR_STATUS_exc_limit_ev : Fld := ⟨0x200018, 0, 1, 0x0⟩
def PWR_INTR_STATUS_unmet_ev : Fld := ⟨0x200018, 1, 1, 0x0⟩
def PWR_INTR_STATUS_throttle_ev : Fld := ⟨0x200018, 2, 1, 0x0⟩
def PWR_INTR_STATUS_droop_ev : Fld := ⟨0x200018, 3, 1, 0x0⟩
def PWR_INTR_STATUS_level_ev : Fld := ⟨0x200018, 4, 1, 0x0⟩
def PWR_INTR_STATUS_hbm_hot_ev : Fld := ⟨0x200018, 5, 1, 0x0⟩
def PWR_INTR_EN_en : Fld := ⟨0x20001c, 0, 6, 0x0⟩
def PWR_CTR_CTRL_clear : Fld := ⟨0x200020, 0, 1, 0x0⟩
def PWR_NOW_p_now : Fld := ⟨0x200028, 0, 32, 0x0⟩
def PWR_NOW_p_avg : Fld := ⟨0x200028, 32, 32, 0x0⟩
def PWR_TARGET_target : Fld := ⟨0x200030, 0, 32, 0x0⟩
def PWR_TARGET_p_mv : Fld := ⟨0x200030, 32, 32, 0x0⟩
def PWR_ENERGY_energy : Fld := ⟨0x200038, 0, 64, 0x0⟩
def PWR_TRIP_LOG_die : Fld := ⟨0x200040, 0, 8, 0x0⟩
def PWR_TRIP_LOG_temp : Fld := ⟨0x200040, 8, 8, 0x0⟩
def PWR_TRIP_LOG_valid : Fld := ⟨0x200040, 63, 1, 0x0⟩
def PWR_TJ_tj_max : Fld := ⟨0x200048, 0, 8, 0x0⟩
def PWR_TJ_die : Fld := ⟨0x200048, 8, 8, 0x0⟩
def PWR_TJ_tj_peak : Fld := ⟨0x200048, 16, 8, 0x0⟩
def PWR_TJ_hbm_max : Fld := ⟨0x200048, 24, 8, 0x0⟩
def PWR_THERM_CFG_throttle_t : Fld := ⟨0x20004c, 0, 8, 0x64⟩
def PWR_THERM_CFG_trip_t : Fld := ⟨0x20004c, 8, 8, 0x73⟩
def PWR_DROOP_CFG_thresh : Fld := ⟨0x200050, 0, 8, 0x28⟩
def PWR_DROOP_CFG_min_stretch : Fld := ⟨0x200050, 8, 16, 0x40⟩
def PWR_PHASE_order : Fld := ⟨0x200054, 0, 24, 0xee9ca0⟩
def PWR_HINT_CFG_pre : Fld := ⟨0x200058, 0, 8, 0x14⟩
def PWR_CAL_GAIN_gain : Fld := ⟨0x20005c, 0, 16, 0x1000⟩
def PWR_EV_E_energy (i : Nat) : Fld := ⟨0x200100 + 0x4 * i, 0, 24, 0x0⟩
def PWR_STATIC_s85 : Fld := ⟨0x200140, 0, 16, 0x0⟩
def PWR_PORT_E_port : Fld := ⟨0x200144, 0, 16, 0x0⟩
def PWR_FULL_full (x : Nat) : Fld := ⟨0x200150 + 0x4 * x, 0, 16, 0x0⟩

/-! ### Registers of spec/16_host_interface.md -/

def RING_INTR_STATUS_ring_err_ev : Fld := ⟨0x300000, 0, 1, 0x0⟩
def RING_INTR_STATUS_cq_full_ev : Fld := ⟨0x300000, 1, 1, 0x0⟩
def RING_INTR_STATUS_cfg_err_ev : Fld := ⟨0x300000, 2, 1, 0x0⟩
def RING_INTR_EN_en : Fld := ⟨0x300004, 0, 3, 0x0⟩
def RING_CTR_CTRL_clear : Fld := ⟨0x300008, 0, 1, 0x0⟩
def RING_ERR_LOG_ring : Fld := ⟨0x300010, 0, 10, 0x0⟩
def RING_ERR_LOG_is_cq : Fld := ⟨0x300010, 10, 1, 0x0⟩
def RING_ERR_LOG_cause : Fld := ⟨0x300010, 16, 8, 0x0⟩
def RING_ERR_LOG_value : Fld := ⟨0x300010, 32, 16, 0x0⟩
def RING_ERR_LOG_valid : Fld := ⟨0x300010, 63, 1, 0x0⟩
def RING_SQ_BASE_base (i : Nat) : Fld := ⟨0x310000 + 0x20 * i, 12, 52, 0x0⟩
def RING_SQ_CFG_en (i : Nat) : Fld := ⟨0x310008 + 0x20 * i, 0, 1, 0x0⟩
def RING_SQ_CFG_log_size (i : Nat) : Fld := ⟨0x310008 + 0x20 * i, 1, 4, 0x4⟩
def RING_SQ_CFG_cq (i : Nat) : Fld := ⟨0x310008 + 0x20 * i, 8, 10, 0x0⟩
def RING_SQ_STATE_head (i : Nat) : Fld := ⟨0x310010 + 0x20 * i, 0, 16, 0x0⟩
def RING_SQ_STATE_tail (i : Nat) : Fld := ⟨0x310010 + 0x20 * i, 16, 16, 0x0⟩
def RING_SQ_STATE_stalled (i : Nat) : Fld := ⟨0x310010 + 0x20 * i, 32, 1, 0x0⟩
def RING_SQ_STATE_error (i : Nat) : Fld := ⟨0x310010 + 0x20 * i, 33, 1, 0x0⟩
def RING_SQ_STATE_held (i : Nat) : Fld := ⟨0x310010 + 0x20 * i, 34, 1, 0x0⟩
def RING_CQ_BASE_base (i : Nat) : Fld := ⟨0x320000 + 0x20 * i, 12, 52, 0x0⟩
def RING_CQ_CFG_en (i : Nat) : Fld := ⟨0x320008 + 0x20 * i, 0, 1, 0x0⟩
def RING_CQ_CFG_log_size (i : Nat) : Fld := ⟨0x320008 + 0x20 * i, 1, 4, 0x4⟩
def RING_CQ_CFG_vector (i : Nat) : Fld := ⟨0x320008 + 0x20 * i, 8, 6, 0x0⟩
def RING_CQ_CFG_irq_en (i : Nat) : Fld := ⟨0x320008 + 0x20 * i, 14, 1, 0x0⟩
def RING_CQ_MOD_count (i : Nat) : Fld := ⟨0x32000c + 0x20 * i, 0, 8, 0x1⟩
def RING_CQ_MOD_delay (i : Nat) : Fld := ⟨0x32000c + 0x20 * i, 16, 16, 0x0⟩
def RING_CQ_STATE_tail (i : Nat) : Fld := ⟨0x320010 + 0x20 * i, 0, 16, 0x0⟩
def RING_CQ_STATE_head (i : Nat) : Fld := ⟨0x320010 + 0x20 * i, 16, 16, 0x0⟩
def RING_CQ_STATE_phase (i : Nat) : Fld := ⟨0x320010 + 0x20 * i, 32, 1, 0x1⟩
def RING_CQ_STATE_error (i : Nat) : Fld := ⟨0x320010 + 0x20 * i, 33, 1, 0x0⟩
def RING_CQ_STATE_full (i : Nat) : Fld := ⟨0x320010 + 0x20 * i, 34, 1, 0x0⟩
def HUB_CAPS_grade : Fld := ⟨0x0, 0, 2, 0x0⟩
def HUB_CAPS_stepping : Fld := ⟨0x0, 8, 8, 0x0⟩
def HUB_CAPS_PRESENT_ch (k : Nat) (c : Nat) : Fld := ⟨0x8 + 0x8 * k, 0 + 16 * c, 16, 0x0⟩
def HUB_CAPS_SPARE_ch (k : Nat) (c : Nat) : Fld := ⟨0x18 + 0x8 * k, 0 + 16 * c, 16, 0x0⟩
def HUB_STATUS_ready : Fld := ⟨0x30, 0, 1, 0x0⟩
def HUB_INTR_SUMMARY_time : Fld := ⟨0x40, 0, 1, 0x0⟩
def HUB_INTR_SUMMARY_port : Fld := ⟨0x40, 1, 1, 0x0⟩
def HUB_INTR_SUMMARY_store : Fld := ⟨0x40, 2, 1, 0x0⟩
def HUB_INTR_SUMMARY_ch : Fld := ⟨0x40, 3, 1, 0x0⟩
def HUB_INTR_SUMMARY_grp : Fld := ⟨0x40, 4, 1, 0x0⟩
def HUB_INTR_SUMMARY_pwr : Fld := ⟨0x40, 5, 1, 0x0⟩
def HUB_INTR_SUMMARY_sbk : Fld := ⟨0x40, 6, 1, 0x0⟩
def HUB_INTR_SUMMARY_mir : Fld := ⟨0x40, 7, 1, 0x0⟩
def HUB_INTR_SUMMARY_sec : Fld := ⟨0x40, 8, 1, 0x0⟩
def HUB_INTR_SUMMARY_ring : Fld := ⟨0x40, 9, 1, 0x0⟩
def HUB_INTR_VEC_vector : Fld := ⟨0x44, 0, 6, 0x0⟩
def HUB_PORT_SUMMARY_port : Fld := ⟨0x48, 0, 24, 0x0⟩
def HUB_CH_SUMMARY_ch : Fld := ⟨0x4c, 0, 8, 0x0⟩
def HUB_BAR4_CFG_en : Fld := ⟨0x50, 0, 1, 0x0⟩

/-! ### Registers of spec/17_boot_firmware_and_security.md -/

def SEC_STATUS_load_state : Fld := ⟨0x100000, 0, 2, 0x0⟩
def SEC_STATUS_last_status : Fld := ⟨0x100000, 8, 8, 0x0⟩
def SEC_STATUS_owner_enrolled : Fld := ⟨0x100000, 16, 1, 0x0⟩
def SEC_STATUS_debug_level : Fld := ⟨0x100000, 17, 2, 0x0⟩
def SEC_STATUS_identity_ok : Fld := ⟨0x100000, 19, 1, 0x0⟩
def SEC_INTR_STATUS_bundle_ok_ev : Fld := ⟨0x100004, 0, 1, 0x0⟩
def SEC_INTR_STATUS_bundle_fail_ev : Fld := ⟨0x100004, 1, 1, 0x0⟩
def SEC_INTR_STATUS_nc_ok_ev : Fld := ⟨0x100004, 2, 1, 0x0⟩
def SEC_INTR_STATUS_nc_fail_ev : Fld := ⟨0x100004, 3, 1, 0x0⟩
def SEC_INTR_EN_en : Fld := ⟨0x100008, 0, 4, 0x0⟩
def SEC_BUNDLE_INFO_received : Fld := ⟨0x100010, 0, 32, 0x0⟩
def SEC_BUNDLE_INFO_svn : Fld := ⟨0x100010, 32, 7, 0x0⟩
def SEC_BUNDLE_INFO_min_svn : Fld := ⟨0x100010, 40, 7, 0x0⟩
def SEC_BUNDLE_INFO_key_index : Fld := ⟨0x100010, 48, 4, 0x0⟩
def SEC_FUSE_MISC_revoke : Fld := ⟨0x100018, 0, 16, 0x0⟩
def SEC_SERIAL_serial (k : Nat) : Fld := ⟨0x100020 + 0x8 * k, 0, 64, 0x0⟩
def SEC_ROOT_HASH_digest (i : Nat) : Fld := ⟨0x100040 + 0x8 * i, 0, 64, 0x0⟩
def SEC_OWNER_HASH_digest (i : Nat) : Fld := ⟨0x100080 + 0x8 * i, 0, 64, 0x0⟩
def SEC_NC_NONCE_nonce (i : Nat) : Fld := ⟨0x100140 + 0x8 * i, 0, 64, 0x0⟩
def SEC_NC_CTRL_request : Fld := ⟨0x100100, 0, 1, 0x0⟩
def SEC_NC_CTRL_level : Fld := ⟨0x100100, 1, 2, 0x0⟩
def SEC_NC_CTRL_submit : Fld := ⟨0x100100, 3, 1, 0x0⟩
def SEC_NC_CTRL_relock : Fld := ⟨0x100100, 4, 1, 0x0⟩
def SEC_NC_STATUS_state : Fld := ⟨0x100104, 0, 2, 0x0⟩
def SEC_NC_STATUS_last_status : Fld := ⟨0x100104, 8, 8, 0x0⟩
def SEC_NC_STATUS_nc_fail : Fld := ⟨0x100104, 16, 4, 0x0⟩
def SEC_SPDM_CFG_pen : Fld := ⟨0x100200, 0, 32, 0x0⟩
def SEC_NC_RESP_data (j : Nat) : Fld := ⟨0x101000 + 0x4 * j, 0, 32, 0x0⟩

/-! ### Registers of spec/18_pods_and_fault_tolerance.md -/

def MIR_CFG_role : Fld := ⟨0x1400000, 0, 1, 0x0⟩
def MIR_CFG_alive_en : Fld := ⟨0x1400000, 1, 1, 0x0⟩
def MIR_CFG_oob_hb_en : Fld := ⟨0x1400000, 2, 1, 0x0⟩
def MIR_CFG_pod_id : Fld := ⟨0x1400000, 16, 16, 0x0⟩
def MIR_CTRL_join : Fld := ⟨0x1400004, 0, 1, 0x0⟩
def MIR_CTRL_leave : Fld := ⟨0x1400004, 1, 1, 0x0⟩
def MIR_STATUS_state : Fld := ⟨0x1400008, 0, 3, 0x0⟩
def MIR_STATUS_m0_up : Fld := ⟨0x1400008, 3, 1, 0x0⟩
def MIR_STATUS_m1_up : Fld := ⟨0x1400008, 4, 1, 0x0⟩
def MIR_STATUS_alive_in : Fld := ⟨0x1400008, 5, 1, 0x0⟩
def MIR_STATUS_oob_hb : Fld := ⟨0x1400008, 6, 1, 0x0⟩
def MIR_STATUS_self_fenced : Fld := ⟨0x1400008, 7, 1, 0x0⟩
def MIR_STATUS_join_err_code : Fld := ⟨0x1400008, 8, 3, 0x0⟩
def MIR_INTR_STATUS_takeover_ev : Fld := ⟨0x140000c, 0, 1, 0x0⟩
def MIR_INTR_STATUS_detach_ev : Fld := ⟨0x140000c, 1, 1, 0x0⟩
def MIR_INTR_STATUS_paired_ev : Fld := ⟨0x140000c, 2, 1, 0x0⟩
def MIR_INTR_STATUS_join_err_ev : Fld := ⟨0x140000c, 3, 1, 0x0⟩
def MIR_INTR_STATUS_alive_ev : Fld := ⟨0x140000c, 4, 1, 0x0⟩
def MIR_INTR_STATUS_evict_ev : Fld := ⟨0x140000c, 5, 1, 0x0⟩
def MIR_INTR_STATUS_det_alarm_ev : Fld := ⟨0x140000c, 6, 1, 0x0⟩
def MIR_INTR_STATUS_rehearse_ev : Fld := ⟨0x140000c, 7, 1, 0x0⟩
def MIR_INTR_STATUS_link_ev : Fld := ⟨0x140000c, 8, 1, 0x0⟩
def MIR_INTR_EN_en : Fld := ⟨0x1400010, 0, 9, 0x0⟩
def MIR_CTR_CTRL_clear : Fld := ⟨0x1400014, 0, 1, 0x0⟩
def MIR_PORT_CFG_m0_en : Fld := ⟨0x1400018, 0, 1, 0x0⟩
def MIR_PORT_CFG_m1_en : Fld := ⟨0x1400018, 1, 1, 0x0⟩
def MIR_HB_CFG_hb_interval : Fld := ⟨0x1400020, 0, 4, 0x5⟩
def MIR_HB_CFG_hb_timeout : Fld := ⟨0x1400020, 8, 8, 0x8⟩
def MIR_HB_CFG_oob_timeout : Fld := ⟨0x1400020, 16, 16, 0x3e8⟩
def MIR_DET_CFG_det_en : Fld := ⟨0x1400028, 0, 1, 0x0⟩
def MIR_DET_CFG_late_pen : Fld := ⟨0x1400028, 8, 8, 0x20⟩
def MIR_DET_CFG_evict_thresh : Fld := ⟨0x1400028, 16, 8, 0x40⟩
def MIR_DET_CFG_evict_max : Fld := ⟨0x1400028, 24, 4, 0x2⟩
def MIR_DET_CFG_lease : Fld := ⟨0x1400028, 32, 16, 0x7d0⟩
def MIR_DET_CFG_evict_win : Fld := ⟨0x1400028, 48, 8, 0xa⟩
def MIR_DET_CFG_floor_pct : Fld := ⟨0x1400028, 56, 7, 0x4b⟩
def MIR_REHEARSE_CFG_allow : Fld := ⟨0x1400030, 0, 4, 0x0⟩
def MIR_REHEARSE_CFG_min_gap : Fld := ⟨0x1400030, 8, 16, 0xe10⟩
def MIR_TAKEOVER_LOG_taken : Fld := ⟨0x1400038, 0, 13, 0x0⟩
def MIR_TAKEOVER_LOG_retracted : Fld := ⟨0x1400038, 16, 13, 0x0⟩
def MIR_TAKEOVER_LOG_valid : Fld := ⟨0x1400038, 63, 1, 0x0⟩
def MIR_TAKEOVER_STAMP_stamp : Fld := ⟨0x1400040, 0, 64, 0x0⟩
def MIR_DET_LOG_group_id : Fld := ⟨0x1400048, 0, 16, 0x0⟩
def MIR_DET_LOG_member : Fld := ⟨0x1400048, 16, 12, 0x0⟩
def MIR_DET_LOG_cause : Fld := ⟨0x1400048, 28, 2, 0x0⟩
def MIR_DET_LOG_valid : Fld := ⟨0x1400048, 63, 1, 0x0⟩
def MIR_DET_STAMP_stamp : Fld := ⟨0x1400050, 0, 64, 0x0⟩
def MIR_TWIN_OFFSET_offset : Fld := ⟨0x1400058, 0, 64, 0x0⟩
def MIR_OOB_MAC_mac : Fld := ⟨0x1400068, 0, 48, 0x0⟩
def MIR_OOB_TWIN_MAC_mac : Fld := ⟨0x1400070, 0, 48, 0x0⟩
def MIR_OOB_ALARM_DA_da : Fld := ⟨0x1400078, 0, 48, 0x0⟩
def MIR_OOB_CFG_en : Fld := ⟨0x1400060, 0, 2, 0x0⟩
def MIR_OOB_CFG_fec_en : Fld := ⟨0x1400060, 2, 1, 0x0⟩
def MIR_OOB_CFG_active : Fld := ⟨0x1400060, 3, 1, 0x0⟩
def MIR_OOB_CFG_up : Fld := ⟨0x1400060, 4, 2, 0x0⟩

/-! ### Registers of spec/19_errors_reset_and_bringup.md -/

def HUB_RAS_STATUS_ce_ev : Fld := ⟨0x600, 0, 1, 0x0⟩
def HUB_RAS_STATUS_contained_ev : Fld := ⟨0x600, 1, 1, 0x0⟩
def HUB_RAS_STATUS_block_ev : Fld := ⟨0x600, 2, 1, 0x0⟩
def HUB_RAS_STATUS_fatal_ev : Fld := ⟨0x600, 3, 1, 0x0⟩
def HUB_RAS_STATUS_mcp_restart_ev : Fld := ⟨0x600, 4, 1, 0x0⟩
def HUB_RAS_EN_en : Fld := ⟨0x604, 0, 5, 0x0⟩
def HUB_RAS_CFG_vector : Fld := ⟨0x608, 0, 6, 0x0⟩
def HUB_RAS_LOG_class : Fld := ⟨0x610, 0, 3, 0x0⟩
def HUB_RAS_LOG_unit : Fld := ⟨0x610, 8, 8, 0x0⟩
def HUB_RAS_LOG_cause : Fld := ⟨0x610, 16, 8, 0x0⟩
def HUB_RAS_LOG_status : Fld := ⟨0x610, 24, 8, 0x0⟩
def HUB_RAS_LOG_index : Fld := ⟨0x610, 32, 8, 0x0⟩
def HUB_RAS_LOG_valid : Fld := ⟨0x610, 63, 1, 0x0⟩
def HUB_FATAL_LOG_class : Fld := ⟨0x620, 0, 3, 0x0⟩
def HUB_FATAL_LOG_unit : Fld := ⟨0x620, 8, 8, 0x0⟩
def HUB_FATAL_LOG_cause : Fld := ⟨0x620, 16, 8, 0x0⟩
def HUB_FATAL_LOG_status : Fld := ⟨0x620, 24, 8, 0x0⟩
def HUB_FATAL_LOG_index : Fld := ⟨0x620, 32, 8, 0x0⟩
def HUB_FATAL_LOG_valid : Fld := ⟨0x620, 63, 1, 0x0⟩
def HUB_RAS_STAMP_stamp : Fld := ⟨0x618, 0, 64, 0x0⟩
def HUB_FATAL_STAMP_stamp : Fld := ⟨0x628, 0, 64, 0x0⟩
def HUB_RESET_CTRL_warm : Fld := ⟨0x630, 0, 1, 0x0⟩
def HUB_RESET_CTRL_key : Fld := ⟨0x630, 8, 8, 0x0⟩
def HUB_RESET_CTRL_port_rst : Fld := ⟨0x630, 16, 1, 0x0⟩
def HUB_RESET_CTRL_port : Fld := ⟨0x630, 17, 5, 0x0⟩
def HUB_RESET_CTRL_ch_rst : Fld := ⟨0x630, 22, 1, 0x0⟩
def HUB_RESET_CTRL_ch : Fld := ⟨0x630, 23, 3, 0x0⟩
def HUB_RESET_STATUS_last : Fld := ⟨0x634, 0, 3, 0x0⟩
def HUB_RESET_STATUS_busy : Fld := ⟨0x634, 8, 1, 0x0⟩
def HUB_RESET_STATUS_refused : Fld := ⟨0x634, 9, 1, 0x0⟩
def HUB_BOOT_TIME_link_ms : Fld := ⟨0x638, 0, 16, 0x0⟩
def HUB_BOOT_TIME_await_ms : Fld := ⟨0x638, 16, 16, 0x0⟩
def HUB_BOOT_TIME_ready_ms : Fld := ⟨0x638, 32, 16, 0x0⟩

/-! ### Registers of spec/20_package_and_board.md -/

def HUB_BOARD_STATUS_ls_pres : Fld := ⟨0x800, 0, 9, 0x0⟩
def HUB_BOARD_STATUS_ls_int : Fld := ⟨0x800, 9, 9, 0x0⟩
def HUB_BOARD_STATUS_ls_run : Fld := ⟨0x800, 18, 9, 0x0⟩
def HUB_BOARD_STATUS_sb_addr : Fld := ⟨0x800, 27, 1, 0x0⟩
def HUB_BOARD_STATUS_alive_in : Fld := ⟨0x800, 28, 1, 0x0⟩
def HUB_LS_I2C_ERR_ls_i2c_errors : Fld := ⟨0x808, 0, 64, 0x0⟩

/-! ### Registers of spec/19_errors_reset_and_bringup.md -/

def HUB_RAS_CTR_CLEAR_clear : Fld := ⟨0x640, 0, 1, 0x0⟩

/-! ### Registers of spec/16_host_interface.md -/

/-- Message Address of a vector. R378 gives the MSI-X table no register table; the model has one 64-bit register here, so that a 32-bit write
of either half is ignored by R7 (DESIGN CHOICE). -/
def HUB_MSIX_ADDR_addr (v : Nat) : Fld := ⟨0x8000 + 0x10 * v, 0, 64, 0x0⟩
def HUB_MSIX_DATA_data (v : Nat) : Fld := ⟨0x8008 + 0x10 * v, 0, 32, 0x0⟩
def HUB_MSIX_CTRL_mask (v : Nat) : Fld := ⟨0x800c + 0x10 * v, 0, 1, 0x1⟩
def HUB_MSIX_PBA_pending : Fld := ⟨0x9000, 0, 64, 0x0⟩

/-! ### Registers of spec/18_pods_and_fault_tolerance.md -/

def MIR_CTR_rx_frames (k : Nat) : Fld := ⟨0x1400200 + 0x80 * k, 0, 64, 0x0⟩
def MIR_CTR_rx_bytes (k : Nat) : Fld := ⟨0x1400208 + 0x80 * k, 0, 64, 0x0⟩
def MIR_CTR_rx_fcs_err (k : Nat) : Fld := ⟨0x1400210 + 0x80 * k, 0, 64, 0x0⟩
def MIR_CTR_tx_frames (k : Nat) : Fld := ⟨0x1400218 + 0x80 * k, 0, 64, 0x0⟩
def MIR_CTR_tx_bytes (k : Nat) : Fld := ⟨0x1400220 + 0x80 * k, 0, 64, 0x0⟩
def MIR_CTR_fec_cw_uncorrected (k : Nat) : Fld := ⟨0x1400228 + 0x80 * k, 0, 64, 0x0⟩
def MIR_CTR_llr_replays (k : Nat) : Fld := ⟨0x1400230 + 0x80 * k, 0, 64, 0x0⟩
def MIR_CTR_llr_lost_frames (k : Nat) : Fld := ⟨0x1400238 + 0x80 * k, 0, 64, 0x0⟩

/-! ### Registers of spec/03_optical_ports_and_links.md -/

def PORT_CTR_fec_cw_corrected (n : Nat) : Fld := ⟨0x400800 + 0x20000 * n, 0, 64, 0x0⟩
def PORT_CTR_fec_cw_uncorrected (n : Nat) : Fld := ⟨0x400808 + 0x20000 * n, 0, 64, 0x0⟩
def PORT_CTR_fec_symbols_corrected (n : Nat) : Fld := ⟨0x400810 + 0x20000 * n, 0, 64, 0x0⟩
def PORT_CTR_fec_hist (n : Nat) (i : Nat) : Fld := ⟨0x400880 + 0x20000 * n + 0x8 * i, 0, 64, 0x0⟩
def PORT_LCTR_rx_frames (n : Nat) (s : Nat) : Fld := ⟨0x401000 + 0x20000 * n + 0x100 * s, 0, 64, 0x0⟩
def PORT_LCTR_tx_pfc_frames (n : Nat) (s : Nat) : Fld := ⟨0x401058 + 0x20000 * n + 0x100 * s, 0, 64, 0x0⟩
def PORT_LCTR_rx_bytes (n : Nat) (s : Nat) : Fld := ⟨0x401008 + 0x20000 * n + 0x100 * s, 0, 64, 0x0⟩
def PORT_LCTR_pfc_tc7_ignored (n : Nat) (s : Nat) : Fld := ⟨0x401060 + 0x20000 * n + 0x100 * s, 0, 64, 0x0⟩
def PORT_LCTR_rx_fcs_err (n : Nat) (s : Nat) : Fld := ⟨0x401010 + 0x20000 * n + 0x100 * s, 0, 64, 0x0⟩
def PORT_LCTR_llr_nack_tx (n : Nat) (s : Nat) : Fld := ⟨0x401068 + 0x20000 * n + 0x100 * s, 0, 64, 0x0⟩
def PORT_LCTR_rx_tail_abort (n : Nat) (s : Nat) : Fld := ⟨0x401018 + 0x20000 * n + 0x100 * s, 0, 64, 0x0⟩
def PORT_LCTR_llr_nack_rx (n : Nat) (s : Nat) : Fld := ⟨0x401070 + 0x20000 * n + 0x100 * s, 0, 64, 0x0⟩
def PORT_LCTR_rx_oversize (n : Nat) (s : Nat) : Fld := ⟨0x401020 + 0x20000 * n + 0x100 * s, 0, 64, 0x0⟩
def PORT_LCTR_llr_replays (n : Nat) (s : Nat) : Fld := ⟨0x401078 + 0x20000 * n + 0x100 * s, 0, 64, 0x0⟩
def PORT_LCTR_rx_undersize (n : Nat) (s : Nat) : Fld := ⟨0x401028 + 0x20000 * n + 0x100 * s, 0, 64, 0x0⟩
def PORT_LCTR_llr_replayed_frames (n : Nat) (s : Nat) : Fld := ⟨0x401080 + 0x20000 * n + 0x100 * s, 0, 64, 0x0⟩
def PORT_LCTR_tx_frames (n : Nat) (s : Nat) : Fld := ⟨0x401030 + 0x20000 * n + 0x100 * s, 0, 64, 0x0⟩
def PORT_LCTR_llr_seq_discards (n : Nat) (s : Nat) : Fld := ⟨0x401088 + 0x20000 * n + 0x100 * s, 0, 64, 0x0⟩
def PORT_LCTR_tx_bytes (n : Nat) (s : Nat) : Fld := ⟨0x401038 + 0x20000 * n + 0x100 * s, 0, 64, 0x0⟩
def PORT_LCTR_llr_lost_frames (n : Nat) (s : Nat) : Fld := ⟨0x401090 + 0x20000 * n + 0x100 * s, 0, 64, 0x0⟩
def PORT_LCTR_tx_tail_abort (n : Nat) (s : Nat) : Fld := ⟨0x401040 + 0x20000 * n + 0x100 * s, 0, 64, 0x0⟩
def PORT_LCTR_credit_wait_ns (n : Nat) (s : Nat) : Fld := ⟨0x401098 + 0x20000 * n + 0x100 * s, 0, 64, 0x0⟩
def PORT_LCTR_ctl_discards (n : Nat) (s : Nat) : Fld := ⟨0x401048 + 0x20000 * n + 0x100 * s, 0, 64, 0x0⟩
def PORT_LCTR_egress_down_drops (n : Nat) (s : Nat) : Fld := ⟨0x4010a0 + 0x20000 * n + 0x100 * s, 0, 64, 0x0⟩
def PORT_LCTR_rx_pfc_frames (n : Nat) (s : Nat) : Fld := ⟨0x401050 + 0x20000 * n + 0x100 * s, 0, 64, 0x0⟩

/-! ### Registers of spec/04_forwarding_and_cut_through.md -/

def PORT_LCTR_lookup_miss_drops (n : Nat) (s : Nat) : Fld := ⟨0x4010a8 + 0x20000 * n + 0x100 * s, 0, 64, 0x0⟩
def PORT_LCTR_ech_unknown_drops (n : Nat) (s : Nat) : Fld := ⟨0x4010d0 + 0x20000 * n + 0x100 * s, 0, 64, 0x0⟩
def PORT_LCTR_ttl_drops (n : Nat) (s : Nat) : Fld := ⟨0x4010b0 + 0x20000 * n + 0x100 * s, 0, 64, 0x0⟩
def PORT_LCTR_lookup_overrun_drops (n : Nat) (s : Nat) : Fld := ⟨0x4010d8 + 0x20000 * n + 0x100 * s, 0, 64, 0x0⟩
def PORT_LCTR_ip_hdr_err (n : Nat) (s : Nat) : Fld := ⟨0x4010b8 + 0x20000 * n + 0x100 * s, 0, 64, 0x0⟩
def PORT_LCTR_tx_underrun (n : Nat) (s : Nat) : Fld := ⟨0x4010e0 + 0x20000 * n + 0x100 * s, 0, 64, 0x0⟩
def PORT_LCTR_mtu_drops (n : Nat) (s : Nat) : Fld := ⟨0x4010c0 + 0x20000 * n + 0x100 * s, 0, 64, 0x0⟩
def PORT_LCTR_mcast_copies (n : Nat) (s : Nat) : Fld := ⟨0x4010e8 + 0x20000 * n + 0x100 * s, 0, 64, 0x0⟩
def PORT_LCTR_hairpin_drops (n : Nat) (s : Nat) : Fld := ⟨0x4010c8 + 0x20000 * n + 0x100 * s, 0, 64, 0x0⟩

/-! ### Registers of spec/05_central_store_and_pools.md -/

def STORE_CTR_ce_count : Fld := ⟨0x1000100, 0, 64, 0x0⟩
def STORE_CTR_pushout_frames : Fld := ⟨0x1000128, 0, 64, 0x0⟩
def STORE_CTR_ue_count : Fld := ⟨0x1000108, 0, 64, 0x0⟩
def STORE_CTR_ring_entry_errors : Fld := ⟨0x1000130, 0, 64, 0x0⟩
def STORE_CTR_retired_buffers : Fld := ⟨0x1000110, 0, 64, 0x0⟩
def STORE_CTR_release_errors : Fld := ⟨0x1000138, 0, 64, 0x0⟩
def STORE_CTR_lossless_overrun_drops : Fld := ⟨0x1000118, 0, 64, 0x0⟩
def STORE_CTR_scrub_passes : Fld := ⟨0x1000140, 0, 64, 0x0⟩
def STORE_CTR_lossy_drops : Fld := ⟨0x1000120, 0, 64, 0x0⟩
def STORE_CTR_disabled_drops : Fld := ⟨0x1000148, 0, 64, 0x0⟩

/-! ### Registers of spec/07_channel_machine_model.md -/

def CH_CTR_instr_issued (n : Nat) : Fld := ⟨0x801000 + 0x100000 * n, 0, 64, 0x0⟩
def CH_CTR_ramp_stall_cycles (n : Nat) : Fld := ⟨0x801020 + 0x100000 * n, 0, 64, 0x0⟩
def CH_CTR_ctx_switches (n : Nat) : Fld := ⟨0x801008 + 0x100000 * n, 0, 64, 0x0⟩
def CH_CTR_fault_count (n : Nat) : Fld := ⟨0x801028 + 0x100000 * n, 0, 64, 0x0⟩
def CH_CTR_wake_events (n : Nat) : Fld := ⟨0x801010 + 0x100000 * n, 0, 64, 0x0⟩
def CH_CTR_overset_count (n : Nat) : Fld := ⟨0x801030 + 0x100000 * n, 0, 64, 0x0⟩
def CH_CTR_gated_cycles (n : Nat) : Fld := ⟨0x801018 + 0x100000 * n, 0, 64, 0x0⟩
def CH_CTR_program_loop_drops (n : Nat) : Fld := ⟨0x801038 + 0x100000 * n, 0, 64, 0x0⟩

/-! ### Registers of spec/09_number_formats_and_conversion.md -/

def CH_CTR_exc_inv (n : Nat) : Fld := ⟨0x800408 + 0x100000 * n, 0, 64, 0x0⟩
def CH_CTR_exc_dbz (n : Nat) : Fld := ⟨0x800410 + 0x100000 * n, 0, 64, 0x0⟩
def CH_CTR_exc_ovf (n : Nat) : Fld := ⟨0x800418 + 0x100000 * n, 0, 64, 0x0⟩
def CH_CTR_exc_unf (n : Nat) : Fld := ⟨0x800420 + 0x100000 * n, 0, 64, 0x0⟩
def CH_CTR_exc_inx (n : Nat) : Fld := ⟨0x800428 + 0x100000 * n, 0, 64, 0x0⟩

/-! ### Registers of spec/10_matrix_tiles_and_resident_layers.md -/

def CH_CTR_mma_repeats (n : Nat) : Fld := ⟨0x801100 + 0x100000 * n, 0, 64, 0x0⟩
def CH_CTR_operand_wait_cycles (n : Nat) : Fld := ⟨0x801118 + 0x100000 * n, 0, 64, 0x0⟩
def CH_CTR_cvt_repeats (n : Nat) : Fld := ⟨0x801108 + 0x100000 * n, 0, 64, 0x0⟩
def CH_CTR_store_operand_bytes (n : Nat) : Fld := ⟨0x801120 + 0x100000 * n, 0, 64, 0x0⟩
def CH_CTR_tile_busy_cycles (n : Nat) : Fld := ⟨0x801110 + 0x100000 * n, 0, 64, 0x0⟩
def CH_CTR_scratch_operand_bytes (n : Nat) : Fld := ⟨0x801128 + 0x100000 * n, 0, 64, 0x0⟩

/-! ### Registers of spec/11_sparsity.md -/

def CH_CTR_sparse_blocks (n : Nat) : Fld := ⟨0x801200 + 0x100000 * n, 0, 64, 0x0⟩
def CH_CTR_escape_blocks (n : Nat) : Fld := ⟨0x801218 + 0x100000 * n, 0, 64, 0x0⟩
def CH_CTR_dense_blocks (n : Nat) : Fld := ⟨0x801208 + 0x100000 * n, 0, 64, 0x0⟩
def CH_CTR_match_busy_cycles (n : Nat) : Fld := ⟨0x801220 + 0x100000 * n, 0, 64, 0x0⟩
def CH_CTR_absent_blocks (n : Nat) : Fld := ⟨0x801210 + 0x100000 * n, 0, 64, 0x0⟩
def CH_CTR_map_bytes (n : Nat) : Fld := ⟨0x801228 + 0x100000 * n, 0, 64, 0x0⟩

/-! ### Registers of spec/12_collectives.md -/

def GRP_CTR_chunks_accepted : Fld := ⟨0x1600100, 0, 64, 0x0⟩
def GRP_CTR_mismatch_aborts : Fld := ⟨0x1600138, 0, 64, 0x0⟩
def GRP_CTR_results_sent : Fld := ⟨0x1600108, 0, 64, 0x0⟩
def GRP_CTR_window_aborts : Fld := ⟨0x1600140, 0, 64, 0x0⟩
def GRP_CTR_epoch_drops : Fld := ⟨0x1600110, 0, 64, 0x0⟩
def GRP_CTR_retractions : Fld := ⟨0x1600148, 0, 64, 0x0⟩
def GRP_CTR_step_drops : Fld := ⟨0x1600118, 0, 64, 0x0⟩
def GRP_CTR_crc_errors : Fld := ⟨0x1600150, 0, 64, 0x0⟩
def GRP_CTR_member_drops : Fld := ⟨0x1600120, 0, 64, 0x0⟩
def GRP_CTR_late_members : Fld := ⟨0x1600158, 0, 64, 0x0⟩
def GRP_CTR_not_owner_drops : Fld := ⟨0x1600128, 0, 64, 0x0⟩
def GRP_CTR_spill_records : Fld := ⟨0x1600160, 0, 64, 0x0⟩
def GRP_CTR_dup_chunks : Fld := ⟨0x1600130, 0, 64, 0x0⟩

/-! ### Registers of spec/13_token_dispatch.md -/

def GRP_CTR_tokens_accepted : Fld := ⟨0x1600200, 0, 64, 0x0⟩
def GRP_CTR_timeout_drops : Fld := ⟨0x1600230, 0, 64, 0x0⟩
def GRP_CTR_pad_tokens : Fld := ⟨0x1600208, 0, 64, 0x0⟩
def GRP_CTR_result_rows : Fld := ⟨0x1600238, 0, 64, 0x0⟩
def GRP_CTR_batches_committed : Fld := ⟨0x1600210, 0, 64, 0x0⟩
def GRP_CTR_dup_rows : Fld := ⟨0x1600240, 0, 64, 0x0⟩
def GRP_CTR_gap_nacks : Fld := ⟨0x1600218, 0, 64, 0x0⟩
def GRP_CTR_late_results : Fld := ⟨0x1600248, 0, 64, 0x0⟩
def GRP_CTR_capacity_drops : Fld := ⟨0x1600220, 0, 64, 0x0⟩
def GRP_CTR_tokens_returned : Fld := ⟨0x1600250, 0, 64, 0x0⟩
def GRP_CTR_map_drops : Fld := ⟨0x1600228, 0, 64, 0x0⟩

/-! ### Registers of spec/14_determinism_and_replay.md -/

def SBK_CTR_records_written : Fld := ⟨0x1500200, 0, 64, 0x0⟩
def SBK_CTR_records_replayed : Fld := ⟨0x1500220, 0, 64, 0x0⟩
def SBK_CTR_bytes_written : Fld := ⟨0x1500208, 0, 64, 0x0⟩
def SBK_CTR_replay_live_drops : Fld := ⟨0x1500228, 0, 64, 0x0⟩
def SBK_CTR_records_lost : Fld := ⟨0x1500210, 0, 64, 0x0⟩
def SBK_CTR_replay_egress_drops : Fld := ⟨0x1500230, 0, 64, 0x0⟩
def SBK_CTR_gap_records : Fld := ⟨0x1500218, 0, 64, 0x0⟩

/-! ### Registers of spec/15_power_and_thermal.md -/

def PWR_CTR_droop_events : Fld := ⟨0x200200, 0, 64, 0x0⟩
def PWR_CTR_throttle_us : Fld := ⟨0x200228, 0, 64, 0x0⟩
def PWR_CTR_stretch_cycles : Fld := ⟨0x200208, 0, 64, 0x0⟩
def PWR_CTR_excursions : Fld := ⟨0x200230, 0, 64, 0x0⟩
def PWR_CTR_bubble_cycles : Fld := ⟨0x200210, 0, 64, 0x0⟩
def PWR_CTR_exc_limit_hits : Fld := ⟨0x200238, 0, 64, 0x0⟩
def PWR_CTR_freq_changes : Fld := ⟨0x200218, 0, 64, 0x0⟩
def PWR_CTR_unmet_intervals : Fld := ⟨0x200240, 0, 64, 0x0⟩
def PWR_CTR_freq_deferred : Fld := ⟨0x200220, 0, 64, 0x0⟩
def PWR_CTR_hints : Fld := ⟨0x200248, 0, 64, 0x0⟩

/-! ### Registers of spec/16_host_interface.md -/

def RING_CTR_descriptors_fetched : Fld := ⟨0x300100, 0, 64, 0x0⟩
def RING_CTR_host_access_errors : Fld := ⟨0x300118, 0, 64, 0x0⟩
def RING_CTR_records_written : Fld := ⟨0x300108, 0, 64, 0x0⟩
def RING_CTR_cq_full_cycles : Fld := ⟨0x300120, 0, 64, 0x0⟩
def RING_CTR_doorbell_ignored : Fld := ⟨0x300110, 0, 64, 0x0⟩
def RING_CTR_records_discarded : Fld := ⟨0x300128, 0, 64, 0x0⟩

/-! ### Registers of spec/18_pods_and_fault_tolerance.md -/

def MIR_CTR_records_tx : Fld := ⟨0x1400100, 0, 64, 0x0⟩
def MIR_CTR_evictions : Fld := ⟨0x1400128, 0, 64, 0x0⟩
def MIR_CTR_records_rx : Fld := ⟨0x1400108, 0, 64, 0x0⟩
def MIR_CTR_det_alarms : Fld := ⟨0x1400130, 0, 64, 0x0⟩
def MIR_CTR_records_resent : Fld := ⟨0x1400110, 0, 64, 0x0⟩
def MIR_CTR_rehearsals : Fld := ⟨0x1400138, 0, 64, 0x0⟩
def MIR_CTR_confirm_wait_ns : Fld := ⟨0x1400118, 0, 64, 0x0⟩
def MIR_CTR_fence_hold_ns : Fld := ⟨0x1400140, 0, 64, 0x0⟩
def MIR_CTR_hb_missed : Fld := ⟨0x1400120, 0, 64, 0x0⟩
def MIR_CTR_mir_discards : Fld := ⟨0x1400148, 0, 64, 0x0⟩

/-! ### Registers of spec/19_errors_reset_and_bringup.md -/

def HUB_CTR_sram_ce : Fld := ⟨0x700, 0, 64, 0x0⟩
def HUB_CTR_contained_errors : Fld := ⟨0x720, 0, 64, 0x0⟩
def HUB_CTR_sram_ue : Fld := ⟨0x708, 0, 64, 0x0⟩
def HUB_CTR_block_errors : Fld := ⟨0x728, 0, 64, 0x0⟩
def HUB_CTR_table_repairs : Fld := ⟨0x710, 0, 64, 0x0⟩
def HUB_CTR_mcp_restarts : Fld := ⟨0x730, 0, 64, 0x0⟩
def HUB_CTR_d2d_crc_retries : Fld := ⟨0x718, 0, 64, 0x0⟩
def HUB_CTR_cxl_ce : Fld := ⟨0x738, 0, 64, 0x0⟩

/-! ### Registers of spec/06_traffic_classes_and_scheduling.md -/

def PORT_LCTR_gate_oversize_drops (n : Nat) (s : Nat) : Fld := ⟨0x4010f0 + 0x20000 * n + 0x100 * s, 0, 64, 0x0⟩

/-! ### Registers of spec/12_collectives.md -/

def PORT_LCTR_ech_hdr_err (n : Nat) (s : Nat) : Fld := ⟨0x4010f8 + 0x20000 * n + 0x100 * s, 0, 64, 0x0⟩

/-! ### Registers of spec/08_instruction_encoding.md -/

def CH_CTR_program_rx_drops (n : Nat) : Fld := ⟨0x801040 + 0x100000 * n, 0, 64, 0x0⟩

/-! ### The table a host access is decoded by -/

def regTable0 : List RegDef := [
  ⟨0x700000, [], 32, [⟨0, 1, .rw, 0x0⟩, ⟨1, 1, .rw, 0x1⟩]⟩,
  ⟨0x700004, [], 32, [⟨0, 2, .rw, 0x3⟩, ⟨2, 2, .rw, 0x3⟩, ⟨4, 1, .rw, 0x0⟩, ⟨8, 5, .rw, 0x0⟩, ⟨16, 5, .rw, 0x0⟩, ⟨24, 3, .rw, 0x0⟩]⟩,
  ⟨0x700008, [], 64, [⟨0, 64, .ro, 0x0⟩]⟩,
  ⟨0x700010, [], 32, [⟨0, 2, .ro, 0x0⟩, ⟨2, 2, .ro, 0x3⟩, ⟨8, 1, .w1c, 0x0⟩, ⟨9, 1, .w1c, 0x0⟩, ⟨10, 1, .w1c, 0x0⟩, ⟨11, 1, .w1c, 0x0⟩, ⟨12, 1, .w1c, 0x0⟩]⟩,
  ⟨0x700014, [], 32, [⟨0, 5, .rw, 0x0⟩]⟩,
  ⟨0x700018, [], 64, [⟨0, 64, .ro, 0x0⟩]⟩,
  ⟨0x700020, [], 32, [⟨0, 32, .rw, 0x0⟩]⟩,
  ⟨0x700024, [], 32, [⟨0, 16, .rw, 0x14⟩, ⟨16, 16, .rw, 0x64⟩]⟩,
  ⟨0x700028, [], 32, [⟨0, 16, .rw, 0x7d0⟩, ⟨16, 8, .rw, 0x14⟩, ⟨24, 8, .rw, 0x4⟩]⟩,
  ⟨0x70002c, [], 32, [⟨0, 32, .ro, 0x0⟩]⟩,
  ⟨0x700030, [], 32, [⟨0, 32, .ro, 0x0⟩]⟩,
  ⟨0x700034, [], 32, [⟨0, 32, .rw, 0x0⟩]⟩,
  ⟨0x700038, [], 64, [⟨0, 64, .rw, 0x0⟩]⟩,
  ⟨0x700040, [], 64, [⟨0, 24, .rw, 0x0⟩, ⟨32, 16, .rw, 0x3e8⟩, ⟨48, 16, .rw, 0x7d⟩]⟩,
  ⟨0x700048, [], 32, [⟨0, 8, .rw, 0x0⟩, ⟨8, 4, .rw, 0xd⟩]⟩,
  ⟨0x700050, [], 64, [⟨0, 64, .ro, 0x0⟩]⟩,
  ⟨0x700058, [], 32, [⟨0, 16, .ro, 0x0⟩, ⟨16, 16, .ro, 0x0⟩]⟩,
  ⟨0x700060, [], 32, [⟨0, 32, .rw, 0x0⟩]⟩,
  ⟨0x400000, [(24, 0x20000)], 32, [⟨0, 1, .rw, 0x0⟩, ⟨1, 2, .rw, 0x0⟩]⟩,
  ⟨0x400004, [(24, 0x20000)], 32, [⟨0, 8, .ro, 0x0⟩, ⟨8, 1, .ro, 0x0⟩, ⟨9, 1, .ro, 0x0⟩, ⟨10, 1, .ro, 0x0⟩, ⟨16, 8, .ro, 0x0⟩]⟩]

def regTable1 : List RegDef := [
  ⟨0x400008, [(24, 0x20000)], 32, [⟨0, 17, .rw, 0x2400⟩]⟩,
  ⟨0x40000c, [(24, 0x20000)], 32, [⟨0, 8, .rw, 0x0⟩, ⟨8, 8, .rw, 0x8⟩, ⟨16, 8, .rw, 0x8⟩, ⟨24, 8, .rw, 0x14⟩]⟩,
  ⟨0x400010, [(24, 0x20000)], 32, [⟨0, 16, .rw, 0x0⟩]⟩,
  ⟨0x400014, [(24, 0x20000)], 32, [⟨0, 16, .rw, 0xffff⟩, ⟨16, 16, .rw, 0x7d⟩]⟩,
  ⟨0x400018, [(24, 0x20000)], 32, [⟨0, 12, .rw, 0x32⟩, ⟨12, 12, .rw, 0xa⟩, ⟨24, 8, .rw, 0xa⟩]⟩,
  ⟨0x400020, [(24, 0x20000)], 64, [⟨0, 48, .rw, 0x180c200000e⟩]⟩,
  ⟨0x400028, [(24, 0x20000)], 32, [⟨0, 32, .rw, 0x4000⟩]⟩,
  ⟨0x400030, [(24, 0x20000)], 32, [⟨0, 8, .w1c, 0x0⟩, ⟨8, 1, .w1c, 0x0⟩, ⟨9, 1, .w1c, 0x0⟩, ⟨10, 1, .w1c, 0x0⟩, ⟨11, 1, .w1c, 0x0⟩]⟩,
  ⟨0x400034, [(24, 0x20000)], 32, [⟨0, 12, .rw, 0x0⟩]⟩,
  ⟨0x400038, [(24, 0x20000)], 32, [⟨0, 1, .wo, 0x0⟩]⟩,
  ⟨0x400040, [(24, 0x20000)], 32, [⟨0, 16, .rw, 0x88b5⟩, ⟨16, 1, .rw, 0x1⟩]⟩,
  ⟨0x400044, [(24, 0x20000)], 32, [⟨0, 32, .rw, 0x0⟩]⟩,
  ⟨0x400048, [(24, 0x20000)], 64, [⟨0, 48, .rw, 0x0⟩]⟩,
  ⟨0x1000000, [], 32, [⟨0, 1, .rw, 0x0⟩, ⟨1, 1, .rw, 0x1⟩]⟩,
  ⟨0x1000004, [], 32, [⟨0, 1, .ro, 0x0⟩, ⟨1, 1, .ro, 0x0⟩, ⟨8, 8, .ro, 0x0⟩]⟩,
  ⟨0x1000008, [], 32, [⟨0, 8, .rw, 0x20⟩, ⟨8, 8, .rw, 0x20⟩]⟩,
  ⟨0x100000c, [], 32, [⟨0, 27, .rw, 0x222c688⟩]⟩,
  ⟨0x1000010, [], 64, [⟨0, 48, .ro, 0x800000000⟩, ⟨48, 16, .ro, 0x200⟩]⟩,
  ⟨0x1000018, [], 64, [⟨0, 48, .ro, 0x8800000000⟩]⟩,
  ⟨0x1000020, [], 64, [⟨0, 32, .rw, 0xffffffff⟩, ⟨32, 32, .rw, 0xffffffff⟩]⟩]

def regTable2 : List RegDef := [
  ⟨0x1000028, [], 64, [⟨0, 32, .ro, 0x0⟩, ⟨32, 32, .ro, 0x0⟩]⟩,
  ⟨0x1000030, [], 32, [⟨0, 8, .rw, 0x18⟩]⟩,
  ⟨0x1000034, [], 32, [⟨0, 1, .w1c, 0x0⟩, ⟨1, 1, .w1c, 0x0⟩, ⟨2, 1, .w1c, 0x0⟩, ⟨3, 1, .w1c, 0x0⟩]⟩,
  ⟨0x1000038, [], 32, [⟨0, 4, .rw, 0x0⟩]⟩,
  ⟨0x100003c, [], 32, [⟨0, 1, .wo, 0x0⟩]⟩,
  ⟨0x1000040, [], 64, [⟨0, 48, .ro, 0x0⟩, ⟨48, 5, .ro, 0x0⟩, ⟨53, 3, .ro, 0x0⟩, ⟨63, 1, .w1c, 0x0⟩]⟩,
  ⟨0x1000048, [], 64, [⟨0, 64, .ro, 0x0⟩]⟩,
  ⟨0x1010000, [(6, 0x40)], 32, [⟨0, 30, .rw, 0x0⟩]⟩,
  ⟨0x1010004, [(6, 0x40)], 32, [⟨0, 30, .rw, 0x0⟩]⟩,
  ⟨0x1010008, [(6, 0x40)], 32, [⟨0, 10, .rw, 0x80⟩, ⟨16, 10, .rw, 0x1c0⟩]⟩,
  ⟨0x1010010, [(6, 0x40)], 64, [⟨0, 48, .ro, 0x0⟩]⟩,
  ⟨0x1010018, [(6, 0x40)], 64, [⟨0, 48, .ro, 0x0⟩]⟩,
  ⟨0x1010020, [(6, 0x40)], 32, [⟨0, 30, .ro, 0x0⟩]⟩,
  ⟨0x1010024, [(6, 0x40)], 32, [⟨0, 30, .ro, 0x0⟩]⟩,
  ⟨0x1010028, [(6, 0x40)], 64, [⟨0, 32, .ro, 0x0⟩, ⟨32, 32, .ro, 0x0⟩]⟩,
  ⟨0x1020000, [(226, 0x20)], 32, [⟨0, 32, .rw, 0x0⟩]⟩,
  ⟨0x1020004, [(226, 0x20)], 32, [⟨0, 32, .rw, 0x2c000⟩]⟩,
  ⟨0x1020008, [(226, 0x20)], 32, [⟨0, 32, .rw, 0x30000⟩]⟩,
  ⟨0x102000c, [(226, 0x20)], 32, [⟨0, 32, .rw, 0x40000⟩]⟩,
  ⟨0x1020010, [(226, 0x20)], 32, [⟨0, 32, .ro, 0x0⟩]⟩]

def regTable3 : List RegDef := [
  ⟨0x1020014, [(226, 0x20)], 32, [⟨0, 32, .ro, 0x0⟩]⟩,
  ⟨0x1020018, [(226, 0x20)], 32, [⟨0, 1, .wo, 0x0⟩, ⟨1, 1, .w1c, 0x0⟩, ⟨2, 1, .ro, 0x0⟩]⟩,
  ⟨0x400100, [(24, 0x20000)], 32, [⟨0, 2, .rw, 0x1⟩, ⟨4, 3, .rw, 0x0⟩, ⟨8, 7, .rw, 0x0⟩]⟩,
  ⟨0x400104, [(24, 0x20000)], 32, [⟨0, 24, .rw, 0xfac688⟩]⟩,
  ⟨0x400120, [(24, 0x20000), (8, 0x4)], 32, [⟨0, 3, .rw, 0x0⟩, ⟨4, 3, .rw, 0x0⟩, ⟨8, 3, .rw, 0x0⟩, ⟨12, 3, .rw, 0x0⟩, ⟨16, 3, .rw, 0x0⟩, ⟨20, 3, .rw, 0x0⟩, ⟨24, 3, .rw, 0x0⟩, ⟨28, 3, .rw, 0x0⟩]⟩,
  ⟨0x400140, [(24, 0x20000), (7, 0x4)], 32, [⟨0, 20, .rw, 0x4000⟩]⟩,
  ⟨0x400160, [(24, 0x20000)], 64, [⟨0, 21, .rw, 0x3e80⟩, ⟨32, 24, .rw, 0x2710⟩]⟩,
  ⟨0x400180, [(24, 0x20000)], 32, [⟨0, 1, .rw, 0x0⟩, ⟨1, 1, .wo, 0x0⟩, ⟨2, 1, .ro, 0x0⟩, ⟨3, 1, .w1c, 0x0⟩, ⟨4, 9, .rw, 0x1⟩, ⟨16, 9, .ro, 0x0⟩]⟩,
  ⟨0x400188, [(24, 0x20000)], 64, [⟨0, 64, .rw, 0x0⟩]⟩,
  ⟨0x400190, [(24, 0x20000)], 64, [⟨0, 32, .rw, 0xf4240⟩]⟩,
  ⟨0x400198, [(24, 0x20000)], 64, [⟨0, 64, .ro, 0x0⟩]⟩,
  ⟨0x4001a0, [(24, 0x20000)], 64, [⟨0, 32, .ro, 0x0⟩]⟩,
  ⟨0x4001a8, [(24, 0x20000)], 64, [⟨0, 64, .ro, 0x0⟩]⟩,
  ⟨0x404000, [(24, 0x20000), (256, 0x4)], 32, [⟨0, 8, .rw, 0xff⟩, ⟨8, 24, .rw, 0x0⟩]⟩,
  ⟨0x404400, [(24, 0x20000), (256, 0x4)], 32, [⟨0, 8, .ro, 0xff⟩, ⟨8, 24, .ro, 0x0⟩]⟩,
  ⟨0x402000, [(24, 0x20000), (8, 0x200), (7, 0x40)], 64, [⟨0, 21, .rw, 0x0⟩, ⟨31, 1, .rw, 0x0⟩, ⟨32, 21, .rw, 0x0⟩]⟩,
  ⟨0x402008, [(24, 0x20000), (8, 0x200), (7, 0x40)], 64, [⟨0, 24, .rw, 0x0⟩, ⟨32, 24, .rw, 0x0⟩]⟩,
  ⟨0x402010, [(24, 0x20000), (8, 0x200), (7, 0x40)], 64, [⟨0, 64, .ro, 0x0⟩]⟩,
  ⟨0x402018, [(24, 0x20000), (8, 0x200), (7, 0x40)], 64, [⟨0, 64, .ro, 0x0⟩]⟩,
  ⟨0x402020, [(24, 0x20000), (8, 0x200), (7, 0x40)], 64, [⟨0, 64, .ro, 0x0⟩]⟩]

def regTable4 : List RegDef := [
  ⟨0x403000, [(24, 0x20000), (8, 0x100), (7, 0x20)], 64, [⟨0, 21, .rw, 0x0⟩, ⟨32, 24, .rw, 0x0⟩]⟩,
  ⟨0x403008, [(24, 0x20000), (8, 0x100), (7, 0x20)], 64, [⟨0, 64, .ro, 0x0⟩]⟩,
  ⟨0x800000, [(8, 0x100000)], 32, [⟨0, 4, .rw, 0x0⟩]⟩,
  ⟨0x800004, [(8, 0x100000)], 32, [⟨0, 4, .ro, 0x0⟩, ⟨4, 4, .ro, 0x0⟩, ⟨8, 1, .ro, 0x0⟩]⟩,
  ⟨0x800008, [(8, 0x100000)], 32, [⟨0, 24, .rw, 0x186a0⟩]⟩,
  ⟨0x80000c, [(8, 0x100000)], 32, [⟨0, 1, .w1c, 0x0⟩, ⟨1, 1, .w1c, 0x0⟩, ⟨2, 1, .w1c, 0x0⟩, ⟨3, 1, .w1c, 0x0⟩]⟩,
  ⟨0x800010, [(8, 0x100000)], 32, [⟨0, 4, .rw, 0x0⟩]⟩,
  ⟨0x800014, [(8, 0x100000)], 32, [⟨0, 1, .wo, 0x0⟩]⟩,
  ⟨0x800020, [(8, 0x100000), (4, 0x8)], 64, [⟨0, 48, .ro, 0x0⟩]⟩,
  ⟨0x800040, [(8, 0x100000), (4, 0x8)], 64, [⟨0, 48, .w1c, 0x0⟩]⟩,
  ⟨0x800060, [(8, 0x100000)], 32, [⟨0, 2, .ro, 0x0⟩, ⟨2, 2, .ro, 0x0⟩, ⟨4, 2, .ro, 0x0⟩, ⟨6, 2, .ro, 0x0⟩, ⟨8, 2, .ro, 0x0⟩, ⟨10, 2, .ro, 0x0⟩, ⟨12, 2, .ro, 0x0⟩, ⟨14, 2, .ro, 0x0⟩, ⟨16, 2, .ro, 0x0⟩, ⟨18, 2, .ro, 0x0⟩, ⟨20, 2, .ro, 0x0⟩, ⟨22, 2, .ro, 0x0⟩, ⟨24, 2, .ro, 0x0⟩, ⟨26, 2, .ro, 0x0⟩, ⟨28, 2, .ro, 0x0⟩, ⟨30, 2, .ro, 0x0⟩]⟩,
  ⟨0x800100, [(8, 0x100000), (32, 0x8)], 64, [⟨0, 3, .ro, 0x0⟩, ⟨8, 14, .ro, 0x0⟩, ⟨24, 5, .ro, 0x0⟩, ⟨32, 2, .ro, 0x0⟩, ⟨34, 2, .ro, 0x0⟩]⟩,
  ⟨0x800200, [(8, 0x100000), (32, 0x8)], 64, [⟨0, 8, .ro, 0x0⟩, ⟨8, 3, .ro, 0x0⟩, ⟨16, 14, .ro, 0x0⟩, ⟨32, 16, .ro, 0x0⟩, ⟨63, 1, .ro, 0x0⟩]⟩,
  ⟨0x800300, [(8, 0x100000), (32, 0x8)], 64, [⟨0, 64, .ro, 0x0⟩]⟩,
  ⟨0x800400, [(8, 0x100000)], 32, [⟨0, 1, .wo, 0x0⟩]⟩,
  ⟨0x800440, [(8, 0x100000)], 64, [⟨0, 5, .ro, 0x0⟩, ⟨8, 14, .ro, 0x0⟩, ⟨24, 16, .ro, 0x0⟩, ⟨40, 3, .ro, 0x0⟩, ⟨63, 1, .ro, 0x0⟩]⟩,
  ⟨0x800448, [(8, 0x100000)], 64, [⟨0, 5, .ro, 0x0⟩, ⟨8, 13, .ro, 0x0⟩, ⟨32, 21, .ro, 0x0⟩]⟩,
  ⟨0x800450, [(8, 0x100000)], 64, [⟨0, 64, .ro, 0x0⟩]⟩,
  ⟨0x800068, [(8, 0x100000)], 32, [⟨0, 16, .ro, 0x0⟩]⟩,
  ⟨0x800500, [(8, 0x100000), (32, 0x8)], 64, [⟨0, 8, .ro, 0x0⟩, ⟨8, 5, .ro, 0x0⟩, ⟨13, 2, .ro, 0x0⟩, ⟨15, 1, .ro, 0x0⟩, ⟨16, 4, .ro, 0x0⟩, ⟨20, 4, .ro, 0x0⟩, ⟨63, 1, .ro, 0x0⟩]⟩]

def regTable5 : List RegDef := [
  ⟨0x1600000, [], 32, [⟨0, 8, .rw, 0xa⟩]⟩,
  ⟨0x1600004, [], 32, [⟨0, 1, .w1c, 0x0⟩, ⟨1, 1, .w1c, 0x0⟩, ⟨2, 1, .w1c, 0x0⟩, ⟨3, 1, .w1c, 0x0⟩, ⟨4, 1, .w1c, 0x0⟩, ⟨5, 1, .w1c, 0x0⟩]⟩,
  ⟨0x1600008, [], 32, [⟨0, 6, .rw, 0x0⟩]⟩,
  ⟨0x160000c, [], 32, [⟨0, 1, .wo, 0x0⟩]⟩,
  ⟨0x1600010, [], 32, [⟨0, 13, .ro, 0x0⟩]⟩,
  ⟨0x1600018, [], 64, [⟨0, 16, .ro, 0x0⟩, ⟨16, 8, .ro, 0x0⟩, ⟨24, 12, .ro, 0x0⟩, ⟨36, 16, .ro, 0x0⟩, ⟨63, 1, .w1c, 0x0⟩]⟩,
  ⟨0x1600020, [], 64, [⟨0, 32, .ro, 0x0⟩, ⟨32, 16, .ro, 0x0⟩]⟩,
  ⟨0x1600028, [], 64, [⟨0, 64, .ro, 0x0⟩]⟩,
  ⟨0x1600030, [], 64, [⟨0, 16, .ro, 0x0⟩, ⟨16, 8, .ro, 0x0⟩, ⟨24, 16, .ro, 0x0⟩, ⟨63, 1, .w1c, 0x0⟩]⟩,
  ⟨0x1600038, [], 64, [⟨0, 32, .ro, 0x0⟩, ⟨32, 32, .ro, 0x0⟩]⟩,
  ⟨0x1600040, [], 64, [⟨0, 64, .ro, 0x0⟩]⟩,
  ⟨0x1600080, [], 32, [⟨0, 1, .w1c, 0x0⟩, ⟨1, 1, .w1c, 0x0⟩, ⟨2, 1, .w1c, 0x0⟩]⟩,
  ⟨0x1600084, [], 32, [⟨0, 3, .rw, 0x0⟩]⟩,
  ⟨0x1600088, [], 64, [⟨0, 16, .ro, 0x0⟩, ⟨16, 8, .ro, 0x0⟩, ⟨24, 16, .ro, 0x0⟩, ⟨40, 8, .ro, 0x0⟩, ⟨63, 1, .w1c, 0x0⟩]⟩,
  ⟨0x400, [], 32, [⟨0, 8, .rw, 0x0⟩]⟩,
  ⟨0x408, [], 64, [⟨0, 16, .ro, 0x0⟩, ⟨16, 16, .ro, 0x1⟩, ⟨32, 1, .ro, 0x0⟩, ⟨33, 1, .ro, 0x0⟩]⟩,
  ⟨0x440, [(8, 0x8)], 64, [⟨0, 64, .ro, 0x0⟩]⟩,
  ⟨0x480, [(8, 0x8)], 64, [⟨0, 64, .ro, 0x0⟩]⟩,
  ⟨0x4c0, [], 64, [⟨0, 64, .ro, 0x0⟩]⟩,
  ⟨0x1500000, [], 32, [⟨0, 1, .rw, 0x0⟩, ⟨1, 1, .rw, 0x0⟩, ⟨2, 1, .rw, 0x1⟩, ⟨3, 1, .rw, 0x0⟩, ⟨4, 1, .rw, 0x0⟩, ⟨8, 8, .rw, 0xff⟩]⟩]

def regTable6 : List RegDef := [
  ⟨0x1500004, [], 32, [⟨0, 24, .rw, 0x0⟩]⟩,
  ⟨0x1500008, [], 32, [⟨0, 2, .ro, 0x0⟩, ⟨8, 1, .w1c, 0x0⟩, ⟨9, 1, .w1c, 0x0⟩, ⟨10, 1, .w1c, 0x0⟩, ⟨11, 1, .w1c, 0x0⟩]⟩,
  ⟨0x150000c, [], 32, [⟨0, 4, .rw, 0x0⟩]⟩,
  ⟨0x1500010, [], 32, [⟨0, 1, .rw, 0x0⟩, ⟨1, 1, .rw, 0x0⟩]⟩,
  ⟨0x1500018, [], 64, [⟨0, 64, .rw, 0x0⟩]⟩,
  ⟨0x1500020, [], 64, [⟨0, 40, .rw, 0x0⟩]⟩,
  ⟨0x1500028, [], 64, [⟨0, 40, .ro, 0x0⟩]⟩,
  ⟨0x1500030, [], 64, [⟨0, 40, .rw, 0x0⟩]⟩,
  ⟨0x1500038, [], 64, [⟨0, 32, .ro, 0x0⟩]⟩,
  ⟨0x1500040, [], 64, [⟨0, 16, .rw, 0x64⟩, ⟨16, 10, .rw, 0x0⟩]⟩,
  ⟨0x1500048, [], 64, [⟨0, 64, .ro, 0x0⟩]⟩,
  ⟨0x1500100, [(16, 0x8)], 64, [⟨0, 64, .rw, 0x0⟩]⟩,
  ⟨0x15000f0, [], 32, [⟨0, 1, .wo, 0x0⟩]⟩,
  ⟨0x200000, [], 32, [⟨0, 1, .rw, 0x1⟩]⟩,
  ⟨0x200008, [], 64, [⟨0, 11, .rw, 0x44c⟩, ⟨11, 11, .rw, 0x578⟩, ⟨32, 15, .rw, 0xfa0⟩, ⟨48, 8, .rw, 0x14⟩, ⟨56, 8, .rw, 0x50⟩]⟩,
  ⟨0x200010, [], 32, [⟨0, 3, .ro, 0x0⟩, ⟨3, 3, .ro, 0x0⟩, ⟨6, 3, .ro, 0x0⟩, ⟨9, 6, .ro, 0x0⟩, ⟨15, 1, .ro, 0x0⟩, ⟨16, 1, .ro, 0x0⟩, ⟨17, 1, .ro, 0x0⟩, ⟨18, 1, .ro, 0x0⟩]⟩,
  ⟨0x200014, [], 32, [⟨0, 3, .rw, 0x0⟩]⟩,
  ⟨0x200018, [], 32, [⟨0, 1, .w1c, 0x0⟩, ⟨1, 1, .w1c, 0x0⟩, ⟨2, 1, .w1c, 0x0⟩, ⟨3, 1, .w1c, 0x0⟩, ⟨4, 1, .w1c, 0x0⟩, ⟨5, 1, .w1c, 0x0⟩]⟩,
  ⟨0x20001c, [], 32, [⟨0, 6, .rw, 0x0⟩]⟩,
  ⟨0x200020, [], 32, [⟨0, 1, .wo, 0x0⟩]⟩]

def regTable7 : List RegDef := [
  ⟨0x200028, [], 64, [⟨0, 32, .ro, 0x0⟩, ⟨32, 32, .ro, 0x0⟩]⟩,
  ⟨0x200030, [], 64, [⟨0, 32, .ro, 0x0⟩, ⟨32, 32, .ro, 0x0⟩]⟩,
  ⟨0x200038, [], 64, [⟨0, 64, .ro, 0x0⟩]⟩,
  ⟨0x200040, [], 64, [⟨0, 8, .ro, 0x0⟩, ⟨8, 8, .ro, 0x0⟩, ⟨63, 1, .w1c, 0x0⟩]⟩,
  ⟨0x200048, [], 32, [⟨0, 8, .ro, 0x0⟩, ⟨8, 8, .ro, 0x0⟩, ⟨16, 8, .ro, 0x0⟩, ⟨24, 8, .ro, 0x0⟩]⟩,
  ⟨0x20004c, [], 32, [⟨0, 8, .rw, 0x64⟩, ⟨8, 8, .ro, 0x73⟩]⟩,
  ⟨0x200050, [], 32, [⟨0, 8, .rw, 0x28⟩, ⟨8, 16, .rw, 0x40⟩]⟩,
  ⟨0x200054, [], 32, [⟨0, 24, .rw, 0xee9ca0⟩]⟩,
  ⟨0x200058, [], 32, [⟨0, 8, .rw, 0x14⟩]⟩,
  ⟨0x20005c, [], 32, [⟨0, 16, .rw, 0x1000⟩]⟩,
  ⟨0x200100, [(11, 0x4)], 32, [⟨0, 24, .rw, 0x0⟩]⟩,
  ⟨0x200140, [], 32, [⟨0, 16, .rw, 0x0⟩]⟩,
  ⟨0x200144, [], 32, [⟨0, 16, .rw, 0x0⟩]⟩,
  ⟨0x200150, [(4, 0x4)], 32, [⟨0, 16, .rw, 0x0⟩]⟩,
  ⟨0x300000, [], 32, [⟨0, 1, .w1c, 0x0⟩, ⟨1, 1, .w1c, 0x0⟩, ⟨2, 1, .w1c, 0x0⟩]⟩,
  ⟨0x300004, [], 32, [⟨0, 3, .rw, 0x0⟩]⟩,
  ⟨0x300008, [], 32, [⟨0, 1, .wo, 0x0⟩]⟩,
  ⟨0x300010, [], 64, [⟨0, 10, .ro, 0x0⟩, ⟨10, 1, .ro, 0x0⟩, ⟨16, 8, .ro, 0x0⟩, ⟨32, 16, .ro, 0x0⟩, ⟨63, 1, .w1c, 0x0⟩]⟩,
  ⟨0x310000, [(1024, 0x20)], 64, [⟨12, 52, .rw, 0x0⟩]⟩,
  ⟨0x310008, [(1024, 0x20)], 32, [⟨0, 1, .rw, 0x0⟩, ⟨1, 4, .rw, 0x4⟩, ⟨8, 10, .rw, 0x0⟩]⟩]

def regTable8 : List RegDef := [
  ⟨0x310010, [(1024, 0x20)], 64, [⟨0, 16, .ro, 0x0⟩, ⟨16, 16, .ro, 0x0⟩, ⟨32, 1, .ro, 0x0⟩, ⟨33, 1, .ro, 0x0⟩, ⟨34, 1, .ro, 0x0⟩]⟩,
  ⟨0x320000, [(1024, 0x20)], 64, [⟨12, 52, .rw, 0x0⟩]⟩,
  ⟨0x320008, [(1024, 0x20)], 32, [⟨0, 1, .rw, 0x0⟩, ⟨1, 4, .rw, 0x4⟩, ⟨8, 6, .rw, 0x0⟩, ⟨14, 1, .rw, 0x0⟩]⟩,
  ⟨0x32000c, [(1024, 0x20)], 32, [⟨0, 8, .rw, 0x1⟩, ⟨16, 16, .rw, 0x0⟩]⟩,
  ⟨0x320010, [(1024, 0x20)], 64, [⟨0, 16, .ro, 0x0⟩, ⟨16, 16, .ro, 0x0⟩, ⟨32, 1, .ro, 0x1⟩, ⟨33, 1, .ro, 0x0⟩, ⟨34, 1, .ro, 0x0⟩]⟩,
  ⟨0x0, [], 64, [⟨0, 2, .ro, 0x0⟩, ⟨8, 8, .ro, 0x0⟩]⟩,
  ⟨0x8, [(2, 0x8)], 64, [⟨0, 16, .ro, 0x0⟩, ⟨16, 16, .ro, 0x0⟩, ⟨32, 16, .ro, 0x0⟩, ⟨48, 16, .ro, 0x0⟩]⟩,
  ⟨0x18, [(2, 0x8)], 64, [⟨0, 16, .ro, 0x0⟩, ⟨16, 16, .ro, 0x0⟩, ⟨32, 16, .ro, 0x0⟩, ⟨48, 16, .ro, 0x0⟩]⟩,
  ⟨0x30, [], 32, [⟨0, 1, .ro, 0x0⟩]⟩,
  ⟨0x40, [], 32, [⟨0, 1, .ro, 0x0⟩, ⟨1, 1, .ro, 0x0⟩, ⟨2, 1, .ro, 0x0⟩, ⟨3, 1, .ro, 0x0⟩, ⟨4, 1, .ro, 0x0⟩, ⟨5, 1, .ro, 0x0⟩, ⟨6, 1, .ro, 0x0⟩, ⟨7, 1, .ro, 0x0⟩, ⟨8, 1, .ro, 0x0⟩, ⟨9, 1, .ro, 0x0⟩]⟩,
  ⟨0x44, [], 32, [⟨0, 6, .rw, 0x0⟩]⟩,
  ⟨0x48, [], 32, [⟨0, 24, .ro, 0x0⟩]⟩,
  ⟨0x4c, [], 32, [⟨0, 8, .ro, 0x0⟩]⟩,
  ⟨0x50, [], 32, [⟨0, 1, .rw, 0x0⟩]⟩,
  ⟨0x100000, [], 32, [⟨0, 2, .ro, 0x0⟩, ⟨8, 8, .ro, 0x0⟩, ⟨16, 1, .ro, 0x0⟩, ⟨17, 2, .ro, 0x0⟩, ⟨19, 1, .ro, 0x0⟩]⟩,
  ⟨0x100004, [], 32, [⟨0, 1, .w1c, 0x0⟩, ⟨1, 1, .w1c, 0x0⟩, ⟨2, 1, .w1c, 0x0⟩, ⟨3, 1, .w1c, 0x0⟩]⟩,
  ⟨0x100008, [], 32, [⟨0, 4, .rw, 0x0⟩]⟩,
  ⟨0x100010, [], 64, [⟨0, 32, .ro, 0x0⟩, ⟨32, 7, .ro, 0x0⟩, ⟨40, 7, .ro, 0x0⟩, ⟨48, 4, .ro, 0x0⟩]⟩,
  ⟨0x100018, [], 64, [⟨0, 16, .ro, 0x0⟩]⟩,
  ⟨0x100020, [(2, 0x8)], 64, [⟨0, 64, .ro, 0x0⟩]⟩]

def regTable9 : List RegDef := [
  ⟨0x100040, [(8, 0x8)], 64, [⟨0, 64, .ro, 0x0⟩]⟩,
  ⟨0x100080, [(8, 0x8)], 64, [⟨0, 64, .ro, 0x0⟩]⟩,
  ⟨0x100140, [(8, 0x8)], 64, [⟨0, 64, .ro, 0x0⟩]⟩,
  ⟨0x100100, [], 32, [⟨0, 1, .wo, 0x0⟩, ⟨1, 2, .rw, 0x0⟩, ⟨3, 1, .wo, 0x0⟩, ⟨4, 1, .wo, 0x0⟩]⟩,
  ⟨0x100104, [], 32, [⟨0, 2, .ro, 0x0⟩, ⟨8, 8, .ro, 0x0⟩, ⟨16, 4, .ro, 0x0⟩]⟩,
  ⟨0x100200, [], 32, [⟨0, 32, .ro, 0x0⟩]⟩,
  ⟨0x101000, [(1805, 0x4)], 32, [⟨0, 32, .wo, 0x0⟩]⟩,
  ⟨0x1400000, [], 32, [⟨0, 1, .rw, 0x0⟩, ⟨1, 1, .rw, 0x0⟩, ⟨2, 1, .rw, 0x0⟩, ⟨16, 16, .rw, 0x0⟩]⟩,
  ⟨0x1400004, [], 32, [⟨0, 1, .wo, 0x0⟩, ⟨1, 1, .wo, 0x0⟩]⟩,
  ⟨0x1400008, [], 32, [⟨0, 3, .ro, 0x0⟩, ⟨3, 1, .ro, 0x0⟩, ⟨4, 1, .ro, 0x0⟩, ⟨5, 1, .ro, 0x0⟩, ⟨6, 1, .ro, 0x0⟩, ⟨7, 1, .ro, 0x0⟩, ⟨8, 3, .ro, 0x0⟩]⟩,
  ⟨0x140000c, [], 32, [⟨0, 1, .w1c, 0x0⟩, ⟨1, 1, .w1c, 0x0⟩, ⟨2, 1, .w1c, 0x0⟩, ⟨3, 1, .w1c, 0x0⟩, ⟨4, 1, .w1c, 0x0⟩, ⟨5, 1, .w1c, 0x0⟩, ⟨6, 1, .w1c, 0x0⟩, ⟨7, 1, .w1c, 0x0⟩, ⟨8, 1, .w1c, 0x0⟩]⟩,
  ⟨0x1400010, [], 32, [⟨0, 9, .rw, 0x0⟩]⟩,
  ⟨0x1400014, [], 32, [⟨0, 1, .wo, 0x0⟩]⟩,
  ⟨0x1400018, [], 32, [⟨0, 1, .rw, 0x0⟩, ⟨1, 1, .rw, 0x0⟩]⟩,
  ⟨0x1400020, [], 64, [⟨0, 4, .rw, 0x5⟩, ⟨8, 8, .rw, 0x8⟩, ⟨16, 16, .rw, 0x3e8⟩]⟩,
  ⟨0x1400028, [], 64, [⟨0, 1, .rw, 0x0⟩, ⟨8, 8, .rw, 0x20⟩, ⟨16, 8, .rw, 0x40⟩, ⟨24, 4, .rw, 0x2⟩, ⟨32, 16, .rw, 0x7d0⟩, ⟨48, 8, .rw, 0xa⟩, ⟨56, 7, .rw, 0x4b⟩]⟩,
  ⟨0x1400030, [], 64, [⟨0, 4, .rw, 0x0⟩, ⟨8, 16, .rw, 0xe10⟩]⟩,
  ⟨0x1400038, [], 64, [⟨0, 13, .ro, 0x0⟩, ⟨16, 13, .ro, 0x0⟩, ⟨63, 1, .w1c, 0x0⟩]⟩,
  ⟨0x1400040, [], 64, [⟨0, 64, .ro, 0x0⟩]⟩,
  ⟨0x1400048, [], 64, [⟨0, 16, .ro, 0x0⟩, ⟨16, 12, .ro, 0x0⟩, ⟨28, 2, .ro, 0x0⟩, ⟨63, 1, .w1c, 0x0⟩]⟩]

def regTable10 : List RegDef := [
  ⟨0x1400050, [], 64, [⟨0, 64, .ro, 0x0⟩]⟩,
  ⟨0x1400058, [], 64, [⟨0, 64, .ro, 0x0⟩]⟩,
  ⟨0x1400068, [], 64, [⟨0, 48, .rw, 0x0⟩]⟩,
  ⟨0x1400070, [], 64, [⟨0, 48, .rw, 0x0⟩]⟩,
  ⟨0x1400078, [], 64, [⟨0, 48, .rw, 0x0⟩]⟩,
  ⟨0x1400060, [], 32, [⟨0, 2, .rw, 0x0⟩, ⟨2, 1, .rw, 0x0⟩, ⟨3, 1, .ro, 0x0⟩, ⟨4, 2, .ro, 0x0⟩]⟩,
  ⟨0x600, [], 32, [⟨0, 1, .w1c, 0x0⟩, ⟨1, 1, .w1c, 0x0⟩, ⟨2, 1, .w1c, 0x0⟩, ⟨3, 1, .w1c, 0x0⟩, ⟨4, 1, .w1c, 0x0⟩]⟩,
  ⟨0x604, [], 32, [⟨0, 5, .rw, 0x0⟩]⟩,
  ⟨0x608, [], 32, [⟨0, 6, .rw, 0x0⟩]⟩,
  ⟨0x610, [], 64, [⟨0, 3, .ro, 0x0⟩, ⟨8, 8, .ro, 0x0⟩, ⟨16, 8, .ro, 0x0⟩, ⟨24, 8, .ro, 0x0⟩, ⟨32, 8, .ro, 0x0⟩, ⟨63, 1, .w1c, 0x0⟩]⟩,
  ⟨0x620, [], 64, [⟨0, 3, .ro, 0x0⟩, ⟨8, 8, .ro, 0x0⟩, ⟨16, 8, .ro, 0x0⟩, ⟨24, 8, .ro, 0x0⟩, ⟨32, 8, .ro, 0x0⟩, ⟨63, 1, .w1c, 0x0⟩]⟩,
  ⟨0x618, [], 64, [⟨0, 64, .ro, 0x0⟩]⟩,
  ⟨0x628, [], 64, [⟨0, 64, .ro, 0x0⟩]⟩,
  ⟨0x630, [], 32, [⟨0, 1, .wo, 0x0⟩, ⟨8, 8, .wo, 0x0⟩, ⟨16, 1, .wo, 0x0⟩, ⟨17, 5, .wo, 0x0⟩, ⟨22, 1, .wo, 0x0⟩, ⟨23, 3, .wo, 0x0⟩]⟩,
  ⟨0x634, [], 32, [⟨0, 3, .ro, 0x0⟩, ⟨8, 1, .ro, 0x0⟩, ⟨9, 1, .w1c, 0x0⟩]⟩,
  ⟨0x638, [], 64, [⟨0, 16, .ro, 0x0⟩, ⟨16, 16, .ro, 0x0⟩, ⟨32, 16, .ro, 0x0⟩]⟩,
  ⟨0x800, [], 64, [⟨0, 9, .ro, 0x0⟩, ⟨9, 9, .ro, 0x0⟩, ⟨18, 9, .ro, 0x0⟩, ⟨27, 1, .ro, 0x0⟩, ⟨28, 1, .ro, 0x0⟩]⟩,
  ⟨0x808, [], 64, [⟨0, 64, .ro, 0x0⟩]⟩,
  ⟨0x640, [], 32, [⟨0, 1, .wo, 0x0⟩]⟩,
  ⟨0x8000, [(64, 0x10)], 64, [⟨0, 64, .rw, 0x0⟩]⟩]

def regTable11 : List RegDef := [
  ⟨0x8008, [(64, 0x10)], 32, [⟨0, 32, .rw, 0x0⟩]⟩,
  ⟨0x800c, [(64, 0x10)], 32, [⟨0, 1, .rw, 0x1⟩]⟩,
  ⟨0x9000, [], 64, [⟨0, 64, .ro, 0x0⟩]⟩,
  ⟨0x1400200, [(2, 0x80)], 64, [⟨0, 64, .ro, 0x0⟩]⟩,
  ⟨0x1400208, [(2, 0x80)], 64, [⟨0, 64, .ro, 0x0⟩]⟩,
  ⟨0x1400210, [(2, 0x80)], 64, [⟨0, 64, .ro, 0x0⟩]⟩,
  ⟨0x1400218, [(2, 0x80)], 64, [⟨0, 64, .ro, 0x0⟩]⟩,
  ⟨0x1400220, [(2, 0x80)], 64, [⟨0, 64, .ro, 0x0⟩]⟩,
  ⟨0x1400228, [(2, 0x80)], 64, [⟨0, 64, .ro, 0x0⟩]⟩,
  ⟨0x1400230, [(2, 0x80)], 64, [⟨0, 64, .ro, 0x0⟩]⟩,
  ⟨0x1400238, [(2, 0x80)], 64, [⟨0, 64, .ro, 0x0⟩]⟩,
  ⟨0x400800, [(24, 0x20000)], 64, [⟨0, 64, .ro, 0x0⟩]⟩,
  ⟨0x400808, [(24, 0x20000)], 64, [⟨0, 64, .ro, 0x0⟩]⟩,
  ⟨0x400810, [(24, 0x20000)], 64, [⟨0, 64, .ro, 0x0⟩]⟩,
  ⟨0x400880, [(24, 0x20000), (16, 0x8)], 64, [⟨0, 64, .ro, 0x0⟩]⟩,
  ⟨0x401000, [(24, 0x20000), (8, 0x100)], 64, [⟨0, 64, .ro, 0x0⟩]⟩,
  ⟨0x401058, [(24, 0x20000), (8, 0x100)], 64, [⟨0, 64, .ro, 0x0⟩]⟩,
  ⟨0x401008, [(24, 0x20000), (8, 0x100)], 64, [⟨0, 64, .ro, 0x0⟩]⟩,
  ⟨0x401060, [(24, 0x20000), (8, 0x100)], 64, [⟨0, 64, .ro, 0x0⟩]⟩,
  ⟨0x401010, [(24, 0x20000), (8, 0x100)], 64, [⟨0, 64, .ro, 0x0⟩]⟩]

def regTable12 : List RegDef := [
  ⟨0x401068, [(24, 0x20000), (8, 0x100)], 64, [⟨0, 64, .ro, 0x0⟩]⟩,
  ⟨0x401018, [(24, 0x20000), (8, 0x100)], 64, [⟨0, 64, .ro, 0x0⟩]⟩,
  ⟨0x401070, [(24, 0x20000), (8, 0x100)], 64, [⟨0, 64, .ro, 0x0⟩]⟩,
  ⟨0x401020, [(24, 0x20000), (8, 0x100)], 64, [⟨0, 64, .ro, 0x0⟩]⟩,
  ⟨0x401078, [(24, 0x20000), (8, 0x100)], 64, [⟨0, 64, .ro, 0x0⟩]⟩,
  ⟨0x401028, [(24, 0x20000), (8, 0x100)], 64, [⟨0, 64, .ro, 0x0⟩]⟩,
  ⟨0x401080, [(24, 0x20000), (8, 0x100)], 64, [⟨0, 64, .ro, 0x0⟩]⟩,
  ⟨0x401030, [(24, 0x20000), (8, 0x100)], 64, [⟨0, 64, .ro, 0x0⟩]⟩,
  ⟨0x401088, [(24, 0x20000), (8, 0x100)], 64, [⟨0, 64, .ro, 0x0⟩]⟩,
  ⟨0x401038, [(24, 0x20000), (8, 0x100)], 64, [⟨0, 64, .ro, 0x0⟩]⟩,
  ⟨0x401090, [(24, 0x20000), (8, 0x100)], 64, [⟨0, 64, .ro, 0x0⟩]⟩,
  ⟨0x401040, [(24, 0x20000), (8, 0x100)], 64, [⟨0, 64, .ro, 0x0⟩]⟩,
  ⟨0x401098, [(24, 0x20000), (8, 0x100)], 64, [⟨0, 64, .ro, 0x0⟩]⟩,
  ⟨0x401048, [(24, 0x20000), (8, 0x100)], 64, [⟨0, 64, .ro, 0x0⟩]⟩,
  ⟨0x4010a0, [(24, 0x20000), (8, 0x100)], 64, [⟨0, 64, .ro, 0x0⟩]⟩,
  ⟨0x401050, [(24, 0x20000), (8, 0x100)], 64, [⟨0, 64, .ro, 0x0⟩]⟩,
  ⟨0x4010a8, [(24, 0x20000), (8, 0x100)], 64, [⟨0, 64, .ro, 0x0⟩]⟩,
  ⟨0x4010d0, [(24, 0x20000), (8, 0x100)], 64, [⟨0, 64, .ro, 0x0⟩]⟩,
  ⟨0x4010b0, [(24, 0x20000), (8, 0x100)], 64, [⟨0, 64, .ro, 0x0⟩]⟩,
  ⟨0x4010d8, [(24, 0x20000), (8, 0x100)], 64, [⟨0, 64, .ro, 0x0⟩]⟩]

def regTable13 : List RegDef := [
  ⟨0x4010b8, [(24, 0x20000), (8, 0x100)], 64, [⟨0, 64, .ro, 0x0⟩]⟩,
  ⟨0x4010e0, [(24, 0x20000), (8, 0x100)], 64, [⟨0, 64, .ro, 0x0⟩]⟩,
  ⟨0x4010c0, [(24, 0x20000), (8, 0x100)], 64, [⟨0, 64, .ro, 0x0⟩]⟩,
  ⟨0x4010e8, [(24, 0x20000), (8, 0x100)], 64, [⟨0, 64, .ro, 0x0⟩]⟩,
  ⟨0x4010c8, [(24, 0x20000), (8, 0x100)], 64, [⟨0, 64, .ro, 0x0⟩]⟩,
  ⟨0x1000100, [], 64, [⟨0, 64, .ro, 0x0⟩]⟩,
  ⟨0x1000128, [], 64, [⟨0, 64, .ro, 0x0⟩]⟩,
  ⟨0x1000108, [], 64, [⟨0, 64, .ro, 0x0⟩]⟩,
  ⟨0x1000130, [], 64, [⟨0, 64, .ro, 0x0⟩]⟩,
  ⟨0x1000110, [], 64, [⟨0, 64, .ro, 0x0⟩]⟩,
  ⟨0x1000138, [], 64, [⟨0, 64, .ro, 0x0⟩]⟩,
  ⟨0x1000118, [], 64, [⟨0, 64, .ro, 0x0⟩]⟩,
  ⟨0x1000140, [], 64, [⟨0, 64, .ro, 0x0⟩]⟩,
  ⟨0x1000120, [], 64, [⟨0, 64, .ro, 0x0⟩]⟩,
  ⟨0x1000148, [], 64, [⟨0, 64, .ro, 0x0⟩]⟩,
  ⟨0x801000, [(8, 0x100000)], 64, [⟨0, 64, .ro, 0x0⟩]⟩,
  ⟨0x801020, [(8, 0x100000)], 64, [⟨0, 64, .ro, 0x0⟩]⟩,
  ⟨0x801008, [(8, 0x100000)], 64, [⟨0, 64, .ro, 0x0⟩]⟩,
  ⟨0x801028, [(8, 0x100000)], 64, [⟨0, 64, .ro, 0x0⟩]⟩,
  ⟨0x801010, [(8, 0x100000)], 64, [⟨0, 64, .ro, 0x0⟩]⟩]

def regTable14 : List RegDef := [
  ⟨0x801030, [(8, 0x100000)], 64, [⟨0, 64, .ro, 0x0⟩]⟩,
  ⟨0x801018, [(8, 0x100000)], 64, [⟨0, 64, .ro, 0x0⟩]⟩,
  ⟨0x801038, [(8, 0x100000)], 64, [⟨0, 64, .ro, 0x0⟩]⟩,
  ⟨0x800408, [(8, 0x100000)], 64, [⟨0, 64, .ro, 0x0⟩]⟩,
  ⟨0x800410, [(8, 0x100000)], 64, [⟨0, 64, .ro, 0x0⟩]⟩,
  ⟨0x800418, [(8, 0x100000)], 64, [⟨0, 64, .ro, 0x0⟩]⟩,
  ⟨0x800420, [(8, 0x100000)], 64, [⟨0, 64, .ro, 0x0⟩]⟩,
  ⟨0x800428, [(8, 0x100000)], 64, [⟨0, 64, .ro, 0x0⟩]⟩,
  ⟨0x801100, [(8, 0x100000)], 64, [⟨0, 64, .ro, 0x0⟩]⟩,
  ⟨0x801118, [(8, 0x100000)], 64, [⟨0, 64, .ro, 0x0⟩]⟩,
  ⟨0x801108, [(8, 0x100000)], 64, [⟨0, 64, .ro, 0x0⟩]⟩,
  ⟨0x801120, [(8, 0x100000)], 64, [⟨0, 64, .ro, 0x0⟩]⟩,
  ⟨0x801110, [(8, 0x100000)], 64, [⟨0, 64, .ro, 0x0⟩]⟩,
  ⟨0x801128, [(8, 0x100000)], 64, [⟨0, 64, .ro, 0x0⟩]⟩,
  ⟨0x801200, [(8, 0x100000)], 64, [⟨0, 64, .ro, 0x0⟩]⟩,
  ⟨0x801218, [(8, 0x100000)], 64, [⟨0, 64, .ro, 0x0⟩]⟩,
  ⟨0x801208, [(8, 0x100000)], 64, [⟨0, 64, .ro, 0x0⟩]⟩,
  ⟨0x801220, [(8, 0x100000)], 64, [⟨0, 64, .ro, 0x0⟩]⟩,
  ⟨0x801210, [(8, 0x100000)], 64, [⟨0, 64, .ro, 0x0⟩]⟩,
  ⟨0x801228, [(8, 0x100000)], 64, [⟨0, 64, .ro, 0x0⟩]⟩]

def regTable15 : List RegDef := [
  ⟨0x1600100, [], 64, [⟨0, 64, .ro, 0x0⟩]⟩,
  ⟨0x1600138, [], 64, [⟨0, 64, .ro, 0x0⟩]⟩,
  ⟨0x1600108, [], 64, [⟨0, 64, .ro, 0x0⟩]⟩,
  ⟨0x1600140, [], 64, [⟨0, 64, .ro, 0x0⟩]⟩,
  ⟨0x1600110, [], 64, [⟨0, 64, .ro, 0x0⟩]⟩,
  ⟨0x1600148, [], 64, [⟨0, 64, .ro, 0x0⟩]⟩,
  ⟨0x1600118, [], 64, [⟨0, 64, .ro, 0x0⟩]⟩,
  ⟨0x1600150, [], 64, [⟨0, 64, .ro, 0x0⟩]⟩,
  ⟨0x1600120, [], 64, [⟨0, 64, .ro, 0x0⟩]⟩,
  ⟨0x1600158, [], 64, [⟨0, 64, .ro, 0x0⟩]⟩,
  ⟨0x1600128, [], 64, [⟨0, 64, .ro, 0x0⟩]⟩,
  ⟨0x1600160, [], 64, [⟨0, 64, .ro, 0x0⟩]⟩,
  ⟨0x1600130, [], 64, [⟨0, 64, .ro, 0x0⟩]⟩,
  ⟨0x1600200, [], 64, [⟨0, 64, .ro, 0x0⟩]⟩,
  ⟨0x1600230, [], 64, [⟨0, 64, .ro, 0x0⟩]⟩,
  ⟨0x1600208, [], 64, [⟨0, 64, .ro, 0x0⟩]⟩,
  ⟨0x1600238, [], 64, [⟨0, 64, .ro, 0x0⟩]⟩,
  ⟨0x1600210, [], 64, [⟨0, 64, .ro, 0x0⟩]⟩,
  ⟨0x1600240, [], 64, [⟨0, 64, .ro, 0x0⟩]⟩,
  ⟨0x1600218, [], 64, [⟨0, 64, .ro, 0x0⟩]⟩]

def regTable16 : List RegDef := [
  ⟨0x1600248, [], 64, [⟨0, 64, .ro, 0x0⟩]⟩,
  ⟨0x1600220, [], 64, [⟨0, 64, .ro, 0x0⟩]⟩,
  ⟨0x1600250, [], 64, [⟨0, 64, .ro, 0x0⟩]⟩,
  ⟨0x1600228, [], 64, [⟨0, 64, .ro, 0x0⟩]⟩,
  ⟨0x1500200, [], 64, [⟨0, 64, .ro, 0x0⟩]⟩,
  ⟨0x1500220, [], 64, [⟨0, 64, .ro, 0x0⟩]⟩,
  ⟨0x1500208, [], 64, [⟨0, 64, .ro, 0x0⟩]⟩,
  ⟨0x1500228, [], 64, [⟨0, 64, .ro, 0x0⟩]⟩,
  ⟨0x1500210, [], 64, [⟨0, 64, .ro, 0x0⟩]⟩,
  ⟨0x1500230, [], 64, [⟨0, 64, .ro, 0x0⟩]⟩,
  ⟨0x1500218, [], 64, [⟨0, 64, .ro, 0x0⟩]⟩,
  ⟨0x200200, [], 64, [⟨0, 64, .ro, 0x0⟩]⟩,
  ⟨0x200228, [], 64, [⟨0, 64, .ro, 0x0⟩]⟩,
  ⟨0x200208, [], 64, [⟨0, 64, .ro, 0x0⟩]⟩,
  ⟨0x200230, [], 64, [⟨0, 64, .ro, 0x0⟩]⟩,
  ⟨0x200210, [], 64, [⟨0, 64, .ro, 0x0⟩]⟩,
  ⟨0x200238, [], 64, [⟨0, 64, .ro, 0x0⟩]⟩,
  ⟨0x200218, [], 64, [⟨0, 64, .ro, 0x0⟩]⟩,
  ⟨0x200240, [], 64, [⟨0, 64, .ro, 0x0⟩]⟩,
  ⟨0x200220, [], 64, [⟨0, 64, .ro, 0x0⟩]⟩]

def regTable17 : List RegDef := [
  ⟨0x200248, [], 64, [⟨0, 64, .ro, 0x0⟩]⟩,
  ⟨0x300100, [], 64, [⟨0, 64, .ro, 0x0⟩]⟩,
  ⟨0x300118, [], 64, [⟨0, 64, .ro, 0x0⟩]⟩,
  ⟨0x300108, [], 64, [⟨0, 64, .ro, 0x0⟩]⟩,
  ⟨0x300120, [], 64, [⟨0, 64, .ro, 0x0⟩]⟩,
  ⟨0x300110, [], 64, [⟨0, 64, .ro, 0x0⟩]⟩,
  ⟨0x300128, [], 64, [⟨0, 64, .ro, 0x0⟩]⟩,
  ⟨0x1400100, [], 64, [⟨0, 64, .ro, 0x0⟩]⟩,
  ⟨0x1400128, [], 64, [⟨0, 64, .ro, 0x0⟩]⟩,
  ⟨0x1400108, [], 64, [⟨0, 64, .ro, 0x0⟩]⟩,
  ⟨0x1400130, [], 64, [⟨0, 64, .ro, 0x0⟩]⟩,
  ⟨0x1400110, [], 64, [⟨0, 64, .ro, 0x0⟩]⟩,
  ⟨0x1400138, [], 64, [⟨0, 64, .ro, 0x0⟩]⟩,
  ⟨0x1400118, [], 64, [⟨0, 64, .ro, 0x0⟩]⟩,
  ⟨0x1400140, [], 64, [⟨0, 64, .ro, 0x0⟩]⟩,
  ⟨0x1400120, [], 64, [⟨0, 64, .ro, 0x0⟩]⟩,
  ⟨0x1400148, [], 64, [⟨0, 64, .ro, 0x0⟩]⟩,
  ⟨0x700, [], 64, [⟨0, 64, .ro, 0x0⟩]⟩,
  ⟨0x720, [], 64, [⟨0, 64, .ro, 0x0⟩]⟩,
  ⟨0x708, [], 64, [⟨0, 64, .ro, 0x0⟩]⟩]

def regTable18 : List RegDef := [
  ⟨0x728, [], 64, [⟨0, 64, .ro, 0x0⟩]⟩,
  ⟨0x710, [], 64, [⟨0, 64, .ro, 0x0⟩]⟩,
  ⟨0x730, [], 64, [⟨0, 64, .ro, 0x0⟩]⟩,
  ⟨0x718, [], 64, [⟨0, 64, .ro, 0x0⟩]⟩,
  ⟨0x738, [], 64, [⟨0, 64, .ro, 0x0⟩]⟩,
  ⟨0x4010f0, [(24, 0x20000), (8, 0x100)], 64, [⟨0, 64, .ro, 0x0⟩]⟩,
  ⟨0x4010f8, [(24, 0x20000), (8, 0x100)], 64, [⟨0, 64, .ro, 0x0⟩]⟩,
  ⟨0x801040, [(8, 0x100000)], 64, [⟨0, 64, .ro, 0x0⟩]⟩]

/-- Every register of BAR0. -/
def regTable : List RegDef :=
  regTable0 ++ regTable1 ++ regTable2 ++ regTable3 ++ regTable4 ++ regTable5 ++ regTable6 ++ regTable7 ++ regTable8 ++ regTable9 ++ regTable10 ++ regTable11 ++ regTable12 ++ regTable13 ++ regTable14 ++ regTable15 ++ regTable16 ++ regTable17 ++ regTable18

end Sys2Proof.Machine
end

