-- ==== Sys2Proof/Machine/State.lean ====
section
/-! DEFINITION. The state of the block: everything the spec gives the device to hold, as plain data, and the state after reset.

Every register field has its home in `State.regs`; what no register shows (queues, buffers, sequences, frames under way) is in
the structures below. A field's default is its value after an AON power-up. -/

namespace Sys2Proof.Machine

/-- Why a command stops the machine. No command of this block does: every row of the table has an effect in every state. -/
inductive Fault where
  /-- Raised by no meaning. Safe: a machine that stopped could prove nothing false. -/
  | stuck
  deriving DecidableEq, Repr

/-- Why a command is refused. -/
inductive Refusal where
  /-- A command that has no meaning yet, by its mnemonic. Safe: nothing can be proved of what it does. -/
  | notModelled (mnemonic : String)
  deriving DecidableEq, Repr

/-! ### Fabric time (02) -/

/-- Events that wait for a device time (R43, R46). -/
inductive Timed where
  | gateApply (p : Nat)
  | gateChange (p : Nat)
  | shaper (src c : Nat)
  | windowEnd (gid step : Nat)
  | deadline (gid batch : Nat)
  | flush (gid : Nat)
  | rehearse
  | rehearseEnd
  /-- A reinserted laser module has been held in reset for 100 ms (R452). -/
  | laserRun (k : Nat)
  /-- The port or channel reset in progress ends (R441). -/
  | resetDone
  deriving DecidableEq, Repr

/-- A scheduled event: its time, its order among equal times (R47), what it does. -/
structure Sched where
  at_ : FT64
  ord : Nat
  ev : Timed
  deriving DecidableEq, Repr

/-- A two-step PTP Sync that waits for its Follow_Up (R38). -/
structure PtpSync where
  seq : Nat
  ingress : FT64
  corr : Int
  deriving DecidableEq, Repr

/-- The peer delay exchange under way (R38): sequence, t1, then the responder's t2 and the ingress stamp t4. -/
structure PtpPdelay where
  seq : Nat
  /-- Its transmit time, once it has left. -/
  t1 : Option FT64 := none
  resp : Option (FT64 × FT64 × Int) := none
  deriving DecidableEq, Repr

/-- A pip that a pset of another core of the channel sets later (R163): the SEQ cycle, channel, core, pip. -/
structure PipLater where
  seq : Nat
  ch : Nat
  core : Nat
  pip : Nat
  deriving DecidableEq, Repr

/-- Fabric time: the accumulator (R31) and what the discipline remembers (R34–R42). -/
structure Clk where
  /-- The 96-bit accumulator; its upper 64 bits are device time. -/
  acc : BitVec 96 := 0
  /-- TIME cycles since reset, the reference by which the packet pipelines are paced (R91). -/
  cyc : Nat := 0
  /-- Stepping is barred (R41, R42). -/
  stepBarred : Bool := false
  /-- Consecutive measurements within lock_thresh. -/
  okRun : Nat := 0
  /-- Consecutive measurements beyond unlock_thresh. -/
  badRun : Nat := 0
  lockedAt : FT64 := 0
  holdAt : FT64 := 0
  /-- The frequency correction that the servo holds, kept through HOLDOVER (R31). -/
  freq : Int := 0
  /-- A source chosen by src_sel that has not yet measured (R34). -/
  pending : Option Nat := none
  onBackup : Bool := false
  ppsWritten : Bool := false
  /-- Stamp of the last measurement of the active source (R40). -/
  lastMeas : FT64 := 0
  /-- Delay requests in a row without a response (R40). -/
  missed : Nat := 0
  /-- The active source has been declared lost and has not measured since (R40). -/
  lost : Bool := false
  /-- Stamp of the last FT_PPS_IN edge in pin mode (R40). -/
  lastPps : FT64 := 0
  /-- FT_REF has stopped since (R40, R462). -/
  refStop : Option FT64 := none
  /-- The outstanding link delay request: the source number it leaves by. -/
  linkReq : Option Nat := none
  /-- The last link delays, newest first, at most 8 (R36). -/
  ldelay : List Nat := []
  pdelay : List Nat := []
  sync : Option PtpSync := none
  pdReq : Option PtpPdelay := none
  pdSeq : Nat := 0
  /-- Root identity, hop count and quality of the last accepted beacon, passed on when beacons are regenerated (R35). -/
  rootId : Nat := 0
  rootHops : Nat := 0
  rootQuality : Nat := 0
  /-- Beacon sequence of each logical port (R37). -/
  beaconSeq : Tab Nat := []
  /-- Arrival sequence of each source (R47). -/
  arr : Tab Nat := []
  sched : List Sched := []
  /-- Pips on their way to another core, earliest first (R163). -/
  pips : List PipLater := []
  /-- Sixteenths of CORE cycles up to TIME cycle `coreSince`: of compute dies 0–3, and 4 of the level in force without stretch (R20, R353). -/
  core : Tab Nat := []
  coreSince : Nat := 0
  deriving DecidableEq, Repr

/-! ### Frames and outputs -/

/-- What the device puts on its pins, links and buses, newest last. -/
inductive Out where
  /-- A frame on a logical port or a mirror port (source number): the six preamble bytes before the SFD (R57), bytes without FCS, ended
  with its FCS or the abort code (R88). -/
  | frame (src : Nat) (pre : Bytes) (bytes : Bytes) (good : Bool) (stamp : FT64)
  /-- A frame on out-of-band port k. -/
  | oob (k : Nat) (bytes : Bytes)
  | hostWrite (addr : Nat) (bytes : Bytes)
  /-- An MSI-X message (R378). -/
  | msix (addr data : Nat)
  /-- The answer to a BAR4 read; `none` is an error response with all ones (R361). -/
  | bar4Read (addr : Nat) (bytes : Option Bytes)
  | bar4Write (addr : Nat) (ok : Bool)
  | spdm (body : Bytes)
  | sideband (body : Bytes)
  | jtag (word : Nat)
  /-- A pin driven to a level. -/
  | pin (name : String) (level : Bool)
  deriving DecidableEq, Repr

/-- What the egress path changes in a copy (R82, R269). -/
structure Edit where
  /-- Routed rewrite: new destination MAC, source MAC of the egress port, TTL or hop limit lowered. -/
  route : Bool := false
  dmac : Nat := 0
  vlanOp : Nat := 0
  vid : Nat := 0
  /-- Source MAC of the egress port alone (R269). -/
  smac : Bool := false
  deriving DecidableEq, Repr

/-- One copy of a frame for an egress logical port. -/
structure Copy where
  frm : Nat
  edit : Edit
  cut : Bool
  rep : Bool
  deriving DecidableEq, Repr

/-- A frame that the store holds, whole or still arriving. -/
structure Frm where
  /-- Source number it came by: 0–191 a logical port, 194–195 the device itself. -/
  src : Nat
  /-- The logical port that counts its drops: the ingress one, or the first of the sending channel (R73, R77). -/
  cnt : Nat := 0
  stamp : FT64
  arr : Nat
  /-- Its buffer, as a 256-byte unit (R104). -/
  unit : Nat
  /-- Bytes present, without FCS. -/
  len : Nat
  /-- Bytes beyond the buffer's size. -/
  rest : Bytes := []
  /-- How its tail came, once it has. -/
  tail : Option Fcs := none
  /-- Length given by its header, with FCS (R87). -/
  est : Option Nat
  cls : Nat
  excess : Bool := false
  lossless : Bool := false
  /-- The FT64 stamp is written as its first bit leaves (R45), where the frame is ECH at its egress port or one of the device's own (R205). -/
  oneStep : Bool := false
  own : Bool := false
  /-- An oversize frame: the ingress max_frame (R56). -/
  cutAt : Option Nat := none
  /-- Copies queued, under way or still to be queued. -/
  copies : Nat := 0
  /-- Stored-and-forwarded copies that wait for the tail, with their egress logical ports (R86). -/
  saf : List (Nat × Copy) := []
  deriving DecidableEq, Repr

/-- A copy whose transmission is under way. -/
structure Tx where
  copy : Copy
  /-- The scheduling length with which it started (R128). -/
  sched : Nat
  /-- The rate of the shaper that it has debited (R130). -/
  rate : Nat := 0
  /-- The stamp of its first bit at the transmit plane (R45). -/
  stamp : FT64
  seq : Option Nat
  /-- Ended by the abort code, whatever the tail says. -/
  abort : Bool := false
  /-- It ran out of committed bytes (R89), or its word was uncorrectable (R115), after this many bytes. -/
  stopAt : Option Nat := none
  deriving DecidableEq, Repr

/-- A sequenced frame kept for retry (R58). -/
structure Held where
  seq : Nat
  bytes : Bytes
  good : Bool
  stamp : FT64
  deriving DecidableEq, Repr

/-- What a frame that a port originates does as its first bit leaves. -/
inductive AtStart where
  | none
  /-- Its ECH header takes the stamp (R45). -/
  | oneStep
  /-- It is the device's Pdelay_Req: the stamp is t1 (R38). -/
  | pdelayReq
  /-- It is a Pdelay_Resp: this Pdelay_Resp_Follow_Up, whose correction is given, takes the stamp as t3 and follows (R38). -/
  | pdelayResp (follow : Bytes) (corr : Int)
  deriving DecidableEq, Repr

/-- A frame that a port originates, as it waits to be sent between frames (R66). -/
structure CtlTx where
  bytes : Bytes
  start : AtStart := .none
  /-- Sequenced where retry is active: all but the LLR, credit and PFC frames (R57). -/
  seqd : Bool := false
  deriving DecidableEq, Repr

/-- The egress side of a logical port (06). -/
structure Egress where
  /-- The queue of each class. -/
  q : Tab (List Copy) := []
  active : List Nat := []
  deficit : Tab Int := []
  visited : List Nat := []
  tx : Option Tx := none
  /-- Remainder of each shaper, tc7's limiter at 7 (R130); 0 at reset (DESIGN CHOICE). -/
  num : Tab Nat := []
  /-- Eligibility time of the tc7 limiter (R129); 0 at reset (DESIGN CHOICE). -/
  e7 : FT64 := 0
  /-- The tc7 limiter had become eligible when device time stepped back (R43). -/
  held7 : Bool := false
  /-- Parked shapers (R131). -/
  parked : List Nat := []
  /-- Frames of the port's own that wait for the frame in progress (R66) or for room in the retry buffer (R58). -/
  ctlq : List CtlTx := []
  /-- Up to when the wait for credit under way is counted in credit_wait_ns, and since when it has lasted (R71). -/
  creditWait : Option FT64 := none
  creditSince : Option FT64 := none
  deriving DecidableEq, Repr

/-- Link states (R54). -/
inductive LinkSt where
  | disabled | down | align | llrInit | fcInit | up
  deriving DecidableEq, Repr

/-- The fate a frame received (R21). -/
inductive Fate where
  | none
  | drop
  /-- Consumed by the port, the time logic or the discipline (rows 1–3). -/
  | port
  | fwd (frm : Nat)
  | group (frm gid : Nat)
  | token (frm gid : Nat)
  | prog (frm cx tag : Nat)
  deriving DecidableEq, Repr

/-- A frame that is being received. -/
structure Rx where
  stamp : FT64
  arr : Nat
  /-- Sequenced under LLR, and accepted at its header (R59). -/
  sequenced : Bool := false
  accept : Bool := true
  /-- Discarded at the port: during a replay (R338), or while the port is not UP and it is no link control frame. -/
  dropped : Bool := false
  /-- The link went down under it: its tail is bad (R52, R55). -/
  cut : Bool := false
  /-- It stands in the Seedbank staging (R329). -/
  recorded : Bool := false
  decided : Bool := false
  whole : Bool := false
  data : Bytes := []
  /-- Policed colour: 0 not policed, 1 yellow, 2 green, 3 red (R125). -/
  colour : Nat := 0
  cls : Nat := 0
  fate : Fate := .none
  deriving DecidableEq, Repr

/-- A control frame that waits to be acted on: its ingress stamp and its bytes. -/
structure Ctl where
  stamp : FT64
  arr : Nat
  good : Bool
  bytes : Bytes
  deriving DecidableEq, Repr

/-- A policer (R124). -/
structure Policer where
  tc : Int := 0
  tp : Int := 0
  last : Option FT64 := none
  rc : Nat := 0
  rp : Nat := 0
  deriving DecidableEq, Repr

/-- A logical port (03). -/
structure Link where
  st : LinkSt := .disabled
  /-- When the state was entered. -/
  since : FT64 := 0
  signal : Bool := false
  lock : Bool := false
  /-- When alignment lock was lost (R54). -/
  lostAt : Option FT64 := none
  ownSess : Nat := 0
  peerSess : Nat := 0
  peerInit : Option Bool := none
  /-- The llr_req of the last LLR_INIT sent since LLR_INIT was entered (R62). -/
  sentInit : Option Bool := none
  nextExp : Nat := 0
  /-- Sequenced frames are discarded until next_expected arrives (R59). -/
  skipping : Bool := false
  /-- next_expected named by the last NACK and when it was sent. -/
  lastNack : Option (Nat × FT64) := none
  acked : Nat := 0
  txSeq : Nat := 0
  held : List Held := []
  resends : Nat := 0
  /-- When an ACK last advanced, or the oldest held frame was sent. -/
  lastAck : FT64 := 0
  /-- Resend from this sequence as soon as the frame in progress ends. -/
  resend : Option Nat := none
  /-- End of the pause of each class (R67). -/
  pause : Tab FT64 := []
  /-- The lossless mask of the peer's CREDIT_INIT, once received. -/
  peerMask : Option Nat := none
  limit : Tab Nat := []
  consumed : Tab Nat := []
  rxUnits : Tab Nat := []
  granted : Tab Nat := []
  lastUpdate : FT64 := 0
  rx : Option Rx := none
  ctl : List Ctl := []
  eg : Egress := {}
  policers : Tab Policer := []
  deriving DecidableEq, Repr

/-- What a fabric port holds beside its logical ports: the lookup backlog (R91) and the gate list's run (R133, R138). -/
structure PortSt where
  /-- When the lookup is next free, in 1/7 ns of the reference count. -/
  lookFree : Nat := 0
  /-- Frames waiting for lookup: when each is accepted, and its bytes. -/
  lookWait : List (Nat × Nat) := []
  /-- The gate state that stands. -/
  mask : Nat := 0xFF
  /-- A backward step holds the gate state (R138). -/
  gateHeld : Bool := false
  /-- A block error keeps every logical port DOWN until a port reset (R434). -/
  blocked : Bool := false
  deriving DecidableEq, Repr

/-! ### Forwarding tables (04) -/

/-- The forwarding tables. Endpoint and LPM entries are keyed by their key bits, the rest by index. -/
structure Tables where
  endpoint : Tab Nat := []
  v4 : Tab Nat := []
  v6 : Tab Nat := []
  nexthop : Tab Bytes := []
  ecmp : Tab Bytes := []
  repl : Tab Bytes := []
  deriving DecidableEq, Repr

/-! ### The store (05) -/

/-- Free ring entries in a row: `n` buffers from `unit` on, each carrying generation `gen` at its next allocation (R102). -/
structure Seg where
  unit : Nat
  n : Nat
  gen : Nat
  deriving DecidableEq, Repr

/-- A pool's free ring and its six slice caches (R102). -/
structure PoolSt where
  ring : List Seg := []
  caches : Tab (List Seg) := []
  deriving DecidableEq, Repr

/-- The metadata of an allocated buffer (R104, R105, R108). -/
structure Buf where
  pool : Nat
  gen : Nat
  shares : Nat
  owner : Nat
  units : Nat
  last : Nat
  retired : Bool := false
  /-- The logical port that delivered it, with its class, for back-pressure (R111). -/
  from_ : Option (Nat × Nat) := none
  deriving DecidableEq, Repr

/-- The limits in force for an owner (R107). -/
structure Limits where
  min : Nat := 0
  xon : Nat := 0x2C000
  xoff : Nat := 0x30000
  ceil : Nat := 0x40000
  deriving DecidableEq, Repr

/-- The store and the buffer pools. -/
structure StoreSt where
  /-- The bytes; an address not listed reads as zero (R439). -/
  mem : List Host.Cell := []
  /-- 32-byte words that are uncorrectable, by word number. -/
  ue : List Nat := []
  pools : Tab PoolSt := []
  bufs : Tab Buf := []
  limits : Tab Limits := []
  usage : Tab Nat := []
  /-- Owners whose back-pressure is asserted (R111). -/
  bp : List Nat := []
  /-- (logical port × 8 + class) pairs under back-pressure (R111). -/
  bpPairs : List Nat := []
  /-- The next unit the scrubber reads (R117). -/
  scrubAt : Nat := 0
  /-- Buffers out of use until the next reset of the store: retired ones and those of bad ring entries (R103, R115). -/
  lost : List Nat := []
  deriving DecidableEq, Repr



/-! ### The hardware itself -/

/-- What a part and its board are, beyond any reset: grade, stepping, what fuses and straps say (R2, R383, R447). -/
structure Hw where
  /-- 0 S, 1 H. -/
  grade : Nat := 0
  stepping : Nat := 0xA1
  /-- All optical tiles whose laser inputs are out of range (R48). -/
  dark : List Nat := [0, 1, 2, 3, 4, 5, 6, 7, 8]
  /-- The straps and module interrupt lines of the board (R452, R458). -/
  sbAddr : Bool := false
  lsInt : Nat := 0
  /-- Security fuses (R383): digests, the owner key's digest once fused, blown svn bits, revoked key indices. -/
  vendorRoot : Bytes := List.replicate 64 0
  vendorDebug : Bytes := List.replicate 64 0
  ownerKey : Option Bytes := none
  svn : Nat := 0
  revoke : Nat := 0
  serial : Bytes := List.replicate 16 0
  secret : Bytes := List.replicate 32 0
  /-- The vendor root and intermediate certificates of the identity store (R393), the digest of the Acorn ROM (R395), the SPDM vendor number
  (R394). -/
  certRoot : Bytes := []
  certInter : Bytes := []
  rom : Bytes := List.replicate 64 0
  pen : Nat := 0
  /-- The identity key was erased by a grant of level 2 (R399). -/
  erased : Bool := false
  /-- Fused calibration: energies of the event classes in fJ, static power, port power, full-rate power of M, V, S, X (R342, R343). -/
  evE : List Nat := [95000, 100000, 100000, 92000, 88000, 2400, 45000, 60000, 9000, 4400000, 150000]
  static : Nat := 0
  portE : Nat := 0
  full : List Nat := [0, 0, 0, 0]
  deriving DecidableEq, Repr

/-! ### Resets, bring-up and board (19, 20) -/

/-- What the rails, the resets and the trip leave running (R356, R438, R454). -/
inductive Power where
  /-- PWRGOOD is low: every clock but AON and THERM has stopped. -/
  | down
  /-- RESET_N or PWRGOOD holds the device in reset. -/
  | held
  | run
  /-- The thermal trip has stopped the clocks. -/
  | tripped
  deriving DecidableEq, Repr

/-- The reset that is being held, or was last (HUB_RESET_STATUS.last). -/
structure Sys where
  power : Power := .run
  /-- The bring-up phase under way, 1–6 of R443, 7 AWAIT, 8 past it, 0 stopped. -/
  phase : Nat := 1
  /-- Bring-up after a cold reset has the store initialised. -/
  cold : Bool := true
  /-- TIME of the end of the reset, in the reference count. -/
  endCyc : Nat := 0
  cxlUp : Bool := false
  /-- A device-fatal error stands (R435). -/
  fatal : Bool := false
  /-- THERM_TRIP_N is low (R356). -/
  tripLow : Bool := false
  /-- MCP cores restarted, each with the TIME cycle, newest first (R434). -/
  mcpRestarts : List (Nat × FT64) := []
  /-- Optical transmitters are off (R435). -/
  txDark : Bool := false
  /-- HBM stacks are in self-refresh (R435, R440). -/
  selfRefresh : Bool := false
  /-- The last port (0–23) or channel (24 + ch) reset, with its TIME cycle (R446). -/
  lastReset : Option (Nat × Nat) := none
  /-- Laser modules present (LS_PRES_N low, R452). -/
  lasers : List Nat := [0, 1, 2, 3, 4, 5, 6, 7, 8]
  deriving DecidableEq, Repr

/-! ### Seedbank (14) -/

/-- A record that waits in staging for its 4 µs hold (R330, R331). -/
structure SbkRec where
  kind : Nat
  src : Nat
  stamp : FT64
  arr : Nat
  flags : Nat := 0
  /-- Payload as far as it has come. -/
  payload : Bytes
  /-- A frame's tail has come; other records are whole at once. -/
  whole : Bool := true
  deriving DecidableEq, Repr

/-- A replay under way (R337). -/
structure Replay where
  /-- Intake number of its REPLAY_START. -/
  d : Nat
  /-- Ring offset of the next record, and the end offset (0: the first STOP). -/
  pos : Nat
  end_ : Nat
  /-- The seq that must follow. -/
  seq : Nat
  /-- The records of a host ring; empty for the store ring. -/
  ring : Bytes := []
  /-- The recording holds the host data of its descriptors (R337). -/
  hostRec : Bool := false
  /-- Host bytes recorded for replayed descriptors: address and bytes. -/
  hostData : List (Nat × Bytes) := []
  /-- Seq and stamp of the last record presented. -/
  last : Nat × Nat := (0, 0)
  deriving DecidableEq, Repr

/-- Seedbank beside its registers. -/
structure Sbk where
  /-- Records in staging, in order of stamp and key. -/
  staged : List SbkRec := []
  /-- Records lost since the last GAP, and the stamp of the first. -/
  lost : Nat := 0
  lostAt : Nat := 0
  /-- The RECORD_STOP that waits for its STOP record: its intake number. -/
  stop : Option Nat := none
  /-- Records written and lost in this recording (payload of STOP). -/
  written : Nat := 0
  lostAll : Nat := 0
  replay : Option Replay := none
  deriving DecidableEq, Repr

/-! ### Channels (07, 08, 10, 11) -/

/-- States of a context. -/
inductive CtxSt where
  | idle | loading | run | wait | drain
  deriving DecidableEq, Repr

/-- An active loop (R153): its register, the first instruction of its body, the one after it, passes left with this one. -/
structure Loop where
  reg : Nat
  first : Nat
  last : Nat
  left : Nat
  deriving DecidableEq, Repr

/-- Where an entry first raised inv (R230). -/
structure ExcCoord where
  rep : Nat
  row : Nat
  col : Nat
  k : Nat
  deriving DecidableEq, Repr

/-- The first inv of a program (R230): when its entry completed, the entry's queue and instruction, where. -/
structure CtxInv where
  stamp : FT64
  q : Nat
  instr : Nat
  at_ : ExcCoord
  deriving DecidableEq, Repr

/-- An accumulator bank of a tile (R237): kind 0 zero, 1 float, 2 integer, and its 1,024 elements row by row, as R218 or INT32 codes them. -/
structure Bank where
  kind : Nat := 0
  vals : List Nat := []
  deriving DecidableEq, Repr

/-- An entry of a queue (R158): the instruction, and the registers it names as they stood at issue (R149, R183). -/
structure Entry where
  word : Nat
  pc : Nat
  /-- Address registers of the slots, and the x registers of the same numbers (R182). -/
  a : Nat := 0
  b : Nat := 0
  d : Nat := 0
  xa : Nat := 0
  xb : Nat := 0
  xd : Nat := 0
  /-- x registers that mod names. -/
  m1 : Nat := 0
  m2 : Nat := 0
  /-- The counter of rsel 1. -/
  cnt : Nat := 0
  /-- The next repeat. -/
  i : Nat := 0
  /-- Survivors of flt or skips of gat and sct so far. -/
  acc : Nat := 0
  /-- Device time at which it came to the head (R44, R167). -/
  since : Option FT64 := none
  /-- The tensor id of SR, read at the head (R222). -/
  tid : Nat := 0
  /-- Exception flags gathered: inv, dbz, ovf, unf, inx as bits 0–4 (R191). -/
  exc : Nat := 0
  inv : Option ExcCoord := none
  /-- The sparse tensor descriptor as the entry read it (R248). -/
  desc : Option Bytes := none
  deriving DecidableEq, Repr

/-- A frame in a receive FIFO (R203): its record and the tag of its action word. -/
structure RxItem where
  frm : Nat
  tag : Nat
  deriving DecidableEq, Repr

/-- What a context reports of its first fault or its fence (R168, R169). -/
structure CtxFault where
  status : Nat
  unit : Nat
  instr : Nat
  rep : Nat
  /-- The SEQ cycle in which it arose. -/
  seq : Nat := 0
  deriving DecidableEq, Repr

/-- A context (R140–R169). -/
structure Ctx where
  st : CtxSt := .idle
  pc : Nat := 0
  /-- wait_kind: 0 none, 1 pwait, 2 full queue, 3 load or wake latency. -/
  waits : Nat := 0
  /-- TIME cycle at which the wait began, or from which on a gated core's cycles are still to be counted. -/
  waitSince : Nat := 0
  /-- Device time at which the wait began (R44, R167). -/
  waitAt : FT64 := 0
  a : Tab Nat := []
  c : Tab Nat := []
  x : Tab Nat := []
  /-- Comparators k0–k3, one bit each. -/
  k : Nat := 0
  /-- Active loops, innermost first. -/
  loops : List Loop := []
  /-- The image's header and instructions as fetched, and instructions that have become uncorrectable (R431). -/
  header : Bytes := []
  prog : List Nat := []
  progUe : List Nat := []
  digest : Bytes := []
  /-- Address of the argument block. -/
  args : Nat := 0
  /-- Scratch window and host window. -/
  win : Nat := 0
  winLen : Nat := 0
  host : Nat := 0
  hostLen : Nat := 0
  seed : Nat := 0
  step : Nat := 0
  /-- The intake number of its START_PROGRAM. -/
  d : Option Nat := none
  /-- FENCE descriptors that wait for its end. -/
  fences : List Nat := []
  fault : Option CtxFault := none
  /-- Exception flags of the program, and its first inv with the instruction (R230). -/
  exc : Nat := 0
  inv : Option CtxInv := none
  /-- Queues M, V, S, X, P by number. -/
  q : Tab (List Entry) := []
  fifo : List RxItem := []
  apip : Option Nat := none
  /-- Buffers the context holds: units. -/
  held : List Nat := []
  /-- SEQ cycle in which an engine last wrote a register, by class × 16 + number (R149). -/
  engAt : Tab Nat := []
  /-- A retraction has withdrawn a result of a group that this context owns (R290). -/
  retracted : Bool := false
  deriving DecidableEq, Repr

/-- An inv as the channel exception log records it (R231). -/
structure InvRec where
  stamp : FT64
  ctx : Nat
  instr : Nat
  rep : Nat
  unit : Nat
  row : Nat
  col : Nat
  k : Nat
  deriving DecidableEq, Repr

/-- What a channel holds beside its registers and contexts. -/
structure Chan where
  scratch : List (Nat × Byte) := []
  /-- 32-byte words of scratch that are uncorrectable, by word number. -/
  scratchUe : List Nat := []
  /-- Accumulator banks by tile × 4 + bank; one not listed is of kind zero. Banks that hold an uncorrectable word (R431). -/
  banks : Tab Bank := []
  bankUe : List Nat := []
  /-- The context each core issued from last. -/
  lastCtx : Tab Nat := []
  /-- The first SEQ cycle in which each core may issue again (R143). -/
  nextSeq : Tab Nat := []
  /-- SEQ cycles in which a pip became set and was last set, by core × 64 + pip (R164, R165). -/
  pipAt : Tab (Nat × Nat) := []
  /-- The context that the engines V, S, X and P served last, plus 1, by queue number (R160). -/
  served : Tab Nat := []
  /-- CORE cycle at which the last work of each tile ends, plus 1 (R171, R234, R236). -/
  tileAt : Tab Nat := []
  /-- Tiles whose start is admitted and whose repeat has not begun (R171). -/
  admitted : List Nat := []
  /-- The last window of 8 CORE cycles that admitted starts, and how many it admitted (R171). -/
  window : Nat × Nat := (0, 0)
  /-- CORE cycle up to which the wait of tile starts under way is counted in ramp_stall_cycles (R171). -/
  stallAt : Option Nat := none
  /-- TIME cycle since which a ramp is wanted (R172). -/
  rampWanted : Option Nat := none
  /-- Events of the interval under way that the engines' work counts for the PMC (R342), by 16 × engine + class: engines by queue number, 5 the
  combine engine's group work, 6 scratch accesses of the repeat under way, 7 accesses to the store. -/
  events : Tab Nat := []
  /-- The inv of the lowest context at its stamp, for a rearm in the same cycle (R231). -/
  lastInv : Option InvRec := none
  /-- Hints in force: the instruction and its stamp, by channel-local context (R189, R350). -/
  hints : Tab (Nat × FT64) := []
  blocked : Bool := false
  deriving DecidableEq, Repr
/-! ### Groups (12, 13) -/

/-- A consumed group frame that its owner's engine has still to take (R76, R274). -/
structure Inbox where
  frm : Nat
  gid : Nat
  token : Bool
  deriving DecidableEq, Repr

/-- Where a chunk stands (R278). -/
inductive ChunkSt where
  | idle | anchor | awaitAnchor | gather | awaitResult | held | done
  deriving DecidableEq, Repr

/-- An ECH header as the device writes it (R265). -/
structure EchHead where
  opcode : Nat
  gid : Nat
  member : Nat := 0xFFF
  cls : Nat := 0
  epoch : Nat := 0
  step : Nat := 0
  chunk : Nat := 0
  fmt : Nat := 0
  op : Nat := 0
  part : Nat := 0
  partial_ : Bool := false
  resend : Bool := false
  deriving DecidableEq, Repr

/-- A contribution that a chunk has accepted: its member (4095 the parent), opcode and part; whether it has been added, and whether the
twin holds it, where the device is paired. When both are so its ACK leaves (R274, R276, R408). -/
structure Contrib where
  member : Nat
  opcode : Nat
  part : Nat
  added : Bool := false
  confirmed : Bool := false
  deriving DecidableEq, Repr

/-- A chunk of an open step (R278). Its sum stands in its slot in the owner channel's scratch. -/
structure Chunk where
  st : ChunkSt := .idle
  have_ : List Contrib := []
  /-- Frames that wait in their buffers: for the slot, or for the global anchors. -/
  frames : List Nat := []
  /-- The associative memory of a sparse chunk: index and value (R286). -/
  index : Tab Nat := []
  spilled : Bool := false
  /-- What was sent to the parent for it: header and payload (R276, R411). -/
  up : List (EchHead × Bytes) := []
  /-- The result's opcode and payload with its chunk CRC, as formed or received (R276, R287). -/
  resOp : Nat := 0
  result : Bytes := []
  /-- The member whose contribution this is, in all-gather and broadcast. -/
  source : Nat := 4095
  /-- The global anchors as sent down (R413). -/
  anchors : Bytes := []
  deriving DecidableEq, Repr

/-- An open step of a group, or the last one ended (R276, R277). -/
structure GStep where
  opened : Option FT64 := none
  /-- Stamp of each member's first frame. -/
  firsts : Tab FT64 := []
  late : List Nat := []
  chunks : Tab Chunk := []
  /-- It was aborted, or ended before an earlier step. -/
  closed : Bool := false
  /-- ABORT_REQ was sent: nothing more of it is released (R289). -/
  abortReq : Bool := false
  /-- Since when STEP_DONE is held by the step fence (R421). -/
  fenceHeld : Option FT64 := none
  /-- Its STEP_DONE has been made, and may wait for the twin (R408). -/
  ending : Bool := false
  deriving DecidableEq, Repr

/-- The state of a batch index (R302). -/
inductive BatchSt where
  | free | filling | queued | ready | committed
  deriving DecidableEq, Repr

/-- An assignment of a token (R306, R309–R311). -/
inductive Assign where
  /-- Mapped to a slot; its row has not come. -/
  | mapped (slot : Nat)
  /-- Its row lies in a held frame, at this row index. -/
  | row (slot frm at_ : Nat)
  | added (slot : Nat)
  /-- Its row was taken and could not be read or added (R312). -/
  | failed (slot : Nat)
  | dropped (status : Nat)
  deriving DecidableEq, Repr

/-- A token of a batch (R300, R311–R314). -/
structure Tok where
  src : Nat
  num : Nat
  stamp : FT64
  asn : List Assign := []
  exc : Nat := 0
  ue : Bool := false
  home : Bool := false
  deriving DecidableEq, Repr

/-- A batch (R300–R302). -/
structure Batch where
  st : BatchSt := .free
  step : Nat := 0
  seq : Nat := 0
  toks : List Tok := []
  /-- Slots whose row has been taken. -/
  taken : List Nat := []
  deadline : Option FT64 := none
  /-- EXPERT_RESULT frames that wait for the commit (R309 order 4). -/
  early : List Nat := []
  deriving DecidableEq, Repr

/-- A source of a dispatch group in an open step (R298, R299, R313). -/
structure TokSrc where
  next : Nat := 0
  count : Option Nat := none
  /-- The lowest token number not yet sent home. -/
  home : Nat := 0
  deriving DecidableEq, Repr

/-- A dispatch group's batches and sources. -/
structure Disp where
  batches : Tab Batch := []
  /-- The batch index that the next batch takes, and its sequence number. -/
  nextBatch : Nat := 0
  nextSeq : Nat := 0
  /-- Sources by 4096 × (step − cur_step) + index, and those of the steps before by step. -/
  srcs : Tab TokSrc := []
  /-- Sources in closed steps, by step and index. -/
  closed : List (Nat × Nat × TokSrc) := []
  /-- Endpoint IDs by expert, as the table stood at the last commit (R296). -/
  experts : Option (Tab Nat) := none
  /-- Token frames that wait for a free batch (R300). -/
  waiting : List Nat := []
  deriving DecidableEq, Repr

/-- A group: its 64-byte entry as it stands (R270, R294), its steps, and what the detector and the twin know of it. -/
structure Grp where
  entry : Bytes := []
  /-- Steps cur_step − 1, cur_step and cur_step + 1. -/
  prev : GStep := {}
  cur : GStep := {}
  next : GStep := {}
  /-- When a NACK was last sent to each member (R274). -/
  nacks : Tab FT64 := []
  /-- Step-fence mode (R420). -/
  sfm : Bool := false
  /-- Active members at the last GROUP_UPDATE from the host (R418). -/
  base : Nat := 0
  /-- Lease renewals and health scores by member (R416, R417). -/
  lease : Tab FT64 := []
  score : Tab Nat := []
  /-- Members evicted since then, with the stamps (R418). -/
  evicted : List (Nat × FT64) := []
  /-- What the twin's records say of open steps (R404, R408): released (step, chunk); home marks (step, source, mark). -/
  twinReleased : List (Nat × Nat) := []
  twinAcked : List (Nat × Nat × Nat × Nat) := []
  twinHome : List (Nat × Nat × Nat) := []
  /-- cur_step as the group was taken over from the twin (R413). -/
  taken : Option Nat := none
  /-- The twin's MEMBER record of an eviction has come, and its GROUP record is to follow (R408). -/
  evicting : Bool := false
  disp : Disp := {}
  deriving DecidableEq, Repr

/-- A frame the device sends for a group, with the endpoint IDs it goes to (R269). -/
structure GSend where
  ch : Nat
  owner : Nat
  tc : Nat
  head : EchHead
  payload : Bytes
  dests : List Nat
  /-- A buffer has been refused it (R109), which has been counted. -/
  waited : Bool := false
  deriving DecidableEq, Repr


/-! ### Rings and descriptors (16) -/

/-- A descriptor taken into intake (R367, R370). -/
structure Desc where
  sq : Nat
  bytes : Bytes
  stamp : FT64
  arr : Nat
  /-- The completion ring. -/
  cq : Nat
  /-- Presented by a replay (R337). -/
  replayed : Bool := false
  /-- It runs already and completes later. -/
  started : Bool := false
  /-- The seed that a START_PROGRAM has latched (R324). -/
  seed : Nat := 0
  /-- In execution when an IDE integrity failure came: its next host access fails (R359). -/
  ide : Bool := false
  deriving DecidableEq, Repr

/-- A write to a seed slot, with the value before it: its stamp and arrival number (R340). -/
structure SeedWrite where
  slot : Nat
  stamp : FT64
  arr : Nat
  old : Nat
  deriving DecidableEq, Repr

/-- A completion record that waits for its ring (R365, R377); the SQ head and the phase are added when it is written. -/
structure CRec where
  tag : Nat
  status : Nat
  opcode : Nat
  sq : Nat
  exc : Nat := 0
  unit : Nat := 0
  /-- Byte 11. -/
  inv : Nat := 0
  result : Nat := 0
  stamp : FT64
  detail : Nat := 0
  irqNow : Bool := false
  deriving DecidableEq, Repr

/-- What a completion reports beside the descriptor's own fields (R377). -/
structure Report where
  status : Nat
  result : Nat := 0
  detail : Nat := 0
  exc : Nat := 0
  unit : Nat := 0
  inv : Nat := 0
  deriving DecidableEq, Repr

/-- Descriptors made visible by one doorbell: how many are left, their stamp and next arrival sequence (R367). -/
structure Visible where
  n : Nat
  stamp : FT64
  arr : Nat
  deriving DecidableEq, Repr

/-- A completion ring beside its registers. -/
structure CqSt where
  waiting : List CRec := []
  /-- Records since the last signal, and the stamp of the first of them (R379). -/
  count : Nat := 0
  first : Option FT64 := none
  /-- An interrupt is due and has not been signalled, as irq_en is 0 (R379). -/
  due : Bool := false
  /-- The TIME cycle of the last head doorbell, and how many came in it (R381). -/
  bell : Nat × Nat := (0, 0)
  deriving DecidableEq, Repr

/-- Tail doorbells of an SQ in one TIME cycle, which a disable of that cycle undoes (R381). -/
structure SqBell where
  cyc : Nat := 0
  /-- How many there were. -/
  n : Nat := 0
  /-- The tail before the first of them. -/
  tail : Nat := 0
  /-- What RING_ERR_LOG and ring_err_ev held before the one that put the ring into the error state. -/
  log : Option (List Nat) := none
  deriving DecidableEq, Repr

/-- The host side. -/
structure HostSt where
  /-- Descriptors in the device, by intake number. -/
  descs : Tab Desc := []
  next : Nat := 0
  sqs : Tab (List Visible) := []
  bells : Tab SqBell := []
  cqs : Tab CqSt := []
  /-- The SQ served last (R367). -/
  turn : Nat := 1023
  /-- The last apply stamp (R368). -/
  applied : Option FT64 := none
  /-- Since which TIME cycle some CQ holds waiting records (cq_full_cycles). -/
  fullSince : Option Nat := none
  /-- Seed writes since some descriptor has waited to be fetched, oldest first (R340). -/
  seeds : List SeedWrite := []
  deriving DecidableEq, Repr

/-! ### Pods (18) -/

/-- What waits until the twin confirms a record (R408). -/
inductive Act where
  | send (g : GSend)
  | complete (d : Nat) (r : Report)
  /-- The twin holds an accepted contribution, noted under `key`: its ACK leaves once it has been added (R276). -/
  | ack (g : GSend) (key : Nat)
  deriving DecidableEq, Repr

/-- A mirror record that is not confirmed (R406): its sequence, its bytes with the record header, the mirror port it left by, the buffer
that keeps it where one was granted. -/
structure MirRec where
  seq : Nat
  bytes : Bytes
  link : Option Nat
  unit : Option Nat := none
  deriving DecidableEq, Repr

/-- Records and actions that find no room among 65,536 unconfirmed records (R407). -/
structure MirHeld where
  recs : List Bytes
  acts : List Act
  since : FT64
  deriving DecidableEq, Repr

/-- A received record that waits to be applied: its type and body, and the header fields of the frame it came in. -/
structure MirIn where
  kind : Nat
  body : Bytes
  state : Nat
  role : Nat
  pod : Nat
  link : Nat
  stamp : FT64
  arr : Nat := 0
  deriving DecidableEq, Repr

/-- An update of this device's host that the twin has not confirmed (R410), with what stood before it. -/
structure Upd where
  d : Nat
  seq : Nat
  /-- Group ids, or table × 2^160 + key for the tables. -/
  keys : List Nat
  /-- The apply stamp of a GROUP_UPDATE. -/
  at_ : Option FT64 := none
  groups : List (Nat × Option Grp) := []
  tables : Option Tables := none
  deriving DecidableEq, Repr

/-- A rehearsal that is pending or injected (R423–R425). -/
structure Rehearsal where
  d : Nat
  kind : Nat
  gid : Nat := 0
  port : Nat := 0
  member : Nat := 0
  at_ : FT64 := 0
  duration : Nat := 0
  step : Nat := 0
  chunk : Nat := 0
  injected : Option FT64 := none
  /-- The result with the inverted CRC has been released (R424). -/
  fired : Bool := false
  /-- What came due while a replay held the rehearsal (R338). -/
  late : Option Timed := none
  /-- Frames held of a stalled member, or groups relinquished. -/
  frames : List Inbox := []
  count : Nat := 0
  deriving DecidableEq, Repr

/-- The mirror engine, the pod and its detector. -/
structure Mir where
  txSeq : Nat := 0
  unconfirmed : List MirRec := []
  held : List MirHeld := []
  /-- Actions that wait for the confirmation of a sequence number. -/
  waits : List (Nat × List Act) := []
  /-- Group and step of each STEP_DONE that has left, until the step has been passed. -/
  ended : List (Nat × Nat) := []
  rxNext : Nat := 0
  /-- Records received ahead of their turn, by sequence number. -/
  ahead : Tab MirIn := []
  inRecs : List MirIn := []
  /-- TABLE parts of the apply under way. -/
  parts : List Bytes := []
  applyNo : Nat := 0
  upds : List Upd := []
  /-- When an HB last came on a mirror port, and when one was last sent. -/
  hbAt : FT64 := 0
  hbTx : FT64 := 0
  /-- When the out-of-band HB last came. -/
  oobAt : FT64 := 0
  /-- State before SYNC, and whether this device is a source of the copy. -/
  before : Nat := 0
  source : Bool := false
  /-- This device is a target of the copy, and the source's SYNC_END has been applied. -/
  target : Bool := false
  syncGot : Bool := false
  /-- Sequence number one past this device's own SYNC_END, until it is confirmed. -/
  syncEnd : Option Nat := none
  /-- SBK_WR_PTR and SBK_SEQ of the twin (R335). -/
  twinSbk : Nat × Nat := (0, 0)
  /-- When JOIN records began to be sent (R403), and whether the end of a rehearsed twin loss began them (R424). -/
  joinAt : Option FT64 := none
  rejoin : Bool := false
  /-- A heartbeat has come since DETACHED was entered. -/
  hbSeen : Bool := false
  rehearsal : Option Rehearsal := none
  lastInject : Option FT64 := none
  deriving DecidableEq, Repr


/-! ### Power (15) -/

/-- The power manager beside its registers. Power is in units of 10^-10 W, so the energy of a 10 µs interval is in fJ. -/
structure Pmc where
  /-- Energy of the complete 1 ms bins, newest first, at most 30,000; and of the current bin with its number (R344). -/
  bins : List Nat := []
  cur : Nat := 0
  binNo : Option Nat := none
  /-- In every interval of the current bin so far the target was not met with d at its maximum and level 5 (R346). -/
  unmet : Bool := false
  /-- Energy since reset, fJ. -/
  total : Nat := 0
  /-- The interval judged last. -/
  lastK : Option Nat := none
  /-- T of the interval under way (R344), and the registers of the PWR_ block as they stood at its start (R343, R345). -/
  target : Int := 0
  eff : Regs := []
  /-- A write to PWR_LIMIT: its TIME cycle, and the registers of the PWR_ block before that cycle's writes to it (R357). -/
  before : Option (Nat × Regs) := none
  /-- Intervals of the current excursion, and whether it has reached its limit; intervals at or below cap in a row (R345). -/
  run : Nat := 0
  hit : Bool := false
  calm : Nat := 0
  /-- Intervals in a row with d at 60 above T, and with d at 0 well below it (R348). -/
  top : Nat := 0
  low : Nat := 0
  /-- Tj at which each thermal level was entered, level 1 first (R354). -/
  therm : List Int := []
  /-- A requested level in force, the TIME cycle of the request, and whether a droop trip has put it off (R349, R352). -/
  req : Option Nat := none
  reqAt : Nat := 0
  deferred : Bool := false
  /-- TIME and CORE cycle of the last trip of each compute die (R351, R352). -/
  trip : Tab (Nat × Nat) := []
  /-- The CORE cycle of each stretched die up to which stretch_cycles has counted (R351). -/
  stretch : Tab Nat := []
  /-- Sixty-fourths of bubble cycles not yet counted, and the CORE cycle of each die at the last interval boundary (R347). -/
  bubble : Nat := 0
  coreWas : Tab Nat := []
  /-- The bubble count before the last boundary, and the CORE cycle of each die in which the first window under the new one begins (R347). -/
  dWas : Nat := 0
  dFrom : Tab Nat := []
  /-- Up to when throttle_us has counted while a thermal level is in force (R354). -/
  thermAt : FT64 := 0
  /-- Store units read or written, and transfers of 256 bytes across die-to-die links, in the interval, beside those of the channels' engines
  (R342, classes 9 and 10). -/
  units : Nat := 0
  links : Nat := 0
  /-- CORE cycle, without stretch, of the last ramp opening (R172, R353). -/
  ramp : Option Nat := none
  /-- The temperature that each stack reported last, and the stacks that refresh at twice the rate (R355). -/
  hbm : Tab Nat := []
  hot : List Nat := []
  deriving DecidableEq, Repr

/-! ### Security (17) -/

/-- The SPDM responder (R394). -/
structure Spdm where
  /-- How far the requester has come: 1 version, 2 capabilities, 3 algorithms. -/
  stage : Nat := 0
  /-- A session's shared secret, once keys were exchanged, and whether FINISH has completed it. -/
  session : Option Bytes := none
  finished : Bool := false
  /-- secp384r1 and AES-256-GCM have been selected. -/
  keyEx : Bool := false
  /-- Generation of the session keys (KEY_UPDATE), and the messages protected under them. -/
  keys : Nat := 0
  sent : Nat := 0
  /-- The transcript: versions to algorithms, certificates, measurements since the last signature over them, the key exchange of the session. -/
  vca : Bytes := []
  certs : Bytes := []
  meas : Bytes := []
  th : Bytes := []
  /-- A large response that is fetched by CHUNK_GET, and the next chunk. -/
  large : Bytes := []
  next : Nat := 0
  /-- IDE key messages taken within the session. -/
  ide : List Bytes := []
  deriving DecidableEq, Repr

/-- Acorn: the bundle under way, the firmware memories, Nutcracker (R384–R399). -/
structure Sec where
  /-- Bundle bytes received. -/
  data : Bytes := []
  /-- The program region when the first chunk came (R391). -/
  base : Nat := 0
  end_ : Nat := 0
  /-- Firmware memories: 0 MCP, 1 PMC, 2 + u tile controller u. -/
  fw : Tab Bytes := []
  /-- The nonce, the level it was drawn for and when (R397, R398). -/
  nonce : Bytes := []
  ncLevel : Nat := 0
  nonceAt : FT64 := 0
  /-- The response window by word (R397). -/
  resp : Tab Nat := []
  /-- Highest debug level since the SEC block was last reset (R395). -/
  high : Nat := 0
  spdm : Spdm := {}
  deriving DecidableEq, Repr


/-! ### The whole -/

/-- What hardware did in TIME cycle `cyc`: W1C bits set, by field (R9), and counts added, by counter (R73). -/
structure Latch where
  cyc : Nat := 0
  bits : Tab Nat := []
  counts : Tab Nat := []
  deriving DecidableEq, Repr

/-- The machine. -/
structure State where
  regs : Regs := []
  latch : Latch := {}
  hw : Hw := {}
  sys : Sys := {}
  clk : Clk := {}
  /-- Logical ports by source number 8 × n + s (R47). -/
  links : Tab Link := []
  ports : Tab PortSt := []
  tables : Tables := {}
  frames : Tab Frm := []
  nextFrm : Nat := 0
  inbox : List Inbox := []
  store : StoreSt := {}
  sbk : Sbk := {}
  host : HostSt := {}
  /-- Contexts by device-wide number (R140), channels. -/
  ctxs : Tab Ctx := []
  chans : Tab Chan := []
  /-- Group table entries in use, by group id (R270). -/
  groups : Tab Grp := []
  /-- Group frames that found no buffer and are sent when one is free. -/
  grpTx : List GSend := []
  mir : Mir := {}
  pmc : Pmc := {}
  sec : Sec := {}
  /-- What left the device, newest last. -/
  out : List Out := []
  /-- How many free values have been drawn (the model's own, not the spec's). -/
  fresh : Nat := 0
  /-- Commands that wait, first in first out. -/
  pending : List Instr := []
  deriving DecidableEq, Repr

/-- Registers that reset loads from the fuses (R342, R343): event energies, static power, port power, full-rate powers. -/
def hwRegs (h : Hw) : Regs :=
  let r := (h.evE.zipIdx).foldl (fun (r : Regs) x => r.set (PWR_EV_E_energy x.2) x.1) []
  let r := (r.set PWR_STATIC_s85 h.static).set PWR_PORT_E_port h.portE
  (h.full.zipIdx).foldl (fun (r : Regs) x => r.set (PWR_FULL_full x.2) x.1) r

/-- The machine after an AON power-up: every field at its default, the fuses sensed, no command waiting. -/
def State.reset : State := { regs := hwRegs {} }

end Sys2Proof.Machine
end

