-- ==== Sys2Proof/Machine/Ops.lean ====
section
/-! DEFINITION. Named operations over the state: registers, device time, outputs, free values, scheduled events. -/

namespace Sys2Proof.Machine

/-! ### Registers -/

/-- The value of a register field. -/
def State.reg (s : State) (f : Fld) : Nat := s.regs.get f

/-- A one-bit field is 1. -/
def State.flag (s : State) (f : Fld) : Bool := s.regs.get f != 0

/-- A field as two's complement. -/
def State.regInt (s : State) (f : Fld) : Int := s.regs.getInt f

/-- A field set to a value, cut to its width. -/
def State.setReg (s : State) (f : Fld) (v : Nat) : State := { s with regs := s.regs.set f v }

/-- A field set to a two's complement value. -/
def State.setRegInt (s : State) (f : Fld) (v : Int) : State := { s with regs := s.regs.setInt f v }

/-- What hardware has set and counted in this cycle (R9, R73). -/
def State.latchNow (s : State) : Latch := if s.latch.cyc = s.clk.cyc then s.latch else { cyc := s.clk.cyc }

/-- Bits of a W1C field are set by hardware, and stand against a write of 1 in the same cycle (R9). -/
def State.setW1c (s : State) (f : Fld) (mask : Nat) : State :=
  let l := s.latchNow
  { s with regs := s.regs.set f (s.regs.get f ||| mask), latch := { l with bits := l.bits.put 0 f.key (l.bits.get 0 f.key ||| mask) } }

/-- A counter that wraps adds `n`; what it counts in a cycle stands against a clear in the same cycle (R73). -/
def State.count (s : State) (f : Fld) (n : Nat := 1) : State :=
  let l := s.latchNow
  { s with regs := s.regs.count f n, latch := { l with counts := l.counts.put 0 f.key (l.counts.get 0 f.key + n) } }

/-- A field's key belongs to a register whose offset lies in [lo, hi). -/
def keyIn (lo hi key : Nat) : Bool := decide (lo * 64 ≤ key) && decide (key < hi * 64)

/-- Counters are cleared whose keys `hit` selects: what they counted in this cycle counts after the clear (R73). -/
def State.clearCounters (s : State) (hit : Nat → Bool) : State :=
  let kept := s.latchNow.counts.filter (fun e => hit e.1)
  { s with regs := kept.foldl (fun (r : Regs) e => Tab.put r 0 e.1 (e.2 % 2 ^ 64)) (s.regs.filter (fun e => !hit e.1)) }

/-- A count that saturates adds one. -/
def State.countSat (s : State) (f : Fld) (n : Nat := 1) : State := { s with regs := s.regs.countSat f n }

/-- The device's clocks run: no reset is held, PWRGOOD is high and no trip has stopped them (R356, R438, R454). -/
def State.live (s : State) : Bool := s.sys.power == .run

/-- The outcome of a command whose effect is `f`: nothing happens while the clocks are stopped. -/
def State.does (s : State) (f : State → State) : Host.Outcome State Fault Refusal := .next (if s.live then f s else s)

/-- The effect of a command of a channel: a device-fatal error has stopped every channel (R435). -/
def State.runs (s : State) (f : State → State) : Host.Outcome State Fault Refusal := s.does (fun s => if s.sys.fatal then s else f s)

/-- A write to a register of a block that R444 closes until a bundle runs: ignored before ready. -/
def State.whenReady (s : State) (f : State → State) : State := if s.flag HUB_STATUS_ready then f s else s

/-! ### What the PMC counts beside the channels' engines (R342) -/

/-- Store units read or written, and transfers of 256 bytes across die-to-die links (R342, classes 9 and 10; DESIGN CHOICE: each transfer is
counted as it ends, in whole units). -/
def State.traffic (s : State) (units links : Nat) : State :=
  { s with pmc := { s.pmc with units := s.pmc.units + units, links := s.pmc.links + links } }

/-- Units of 256 bytes that `n` bytes from address `a` touch. -/
def unitsAt (a n : Nat) : Nat := if n = 0 then 0 else (a + n + 255) / 256 - a / 256

/-- The hub, or one channel's sequencer, reads or writes `n` bytes of the store at `a`, over one link (R14). -/
def State.hubAccess (s : State) (a n : Nat) : State := s.traffic (unitsAt a n) (unitsAt a n)

/-! ### Outputs and free values -/

/-- Something leaves the device. -/
def State.emit (s : State) (o : Out) : State := { s with out := s.out ++ [o] }

/-- A value the spec leaves open is drawn: the number it has, and the state that has drawn it. -/
def State.draw (s : State) : Nat × State := (s.fresh, { s with fresh := s.fresh + 1 })

/-- A choice among `n` equals that the spec does not order. -/
def pick (n fresh : Nat) : Nat := if n ≤ 1 then 0 else Config.freeNat fresh % n

/-! ### Device time (R28–R31) -/

/-- Device time as the hub keeps it: the upper 64 bits of the accumulator (R31). -/
def State.now (s : State) : FT64 := (s.clk.acc >>> 32).setWidth 64

/-- `t` off by an error that the spec bounds by `m` units and leaves open within that. -/
def offBy (m : Nat) (t : FT64) (e : Int) : FT64 := t + BitVec.ofInt 64 (max (-(m : Int)) (min m e))

/-- Device time as the copy of a die gives it, within ±1 ns of the hub (R32): 0–3 compute dies, 4–9 store dies. -/
def State.copyNow (s : State) (die : Nat) : FT64 := offBy 256 s.now (Config.copyError die s.clk.cyc)

/-- The copy of the compute die that channel `n` lies on. -/
def State.chNow (s : State) (n : Nat) : FT64 := s.copyNow (n / 2)

/-- A port stamp of the present at the reference plane, within ±2 ns of device time (R45); source numbers as R47 has them. -/
def State.planeNow (s : State) (src : Nat) : FT64 := offBy 512 s.now (Config.stampError src s.clk.cyc)

/-- Time `a` is at or before time `b` (R29). -/
def atOrBefore (a b : FT64) : Bool := decide (0 ≤ (b - a).toInt)

/-- Time `a` precedes time `b` (R29). -/
def precedes (a b : FT64) : Bool := decide (0 < (b - a).toInt)

/-- The signed difference `b − a`. -/
def ftDiff (a b : FT64) : Int := (b - a).toInt

/-- `n` ns in FT64 units. -/
def ns (n : Nat) : FT64 := BitVec.ofNat 64 (n * 256)

/-- `n` ns have passed since `t`. -/
def State.elapsed (s : State) (t : FT64) (n : Nat) : Bool := decide (((n * 256 : Nat) : Int) ≤ ftDiff t s.now)

/-- The next arrival sequence number of a source, and the state that has given it (R47). -/
def State.arrival (s : State) (src : Nat) : Nat × State :=
  let n := s.clk.arr.get 0 src
  (n, { s with clk := { s.clk with arr := s.clk.arr.put 0 src ((n + 1) % 2 ^ 32) } })

/-- An object that the device raises itself is stamped: source 195 counts it (R45, R47). -/
def State.stamped (s : State) : State := (s.arrival 195).2

/-! ### Scheduled events (R43, R46, R47) -/

/-- Event `a` comes before event `b`: earlier time, then the key of equal stamps. -/
def Sched.before (a b : Sched) : Bool := precedes a.at_ b.at_ || (a.at_ == b.at_ && decide (a.ord < b.ord))

/-- `e` put into a list that stands in firing order. -/
def insertSched (e : Sched) : List Sched → List Sched
  | [] => [e]
  | x :: r => if Sched.before e x then e :: x :: r else x :: insertSched e r

/-- An event is scheduled for time `t`; source 195 gives its order (R47). -/
def State.schedule (s : State) (t : FT64) (ev : Timed) : State :=
  let (n, s) := s.arrival 195
  { s with clk := { s.clk with sched := insertSched ⟨t, n, ev⟩ s.clk.sched } }

/-- Every scheduled event of this kind is withdrawn. -/
def State.unschedule (s : State) (ev : Timed) : State :=
  { s with clk := { s.clk with sched := s.clk.sched.filter (fun e => e.ev != ev) } }

/-- An event of this kind stands in the schedule and its time has come (R46). -/
def State.dueEvent (s : State) (ev : Timed) : Bool :=
  s.clk.sched.any (fun e => e.ev == ev && atOrBefore e.at_ s.now)

/-- The scheduled time of an event. -/
def State.schedTime (s : State) (ev : Timed) : Option FT64 :=
  (s.clk.sched.find? (fun e => e.ev == ev)).map (·.at_)

/-! ### Links, ports, frames by number -/

/-- Logical port `l` of port `p` as a source number (R47); `p` 24 holds the mirror ports. -/
def srcOf {n : Nat} (p : Fin n) (l : Lp) : Nat := 8 * p.val + l.val

/-- The state of a logical port. -/
def State.link (s : State) (src : Nat) : Link := s.links.get {} src

/-- A logical port's state replaced. -/
def State.setLink (s : State) (src : Nat) (l : Link) : State := { s with links := s.links.put {} src l }

/-- A logical port's state changed. -/
def State.modLink (s : State) (src : Nat) (f : Link → Link) : State := s.setLink src (f (s.link src))

/-- A logical port's egress side changed. -/
def State.modEg (s : State) (src : Nat) (f : Egress → Egress) : State :=
  s.modLink src (fun l => { l with eg := f l.eg })

/-- What a fabric port holds. -/
def State.port (s : State) (p : Nat) : PortSt := s.ports.get {} p

/-- A fabric port's state changed. -/
def State.modPort (s : State) (p : Nat) (f : PortSt → PortSt) : State :=
  { s with ports := s.ports.put {} p (f (s.port p)) }

/-- A frame the store holds. -/
def State.frm (s : State) (id : Nat) : Option Frm := s.frames.find? id

/-- A frame's record changed. -/
def State.modFrm (s : State) (id : Nat) (f : Frm → Frm) : State :=
  match s.frames.find? id with
  | some fr => { s with frames := s.frames.insert id (f fr) }
  | none => s

/-! ### Shared status codes (R12, R437) -/

def stOk : Nat := 0x00
def stEngineAbsent : Nat := 0x01
def stBadDescriptor : Nat := 0x02
def stSparseCapacity : Nat := 0x03
def stIndexRange : Nat := 0x04
def stCollectiveMismatch : Nat := 0x05
def stGroupEpoch : Nat := 0x06
def stRetracted : Nat := 0x07
def stTimeout : Nat := 0x08
def stMemUncorrectable : Nat := 0x09
def stPoolExhausted : Nat := 0x0A
def stAuthFail : Nat := 0x0B
def stFenced : Nat := 0x0C
def stQueueFault : Nat := 0x0D
def stCapacityDrop : Nat := 0x0E
def stHostAccess : Nat := 0x10
def stKeyAbsent : Nat := 0x11
def stStoreRange : Nat := 0x20
def stStoreRegion : Nat := 0x21
def stReleaseInvalid : Nat := 0x22

end Sys2Proof.Machine
end

