-- ==== Sys2Proof/Machine/Flags.lean ====
section
/-! DEFINITION. Status bits and interrupts: every W1C event bit, its enable bit, MSI-X (R378, R380). -/

namespace Sys2Proof.Machine

/-- An event bit: its status field, the bit in it, its enable field and bit, and the field that names its vector. -/
structure Event where
  st : Fld
  sub : Nat := 0
  en : Fld
  bit : Nat
  vec : Fld := HUB_INTR_VEC_vector
  deriving DecidableEq, Repr

/-- MSI-X vector `v` is signalled: sent, or left pending while masked (R378). -/
def State.signal (s : State) (v : Nat) : State :=
  if s.flag (HUB_MSIX_CTRL_mask v) then s.setReg HUB_MSIX_PBA_pending (setBit (s.reg HUB_MSIX_PBA_pending) v)
  else s.emit (.msix (s.reg (HUB_MSIX_ADDR_addr v)) (s.reg (HUB_MSIX_DATA_data v)))

/-- An event bit is set; on its change from 0 to 1 an enabled bit signals its vector (R380). -/
def State.raise (s : State) (e : Event) : State :=
  let t := s.setW1c e.st (2 ^ e.sub)
  if !bitOf (s.reg e.st) e.sub && bitOf (s.reg e.en) e.bit then t.signal (s.reg e.vec) else t

def evTime (f : Fld) : Event := { st := f, en := TIME_INTR_EN_en, bit := f.lo - 8 }
def evPort (p : Nat) (f : Fld) : Event := { st := f, en := PORT_INTR_EN_en p, bit := f.lo }
def evLink (p l : Nat) : Event := { st := PORT_INTR_STATUS_link_ev p, sub := l, en := PORT_INTR_EN_en p, bit := l }
def evStore (f : Fld) : Event := { st := f, en := STORE_INTR_EN_en, bit := f.lo }
def evCh (n : Nat) (f : Fld) : Event := { st := f, en := CH_INTR_EN_en n, bit := f.lo }
def evGrp (f : Fld) : Event := { st := f, en := GRP_INTR_EN_en, bit := f.lo }
def evTok (f : Fld) : Event := { st := f, en := GRP_TOK_INTR_EN_en, bit := f.lo }
def evSbk (f : Fld) : Event := { st := f, en := SBK_INTR_EN_en, bit := f.lo - 8 }
def evPwr (f : Fld) : Event := { st := f, en := PWR_INTR_EN_en, bit := f.lo }
def evRing (f : Fld) : Event := { st := f, en := RING_INTR_EN_en, bit := f.lo }
def evSec (f : Fld) : Event := { st := f, en := SEC_INTR_EN_en, bit := f.lo }
def evMir (f : Fld) : Event := { st := f, en := MIR_INTR_EN_en, bit := f.lo }
/-- RAS events signal the vector of HUB_RAS_CFG (chapter 19). -/
def evRas (f : Fld) : Event := { st := f, en := HUB_RAS_EN_en, bit := f.lo, vec := HUB_RAS_CFG_vector }

/-- Any enabled bit of a status register is set. -/
def anyEnabled (s : State) (st en lo w : Nat) : Bool :=
  let v := (List.range w).foldl (fun a i => a || (bitOf (s.regs.foldl (fun x e => if e.1 / 64 = st then x + e.2 * 2 ^ (e.1 % 64) else x) 0) (lo + i)
      && bitOf (Tab.get s.regs 0 (en * 64)) i)) false
  v

/-- HUB_INTR_SUMMARY as it reads (R380): a block's bit is set while an enabled status bit of the block is. -/
def State.intrSummary (s : State) : Nat :=
  bit1 (anyEnabled s 0x700010 0x700014 8 5)
  + 2 * bit1 ((List.range 24).any (fun n => anyEnabled s (0x400030 + 0x20000 * n) (0x400034 + 0x20000 * n) 0 12))
  + 4 * bit1 (anyEnabled s 0x1000034 0x1000038 0 4)
  + 8 * bit1 ((List.range 8).any (fun n => anyEnabled s (0x80000c + 0x100000 * n) (0x800010 + 0x100000 * n) 0 4))
  + 16 * bit1 (anyEnabled s 0x1600004 0x1600008 0 6 || anyEnabled s 0x1600080 0x1600084 0 3)
  + 32 * bit1 (anyEnabled s 0x200018 0x20001c 0 6)
  + 64 * bit1 (anyEnabled s 0x1500008 0x150000c 8 4)
  + 128 * bit1 (anyEnabled s 0x140000c 0x1400010 0 9)
  + 256 * bit1 (anyEnabled s 0x100004 0x100008 0 4)
  + 512 * bit1 (anyEnabled s 0x300000 0x300004 0 3)

/-- HUB_PORT_SUMMARY as it reads. -/
def State.portSummary (s : State) : Nat :=
  (List.range 24).foldl (fun v n => v + 2 ^ n * bit1 (anyEnabled s (0x400030 + 0x20000 * n) (0x400034 + 0x20000 * n) 0 12)) 0

/-- HUB_CH_SUMMARY as it reads. -/
def State.chSummary (s : State) : Nat :=
  (List.range 8).foldl (fun v n => v + 2 ^ n * bit1 (anyEnabled s (0x80000c + 0x100000 * n) (0x800010 + 0x100000 * n) 0 4)) 0

/-! ### Logged errors of classes 1–3 (R430, R432) -/

/-- A class 1 error was corrected. -/
def State.rasCorrected (s : State) : State := s.raise (evRas HUB_RAS_STATUS_ce_ev)

/-- HUB_RAS_LOG is filled (R432): a class 2 error only while the log is not valid, a class 3 or 4 error over an entry of class 2 too. -/
def State.rasLog (s : State) (cls unit cause status index : Nat) : State :=
  if s.flag HUB_RAS_LOG_valid && (cls == 2 || decide (3 ≤ s.reg HUB_RAS_LOG_class)) then s
  else
    (((((((s.setReg HUB_RAS_LOG_class cls).setReg HUB_RAS_LOG_unit unit).setReg HUB_RAS_LOG_cause cause).setReg
      HUB_RAS_LOG_status status).setReg HUB_RAS_LOG_index index).setW1c HUB_RAS_LOG_valid 1).setReg HUB_RAS_STAMP_stamp s.now.toNat).stamped

/-- A class 2 error is contained (R430, R432); of cause 1, in an SRAM, it counts in sram_ue too. -/
def State.rasContained (s : State) (unit cause status index : Nat) : State :=
  let s := if cause = 1 then s.count HUB_CTR_sram_ue else s
  ((s.count HUB_CTR_contained_errors).raise (evRas HUB_RAS_STATUS_contained_ev)).rasLog 2 unit cause status index

end Sys2Proof.Machine
end

