-- ==== Sys2Proof/Machine/Frames.lean ====
section
/-! DEFINITION. Frames: the parser (R463, R74), the length of R87, the ECMP hash (R83), the egress rewrite (R82), ECH headers (R265, R266). -/

namespace Sys2Proof.Machine

/-- A readable IP header (R463). -/
structure Ip where
  v6 : Bool
  /-- Where the header starts and its length. -/
  at_ : Nat
  hlen : Nat
  dscp : Nat
  total : Nat
  ttl : Nat
  proto : Nat
  src : Bytes
  dst : Bytes
  flow : Nat
  csumOk : Bool
  deriving DecidableEq, Repr

/-- What the parser reads of a frame. -/
structure Parsed where
  dmac : Nat
  smac : Nat
  /-- The tag control words of up to two VLAN tags, outermost first. -/
  tags : List Nat
  et : Nat
  /-- Where the bytes after the EtherType start. -/
  l3 : Nat
  ip : Option Ip
  ports : Option (Nat × Nat)
  deriving DecidableEq, Repr

/-- TPIDs of VLAN tags. -/
def isTpid (x : Nat) : Bool := x == 0x8100 || x == 0x88A8

/-- The sum of 16-bit words in one's complement, as the IPv4 header checksum takes it. -/
def onesSum : Bytes → Nat
  | a :: b :: r =>
    let t := a.toNat * 256 + b.toNat + onesSum r
    if t < 0x10000 then t else t - 0xFFFF
  | [a] => a.toNat * 256
  | [] => 0

/-- The IP header at `o` when it is readable (R463). -/
def parseIp (b : Bytes) (et o : Nat) : Option Ip :=
  if et == 0x0800 then
    let ihl := byteAt b o % 16 * 4
    if decide (o < b.length) && byteAt b o / 16 == 4 && decide (20 ≤ ihl) && decide (o + ihl ≤ b.length) then
      some { v6 := false, at_ := o, hlen := ihl, dscp := byteAt b (o + 1) / 4, total := beAt b (o + 2) 2, ttl := byteAt b (o + 8),
             proto := byteAt b (o + 9), src := slice b (o + 12) 4, dst := slice b (o + 16) 4, flow := 0,
             csumOk := onesSum (slice b o ihl) == 0xFFFF }
    else none
  else if et == 0x86DD then
    if decide (o + 40 ≤ b.length) && byteAt b o / 16 == 6 then
      some { v6 := true, at_ := o, hlen := 40, dscp := bits (beAt b o 4) 22 6, total := beAt b (o + 4) 2, ttl := byteAt b (o + 7),
             proto := byteAt b (o + 6), src := slice b (o + 8) 16, dst := slice b (o + 24) 16, flow := beAt b o 4 % 2 ^ 20,
             csumOk := true }
    else none
  else none

/-- TCP or UDP ports behind a readable IP header. A later fragment of IPv4, and a frame whose ports lie beyond the bytes present, has none and
is hashed as other IP (R83; DESIGN CHOICE: the spec does not say). -/
def parsePorts (b : Bytes) (ip : Ip) : Option (Nat × Nat) :=
  let o := ip.at_ + ip.hlen
  if (ip.proto == 6 || ip.proto == 17) && decide (o + 4 ≤ b.length) && (ip.v6 || beAt b (ip.at_ + 6) 2 % 2 ^ 13 == 0) then
    some (beAt b o 2, beAt b (o + 2) 2)
  else none

/-- The parser (chapter 04): MAC addresses, up to two VLAN tags, the EtherType, IP and its ports. -/
def parseFrame (b : Bytes) : Parsed :=
  let t0 := isTpid (beAt b 12 2) && decide (16 ≤ b.length)
  let t1 := t0 && isTpid (beAt b 16 2) && decide (20 ≤ b.length)
  let o := if t1 then 20 else if t0 then 16 else 12
  let tags := (if t0 then [beAt b 14 2] else []) ++ (if t1 then [beAt b 18 2] else [])
  let et := beAt b o 2
  let ip := parseIp b et (o + 2)
  { dmac := beAt b 0 6, smac := beAt b 6 6, tags, et, l3 := o + 2, ip, ports := ip.bind (parsePorts b) }

/-- The outermost VLAN ID, 0 for an untagged frame. -/
def Parsed.vid (p : Parsed) : Nat := (p.tags.headD 0) % 4096

/-- The frame is ECH on a port whose ech_ethertype is `et` (R74). -/
def Parsed.isEch (p : Parsed) (et : Nat) : Bool := p.et == et

/-- The frame length that the header gives, FCS included (R87): ECH before IP. -/
def headerLen (b : Bytes) (p : Parsed) (echEt : Nat) : Option Nat :=
  if p.isEch echEt then
    if p.l3 + 32 ≤ b.length then some (p.l3 + 32 + 4 * beAt b (p.l3 + 17) 2 + 4) else none
  else p.ip.map (fun ip => p.l3 + (if ip.v6 then 40 + ip.total else ip.total) + 4)

/-- The fields of the ECMP hash, concatenated (R83). -/
def hashFields (b : Bytes) (p : Parsed) (echEt : Nat) : Bytes :=
  match p.ip with
  | some ip =>
    if p.isEch echEt then slice b (p.l3 + 2) 4
    else
      ip.src ++ ip.dst ++ beBytes 1 ip.proto ++
        match p.ports with
        | some (sp, dp) => beBytes 2 sp ++ beBytes 2 dp ++ (if ip.v6 then beBytes 3 ip.flow else [])
        | none => []
  | none =>
    if p.isEch echEt && decide (p.l3 + 32 ≤ b.length) then slice b (p.l3 + 2) 4
    else beBytes 6 p.dmac ++ beBytes 6 p.smac ++ beBytes 2 p.et

/-- The ECMP hash: the CRC-32C register after the fields, started at the seed, without final XOR (R83). -/
def ecmpHash (seed : Nat) (b : Bytes) (p : Parsed) (echEt : Nat) : Nat := crcRaw seed (hashFields b p echEt)

/-- Which live member a hash selects (R84). -/
def ecmpIndex (hash n : Nat) : Nat := hash / 2 ^ 16 * n / 2 ^ 16

/-! ### The egress rewrite (R82) -/

/-- TTL or hop limit lowered by one; the IPv4 checksum follows incrementally (RFC 1624's form, on the word that holds TTL). -/
def lowerTtl (b : Bytes) (ip : Ip) : Bytes :=
  if ip.v6 then overwrite b (ip.at_ + 7) (beBytes 1 (ip.ttl - 1))
  else
    let old := beAt b (ip.at_ + 8) 2
    let new := old - 0x100
    let s0 := (0xFFFF - beAt b (ip.at_ + 10) 2) + (0xFFFF - old) + new
    let s1 := s0 % 0x10000 + s0 / 0x10000
    let s2 := s1 % 0x10000 + s1 / 0x10000
    overwrite (overwrite b (ip.at_ + 8) (beBytes 2 new)) (ip.at_ + 10) (beBytes 2 (0xFFFF - s2))

/-- vlan_op on a frame (R80, R82): strip, or set or replace the outer tag; an added tag's PCP is the class. -/
def vlanEdit (b : Bytes) (tagged : Bool) (op vid cls : Nat) : Bytes :=
  if op == 1 then (if tagged then b.take 12 ++ b.drop 16 else b)
  else if op == 2 then
    if tagged then overwrite b 12 (beBytes 2 0x8100 ++ beBytes 2 (beAt b 14 2 / 0x1000 * 0x1000 + vid))
    else b.take 12 ++ beBytes 2 0x8100 ++ beBytes 2 (cls % 8 * 0x2000 + vid) ++ b.drop 12
  else b

/-- How many bytes vlan_op adds to a frame, and how many it takes away. -/
def vlanDelta (tagged : Bool) (op : Nat) : Int :=
  if op == 1 && tagged then -4 else if op == 2 && !tagged then 4 else 0

/-- A copy's bytes as they leave (R82, R269): MACs, TTL, tag, padding to 64 bytes with FCS. -/
def applyEdit (b : Bytes) (e : Edit) (station cls : Nat) : Bytes :=
  let p := parseFrame b
  let b := if e.route then overwrite (overwrite b 0 (beBytes 6 e.dmac)) 6 (beBytes 6 station) else b
  let b := match e.route, p.ip with
    | true, some ip => lowerTtl b ip
    | _, _ => b
  let b := if e.smac then overwrite b 6 (beBytes 6 station) else b
  padTo 60 (vlanEdit b (!p.tags.isEmpty) e.vlanOp e.vid cls)

/-! ### ECH (R265–R268) -/

/-- The fields of an ECH header. -/
structure Ech where
  version : Nat := 1
  opcode : Nat
  partial_ : Bool := false
  resend : Bool := false
  /-- Flag bits 3:2. -/
  flagsRsv : Nat := 0
  gid : Nat
  member : Nat := 0
  cls : Nat := 0
  epoch : Nat := 0
  step : Nat := 0
  chunk : Nat := 0
  fmt : Nat := 0
  fmtRsv : Nat := 0
  op : Nat := 0
  plen : Nat := 0
  part : Nat := 0
  stamp : Nat := 0
  crcOk : Bool := true
  deriving DecidableEq, Repr

/-- The header at the start of `b`. -/
def Ech.parse (b : Bytes) : Ech :=
  let w0 := beAt b 0 2
  let w4 := beAt b 4 2
  { version := bits w0 12 4, opcode := bits w0 4 8, partial_ := bitOf w0 0, resend := bitOf w0 1, flagsRsv := bits w0 2 2,
    gid := beAt b 2 2, member := bits w4 4 12, cls := bits w4 0 4, epoch := beAt b 6 2, step := beAt b 8 4, chunk := beAt b 12 3,
    fmt := byteAt b 15 % 16, fmtRsv := byteAt b 15 / 16, op := byteAt b 16, plen := beAt b 17 2, part := byteAt b 19,
    stamp := beAt b 20 8, crcOk := beAt b 28 4 == crc32c (b.take 28) }

/-- Bytes 0–27 of a header. -/
def Ech.head (e : Ech) : Bytes :=
  beBytes 2 (e.version * 2 ^ 12 + e.opcode * 16 + e.flagsRsv * 4 + bit1 e.resend * 2 + bit1 e.partial_) ++ beBytes 2 e.gid ++
  beBytes 2 (e.member * 16 + e.cls) ++ beBytes 2 e.epoch ++ beBytes 4 e.step ++ beBytes 3 e.chunk ++
  beBytes 1 (e.fmtRsv * 16 + e.fmt) ++ beBytes 1 e.op ++ beBytes 2 e.plen ++ beBytes 1 e.part ++ beBytes 8 e.stamp

/-- The 32-byte header with its CRC (R266). -/
def Ech.bytes (e : Ech) : Bytes := e.head ++ beBytes 4 (crc32c e.head)

/-- An ECH frame without FCS; `payload` sets payload_len, and a short frame is padded to 64 bytes with its FCS (R267). -/
def echFrame (da sa et : Nat) (tag : Option Nat) (e : Ech) (payload : Bytes) : Bytes :=
  padTo 60 (beBytes 6 da ++ beBytes 6 sa ++ (match tag with | some t => beBytes 2 0x8100 ++ beBytes 2 t | none => []) ++
    beBytes 2 et ++ ({ e with plen := ceilDiv payload.length 4 } : Ech).bytes ++ padTo (4 * ceilDiv payload.length 4) payload)

/-- The stamp of the ECH header in a frame rewritten, and hdr_crc with it (R205, R266). -/
def restamp (b : Bytes) (stamp : FT64) : Bytes :=
  let o := (parseFrame b).l3
  let b := overwrite b (o + 20) (beBytes 8 stamp.toNat)
  overwrite b (o + 28) (beBytes 4 (crc32c (slice b o 28)))

/-- The header of the ECH frame `b`. -/
def echOf (b : Bytes) : Ech := Ech.parse (b.drop (parseFrame b).l3)

/-- The payload of the ECH frame `b`. -/
def echPayload (b : Bytes) : Bytes :=
  let o := (parseFrame b).l3
  slice b (o + 32) (4 * beAt b (o + 17) 2)

/-- Opcodes that a header may carry (R268): for groups, and for group 0x0000. -/
def opcodeKnown (e : Ech) : Bool :=
  if e.gid == 0 then e.opcode == 0x70 || e.opcode == 0x71 || e.opcode == 0x72 || (decide (0x74 ≤ e.opcode) && decide (e.opcode ≤ 0x76))
    || e.opcode == 0x78 || e.opcode == 0x79
  else (decide (1 ≤ e.opcode) && decide (e.opcode ≤ 0x0F)) || (decide (0x40 ≤ e.opcode) && decide (e.opcode ≤ 0x45))

/-- A consumed ECH frame's header is good (R267, R268): CRC, version, opcode, reserved fields, payload_len against the
frame's length, where a frame of the 64-byte minimum may carry padding, which VLAN tags put on later do not change. -/
def echHeaderOk (b : Bytes) : Bool :=
  let f := parseFrame b
  let o := f.l3
  let e := Ech.parse (b.drop o)
  let need := o + 32 + 4 * e.plen
  e.crcOk && e.version == 1 && e.flagsRsv == 0 && e.fmtRsv == 0 && opcodeKnown e
    && decide (e.cls ≤ (if e.gid == 0 then 0 else 1)) && decide (1 ≤ e.plen)
    && (need == b.length || (decide (need < b.length) && (List.range (f.tags.length + 1)).any (fun k => b.length == 60 + 4 * k)))

/-! ### The preamble and its LLR tag (R57) -/

/-- The six bytes between the start character and the SFD of a standard preamble. -/
def stdPreamble : Bytes := List.replicate 6 0x55

/-- One bit of the CRC-8 with polynomial x^8 + x^2 + x + 1, most significant bit first. -/
def crc8Bit (c : Nat) : Nat := if c < 128 then 2 * c else (2 * c - 256) ^^^ 7

/-- CRC-8 over bytes, from 0x00. -/
def crc8 (b : Bytes) : Nat :=
  b.foldl (fun c x => crc8Bit (crc8Bit (crc8Bit (crc8Bit (crc8Bit (crc8Bit (crc8Bit (crc8Bit (c ^^^ x.toNat))))))))) 0

/-- The tag of a sequenced frame. -/
def llrTag (seq session : Nat) : Bytes :=
  let b := beBytes 1 0xE5 ++ beBytes 1 1 ++ beBytes 2 seq ++ beBytes 1 session
  b ++ beBytes 1 (crc8 b)

/-- What a preamble says. -/
inductive Tag where
  /-- No tag, or one with seq_valid 0. -/
  | unsequenced
  | badCrc
  | sequenced (seq session : Nat)
  deriving DecidableEq, Repr

/-- A preamble as the receiver reads it. -/
def readTag (pre : Bytes) : Tag :=
  if byteAt pre 0 != 0xE5 then .unsequenced
  else if byteAt pre 5 != crc8 (pre.take 5) then .badCrc
  else if bitOf (byteAt pre 1) 0 then .sequenced (beAt pre 2 2) (byteAt pre 4)
  else .unsequenced

/-! ### PFC frames (R66) -/

/-- The frame is an IEEE 802.1Qbb PFC frame: destination 01-80-C2-00-00-01, EtherType 0x8808, opcode 0x0101. -/
def isPfc (b : Bytes) : Bool :=
  let p := parseFrame b
  p.dmac == 0x0180C2000001 && p.et == 0x8808 && beAt b p.l3 2 == 0x0101 && decide (p.l3 + 20 ≤ b.length)

/-- A PFC frame: the enabled classes with their quanta. -/
def pfcFrame (sa : Nat) (classes : List (Nat × Nat)) : Bytes :=
  padTo 60 (beBytes 6 0x0180C2000001 ++ beBytes 6 sa ++ beBytes 2 0x8808 ++ beBytes 2 0x0101 ++
    beBytes 2 (classes.foldl (fun v c => setBit v c.1) 0) ++
    (List.range 8).flatMap (fun i => beBytes 2 (((classes.find? (fun c => c.1 == i)).map (·.2)).getD 0)))

end Sys2Proof.Machine
end

