-- ==== Sys2Proof/Machine/Staging.lean ====
section
/-! DEFINITION. Seedbank's staging: what is recorded, and what of it is lost (R329–R334). -/

namespace Sys2Proof.Machine

/-! ### Recording -/

/-- A recording takes inputs: RECORD, and no STOP is waiting (R336). -/
def State.recording (s : State) : Bool := s.reg SBK_STATUS_state == 1 && s.sbk.stop.isNone

/-- A replay is under way (R337). -/
def State.replaying (s : State) : Bool := s.reg SBK_STATUS_state == 2

/-- Length of a record in the ring (R331). -/
def recBytes (payload : Nat) : Nat := 32 + 32 * ceilDiv payload 32

/-- Bytes in staging. -/
def Sbk.stagedBytes (k : Sbk) : Nat := k.staged.foldl (fun a r => a + recBytes r.payload.length) 0

/-- Record `a` comes before record `b` in the ring (R330, R47). -/
def SbkRec.before (a b : SbkRec) : Bool :=
  precedes a.stamp b.stamp || (a.stamp == b.stamp && (decide (a.src < b.src) || (a.src == b.src && decide (a.arr < b.arr))))

/-- A record put into staging, in order; none comes before START (R336). -/
def insertRec (r : SbkRec) : List SbkRec → List SbkRec
  | [] => [r]
  | x :: t => if SbkRec.before r x && x.kind != 9 then r :: x :: t else x :: insertRec r t

/-- A record is lost: counted, the first one's stamp kept (R334). -/
def State.recordLost (s : State) (stamp : FT64) : State :=
  let s := s.count SBK_CTR_records_lost
  { s with sbk := { s.sbk with
      lost := s.sbk.lost + 1
      lostAt := if s.sbk.lost = 0 then stamp.toNat else s.sbk.lostAt
      lostAll := s.sbk.lostAll + 1 } }

/-- An input is recorded, or lost when the 8 MiB of staging are full (R333, R334). -/
def State.record (s : State) (r : SbkRec) : State :=
  if 0x800000 < s.sbk.stagedBytes + recBytes r.payload.length then s.recordLost r.stamp
  else { s with sbk := { s.sbk with staged := insertRec r s.sbk.staged } }

/-- A record of an event that the device or the host raises now. -/
def State.recordNow (s : State) (kind src : Nat) (payload : Bytes) : State :=
  if s.recording then
    let (n, s) := s.arrival src
    s.record { kind := kind, src := src, stamp := s.now, arr := n, payload := payload }
  else s

/-- A frame that has been decided is recorded when its port and its class are selected (R329). -/
def State.recordFrame (s : State) (src cls : Nat) (stamp : FT64) (arr : Nat) (b : Bytes) : Bool × State :=
  if s.recording && bitOf (s.reg SBK_PORT_MASK_ports) (src / 8) && bitOf (s.reg SBK_CFG_tc_mask) cls then
    (true, s.record { kind := 1, src := src, stamp := stamp, arr := arr, payload := b, whole := false })
  else (false, s)

/-- The tail of a recorded frame: all its bytes with FCS, or its first 256 with snap (R331). It is lost when staging cannot hold it (R333, R334).
The four bytes of a bad FCS are not known to the model: a free value. -/
def State.recordTail (s : State) (src arr : Nat) (b : Bytes) (fcs : Fcs) : State :=
  let (f, s) := s.draw
  let code := match fcs with | .good => 0 | .bad => 1 | .abort => 2
  let tail := match fcs with
    | .good => fcsOf b
    | .abort => abortOf b
    | .bad => (padTo 4 (Config.freeBytes f 4)).take 4
  let full := b ++ tail
  let snap := s.flag SBK_CFG_snap && decide (256 < full.length)
  let fin := fun r : SbkRec =>
    { r with payload := if snap then full.take 256 else full, flags := code + 4 * bit1 snap, whole := true }
  let mine := fun (r : SbkRec) => r.kind == 1 && r.src == src && r.arr == arr && !r.whole
  let grown := { s with sbk := { s.sbk with staged := s.sbk.staged.map (fun r => if mine r then fin r else r) } }
  match s.sbk.staged.find? mine with
  | none => s
  | some r =>
    if 0x800000 < grown.sbk.stagedBytes then ({ s with sbk := { s.sbk with staged := s.sbk.staged.filter (fun r => !mine r) } }).recordLost r.stamp
    else grown

end Sys2Proof.Machine
end

