-- ==== Sys2Proof/Machine/Links.lean ====
section
/-! DEFINITION. Logical ports: mode, rate, what a port sends between frames (R49, R56–R58, R64–R66, R69). Mirror port m counts as logical
port m of a port 24, which gives it the source number 192 + m (R47, R72). -/

namespace Sys2Proof.Machine

/-- Logical ports of a fabric port under its breakout (R49); OTM carries two mirror ports (R72). -/
def State.lpCount (s : State) (p : Nat) : Nat := if p = 24 then 2 else 2 ^ s.reg (PORT_CFG_breakout p)

/-- Bits per ns of a logical port (R49). -/
def State.rate (s : State) (src : Nat) : Nat := 1600 / s.lpCount (src / 8)

/-- The logical port is UP (R54). -/
def State.isUp (s : State) (src : Nat) : Bool := (s.link src).st == .up

/-- Flow-control mode of a logical port: 0 none, 1 PFC, 2 credits (R65); mirror ports have none (R72). -/
def State.fcMode (s : State) (src : Nat) : Nat := if 192 ≤ src then 0 else bits (s.reg (PORT_FC_CFG_mode (src / 8))) (2 * (src % 8)) 2

/-- Class `c` is lossless on a fabric port (R122). -/
def State.lossless (s : State) (p c : Nat) : Bool := decide (c < 7) && bitOf (s.reg (PORT_CLASS_CFG_lossless_mask p)) c

/-- max_frame of a fabric port (R56). -/
def State.maxFrame (s : State) (p : Nat) : Nat := s.reg (PORT_FRAME_CFG_max_frame p)

/-- The source MAC of what a port originates (R64); a mirror frame's is zero (chapter 18). -/
def State.station (s : State) (p : Nat) : Nat := if p = 24 then 0 else s.reg (PORT_STATION_MAC_mac p)

/-- EtherType of ECH on a port; a mirror port has no register for it and takes the reset value (DESIGN CHOICE). -/
def State.echType (s : State) (p : Nat) : Nat := if p = 24 then (PORT_LOOKUP_CFG_ech_ethertype 0).rst else s.reg (PORT_LOOKUP_CFG_ech_ethertype p)

/-- Destination MAC of link control frames (R64), for a mirror port the reset value (DESIGN CHOICE). -/
def State.ctlMac (s : State) (p : Nat) : Nat := if p = 24 then (PORT_CTLMAC_DA_da 0).rst else s.reg (PORT_CTLMAC_DA_da p)

/-- A counter of a logical port, by source number; a mirror port has no such counter. -/
def State.countL (s : State) (f : Nat → Nat → Fld) (src : Nat) (n : Nat := 1) : State := if src < 192 then s.count (f (src / 8) (src % 8)) n else s

/-- A counter that logical ports and mirror ports both have (R72, R73). -/
def State.countM (s : State) (f : Nat → Nat → Fld) (g : Nat → Fld) (src : Nat) (n : Nat := 1) : State :=
  if src < 192 then s.countL f src n else s.count (g (src - 192)) n

/-- The fixed transmit path to the reference plane: FEC encode, PMA and PMD (R23, R134). -/
def txPath : FT64 := ns 100

/-- Device time at which a frame that starts now has its first bit at the transmit plane (R134). -/
def State.txTime (s : State) : FT64 := s.now + txPath

/-- The stamp of a frame whose first bit leaves now (R45). -/
def State.txStamp (s : State) (src : Nat) : FT64 := s.planeNow src + txPath

/-! ### Retry on the sending side (R57, R58) -/

/-- Retry is requested on a logical port (R62); mirror ports always run it (R72). -/
def State.llrEn (s : State) (src : Nat) : Bool := decide (192 ≤ src) || bitOf (s.reg (PORT_LLR_CFG_en (src / 8))) (src % 8)

/-- Retry is active on a logical port (R62), and on a mirror port that is up (R72). -/
def State.llrOn (s : State) (src : Nat) : Bool := if 192 ≤ src then s.isUp src else bitOf (s.reg (PORT_STATUS_llr_active (src / 8))) (src % 8)

/-- PORT_LLR_CFG as it applies to a port; mirror ports have no such register and take its reset values (DESIGN CHOICE). -/
def State.maxRetries (s : State) (src : Nat) : Nat :=
  if 192 ≤ src then (PORT_LLR_CFG_max_retries 0).rst else s.reg (PORT_LLR_CFG_max_retries (src / 8))

/-- retry_timeout in ns. -/
def State.retryNs (s : State) (src : Nat) : Nat :=
  1000 * (if 192 ≤ src then (PORT_LLR_CFG_retry_timeout 0).rst else s.reg (PORT_LLR_CFG_retry_timeout (src / 8)))

/-- Retry buffer of a logical port: its lanes' part of 2 MiB (R58); a mirror port's four lanes are given the same part (DESIGN CHOICE). -/
def State.retryBytes (s : State) (src : Nat) : Nat := 0x200000 / s.lpCount (src / 8)

/-- The retry buffer lets a new sequenced frame of `len` bytes start (R58). -/
def State.retryRoom (s : State) (src len : Nat) : Bool :=
  !s.llrOn src ||
    (decide ((s.link src).held.length < 32768) &&
     decide ((s.link src).held.foldl (fun a h => a + h.bytes.length + 4) 0 + len ≤ s.retryBytes src))

/-- Sequence `q` lies before `n` in the window of 32,768 (R58). -/
def seqBefore (q n : Nat) : Bool := let d := (65536 + n - q) % 65536; decide (1 ≤ d) && decide (d ≤ 32768)

/-- A sequenced frame takes the next sequence number (R57). -/
def State.takeSeq (s : State) (src : Nat) : Nat × State :=
  ((s.link src).txSeq, s.modLink src (fun l => { l with txSeq := (l.txSeq + 1) % 65536 }))

/-- A sequenced frame that has been sent is kept until an ACK covers it (R58). -/
def State.holdSent (s : State) (src : Nat) (h : Held) : State :=
  s.modLink src (fun l => { l with held := l.held ++ [h], lastAck := if l.held.isEmpty then s.now else l.lastAck })

/-- The preamble of a frame: a tag with its sequence number and the peer's session, or the standard one (R57, R62). -/
def State.preamble (s : State) (src : Nat) : Option Nat → Bytes
  | some q => llrTag q (s.link src).peerSess
  | none => stdPreamble

/-- A frame leaves on a port and is counted as transmitted (R73); its bytes are those without FCS. -/
def State.putFrame (s : State) (src : Nat) (seq : Option Nat) (b : Bytes) (good : Bool) (stamp : FT64) : State :=
  ((s.emit (.frame src (s.preamble src seq) b good stamp)).countM PORT_LCTR_tx_frames MIR_CTR_tx_frames src).countM PORT_LCTR_tx_bytes
    MIR_CTR_tx_bytes src (b.length + 4)

/-! ### Frames that a port originates (R35, R38, R64, R66) -/

/-- A PTP timestamp: seconds and whole ns. -/
def ptpBytes (t : FT64) : Bytes := beBytes 6 (t.toNat / 256 / 1000000000) ++ beBytes 4 (t.toNat / 256 % 1000000000)

/-- A Pdelay_Resp_Follow_Up with t3 in its timestamp; what lies below 1 ns joins the correctionField (R38). The PTP message starts at
byte 14 of the untagged frame. -/
def followWith (b : Bytes) (corr : Int) (t3 : FT64) : Bytes :=
  overwrite (overwrite b 22 (beBytes 8 (unsigned 64 ((corr + ((t3.toNat % 256 : Nat) : Int)) * 256)))) 48 (ptpBytes t3)

/-- A frame of the port's own leaves now (R38, R45, R57, R73). Its stamp goes where `start` says; an ECH frame is a stamped object of the device's
own (R47). A replay discards it instead (R338). -/
def State.sendNow (s : State) (src : Nat) (c : CtlTx) : State :=
  if s.replaying && decide (src < 192) then s.count SBK_CTR_replay_egress_drops
  else
  let stamp := s.txStamp src
  let b := if c.start = .oneStep then restamp c.bytes stamp else c.bytes
  let s := if c.start = .oneStep then s.stamped else s
  let s :=
    if c.seqd && s.llrOn src then
      let (q, s) := s.takeSeq src
      (s.putFrame src (some q) b true stamp).holdSent src { seq := q, bytes := b, good := true, stamp := stamp }
    else s.putFrame src none b true stamp
  match c.start with
  | .pdelayReq => { s with clk := { s.clk with pdReq := s.clk.pdReq.map (fun r => { r with t1 := some stamp }) } }
  | .pdelayResp f corr => s.modEg src (fun e => { e with ctlq := { bytes := followWith f corr stamp, seqd := true } :: e.ctlq })
  | _ => s

/-- The first waiting frame that may leave: an unsequenced one always, a sequenced one when it is the first of them and `room` lets it (R58). -/
def firstReady (room : CtlTx → Bool) : List CtlTx → Option CtlTx
  | [] => none
  | c :: r => if !c.seqd || room c then some c else r.find? (fun x => !x.seqd)

/-- At most `n` waiting frames leave between frames, in order (R66). -/
def State.flushCtl (s : State) (src : Nat) : Nat → State
  | 0 => s
  | n + 1 =>
    match firstReady (fun c => s.retryRoom src (c.bytes.length + 4)) (s.link src).eg.ctlq with
    | none => s
    | some c => ((s.modEg src (fun e => { e with ctlq := e.ctlq.erase c })).sendNow src c).flushCtl src n

/-- What waits between frames leaves while the link is free. -/
def State.flush (s : State) (src : Nat) : State :=
  if (s.link src).eg.tx.isSome then s else s.flushCtl src (2 * (s.link src).eg.ctlq.length)

/-- A frame put into the queue of those that wait between frames: a PFC frame ahead of all that are none (R66). -/
def insertCtl (c : CtlTx) (q : List CtlTx) : List CtlTx :=
  if isPfc c.bytes then q.takeWhile (fun x => isPfc x.bytes) ++ c :: q.dropWhile (fun x => isPfc x.bytes) else q ++ [c]

/-- A frame that the port itself originates is sent between frames: at once, or after the frame in progress (R66). -/
def State.sendCtl (s : State) (src : Nat) (c : CtlTx) : State := (s.modEg src (fun e => { e with ctlq := insertCtl c e.ctlq })).flush src

/-- The ECH frame of group 0 with this opcode (R35, R64). -/
def State.portEch (s : State) (src opcode : Nat) (payload : Bytes) : Bytes :=
  let p := src / 8
  echFrame (s.ctlMac p) (s.station p) (s.echType p) none { opcode := opcode, gid := 0 } payload

/-- A link control frame (R64): one-step, unsequenced. -/
def State.sendEch (s : State) (src opcode : Nat) (payload : Bytes) : State :=
  s.sendCtl src { bytes := s.portEch src opcode payload, start := .oneStep }

/-- A time frame (R35): one-step, sequenced where retry is active. -/
def State.sendTime (s : State) (src opcode : Nat) (payload : Bytes) : State :=
  s.sendCtl src { bytes := s.portEch src opcode payload, start := .oneStep, seqd := true }

/-- An LLR_ACK or LLR_NACK (R59, R64); its session is the one this receiver announced (R62). -/
def State.sendAck (s : State) (src opcode : Nat) : State :=
  let l := s.link src
  s.sendEch src opcode (beBytes 1 l.ownSess ++ [0] ++ beBytes 2 l.nextExp ++ [0, 0, 0, 0])

/-- Classes of a logical port under back-pressure. -/
def State.bpClasses (s : State) (src : Nat) : List Nat :=
  (List.range 7).filter (fun c => s.store.bpPairs.contains (src * 8 + c))

/-- A PFC frame with these classes and quanta leaves, counted in tx_pfc_frames (R66); only an UP port in PFC mode sends one. -/
def State.sendPfc (s : State) (src : Nat) (cs : List (Nat × Nat)) : State :=
  if s.isUp src && s.fcMode src == 1 && !cs.isEmpty then
    (s.sendCtl src { bytes := pfcFrame (s.station (src / 8)) cs }).countL PORT_LCTR_tx_pfc_frames src
  else s

/-- A PFC frame that keeps every back-pressured class of the port paused. -/
def State.sendPause (s : State) (src : Nat) : State :=
  s.sendPfc src ((s.bpClasses src).map (fun c => (c, s.reg (PORT_PFC_CFG_xoff_quanta (src / 8)))))

/-- A CREDIT_UPDATE with the cumulative limit of every class (R69). -/
def State.sendCredit (s : State) (src : Nat) : State :=
  let l := s.link src
  s.sendEch src 0x79 ([0, 0, 0, 0] ++ (List.range 7).flatMap (fun c => beBytes 4 (l.granted.get 0 c % 2 ^ 32)))

/-- Bit `l` of the port's link_up or llr_active follows a logical port. -/
def State.setStatusBit (s : State) (f : Fld) (i : Nat) (b : Bool) : State :=
  s.setReg f (if b then setBit (s.reg f) i else clearBit (s.reg f) i)

end Sys2Proof.Machine
end

