-- ==== Sys2Proof/Machine/Pools.lean ====
section
/-! DEFINITION. The central store and the buffer pools: regions, errors, admission, charges, back-pressure, release (chapter 05). -/

namespace Sys2Proof.Machine

/-! ### Regions (R93, R95, R96) -/

def gib : Nat := 0x40000000
def storeEnd : Nat := 0x9000000000

/-- Where an address lies (R93). -/
inductive Region where
  | packet | program | seedbank | none
  deriving DecidableEq, Repr

/-- End of the packet region, which is where the program region starts. -/
def State.pktEnd (s : State) : Nat := s.reg STORE_REGION_CFG_pkt_size * gib

/-- Start of the Seedbank ring. -/
def State.sbkBase (s : State) : Nat := storeEnd - s.reg STORE_REGION_CFG_sbk_size * gib

/-- End of the program region, at most 512 GiB long. -/
def State.progEnd (s : State) : Nat := s.pktEnd + min (512 * gib) (s.sbkBase - s.pktEnd)

/-- The region of an address. -/
def State.regionOf (s : State) (a : Nat) : Region :=
  if a < s.pktEnd then .packet
  else if a < s.progEnd then .program
  else if s.sbkBase ≤ a && a < storeEnd then .seedbank
  else .none

/-- The refusal of an access of `n` bytes at `a` (R96): ST_STORE_RANGE when some of it lies in no region, ST_STORE_REGION when
a region it touches is not in `ok`. Regions are intervals, so the ends decide, with the gap above the program region. -/
def State.rangeCheck (s : State) (a n : Nat) (ok : List Region) : Option Nat :=
  let e := a + n - 1
  let rs := [s.regionOf a, s.regionOf e]
  let gap := decide (a < s.sbkBase) && decide (s.progEnd ≤ e) && decide (s.progEnd < s.sbkBase)
  if rs.contains .none || gap then some stStoreRange
  else if rs.all ok.contains && (!(decide (a < s.pktEnd) && decide (s.progEnd ≤ e)) || ok.contains .program) then none
  else some stStoreRegion

/-! ### Store words and their errors (R98, R114) -/

/-- The 32-byte words of the range [a, a + n) that are uncorrectable. -/
def State.badWords (s : State) (a n : Nat) : List Nat :=
  s.store.ue.filter (fun w => decide (w * 32 < a + n) && decide (a < w * 32 + 32))

/-- An uncorrectable error is counted and logged (R114, R432); `req` codes STORE_ECC_LOG.requester. -/
def State.logUe (s : State) (addr req : Nat) : State :=
  let s := (s.count STORE_CTR_ue_count).raise (evStore STORE_INTR_STATUS_ue_ev)
  let s := (((s.setReg STORE_ECC_LOG_addr addr).setReg STORE_ECC_LOG_stack (addr / 256 % 24)).setReg STORE_ECC_LOG_requester req).setW1c
    STORE_ECC_LOG_valid 1
  let s := (s.setReg STORE_ECC_STAMP_stamp (s.copyNow (4 + addr / 256 % 24 / 4)).toNat).stamped
  s.rasContained (8 + addr / 256 % 24 / 4) 11 stMemUncorrectable (addr / 256 % 24)

/-- Bytes of the store. -/
def State.storeRead (s : State) (a n : Nat) : Bytes := Mem.read s.store.mem a n

/-- Bytes written to the store; every whole word written ends its error (R114). -/
def State.storeWrite (s : State) (a : Nat) (b : Bytes) : State :=
  { s with store := { s.store with
      mem := Mem.write s.store.mem a b
      ue := s.store.ue.filter (fun w => !(decide (a ≤ w * 32) && decide (w * 32 + 32 ≤ a + b.length))) } }

/-- The first word of [a, a + n) that a write covers only in part and that is uncorrectable (R114). -/
def State.partialUe (s : State) (a n : Nat) : Option Nat :=
  (s.badWords a n).find? (fun w => decide (w * 32 < a) || decide (a + n < w * 32 + 32))

/-! ### Pools (R99–R104) -/

/-- Buffer size of a pool in 256-byte units. -/
def poolUnits : Nat → Nat
  | 0 => 1 | 1 => 4 | 2 => 16 | 3 => 64 | 4 => 256 | _ => 4096

/-- Buffer size of a pool in bytes. -/
def poolSize (k : Nat) : Nat := 256 * poolUnits k

/-- The smallest pool whose buffers hold `l` bytes (R100). -/
def poolFor (l : Nat) : Option Nat := (List.range 6).find? (fun k => decide (l ≤ poolSize k))

/-- Entries in a list of segments. -/
def segCount (l : List Seg) : Nat := l.foldl (fun a g => a + g.n) 0

/-- The pool's state. -/
def State.pool (s : State) (k : Nat) : PoolSt := s.store.pools.get {} k

/-- A pool's state replaced. -/
def State.setPool (s : State) (k : Nat) (p : PoolSt) : State := { s with store := { s.store with pools := s.store.pools.put {} k p } }

/-- The free count: ring and caches together (R102). -/
def PoolSt.free (p : PoolSt) : Nat := segCount p.ring + p.caches.foldl (fun a c => a + segCount c.2) 0

/-- Entry `i` taken out of a list of segments: its unit and generation, and what is left. -/
def segTake (stride : Nat) : List Seg → Nat → Option ((Nat × Nat) × List Seg)
  | [], _ => none
  | g :: r, i =>
    if i < g.n then
      let before := if i = 0 then [] else [{ g with n := i }]
      let after := if i + 1 < g.n then [{ g with unit := g.unit + (i + 1) * stride, n := g.n - i - 1 }] else []
      some ((g.unit + i * stride, g.gen), before ++ after ++ r)
    else (segTake stride r (i - g.n)).map (fun x => (x.1, g :: x.2))

/-- The first `n` entries of a list of segments, and the rest. -/
def segSplit (stride : Nat) : List Seg → Nat → List Seg × List Seg
  | [], _ => ([], [])
  | g :: r, n =>
    if n = 0 then ([], g :: r)
    else if g.n ≤ n then let (a, b) := segSplit stride r (n - g.n); (g :: a, b)
    else ([{ g with n := n }], { g with unit := g.unit + n * stride, n := g.n - n } :: r)

/-- Up to 64 entries move from the ring head into a slice's cache (R102). -/
def PoolSt.refill (p : PoolSt) (stride sl : Nat) : PoolSt :=
  let (a, b) := segSplit stride p.ring 64
  { ring := b, caches := p.caches.put [] sl (p.caches.get [] sl ++ a) }

/-- 64 entries move from a slice's cache to the ring tail (R102). -/
def PoolSt.spill (p : PoolSt) (stride sl : Nat) : PoolSt :=
  let (a, b) := segSplit stride (p.caches.get [] sl) 64
  { ring := p.ring ++ a, caches := p.caches.put [] sl b }

/-- The slice that serves a request from home slice `h`: the first with a cached entry in the order of R102. -/
def PoolSt.serving (p : PoolSt) (h : Nat) : Option Nat :=
  ((List.range 6).map (fun i => (h + i) % 6)).find? (fun sl => decide (0 < segCount (p.caches.get [] sl)))

/-- A buffer is taken from pool `k`; among cached entries the spec orders none. With every cache empty and the ring not, the
home slice refills first. Also answers the generation the buffer carries (R104). -/
def State.takeBuffer (s : State) (k home : Nat) : Option ((Nat × Nat) × State) :=
  let p := s.pool k
  let p := if (p.serving home).isSome then p else p.refill (poolUnits k) home
  match p.serving home with
  | none => none
  | some sl =>
    let c := p.caches.get [] sl
    let (f, s) := s.draw
    match segTake (poolUnits k) c (pick (segCount c) f) with
    | none => none
    | some (e, rest) =>
      let s := s.setPool k { p with caches := p.caches.put [] sl rest }
      some (e, s.setReg (POOL_LOW_WATER_low k) (min (s.reg (POOL_LOW_WATER_low k)) (s.pool k).free))

/-- Home slice of channel `i`, or of the hub at 8 (R102). -/
def State.home (s : State) (i : Nat) : Nat := bits (s.reg STORE_HOME_CFG_home) (3 * i) 3 % 6

/-! ### Owners, charges and shared usage (R106–R108) -/

def State.limits (s : State) (o : Nat) : Limits := s.store.limits.get {} o
def State.usage (s : State) (o : Nat) : Nat := s.store.usage.get 0 o

/-- Σ max(0, usage − min) (R108). -/
def State.sharedUsed (s : State) : Nat := s.store.usage.foldl (fun a e => a + (e.2 - (s.limits e.1).min)) 0

/-- Σ min over the owners. -/
def State.sumMin (s : State) : Nat := s.store.limits.foldl (fun a e => a + e.2.min) 0

/-- Σ count × size / 256 as the POOL_CFG counts stand (R107). -/
def State.poolTotal (s : State) : Nat := (List.range 6).foldl (fun a k => a + s.reg (POOL_CFG_count k) * poolUnits k) 0

/-- Total while enabled, else what the counts give (R107). -/
def State.total (s : State) : Nat := if s.flag STORE_STATUS_ready then s.reg STORE_SHARED_STATUS_total else s.poolTotal

/-- Shared capacity (R108). -/
def State.sharedCap (s : State) : Nat := s.reg STORE_SHARED_STATUS_total - s.sumMin

/-- An owner's usage set, its peak with it. -/
def State.setUsage (s : State) (o v : Nat) : State :=
  let s := { s with store := { s.store with usage := s.store.usage.put 0 o v } }
  s.setReg (POOL_OWN_PEAK_peak o) (max (s.reg (POOL_OWN_PEAK_peak o)) v)

/-! ### Back-pressure and credit (R111, R112) -/

/-- The (logical port × 8 + class) pairs that an owner's back-pressure reaches (R111). -/
def State.ownerPairs (s : State) (o : Nat) : List Nat :=
  if o < 192 then
    if s.lossless (o / 8) (o % 8) then (List.range (s.lpCount (o / 8))).map (fun l => (o / 8 * 8 + l) * 8 + o % 8) else []
  else if o < 224 then
    s.store.bufs.foldl (fun a e => match e.2.from_ with
      | some (src, c) => if e.2.owner == o && s.lossless (src / 8) c && !a.contains (src * 8 + c) then a ++ [src * 8 + c] else a
      | none => a) []
  else []

/-- Whether an owner's back-pressure stands (R111). -/
def State.bpHolds (s : State) (o : Nat) : Bool :=
  let u := s.usage o
  let l := s.limits o
  let sh := s.sharedUsed
  if s.ownerPairs o == [] then false
  else if s.store.bp.contains o then
    !(decide (u ≤ l.xon) && (decide (u ≤ l.min) || decide (sh ≤ s.reg STORE_SHARED_CFG_shared_xon)))
  else decide (l.xoff ≤ u) || (decide (l.min < u) && decide (s.reg STORE_SHARED_CFG_shared_xoff ≤ sh))

/-- The credit limit of a class on a credit-mode logical port (R112), as a count that is not reduced modulo 2^32; while the pair is
back-pressured it is withheld (R111). -/
def State.creditLimit (s : State) (src c : Nat) : Nat :=
  let p := src / 8
  let l := s.link src
  let o := 8 * p + c
  let nUp := ((List.range 8).filter (fun i => s.isUp (8 * p + i) && s.fcMode (8 * p + i) == 2)).length
  let old := l.granted.get 0 c
  if s.store.bpPairs.contains (src * 8 + c) then old
  else max old (l.rxUnits.get 0 c + ((s.limits o).xoff - s.usage o) / max nUp 1)

/-- The limits of a logical port are computed anew, and sent when one has changed (R71, R112). -/
def State.creditSync (s : State) (src : Nat) : State :=
  if s.isUp src && s.fcMode src == 2 then
    let l := s.link src
    let g := ((List.range 7).filter (fun c => s.lossless (src / 8) c)).foldl (fun g c => Tab.put g 0 c (s.creditLimit src c)) l.granted
    if g = l.granted then s else (s.setLink src { l with granted := g }).sendCredit src
  else s

/-- Back-pressure follows usage (R111): owners are judged anew, each port sends PFC for the pairs that changed (R66), and grants the
credit that a pair which ended had withheld (R71). -/
def State.bpSync (s : State) : State :=
  let owners := (s.store.usage.map (·.1) ++ s.store.bp).eraseDups
  let bp := owners.filter (fun o => s.bpHolds o)
  let old := s.store.bpPairs
  let new := (bp.flatMap (fun o => s.ownerPairs o)).eraseDups
  let s := owners.foldl (fun s o => s.setReg (POOL_OWN_CTRL_bp o) (bit1 (bp.contains o))) s
  let s := { s with store := { s.store with bp := bp, bpPairs := new } }
  let on := new.filter (fun x => !old.contains x)
  let off := old.filter (fun x => !new.contains x)
  let s := (((on ++ off).map (· / 8)).eraseDups).foldl (fun s src =>
    s.sendPfc src (((on.filter (fun x => x / 8 == src)).map (fun x => (x % 8, s.reg (PORT_PFC_CFG_xoff_quanta (src / 8)))))
      ++ ((off.filter (fun x => x / 8 == src)).map (fun x => (x % 8, 0))))) s
  ((off.map (· / 8)).eraseDups).foldl State.creditSync s

/-- The credit limits of every logical port of a fabric port are computed anew (R112). -/
def State.creditPort (s : State) (p : Nat) : State := (List.range 8).foldl (fun s l => s.creditSync (8 * p + l)) s

/-- What follows any change of usage: back-pressure, and the credit limits of the owner's port. -/
def State.usageSync (s : State) (o : Nat) : State := if o < 192 then s.bpSync.creditPort (o / 8) else s.bpSync

/-! ### Requests and releases (R100, R104, R105, R109) -/

/-- Why a request is refused (R109, R113). -/
inductive Refuse where
  | ceil | shared | pool
  deriving DecidableEq, Repr

/-- Pool `k` is available to a request (R100). -/
def State.poolAvailable (s : State) (k : Nat) (reserved : Bool) : Bool :=
  let f := (s.pool k).free
  decide (s.reg (POOL_FLOOR_floor k) < f) || (reserved && decide (0 < f))

/-- The answer of R109 to a request of `u` units by owner `o`: reserved or not, or refused. -/
def State.admitShared (s : State) (o u : Nat) (losslessRx : Bool) : Except Refuse Bool :=
  let l := s.limits o
  let use := s.usage o
  let after := use + u
  if after ≤ l.min then .ok true
  else if l.ceil < after then .error .ceil
  else if !losslessRx && decide (s.sharedCap < s.sharedUsed + (after - max use l.min)) then .error .shared
  else .ok false

/-- The pool that serves a request whose first choice is `k`: fallback only climbs (R100). -/
def State.choosePool (s : State) (k : Nat) (reserved : Bool) : Option Nat :=
  (List.range 6).find? (fun j => decide (k ≤ j) && s.poolAvailable j reserved)

/-- A buffer of the first available pool from `k` up is allocated and charged to owner `o` (R100, R104, R108). -/
def State.grant (s : State) (o len k : Nat) (reserved : Bool) (home : Nat) (src : Option (Nat × Nat)) : Option (Nat × State) :=
  match s.choosePool k reserved with
  | none => none
  | some j =>
    let s := if s.poolAvailable k reserved || k == 5 then s else s.countSat (POOL_COUNTS_fallback_out k)
    match s.takeBuffer j home with
    | none => none
    | some ((unit, gen), s) =>
      let b : Buf := { pool := j, gen := gen, shares := 1, owner := o, units := ceilDiv len 256, last := o, from_ := src }
      let s := { s with store := { s.store with bufs := s.store.bufs.insert unit b } }
      some (unit, (s.setUsage o (s.usage o + b.units)).usageSync o)

/-- A buffer request of `len` bytes for owner `o` (R100, R109): the buffer's unit, or why not. -/
def State.request (s : State) (o len : Nat) (losslessRx : Bool) (home : Nat) (src : Option (Nat × Nat)) : Except Refuse Nat × State :=
  match poolFor len with
  | none => (.error .pool, s)
  | some k =>
    match s.admitShared o (ceilDiv len 256) losslessRx with
    | .error r => (.error r, s.countSat (POOL_COUNTS_refusals k))
    | .ok reserved =>
      match s.grant o len k reserved home src with
      | none => (.error .pool, (if k == 5 then s else s.countSat (POOL_COUNTS_fallback_out k)).countSat (POOL_COUNTS_refusals k))
      | some (unit, s) => (.ok unit, s)

/-- The charge of a buffer corrected to `len` bytes (R108). -/
def State.recharge (s : State) (unit len : Nat) : State :=
  match s.store.bufs.find? unit with
  | none => s
  | some b =>
    let u := ceilDiv len 256
    let s := { s with store := { s.store with bufs := s.store.bufs.insert unit { b with units := u } } }
    (s.setUsage b.owner (s.usage b.owner + u - b.units)).usageSync b.owner

/-- A buffer becomes shared with `n` shares, and its last owner is named; the charge moves to that owner (R105). -/
def State.share (s : State) (unit n last : Nat) : State :=
  match s.store.bufs.find? unit with
  | none => s
  | some b =>
    let s := { s with store := { s.store with bufs := s.store.bufs.insert unit { b with shares := n, last := last, owner := last } } }
    if b.owner = last then s
    else
      let s := s.setUsage b.owner (s.usage b.owner - b.units)
      ((s.setUsage last (s.usage last + b.units)).usageSync b.owner).usageSync last

/-- One share of a buffer is released (R105): at zero it enters the cache of the releasing requester's home slice, with the
next generation, and the last owner's usage falls. A retired buffer enters no ring, and its charge stays (R108, R115). -/
def State.release (s : State) (unit home : Nat) : State :=
  match s.store.bufs.find? unit with
  | none => s
  | some b =>
    if 1 < b.shares then { s with store := { s.store with bufs := s.store.bufs.insert unit { b with shares := b.shares - 1 } } }
    else
      let s := { s with store := { s.store with bufs := s.store.bufs.erase unit } }
      if b.retired then s
      else
        let p := s.pool b.pool
        let s := s.setPool b.pool { p with caches := p.caches.put [] home (p.caches.get [] home ++ [⟨unit, 1, (b.gen + 1) % 256⟩]) }
        (s.setUsage b.owner (s.usage b.owner - b.units)).usageSync b.owner

/-- A buffer is retired: counted once, and out of use until the store is reset (R115). -/
def State.retire (s : State) (unit : Nat) : State :=
  match s.store.bufs.find? unit with
  | none => s
  | some b =>
    if b.retired then s
    else
      let s := { s with store := { s.store with bufs := s.store.bufs.insert unit { b with retired := true }, lost := s.store.lost ++ [unit] } }
      s.count STORE_CTR_retired_buffers

/-- The handle of a buffer (R104). -/
def State.handle (s : State) (unit : Nat) : Nat :=
  match s.store.bufs.find? unit with
  | none => 0
  | some b => unit * 256 + b.gen * 2 ^ 48 + b.pool * 2 ^ 56

/-- The buffer that a handle names while it is allocated (R104). -/
def State.handleUnit (s : State) (h : Nat) : Option Nat :=
  let unit := bits h 8 40
  match s.store.bufs.find? unit with
  | none => none
  | some b => if h % 256 = 0 && bits h 48 8 == b.gen && bits h 56 3 == b.pool && bits h 59 5 == 0 then some unit else none

/-- The buffer that holds an address, if one is allocated there. -/
def State.bufferAt (s : State) (a : Nat) : Option Nat :=
  (List.find? (fun e : Nat × Buf => decide (e.1 * 256 ≤ a) && decide (a < e.1 * 256 + poolSize e.2.pool)) s.store.bufs).map (·.1)

end Sys2Proof.Machine
end

