-- ==== Sys2Proof/Machine/Discipline.lean ====
section
/-! DEFINITION. The discipline's states and the loss of a source (R34, R40, R41). Measurements and steps are in Machine/Time.lean. -/

namespace Sys2Proof.Machine

def dFree : Nat := 0
def dAcquire : Nat := 1
def dLocked : Nat := 2
def dHoldover : Nat := 3

/-- The source in use: 0 beacons, 1 PTP, 2 pins, 3 none (R34). -/
def State.srcActive (s : State) : Nat := s.reg TIME_STATUS_src_active

/-- The logical port that a source of kind 0 or 1 arrives on; 256 is none, for a port number that no fabric port has. -/
def State.designated (s : State) (kind : Nat) : Nat :=
  let p := if kind == 0 then s.reg TIME_SRC_CFG_beacon_port else s.reg TIME_SRC_CFG_ptp_port
  if p < 24 then 8 * p + s.reg TIME_SRC_CFG_logical else 256

/-- The asymmetry in force for a source (R34): the backup's while it runs after an automatic move. -/
def State.asym (s : State) : Int :=
  if s.clk.onBackup then s.regInt TIME_ASYM_BACKUP_asym else s.regInt TIME_ASYM_asym

/-- Whole ms since the holdover began, saturating (TIME_HOLDOVER_TIME). -/
def State.holdMs (s : State) : Nat := min (2 ^ 32 - 1) ((ftDiff s.clk.holdAt s.now).toNat / 256000000)

/-- The ±200 ppm limit of TIME_RATE (R31). -/
def rateLimit (r : Int) : Int := max (-219902325) (min 219902325 r)

/-- A TIME record (R329, R331): event 0 step, 1 rate, 2 state. -/
def State.recordTime (s : State) (ev : Nat) (v : Int) : State :=
  s.recordNow 4 195 ([BitVec.ofNat 8 ev, BitVec.ofNat 8 (s.reg TIME_STATUS_state), 0, 0, 0, 0, 0, 0] ++ leBytes 8 (unsigned 64 v))

/-- The discipline sets TIME_RATE (R31); a change is recorded (R329). -/
def State.setRate (s : State) (r : Int) : State :=
  if s.regInt TIME_RATE_rate = rateLimit r then s else (s.setRegInt TIME_RATE_rate (rateLimit r)).recordTime 1 (rateLimit r)

/-- The discipline enters a state (R41); entering the state it is in changes nothing. -/
def State.enter (s : State) (new : Nat) : State :=
  let old := s.reg TIME_STATUS_state
  if old = new then s
  else
    let s := if old = dHoldover then s.setReg TIME_HOLDOVER_TIME_elapsed s.holdMs else s
    let s := (s.setReg TIME_STATUS_state new).recordTime 2 0
    let s := { s with clk := { s.clk with okRun := 0, badRun := 0 } }
    if new = dFree then s.raise (evTime TIME_STATUS_free_ev)
    else if new = dLocked then ({ s with clk := { s.clk with lockedAt := s.now } }).raise (evTime TIME_STATUS_lock_ev)
    else if new = dHoldover then
      let s := { s with clk := { s.clk with holdAt := s.now } }
      let s := if s.flag TIME_CTRL_servo_en then s.setRate s.clk.freq else s
      s.raise (evTime TIME_STATUS_holdover_ev)
    else { s with clk := { s.clk with stepBarred := old == dLocked || old == dHoldover } }

/-- The lower median of a nonempty list (R36). -/
def median (l : List Nat) : Nat := (sortBy (fun a b => decide (a ≤ b)) l).getD ((l.length - 1) / 2) 0

/-- The delay that the measurements of source `k` use: link delays for beacons, peer delays for PTP (R36–R38), at most what
TIME_PATH_DELAY holds. Each source keeps a set of its own (DESIGN CHOICE). -/
def State.pathDelay (s : State) (k : Nat) : Nat := min (2 ^ 32 - 1) (median (if k = 0 then s.clk.ldelay else s.clk.pdelay))

/-- TIME_PATH_DELAY shows the set of source `k`, unless the other of the two is in use (DESIGN CHOICE). -/
def State.showDelay (s : State) (k : Nat) : State :=
  if s.srcActive < 2 ∧ s.srcActive ≠ k then s else s.setReg TIME_PATH_DELAY_delay (s.pathDelay k)

/-- src_active takes a source; its timers start, and TIME_PATH_DELAY shows its delay. -/
def State.useSource (s : State) (k : Nat) : State :=
  let s := s.setReg TIME_STATUS_src_active k
  let s := if k < 2 then s.showDelay k else s
  { s with clk := { s.clk with lastMeas := s.now, lastPps := s.now, missed := 0, lost := false } }

/-- The active source is declared lost, once until it measures again (R34, R40, R41). -/
def State.sourceLost (s : State) : State :=
  if s.clk.lost then s
  else
  let s := ({ s with clk := { s.clk with lost := true } }).raise (evTime TIME_STATUS_loss_ev)
  let st := s.reg TIME_STATUS_state
  let s :=
    if st = dLocked then (if s.elapsed s.clk.lockedAt 10000000000 then s.enter dHoldover else s.enter dFree)
    else if st = dAcquire then s.enter dFree else s
  if s.flag TIME_SRC_CFG_auto_switch && s.reg TIME_SRC_CFG_backup_sel != 3 && !s.clk.onBackup then
    let s := s.useSource (s.reg TIME_SRC_CFG_backup_sel)
    { s with clk := { s.clk with onBackup := true } }
  else s

/-- A link-down event on the designated port is a source loss (R40). -/
def State.linkLoss (s : State) (src : Nat) : State :=
  if decide (s.srcActive < 2) && s.designated s.srcActive == src then s.sourceLost else s

end Sys2Proof.Machine
end

