-- ==== Sys2Proof/Machine/Egress.lean ====
section
/-! DEFINITION. Egress queues, shapers, deficit round robin, gates, copies on the wire, link state changes (R54, R55, R58, R84–R90, R127–R139). -/

namespace Sys2Proof.Machine

/-! ### Frames in the store and their copies -/

/-- The bytes of a frame that are present: those in its buffer and those beyond it. -/
def State.frameBytes (s : State) (f : Frm) : Bytes :=
  s.storeRead (f.unit * 256) (f.len - f.rest.length) ++ f.rest

/-- Bytes added to a frame: into its buffer as far as it holds them, in whole words (R114). -/
def State.frameAppend (s : State) (id : Nat) (b : Bytes) : State :=
  match s.frm id, (s.frm id).bind (fun f => s.store.bufs.find? f.unit) with
  | some f, some buf =>
    let room := poolSize buf.pool - (f.len - f.rest.length)
    let fit := if f.rest.isEmpty then b.take room else []
    let extra := if f.rest.isEmpty then b.drop room else b
    let s := s.storeWrite (f.unit * 256 + f.len) (padTo (32 * ceilDiv fit.length 32) fit)
    s.modFrm id (fun f => { f with len := f.len + b.length, rest := f.rest ++ extra })
  | some _, none => s.modFrm id (fun f => { f with len := f.len + b.length, rest := f.rest ++ b })
  | none, _ => s

/-- Home slice of the channel that a logical port belongs to (R13, R102). -/
def State.portHome (s : State) (src : Nat) : Nat := s.home (src / 24)

/-- A copy is done: its share of the buffer is released (R105). The last share of a frame still arriving is kept until its tail. -/
def State.copyDone (s : State) (id src : Nat) : State :=
  match s.frm id with
  | none => s
  | some f =>
    if f.copies ≤ 1 && f.tail.isNone then s.modFrm id (fun f => { f with copies := 0 })
    else
      let s := s.release f.unit (s.portHome src)
      if f.copies ≤ 1 then { s with frames := s.frames.erase id } else s.modFrm id (fun f => { f with copies := f.copies - 1 })

/-- Length that vlan_op gives a copy beside its frame. -/
def State.copyDelta (s : State) (c : Copy) : Int :=
  match s.frm c.frm with
  | none => 0
  | some f => vlanDelta (!(parseFrame (s.frameBytes f)).tags.isEmpty) c.edit.vlanOp

/-- How many bytes of a copy stand before byte `n` of its frame, which lies beyond the tag (R82). -/
def State.copyAt (s : State) (c : Copy) (n : Nat) : Nat := if n = 0 then 0 else ((n : Int) + s.copyDelta c).toNat

/-- A copy's bytes as they leave egress port `p`, as far as they are present. -/
def State.copyBytes (s : State) (c : Copy) (p : Nat) : Bytes :=
  match s.frm c.frm with
  | none => []
  | some f => applyEdit (s.frameBytes f) c.edit (s.station p) f.cls

/-- Scheduling length (R128): the actual length once the tail is in, even where the header gave one (DESIGN CHOICE), else the header's with what
vlan_op changes and at least 64 (DESIGN CHOICE), else max_frame. -/
def State.schedLen (s : State) (c : Copy) (p : Nat) : Nat :=
  match s.frm c.frm with
  | none => 0
  | some f =>
    if f.tail.isSome then (s.copyBytes c p).length + 4
    else match f.est with
      | some l => max 64 ((l : Int) + s.copyDelta c).toNat
      | none => s.maxFrame p

/-- The queue of a class. -/
def Egress.queue (e : Egress) (c : Nat) : List Copy := e.q.get [] c

/-! ### Waiting for credit (R69–R71) -/

/-- Units of credit available to a class (R69). -/
def State.credit (s : State) (src c : Nat) : Nat :=
  let l := s.link src
  (2 ^ 32 + l.limit.get 0 c % 2 ^ 32 - l.consumed.get 0 c % 2 ^ 32) % 2 ^ 32

/-- The class needs credit on this logical port (R69, R70, R127). -/
def State.credited (s : State) (src c : Nat) : Bool := s.fcMode src == 2 && s.lossless (src / 8) c

/-- Length by which a frame claims credit (R70). -/
def State.creditLen (s : State) (c : Copy) (p : Nat) : Nat :=
  match (s.frm c.frm).bind (·.est) with
  | some l => max 64 ((l : Int) + s.copyDelta c).toNat
  | none => s.maxFrame p

/-- The head of class `c` lacks credit (R70). -/
def State.lacksCredit (s : State) (src c : Nat) (h : Copy) : Bool :=
  s.credited src c && decide (s.credit src c < ceilDiv (s.creditLen h (src / 8)) 256)

/-- The head frame of some class waits for credit (R70, R71). -/
def State.creditWaits (s : State) (src : Nat) : Bool :=
  (List.range 7).any (fun c => match (s.link src).eg.queue c with
    | [] => false
    | h :: _ => s.lacksCredit src c h)

/-- The whole ns of the wait under way that credit_wait_ns does not hold yet (R73). -/
def State.creditPast (s : State) (src : Nat) : Nat := match (s.link src).eg.creditWait with
  | some t => (ftDiff t s.now).toNat / 256
  | none => 0

/-- credit_wait_ns is brought up, and a wait for credit begins or ends as the queues and the credit now stand (R70, R71). -/
def State.creditClock (s : State) (src : Nat) : State :=
  if s.fcMode src != 2 then s
  else
    let past := s.creditPast src
    let waits := s.creditWaits src
    let s := if past = 0 then s else s.countL PORT_LCTR_credit_wait_ns src past
    s.modEg src (fun e => { e with
      creditWait := if waits then some (match e.creditWait with | some t => t + ns past | none => s.now) else none
      creditSince := if waits then some (e.creditSince.getD s.now) else none })

/-- A copy reaches its egress queue (R55, R90, R132), and counts in mcast_copies there, even of a port that is down (DESIGN CHOICE). Its class
joins the round when it is not in it: one whose last frame is still being sent keeps its place and its deficit (DESIGN CHOICE). -/
def State.enqueue (s : State) (src : Nat) (c : Copy) : State :=
  let s := if c.rep then s.countL PORT_LCTR_mcast_copies src else s
  match s.frm c.frm with
  | none => s
  | some f =>
    if s.isUp src then
      (s.modEg src (fun e =>
        let e := if f.cls < 7 && (e.queue f.cls).isEmpty && !e.active.contains f.cls then
            { e with active := e.active ++ [f.cls], deficit := e.deficit.put 0 f.cls 0, visited := e.visited.erase f.cls } else e
        { e with q := e.q.put [] f.cls (e.queue f.cls ++ [c]) })).creditClock src
    else (s.countL PORT_LCTR_egress_down_drops src).copyDone c.frm src

/-- A class with an empty queue and no frame under way leaves the round (R132). -/
def Egress.settle (e : Egress) (c : Nat) : Egress :=
  if (e.queue c).isEmpty then { e with active := e.active.erase c, deficit := e.deficit.put 0 c 0, visited := e.visited.erase c } else e

/-- The class of the copy under way. -/
def State.txClass (s : State) (src : Nat) : Option Nat :=
  (s.link src).eg.tx.bind (fun t => (s.frm t.copy.frm).map (·.cls))

/-- A queued copy is taken out of its queue and done with. -/
def State.dropQueued (s : State) (src cls : Nat) (c : Copy) : State :=
  let busy := s.txClass src == some cls
  let s := s.modEg src (fun e =>
    let e := { e with q := e.q.put [] cls ((e.queue cls).erase c) }
    if busy then e else e.settle cls)
  (s.creditClock src).copyDone c.frm src

/-! ### Gates (R133–R138) -/

/-- Length in ns of entry `i` of the operational list as it runs: cut at the cycle end, the last one lasting to it (R133). -/
def State.gateRuns (s : State) (p : Nat) : List (Nat × Nat) :=
  let n := s.reg (PORT_GATE_CTRL_oper_len p)
  let cyc := s.reg (PORT_GATE_OPER_CYCLE_cycle p)
  let step := fun (a : List (Nat × Nat) × Nat) (i : Nat) =>
    let iv := if i + 1 = n then cyc - a.2 else min (s.reg (PORT_GATE_OPER_interval p i)) (cyc - a.2)
    (a.1 ++ [(s.reg (PORT_GATE_OPER_mask p i), iv)], a.2 + iv)
  (((List.range n).foldl step ([], 0)).1).filter (fun e => decide (0 < e.2))

/-- The mask and the time left (FT64 units) of a list of runs, `o` units into the cycle; with no list every class is open for good. -/
def runAt : List (Nat × Nat) → Nat → Nat × Nat
  | [], _ => (0xFF, 2 ^ 62)
  | [(m, iv)], o => (m, iv * 256 - o)
  | (m, iv) :: r, o => if o < iv * 256 then (m, iv * 256 - o) else runAt r (o - iv * 256)

/-- A gate list is in force: enabled with an operational list (R133). -/
def State.gateOn (s : State) (p : Nat) : Bool := s.flag (PORT_GATE_CTRL_en p) && s.reg (PORT_GATE_CTRL_oper_len p) != 0

/-- Runs of the administrative list, as it will run once operational (R133, R136). -/
def State.adminRuns (s : State) (p : Nat) : List (Nat × Nat) :=
  let n := s.reg (PORT_GATE_CTRL_admin_len p)
  let cyc := s.reg (PORT_GATE_CYCLE_cycle p)
  let step := fun (a : List (Nat × Nat) × Nat) (i : Nat) =>
    let iv := if i + 1 = n then cyc - a.2 else min (s.reg (PORT_GATE_ADMIN_interval p i)) (cyc - a.2)
    (a.1 ++ [(s.reg (PORT_GATE_ADMIN_mask p i), iv)], a.2 + iv)
  (((List.range n).foldl step ([], 0)).1).filter (fun e => decide (0 < e.2))

/-- Mask at time `t`, and the units until the next entry boundary or until a pending list change (R133, R134). -/
def State.gateAt (s : State) (p : Nat) (t : FT64) : Nat × Nat :=
  let change := if s.flag (PORT_GATE_CTRL_pending p) then some (BitVec.ofNat 64 (s.reg (PORT_GATE_CFG_TIME_t p))) else none
  let new := match change with
    | some c => atOrBefore c t
    | none => false
  let runs := if new then s.adminRuns p else s.gateRuns p
  let base : Nat := if new then s.reg (PORT_GATE_BASE_base p) else s.reg (PORT_GATE_OPER_BASE_base p)
  let cyc : Nat := if new then s.reg (PORT_GATE_CYCLE_cycle p) else s.reg (PORT_GATE_OPER_CYCLE_cycle p)
  let off := (ftDiff (BitVec.ofNat 64 base) t % ((max (cyc * 256) 1 : Nat) : Int)).toNat
  let r := runAt runs off
  match change with
  | some c => if new then r else (r.1, min r.2 (ftDiff t c).toNat)
  | none => r

/-- Class `c` stays open over [t, t + d) (R134): every entry met from `t` on is open. -/
def State.gateOpenFor (s : State) (p c : Nat) : Nat → FT64 → Nat → Bool
  | 0, _, _ => true
  | fuel + 1, t, d =>
    let (m, left) := s.gateAt p t
    bitOf m c && (decide (d ≤ left) || s.gateOpenFor p c fuel (t + BitVec.ofNat 64 left) (d - left))

/-- The time a frame of scheduling length `len` occupies, in ns (R134). -/
def lineNs (len rate : Nat) : Nat := ceilDiv ((len + 8) * 8) rate

/-- The next gate change of a port that has not fired: an entry boundary or a new list (R138). -/
def State.nextGate (s : State) (p : Nat) : Option FT64 :=
  match s.schedTime (.gateChange p), s.schedTime (.gateApply p) with
  | some a, some b => some (if precedes b a then b else a)
  | some a, none => some a
  | none, b => b

/-- The gate lets a frame of class `c` start now (R134): with a list in force, or with none but one to come (R133). While a backward step
holds the gate state, the held state and the unfired changes govern (R138). -/
def State.gateAllows (s : State) (src c len : Nat) : Bool :=
  let p := src / 8
  let d := lineNs len (s.rate src) * 256
  let st := s.txTime
  if !s.flag (PORT_GATE_CTRL_en p) then true
  else if (s.port p).gateHeld then
    bitOf (s.port p).mask c &&
      (match s.nextGate p with
       | none => true
       | some t => decide (((d : Nat) : Int) ≤ ftDiff st t) || s.gateOpenFor p c 4096 t (((d : Nat) : Int) - ftDiff st t).toNat)
  else s.gateOpenFor p c 4096 st d

/-- The longest run of consecutive open entries for a class, in ns, over two turns of the list; `none` when it never closes. -/
def longestRun (runs : List (Nat × Nat)) (c : Nat) (turns : Nat) : Option Nat :=
  if turns == 2 && runs.all (fun e => bitOf e.1 c) then none
  else
    let all := if turns == 2 then runs ++ runs else runs
    some (all.foldl (fun (a : Nat × Nat) e => if bitOf e.1 c then (a.1 + e.2, max a.2 (a.1 + e.2)) else (0, a.2)) (0, 0)).2

/-! ### Shapers (R130, R131) -/

/-- A shaper's eligibility time and remainder after a debit of `len` bytes with overhead `oh` (R130). -/
def shape (e : FT64) (num : Int) (rate : Nat) (len : Int) : FT64 × Int :=
  let n := num + len * 2048000
  (e + BitVec.ofInt 64 (n / ((rate : Nat) : Int)), n % ((rate : Nat) : Int))

/-- The first 64 ns slot boundary at or after `e` (R131). -/
def slotOf (e : FT64) : FT64 := BitVec.ofNat 64 (ceilDiv e.toNat 16384 * 16384)

/-- The slot in which a shaper with eligibility time `e` is parked: within the wheel's horizon of 4,096 slots from now (R131). -/
def State.slotFor (s : State) (e : FT64) : FT64 :=
  let far : FT64 := BitVec.ofNat 64 ((s.now.toNat / 16384 + 4096) * 16384)
  if precedes far (slotOf e) then far else slotOf e

/-- A class's shaper is taken off the wheel. -/
def State.unpark (s : State) (src c : Nat) : State :=
  (s.unschedule (.shaper src c)).modEg src (fun g => { g with parked := g.parked.erase c })

/-- A class's shaper is parked in the slot of its eligibility time, or is free when that slot has come (R131). -/
def State.parkAt (s : State) (src c : Nat) : State :=
  let t := s.slotFor (BitVec.ofNat 64 (s.reg (PORT_SHP_STATE_e_time (src / 8) (src % 8) c)))
  let s := s.unpark src c
  if atOrBefore t s.now then s else (s.modEg src (fun g => { g with parked := c :: g.parked })).schedule t (.shaper src c)

/-- A shaper that has just been debited, or given a rate, is parked when it is not eligible (R130, R131). -/
def State.park (s : State) (src c : Nat) : State :=
  let p := src / 8
  let e := BitVec.ofNat 64 (s.reg (PORT_SHP_STATE_e_time p (src % 8) c))
  if s.reg (PORT_SHP_CFG_rate p (src % 8) c) = 0 || atOrBefore e s.now then s.unpark src c else s.parkAt src c

/-- PORT_SHP_CFG of a class has been written (R130): a shaper with rate 0 is eligible, one with a rate judges its eligibility time; one that
is parked stays in its slot. -/
def State.shpWritten (s : State) (src c : Nat) : State :=
  if s.reg (PORT_SHP_CFG_rate (src / 8) (src % 8) c) = 0 then s.unpark src c
  else if (s.link src).eg.parked.contains c then s else s.park src c

/-- A frame of class `c` and scheduling length `len` starts: its shaper is debited (R130). -/
def State.shaperStart (s : State) (src c len : Nat) : State :=
  let p := src / 8
  let sl := src % 8
  if c = 7 then
    let rate := s.reg (PORT_TC7_CFG_rate p)
    if rate = 0 then s
    else
      let base := s.now - ns (s.reg (PORT_TC7_CFG_burst p))
      let e := (s.link src).eg.e7
      let e := if precedes e base then base else e
      let (e, n) := shape e ((s.link src).eg.num.get 0 7 : Nat) rate (len + 20)
      s.modEg src (fun g => { g with e7 := e, held7 := false, num := g.num.put 0 7 n.toNat })
  else
    let rate := s.reg (PORT_SHP_CFG_rate p sl c)
    if rate = 0 then s
    else
      let base := s.now - ns (s.reg (PORT_SHP_CFG_burst p sl c))
      let e := BitVec.ofNat 64 (s.reg (PORT_SHP_STATE_e_time p sl c))
      let e := if precedes e base then base else e
      let (e, n) := shape e ((s.link src).eg.num.get 0 c : Nat) rate (len + 20)
      let s := s.modEg src (fun g => { g with num := g.num.put 0 c n.toNat })
      (s.setReg (PORT_SHP_STATE_e_time p sl c) e.toNat).park src c

/-- The rate that shapes a class (R129, R130). -/
def State.shapeRate (s : State) (src c : Nat) : Nat :=
  if c = 7 then s.reg (PORT_TC7_CFG_rate (src / 8)) else s.reg (PORT_SHP_CFG_rate (src / 8) (src % 8) c)

/-- At the frame's end the shaper is corrected to the actual length, at the rate with which the frame was debited (R130): a rate written
meanwhile is for the next frame. -/
def State.shaperEnd (s : State) (src c rate : Nat) (diff : Int) : State :=
  let p := src / 8
  let sl := src % 8
  if diff = 0 ∨ rate = 0 then s
  else if c = 7 then
    let (e, n) := shape (s.link src).eg.e7 ((s.link src).eg.num.get 0 7 : Nat) rate diff
    s.modEg src (fun g => { g with e7 := e, num := g.num.put 0 7 n.toNat })
  else
    let (e, n) := shape (BitVec.ofNat 64 (s.reg (PORT_SHP_STATE_e_time p sl c))) ((s.link src).eg.num.get 0 c : Nat) rate diff
    let s := s.modEg src (fun g => { g with num := g.num.put 0 c n.toNat })
    let s := s.setReg (PORT_SHP_STATE_e_time p sl c) e.toNat
    if (s.link src).eg.parked.contains c then s.parkAt src c else s

/-! ### Selection (R58, R127, R129, R132) -/

/-- The class is paused (R67). -/
def State.paused (s : State) (src c : Nat) : Bool :=
  match (s.link src).pause.find? c with
  | some t => precedes s.now t
  | none => false

/-- The head frame `h` of class `c` may start now, apart from the round's selection (R127). One that finds no room in the retry buffer (R58) cannot,
and another class may (DESIGN CHOICE). -/
def State.canStart (s : State) (src c : Nat) (h : Copy) : Bool :=
  let len := s.schedLen h (src / 8)
  s.isUp src && !s.paused src c && !s.lacksCredit src c h && !(s.link src).eg.parked.contains c && s.gateAllows src c len
    && s.retryRoom src len

/-- Quantum of a class (R132). -/
def State.quantum (s : State) (p c : Nat) : Nat := max (s.reg (PORT_DRR_QUANTUM_quantum p c)) (s.maxFrame p)

/-- Deficit round robin (R132): the class selected, and the round as the scan leaves it. -/
def State.drr (s : State) (src : Nat) : Nat → Egress → Option Nat × Egress
  | 0, e => (none, e)
  | n + 1, e =>
    match e.active with
    | [] => (none, e)
    | c :: r =>
      let rot := { e with active := r ++ [c] }
      match e.queue c with
      | [] => s.drr src n rot
      | h :: _ =>
        if s.canStart src c h then
          let e := if e.visited.contains c then e
            else { e with deficit := e.deficit.put 0 c (e.deficit.get 0 c + ((s.quantum (src / 8) c : Nat) : Int)), visited := c :: e.visited }
          if ((s.schedLen h (src / 8) : Nat) : Int) ≤ e.deficit.get 0 c then (some c, e)
          else s.drr src n { e with active := r ++ [c], visited := e.visited.erase c }
        else s.drr src n rot

/-- The limiter lets a tc7 frame start (R129); one that was eligible before a backward step still is (R43). -/
def State.tc7Ready (s : State) (src : Nat) : Bool :=
  s.reg (PORT_TC7_CFG_rate (src / 8)) == 0 || (s.link src).eg.held7 || atOrBefore (s.link src).eg.e7 s.now

/-- The bytes present of a frame's buffer meet an uncorrectable word: which. -/
def State.frameUe (s : State) (f : Frm) : Option Nat := (s.badWords (f.unit * 256) (f.len - f.rest.length)).head?

/-- A frame is discarded for want of room or for a store error, by its class (R110, R113, R115). -/
def State.countStoreDrop (s : State) (lossless : Bool) : State :=
  if lossless then s.count STORE_CTR_lossless_overrun_drops else s.count STORE_CTR_lossy_drops

/-- The head of class `c` starts (R58, R87, R115, R130, R132), or is discarded; answers whether it started. -/
def State.startHead (s : State) (src c : Nat) : Bool × State :=
  let p := src / 8
  match (s.link src).eg.queue c with
  | [] => (false, s)
  | h :: _ =>
    match s.frm h.frm with
    | none => (false, s.dropQueued src c h)
    | some f =>
      let len := s.schedLen h p
      if f.tail.isSome && !h.cut && decide (s.maxFrame p < max len (f.len + 4)) then
        (false, (s.countL PORT_LCTR_mtu_drops f.cnt).dropQueued src c h)
      else match s.frameUe f with
        | some w => (false, (((s.logUe (w * 32) 0).retire f.unit).countStoreDrop f.lossless).dropQueued src c h)
        | none =>
          let (seq, s) := if s.llrOn src && s.reg SBK_STATUS_state != 2 then let (q, s) := s.takeSeq src; (some q, s) else (none, s)
          let s := s.modEg src (fun g => { g with
            q := g.q.put [] c ((g.queue c).drop 1)
            deficit := if c < 7 then g.deficit.put 0 c (g.deficit.get 0 c - ((len : Nat) : Int)) else g.deficit
            tx := some { copy := h, sched := len, rate := s.shapeRate src c, stamp := s.txStamp src, seq := seq } })
          (true, (s.shaperStart src c len).creditClock src)

/-- Head frames longer than every open run of their class are discarded (R135). -/
def State.dropOversize (s : State) (src : Nat) : State :=
  let p := src / 8
  if !s.gateOn p then s
  else (List.range 7).foldl (fun s c =>
    match longestRun (s.gateRuns p) c 2 with
    | none => s
    | some m =>
      ((s.link src).eg.queue c).foldl (fun (a : Bool × State) h =>
        if a.1 && decide (m < lineNs (a.2.schedLen h p) (a.2.rate src)) then
          (true, (a.2.countL PORT_LCTR_gate_oversize_drops src).dropQueued src c h)
        else (false, a.2)) (true, s) |>.2) s

/-- One frame is selected and started, or discarded heads are passed over, up to the number of queued copies (R127, R129, R132). -/
def State.select (s : State) (src : Nat) : Nat → State
  | 0 => s
  | n + 1 =>
    if !((s.link src).eg.queue 7).isEmpty && s.tc7Ready src then
      if s.retryRoom src (match (s.link src).eg.queue 7 with | h :: _ => s.schedLen h (src / 8) | [] => 0) then
        match s.startHead src 7 with
        | (true, s) => s
        | (false, s) => s.select src n
      else s
    else
      match s.drr src (s.link src).eg.active.length (s.link src).eg with
      | (none, e) => s.modEg src (fun _ => e)
      | (some c, e) =>
        match (s.modEg src (fun _ => e)).startHead src c with
        | (true, s) => s
        | (false, s) => s.select src n

/-- Copies in all queues of a logical port. -/
def Egress.total (e : Egress) : Nat := e.q.foldl (fun a x => a + x.2.length) 0

/-! ### The end of a copy (R22, R56, R87, R88, R132) -/

/-- The bytes that a copy carries and whether its FCS is good: an oversize frame's copy is m − 4 bytes and the abort code
(R56), a cut-through copy ends at max_frame − 4 (R87), a stopped copy at what was committed (R89, R115). -/
def State.copyEnd (s : State) (t : Tx) (p : Nat) : Bytes × Bool × Bool :=
  match s.frm t.copy.frm with
  | none => ([], false, false)
  | some f =>
    let b := s.copyBytes t.copy p
    let mx := s.maxFrame p
    match t.stopAt with
    | some n => (b.take n, false, false)
    | none =>
      match f.cutAt with
      | some m => (b.take (min m mx - 4), false, decide (mx ≤ m))
      | none =>
        if t.copy.cut && decide (mx < b.length + 4) then (b.take (mx - 4), false, true)
        else (b, f.tail == some .good && !t.abort, false)

/-- Every held frame from sequence `q` onward is sent again, byte for byte, in order (R58, R63). Held frames lie at most 32,768 sequence
numbers apart, so those not before `q` are those from `q` onward, whether `q` itself is held or not (DEDUCED). A replay discards them
(R338). -/
def State.resendFrom (s : State) (src q : Nat) : State :=
  let hs := (s.link src).held.filter (fun h => !seqBefore h.seq q)
  let s := s.modLink src (fun l => { l with resend := none })
  if hs.isEmpty then s
  else if s.replaying && decide (src < 192) then s.count SBK_CTR_replay_egress_drops hs.length
  else
    let s := hs.foldl (fun s h => (s.putFrame src (some h.seq) h.bytes h.good h.stamp).countL PORT_LCTR_llr_replayed_frames src) s
    let s := s.countM PORT_LCTR_llr_replays MIR_CTR_llr_replays src
    s.modLink src (fun l => { l with resends := l.resends + 1, lastAck := s.now })

/-- What waited for the link once the frame in progress has ended: PFC frames, which wait for no more than that frame (R66), then a resend, then
the other frames between frames (R58). -/
def State.linkFree (s : State) (src : Nat) : State :=
  let s := s.flushCtl src ((s.link src).eg.ctlq.countP (fun c => isPfc c.bytes))
  let s := match (s.link src).resend with
    | some q => s.resendFrom src q
    | none => s
  s.flush src

/-- A copy's header takes the stamp as its first bit leaves (R45, R205): one of the device's own always, one of a channel program when it is
ECH at the egress port. -/
def State.stampCopy (s : State) (f : Frm) (p : Nat) (b : Bytes) (stamp : FT64) : Bytes :=
  let x := parseFrame b
  if f.oneStep && (f.own || x.isEch (s.echType p)) && decide (x.l3 + 32 ≤ b.length) then restamp b stamp else b

/-- The copy under way leaves the link: emitted, kept for retry, counted; shaper, deficit and credit corrected; its share
released; then what waited for the link (R22, R58, R66, R70, R88, R128, R132). A replay discards it instead (R338). -/
def State.endTx (s : State) (src : Nat) (t : Tx) : State :=
  let p := src / 8
  match s.frm t.copy.frm with
  | none => s.modEg src (fun e => { e with tx := none })
  | some f =>
    let (b, good, past) := s.copyEnd t p
    let b := s.stampCopy f p b t.stamp
    let s := s.traffic (unitsAt 0 b.length) (2 * unitsAt 0 b.length)
    let s := if s.replaying then s.count SBK_CTR_replay_egress_drops
      else
        let s := s.putFrame src t.seq b good t.stamp
        if good then s else s.countL PORT_LCTR_tx_tail_abort src
    let s := if past then s.countL PORT_LCTR_mtu_drops f.cnt else s
    let s := match t.seq with
      | some q => s.holdSent src { seq := q, bytes := b, good := good, stamp := t.stamp }
      | none => s
    let diff : Int := ((b.length + 4 : Nat) : Int) - ((t.sched : Nat) : Int)
    let s := s.shaperEnd src f.cls t.rate diff
    let s := if s.credited src f.cls then
        s.modLink src (fun l => { l with consumed := l.consumed.put 0 f.cls ((l.consumed.get 0 f.cls + ceilDiv (b.length + 4) 256) % 2 ^ 32) })
      else s
    let s := s.modEg src (fun e =>
      let e := { e with tx := none }
      if f.cls < 7 then ({ e with deficit := e.deficit.put 0 f.cls (e.deficit.get 0 f.cls - diff) }).settle f.cls else e)
    ((s.copyDone t.copy.frm src).creditClock src).linkFree src

/-! ### Push-out (R113) -/

/-- The candidates for push-out on a logical port, in order: lossy classes below `cls` from the lowest, excess first, the most
recently queued first. -/
def State.pushCandidates (s : State) (src cls pool : Nat) : List (Nat × Copy × Frm) :=
  (List.range cls).flatMap (fun c =>
    let ok := ((s.link src).eg.queue c).reverse.filterMap (fun x => match s.frm x.frm with
      | some f => if !f.lossless && f.tail.isSome && !x.rep && decide (pool ≤ ((s.store.bufs.find? f.unit).map (·.pool)).getD 0)
          then some (c, x, f) else none
      | none => none)
    ok.filter (·.2.2.excess) ++ ok.filter (fun x => !x.2.2.excess))

/-- How many candidates make the shortest prefix that returns `need` units to shared capacity and a buffer, at most 8 (R113). A retired buffer
returns neither (R115). -/
def State.pushPrefix (s : State) (need : Nat) : List (Nat × Copy × Frm) → Nat → Nat → Tab Nat → Option Nat
  | [], _, _, _ => none
  | x :: r, n, got, left =>
    if 8 ≤ n then none
    else match s.store.bufs.find? x.2.2.unit with
      | none => none
      | some b =>
        if b.retired then s.pushPrefix need r (n + 1) got left
        else
          let use := (left.find? b.owner).getD (s.usage b.owner)
          let got := got + min b.units (use - (s.limits b.owner).min)
          if need ≤ got then some (n + 1)
          else s.pushPrefix need r (n + 1) got (left.insert b.owner (use - b.units))

/-- A prefix of the candidates is discarded to make room; `none` when no prefix does (R113). -/
def State.pushOut (s : State) (src cls pool need : Nat) : Option State :=
  let cs := s.pushCandidates src cls pool
  (s.pushPrefix need cs 0 0 []).map (fun n =>
    (cs.take n).foldl (fun s x => (s.count STORE_CTR_pushout_frames).dropQueued src x.1 x.2.1) s)

/-! ### Link state (R54, R55) -/

/-- A logical port takes a state; leaving or entering UP shows in link_up and link_ev, and changes the credit that the others of its fabric
port are granted (R112). A mirror port's state shows in MIR_STATUS. -/
def State.setLinkSt (s : State) (src : Nat) (st : LinkSt) : State :=
  let old := (s.link src).st
  let s := s.modLink src (fun l => { l with st := st, since := s.now })
  if 192 ≤ src then s
  else
    let s := s.setStatusBit (PORT_STATUS_link_up (src / 8)) (src % 8) (st == .up)
    if (old == .up) == (st == .up) then s else (s.raise (evLink (src / 8) (src % 8))).creditPort (src / 8)

/-- What a link keeps of retry and credit across a down transition: nothing but its own session number (R54, R62). The frame that was
arriving is cut: it is neither acknowledged nor refused, and its tail is bad (R52). The port's own frames that wait between frames are dropped
and counted nowhere (DESIGN CHOICE). -/
def Link.lose (l : Link) : Link :=
  { l with
    peerSess := 0, peerInit := none, sentInit := none, nextExp := 0, skipping := false, lastNack := none, acked := 0, txSeq := 0,
    held := [], resends := 0, resend := none, pause := [], peerMask := none, limit := [], consumed := [], rxUnits := [], granted := [],
    lostAt := none, ctl := [], rx := l.rx.map (fun r => { r with sequenced := false, cut := true })
    eg := { l.eg with q := [], active := [], deficit := [], visited := [], tx := none, ctlq := [], creditWait := none, creditSince := none } }

/-- A logical port leaves the state it is in for DOWN or DISABLED (R54, R55): queued frames, the frame under way and held
frames are discarded and counted; retry, pause and credit state is lost; on the designated port the time source is lost. The shaper of the frame
under way keeps its debit (DESIGN CHOICE). -/
def State.linkDown (s : State) (src : Nat) (st : LinkSt) : State :=
  let wasUp := s.isUp src
  let queued := ((s.link src).eg.q.flatMap (·.2)) ++ (match (s.link src).eg.tx with | some t => [t.copy] | none => [])
  let lost := (s.link src).held.length
  let s := s.creditClock src
  let s := s.modLink src Link.lose
  let s := s.setLinkSt src st
  let s := if 192 ≤ src then s else s.setStatusBit (PORT_STATUS_llr_active (src / 8)) (src % 8) false
  let s := s.countM PORT_LCTR_llr_lost_frames MIR_CTR_llr_lost_frames src lost
  let s := queued.foldl (fun s c => (s.countL PORT_LCTR_egress_down_drops src).copyDone c.frm src) s
  if wasUp then s.linkLoss src else s

/-- Initialization is complete: the logical port is UP (R54); back-pressure that stands is sent at once (R66). -/
def State.linkUp (s : State) (src : Nat) : State := (s.setLinkSt src .up).sendPause src

/-- Retry is settled: FC_INIT, and outside credit mode UP at once (R54, R69). CREDIT_INIT is sent once, on entry (DESIGN CHOICE: R69 gives no
interval). -/
def State.toFcInit (s : State) (src : Nat) : State :=
  let s := s.setLinkSt src .fcInit
  if s.fcMode src == 2 then
    let mask := (List.range 7).foldl (fun v c => if s.lossless (src / 8) c then setBit v c else v) 0
    s.sendEch src 0x78 (beBytes 1 (s.link src).ownSess ++ beBytes 1 mask ++ [0, 0, 0, 0, 0, 0])
  else s.linkUp src

end Sys2Proof.Machine
end

