-- ==== Sys2Proof/Machine/Lookup.lean ====
section
/-! DEFINITION. The forwarding tables, the lookup and what it hands on: routes, copies, buffers, frames the device sends
(R75, R77–R90, R101, R109, R110, R113, R269, R464). -/

namespace Sys2Proof.Machine

/-- Key of an endpoint entry: destination MAC and VLAN ID. -/
def endpointKey (mac vid : Nat) : Nat := mac * 4096 + vid

/-- Key of an LPM entry of `w` address bits. -/
def lpmKey (w plen addr : Nat) : Nat := plen * 2 ^ w + addr / 2 ^ (w - plen) * 2 ^ (w - plen)

/-- The longest prefix that matches (R74): prefix lengths from `n` down. -/
def lpm (t : Tab Nat) (w addr : Nat) : Nat → Option Nat
  | 0 => t.find? (lpmKey w 0 addr)
  | n + 1 =>
    match t.find? (lpmKey w (n + 1) addr) with
    | some a => some a
    | none => lpm t w addr n

/-- Members of an ECMP group or copies of a replication list (R80). -/
def nhList (b : Bytes) : List Nat := (List.range (byteAt b 0)).map (fun i => leAt b (8 + 2 * i) 2 % 2 ^ 14)

/-- A member is live: its next-hop entry is written and its egress logical port is UP (R84, R464). -/
def State.nhLive (s : State) (i : Nat) : Bool :=
  match s.tables.nexthop.find? i with
  | some e => s.isUp (byteAt e 0)
  | none => false

/-- Where a lookup sends a frame. -/
inductive Route where
  | drop
  | prog (cx tag : Nat)
  /-- Egress logical ports with what each changes, and whether they are replicated copies. -/
  | copies (rep : Bool) (l : List (Nat × Edit))
  deriving DecidableEq, Repr

/-- The length, with FCS, that decides R87 for a copy whose tag is edited: the frame's own, and that of the copy where it is longer,
since no port transmits a frame beyond its max_frame (R56; DEDUCED). -/
def mtuLen (l : Nat) (d : Int) : Nat := max l ((l : Int) + d).toNat

/-- The rewrite would lower a TTL or hop limit that is 0 or 1 (R82). -/
def Parsed.expired (p : Parsed) : Bool := match p.ip with
  | some ip => decide (ip.ttl ≤ 1)
  | none => false

/-- One next hop for a frame: its egress and edit, or the drop counted. Where several drops apply the order is that of R464, R81, R82,
R87 (DESIGN CHOICE: the spec gives none). -/
def State.hop (s : State) (cnt : Nat) (rx : Bool) (b : Bytes) (p : Parsed) (route : Bool) (i : Nat) : Option (Nat × Edit) × State :=
  match s.tables.nexthop.find? i with
  | none => (none, s.countL PORT_LCTR_lookup_miss_drops cnt)
  | some e =>
    let eg := byteAt e 0
    let op := bits (byteAt e 1) 1 2
    if rx && eg == cnt && !bitOf (byteAt e 1) 0 then (none, s.countL PORT_LCTR_hairpin_drops cnt)
    else if route && p.expired then (none, s.countL PORT_LCTR_ttl_drops cnt)
    else
      let ed : Edit := { route := route, dmac := beAt e 4 6, vlanOp := op, vid := leAt e 2 2 % 4096 }
      match headerLen b p (s.echType (cnt / 8)) with
      | some l =>
        if s.maxFrame (eg / 8) < mtuLen l (vlanDelta (!p.tags.isEmpty) op)
        then (none, s.countL PORT_LCTR_mtu_drops cnt) else (some (eg, ed), s)
      | none => (some (eg, ed), s)

/-- The hops of a list, in order; those dropped are counted (R90). -/
def State.hops (s : State) (cnt : Nat) (rx : Bool) (b : Bytes) (p : Parsed) (route : Bool) (l : List Nat) : List (Nat × Edit) × State :=
  l.foldl (fun a i => match a.2.hop cnt rx b p route i with
    | (some h, s) => (a.1 ++ [h], s)
    | (none, s) => (a.1, s)) ([], s)

/-- The action word applied (R80, R82, R84, R90, R464). `cnt` is the logical port that counts lookup outcomes. -/
def State.act (s : State) (cnt : Nat) (rx : Bool) (b : Bytes) (p : Parsed) (a : Nat) : Route × State :=
  let kind := bits a 0 3
  let route := bitOf a 3
  let target := bits a 8 16
  let miss := (Route.drop, s.countL PORT_LCTR_lookup_miss_drops cnt)
  let many := fun (rep : Bool) (l : List Nat) =>
    match s.hops cnt rx b p route l with
    | ([], s) => (Route.drop, s)
    | (hs, s) => (Route.copies rep hs, s)
  if kind = 4 then (.prog (bits target 0 3 * 32 + bits target 3 5) (bits target 8 8), s)
  else if kind = 0 || 4 < kind then miss

  else if kind = 1 then many false [target]
  else if kind = 2 then
    let live := ((s.tables.ecmp.find? target).map nhList |>.getD []).filter s.nhLive
    if live.isEmpty then miss
    else
      let h := ecmpHash (s.reg (PORT_HASH_SEED_seed (cnt / 8))) b p (s.echType (cnt / 8))
      many false [live.getD (ecmpIndex h live.length) 0]
  else
    match s.tables.repl.find? target with
    | none => miss
    | some r => many true (nhList r)

/-- Rows 7 to 9 of the fate precedence table (R74, R75, R82), or row 9 alone. A bad IP header of row 7 is judged before the tables are searched
(DESIGN CHOICE: R82 gives no order with a miss or a DROP action). -/
def State.lookup (s : State) (cnt : Nat) (rx row9 : Bool) (b : Bytes) (p : Parsed) : Route × State :=
  let found := fun (s : State) (r : Option Nat) => match r with
    | some a => s.act cnt rx b p a
    | none => (Route.drop, s.countL PORT_LCTR_lookup_miss_drops cnt)
  if !row9 && p.dmac == s.station (cnt / 8) then
    if p.et == 0x0800 || p.et == 0x86DD then
      match p.ip with
      | none => (.drop, s.countL PORT_LCTR_ip_hdr_err cnt)
      | some ip =>
        if !ip.csumOk then (.drop, s.countL PORT_LCTR_ip_hdr_err cnt)
        else if ip.v6 then found s (lpm s.tables.v6 128 (beNat ip.dst) 128)
        else found s (lpm s.tables.v4 32 (beNat ip.dst) 32)
    else (.drop, s.countL PORT_LCTR_lookup_miss_drops cnt)
  else found s (s.tables.endpoint.find? (endpointKey p.dmac p.vid))

/-- A new frame's record. -/
def State.newFrame (s : State) (f : Frm) : Nat × State :=
  (s.nextFrm, { s with frames := s.frames.insert s.nextFrm f, nextFrm := s.nextFrm + 1 })

/-- The request of a received frame, with push-out for a lossy one, or its drop counted (R109, R110, R113). -/
def State.admitRx (s : State) (o len cls : Nat) (lossless : Bool) (src : Nat) (push : Option Nat) : Option (Nat × State) :=
  match s.request o len lossless (s.portHome src) (some (src, cls)) with
  | (.ok u, s) => some (u, s)
  | (.error r, s1) =>
    match push, poolFor len with
    | some eg, some k =>
      if !lossless && decide (cls < 7) && r != .ceil then
        let l := s.limits o
        let need := if r = .shared then s.sharedUsed + (s.usage o + ceilDiv len 256 - max (s.usage o) l.min) - s.sharedCap else 0
        match s1.pushOut eg cls k need with
        | some s2 => s2.grant o len k true (s.portHome src) (some (src, cls))
        | none => none
      else none
    | _, _ => none

/-- A refused received frame is counted (R110, R113). -/
def State.refusedRx (s : State) (o len : Nat) (lossless : Bool) (src : Nat) : State :=
  let s := (s.request o len lossless (s.portHome src) none).2
  let s := s.countStoreDrop lossless
  if lossless then s.raise (evStore STORE_INTR_STATUS_overrun_ev) else s

/-- Copies of a frame are made: shares, and each cut-through copy to its queue, the rest to wait for the tail (R86, R90, R105). -/
def State.spread (s : State) (id : Nat) (rep : Bool) (owner : Nat) (l : List (Nat × Copy)) : State :=
  match s.frm id with
  | none => s
  | some f =>
    let s := if rep then s.share f.unit l.length owner else s
    let s := s.modFrm id (fun f => { f with copies := l.length, saf := if f.tail.isSome then [] else l.filter (fun x => !x.2.cut) })
    (l.filter (fun x => x.2.cut || f.tail.isSome)).foldl (fun s x => s.enqueue x.1 x.2) s

/-- What becomes of a frame the device sends (R77, R205, R269). -/
inductive Sent where
  | queued | dropped | refused
  deriving DecidableEq, Repr

/-- A whole frame that lies in buffer `unit` is sent by channel `ch`: looked up, or bound to an egress logical port (R77, R205,
R269). Its buffer goes with it; where no copy leaves, the buffer is released. -/
def State.sendBuffer (s : State) (ch unit len cls : Nat) (device oneStep : Bool) (bind : Option Nat) (src : Nat) (stamp : FT64) : Sent × State :=
  let cnt := 24 * ch
  let b := s.storeRead (unit * 256) len
  let p := parseFrame b
  let (r, s) := match bind with
    | some eg => (Route.copies false [(eg, {})], s)
    | none => s.lookup cnt false device b p
  let home := s.home ch
  match r with
  | .drop => (.dropped, s.release unit home)
  | .prog _ _ => (.dropped, (s.count (CH_CTR_program_loop_drops ch)).release unit home)
  | .copies rep l =>
    let owner := ((s.store.bufs.find? unit).map (·.owner)).getD 0
    let (n, s) := s.arrival src
    let fr : Frm :=
      { src := src, cnt := cnt, stamp := stamp, arr := n, unit := unit, len := len, tail := some Fcs.good, cls := cls,
        est := headerLen b p (s.echType (cnt / 8)), oneStep := oneStep, own := device,
        lossless := l.any (fun x => s.lossless (x.1 / 8) cls) }
    let (id, s) := s.newFrame fr
    (.queued, s.spread id rep owner (l.map (fun x =>
      (x.1, { frm := id, edit := { x.2 with smac := x.2.smac || (device && !x.2.route) }, cut := false, rep := rep }))))

/-- A frame that the device itself makes takes a buffer of owner `o` and is sent (R109, R269): refused when none is granted. -/
def State.originate (s : State) (ch o : Nat) (b : Bytes) (cls : Nat) (device oneStep : Bool) (bind : Option Nat) : Sent × State :=
  match s.request o (b.length + 4) false (s.home ch) none with
  | (.error _, s) => (.refused, s)
  | (.ok unit, s) =>
    ((s.storeWrite (unit * 256) (padTo (32 * ceilDiv b.length 32) b)).hubAccess 0 b.length).sendBuffer ch unit b.length cls device oneStep bind 195 s.now

end Sys2Proof.Machine
end

