-- ==== Sys2Proof/Machine/Ports.lean ====
section
/-! DEFINITION. The commands of optical ports and links (chapter 03): lasers, port configuration, link states, retry, flow control. -/

namespace Sys2Proof.Machine

/-- signal_ok and align_lock of a fabric port follow its logical ports in use (PORT_STATUS). -/
def State.portFlags (s : State) (p : Nat) : State :=
  let ls := (List.range (s.lpCount p)).map (fun l => s.link (8 * p + l))
  (s.setReg (PORT_STATUS_signal_ok p) (bit1 (ls.all (·.signal)))).setReg (PORT_STATUS_align_lock p) (bit1 (ls.all (·.lock)))

/-- Every logical port of a fabric port goes down that is not DISABLED (R48, R434). -/
def State.portDown (s : State) (p : Nat) : State :=
  ((List.range 8).foldl (fun s l => if (s.link (8 * p + l)).st == .disabled then s
    else (s.linkDown (8 * p + l) .down).modLink (8 * p + l) (fun k => { k with signal := false, lock := false })) s).portFlags p

/-- Fabric ports of an optical tile (chapter 03); OTM has none. -/
def tilePorts (t : Nat) : List Nat := if t < 8 then [3 * t, 3 * t + 1, 3 * t + 2] else []

/-- A laser input of a tile is out of range (R48). -/
def State.laserLoss (s : State) (t : Nat) : State :=
  if s.hw.dark.contains t then s
  else
    let s := { s with hw := { s.hw with dark := t :: s.hw.dark } }
    (tilePorts t).foldl (fun s p => ((s.setReg (PORT_STATUS_laser_ok p) 0).raise (evPort p (PORT_INTR_STATUS_laser_ev p))).portDown p) s

/-- A tile's laser inputs are back in range (R48); a module that is absent or held in reset gives no light (R451, R452). -/
def State.laserRestore (s : State) (t : Nat) : State :=
  if s.hw.dark.contains t && s.sys.lasers.contains t && bitOf (s.reg HUB_BOARD_STATUS_ls_run) t then
    let s := { s with hw := { s.hw with dark := s.hw.dark.erase t } }
    (tilePorts t).foldl (fun s p => (s.setReg (PORT_STATUS_laser_ok p) 1).raise (evPort p (PORT_INTR_STATUS_laser_ev p))) s
  else s

/-- PORT_CFG.enable written 1 (R49, R54); before ready the write is ignored (R444). -/
def State.portEnable (s : State) (p brk : Nat) : State :=
  if !s.flag HUB_STATUS_ready then s
  else if s.flag (PORT_CFG_enable p) then s
  else
    let s := (s.setReg (PORT_CFG_enable p) 1).setReg (PORT_CFG_breakout p) brk
    (List.range (s.lpCount p)).foldl (fun s l => s.setLinkSt (8 * p + l) .down) s

/-- PORT_CFG.enable written 0 (R49, R54, R55): breakout is taken only when enable was already 0. -/
def State.portDisable (s : State) (p brk : Nat) : State :=
  if !s.flag HUB_STATUS_ready then s
  else if s.flag (PORT_CFG_enable p) then
    let s := (List.range 8).foldl (fun s l => if (s.link (8 * p + l)).st == .disabled then s
      else (s.linkDown (8 * p + l) .disabled).modLink (8 * p + l) (fun k => { k with signal := false, lock := false })) s
    (s.setReg (PORT_CFG_enable p) 0).portFlags p
  else s.setReg (PORT_CFG_breakout p) brk

/-- A write to PORT_FC_CFG (R65): a logical port takes its field while it is DISABLED or DOWN and the field is not 3. In another state, where host
software may not change the mode, it keeps its mode (DESIGN CHOICE). -/
def State.fcCfgWrite (s : State) (p v : Nat) : State :=
  if !s.flag HUB_STATUS_ready then s
  else
    let old := s.reg (PORT_FC_CFG_mode p)
    s.setReg (PORT_FC_CFG_mode p) ((List.range 8).foldl (fun m l =>
      let st := (s.link (8 * p + l)).st
      let new := bits v (2 * l) 2
      m + 2 ^ (2 * l) * (if (st == .disabled || st == .down) && new != 3 then new else bits old (2 * l) 2)) 0)

/-- A write to PORT_CLASS_CFG (R120, R122). -/
def State.classCfgWrite (s : State) (p v : Nat) : State :=
  if !s.flag HUB_STATUS_ready then s
  else
    let s := if bits v 0 2 = 3 then s else s.setReg (PORT_CLASS_CFG_trust p) (bits v 0 2)
    let s := s.setReg (PORT_CLASS_CFG_default_tc p) (bits v 4 3)
    if (List.range 8).all (fun l => (s.link (8 * p + l)).st == .disabled) then
      (s.setReg (PORT_CLASS_CFG_lossless_mask p) (bits v 8 7)).bpSync
    else s

/-- A rehearsed link drop holds the logical port DOWN (R424). -/
def State.dropHeld (s : State) (src : Nat) : Bool :=
  match s.mir.rehearsal with
  | some r => r.kind == 0 && r.injected.isSome && r.port == src
  | none => false

/-- Signal on all lanes of a DOWN logical port (R54): ALIGN, unless its lasers are out, a block error stands (R434) or a rehearsal
holds it down. -/
def State.signalDetect (s : State) (p l : Nat) : State :=
  let src := 8 * p + l
  if (s.link src).st == .down && decide (l < s.lpCount p) && !s.hw.dark.contains (p / 3) && !(s.port p).blocked && !s.sys.txDark && !s.dropHeld src then
    ((s.setLinkSt src .align).modLink src (fun k => { k with signal := true })).portFlags p
  else s

/-- Alignment and FEC lock have held for 1 ms (R54, R62). -/
def State.alignDone (s : State) (p l : Nat) : State :=
  let src := 8 * p + l
  if (s.link src).st == .align then
    let s := (s.modLink src (fun k => { k with lock := true, lostAt := none })).portFlags p
    if bitOf (s.reg (PORT_LLR_CFG_en p)) l then
      (s.setLinkSt src .llrInit).modLink src (fun k => { k with ownSess := (k.ownSess + 1) % 256, peerInit := none, sentInit := none })
    else s.toFcInit src
  else s

/-- Alignment lock is lost (R54): the 4 µs gap starts. -/
def State.lockLoss (s : State) (p l : Nat) : State :=
  let src := 8 * p + l
  let k := s.link src
  if k.st == .disabled || k.st == .down || k.lostAt.isSome then s
  else (s.modLink src (fun k => { k with lock := false, lostAt := some s.now })).portFlags p

/-- Signal and lock return within 4 µs (R54). -/
def State.lockReturn (s : State) (p l : Nat) : State :=
  let src := 8 * p + l
  match (s.link src).lostAt with
  | none => s
  | some t =>
    if 1024000 < ftDiff t s.now then s
    else (s.modLink src (fun k => { k with lock := true, lostAt := none })).portFlags p

/-- The lock has been lost for more than 4 µs (R54, R55). -/
def State.lockTimeout (s : State) (p l : Nat) : State :=
  let src := 8 * p + l
  match (s.link src).lostAt with
  | none => s
  | some t =>
    if 1024000 < ftDiff t s.now then
      ((s.linkDown src .down).modLink src (fun k => { k with signal := false, lock := false })).portFlags p
    else s

/-- The end of a 1 ms interval of FEC (R53, R73): `hist` gives the codewords with i corrected symbols, `uncor` those uncorrectable. -/
def State.fecPort (s : State) (p : Nat) (hist : List Nat) (uncor : Nat) : State :=
  let h := fun i => hist.getD i 0
  let sum := fun (f : Nat → Nat) => (List.range 16).foldl (fun a i => a + f i) 0
  let corrected := sum (fun i => i * h i)
  let s := (List.range 16).foldl (fun s i => s.count (PORT_CTR_fec_hist p i) (h i)) s
  let s := s.count (PORT_CTR_fec_cw_corrected p) (sum (fun i => if i = 0 then 0 else h i))
  let s := (s.count (PORT_CTR_fec_cw_uncorrected p) uncor).count (PORT_CTR_fec_symbols_corrected p) corrected
  let s := if corrected = 0 then s else s.rasCorrected
  if s.reg (PORT_FEC_DEGRADE_threshold p) < corrected then s.raise (evPort p (PORT_INTR_STATUS_degrade_ev p)) else s

/-- The same on any port with FEC; of a mirror port's codewords only the uncorrectable ones are counted (R72). -/
def State.fecInterval (s : State) (p : Nat) (hist : List Nat) (uncor : Nat) : State :=
  if p < 24 then s.fecPort p hist uncor else s.count (MIR_CTR_fec_cw_uncorrected (p - 24)) uncor

/-! ### Control frames that wait at a logical port -/

/-- The first waiting control frame that `ok` accepts, taken out (R64, R74). -/
def State.takeCtl (s : State) (src : Nat) (ok : Ctl → Bool) : Option (Ctl × State) :=
  match (s.link src).ctl.find? ok with
  | none => none
  | some c => some (c, s.modLink src (fun l => { l with ctl := l.ctl.erase c }))

/-- A waiting frame is ECH of group 0 with this opcode. -/
def isEchOp (op : Nat) (c : Ctl) : Bool :=
  let e := echOf c.bytes
  !isPfc c.bytes && (parseFrame c.bytes).et != 0x88F7 && e.opcode == op && e.gid == 0

/-! ### Link-level retry (R57–R63) -/

/-- An LLR_INIT frame with the llr_req of the moment (R62, R64). -/
def State.sendLlrInit (s : State) (src : Nat) : State :=
  (s.sendEch src 0x74 (beBytes 1 (s.link src).ownSess ++ beBytes 1 (bit1 (s.llrEn src)) ++ beBytes 2 32768 ++ [0, 0, 0, 0])).modLink src
    (fun l => { l with sentInit := some (s.llrEn src) })

/-- The port exchanges LLR_INIT: in LLR_INIT (R62), and a mirror port, which runs retry always (R72), while it is up and has not heard its
peer's session (DESIGN CHOICE). -/
def State.llrGreets (s : State) (src : Nat) : Bool :=
  (s.link src).st == .llrInit || (decide (192 ≤ src) && s.isUp src && (s.link src).peerInit.isNone)

/-- Every 100 µs while LLR_INIT is exchanged (R62). -/
def State.llrInitTimer (s : State) (src : Nat) : State := if s.llrGreets src then s.sendLlrInit src else s

/-- An LLR_INIT arrives (R62): retry is active from sequence 0 once both sides have sent llr_req, else the port runs without it. The spec does not say
how a side knows that its peer has received its LLR_INIT: here retry is active, and LLR_INIT ends, as soon as the peer's llr_req has come and an
LLR_INIT with llr_req has been sent (DESIGN CHOICE). On a mirror port it gives the session alone: retry is active whatever it asks (R72). -/
def State.llrInitRx (s : State) (src : Nat) : State :=
  match s.takeCtl src (isEchOp 0x74) with
  | none => s
  | some (c, s) =>
    if s.llrGreets src then
      let pl := echPayload c.bytes
      let req := bitOf (byteAt pl 1) 0
      let s := if (s.link src).sentInit.isSome then s else s.sendLlrInit src
      let s := s.modLink src (fun l => { l with peerSess := byteAt pl 0, peerInit := some req })
      if 192 ≤ src then s
      else
        let s := s.modLink src (fun l => { l with txSeq := 0, nextExp := 0, acked := 0 })
        let on := req && (s.link src).sentInit == some true
        let s := if on then s.setStatusBit (PORT_STATUS_llr_active (src / 8)) (src % 8) true else s
        s.toFcInit src
    else s

/-- No LLR_INIT within 1 ms (R62). -/
def State.llrInitTimeout (s : State) (src : Nat) : State :=
  if (s.link src).st == .llrInit && s.elapsed (s.link src).since 1000000 then s.toFcInit src else s

/-- Retry has failed (R61): the logical port goes down. A mirror port has no llr_fail_ev; MIR_STATUS shows that it is down. -/
def State.retryFail (s : State) (src : Nat) : State :=
  if 192 ≤ src then s.linkDown src .down
  else ((s.raise (evPort (src / 8) (PORT_INTR_STATUS_llr_fail_ev (src / 8)))).linkDown src .down).portFlags (src / 8)

/-- A resend is due from sequence `q` (R58, R61): after the frame in progress, or failure once max_retries are used up. -/
def State.resendDue (s : State) (src q : Nat) : State :=
  if s.maxRetries src ≤ (s.link src).resends then s.retryFail src
  else if (s.link src).eg.tx.isSome then s.modLink src (fun l => { l with resend := some q })
  else s.resendFrom src q

/-- An LLR_ACK (R58): the frames it covers leave the retry buffer, and frames that waited for its room may start. -/
def State.llrAckRx (s : State) (src : Nat) : State :=
  match s.takeCtl src (isEchOp 0x75) with
  | none => s
  | some (c, s) =>
    let pl := echPayload c.bytes
    if s.llrOn src && byteAt pl 0 == (s.link src).peerSess then
      (s.modLink src (fun l =>
        let left := l.held.filter (fun h => !seqBefore h.seq (beAt pl 2 2))
        if left.length = l.held.length then l else { l with held := left, resends := 0, lastAck := s.now })).flush src
    else s

/-- An LLR_NACK (R58, R61): what is held, and the sequenced frame in progress once it has ended, is sent again. -/
def State.llrNackRx (s : State) (src : Nat) : State :=
  match s.takeCtl src (isEchOp 0x76) with
  | none => s
  | some (c, s) =>
    let pl := echPayload c.bytes
    if s.llrOn src && byteAt pl 0 == (s.link src).peerSess then
      let s := s.countL PORT_LCTR_llr_nack_rx src
      if (s.link src).held.isEmpty && !(s.link src).eg.tx.any (·.seq.isSome) then s else s.resendDue src (beAt pl 2 2)
    else s

/-- No ACK has advanced for retry_timeout while frames are held (R58, R61). -/
def State.llrRetryTimeout (s : State) (src : Nat) : State :=
  match (s.link src).held with
  | [] => s
  | h :: _ =>
    if s.llrOn src && s.elapsed (s.link src).lastAck (s.retryNs src) then s.resendDue src h.seq else s

/-- A NACK for next_expected, unless one was sent within retry_timeout (R59). -/
def State.nack (s : State) (src : Nat) : State :=
  let l := s.link src
  let soon := match l.lastNack with
    | some (q, t) => q == l.nextExp && !s.elapsed t (s.retryNs src)
    | none => false
  if soon then s.modLink src (fun l => { l with skipping := true })
  else
    let s := (s.sendAck src 0x76).countL PORT_LCTR_llr_nack_tx src
    s.modLink src (fun l => { l with skipping := true, lastNack := some (l.nextExp, s.now) })

/-- What retry makes of a frame at its header (R57, R59): whether it is sequenced, and whether it is accepted. A frame without a sequence
number, tag or none, is taken as an unsequenced frame whatever its kind (DESIGN CHOICE). -/
def State.tagIn (s : State) (src : Nat) (pre : Bytes) : Bool × Bool × State :=
  let refuse := fun (s : State) =>
    let s := s.countL PORT_LCTR_llr_seq_discards src
    (true, false, if (s.link src).skipping then s else s.nack src)
  if !s.llrOn src then (false, true, s)
  else match readTag pre with
    | .unsequenced => (false, true, s)
    | .badCrc => refuse s
    | .sequenced q sess =>
      if sess = (s.link src).ownSess && q = (s.link src).nextExp then (true, true, s.modLink src (fun k => { k with skipping := false }))
      else refuse s

/-- The ACK interval (R59): an ACK when next_expected has advanced; a NACK again when it has not come for retry_timeout. -/
def State.llrAckTimer (s : State) (src : Nat) : State :=
  if !s.llrOn src then s
  else
    let l := s.link src
    let s := if l.nextExp = l.acked then s else (s.sendAck src 0x75).modLink src (fun l => { l with acked := l.nextExp })
    if l.skipping then s.nack src else s

/-! ### Flow control (R66–R71) -/

/-- A PFC frame (R67, R68): pauses, resumes or extends classes 0–6 of a port in PFC mode. -/
def State.pfcRx (s : State) (src : Nat) : State :=
  match s.takeCtl src (fun c => isPfc c.bytes) with
  | none => s
  | some (c, s) =>
    let o := (parseFrame c.bytes).l3
    let en := beAt c.bytes (o + 2) 2
    let q := fun i => beAt c.bytes (o + 4 + 2 * i) 2
    let s := s.countL PORT_LCTR_rx_pfc_frames src
    let s := if bitOf en 7 && q 7 != 0 then s.countL PORT_LCTR_pfc_tc7_ignored src else s
    if s.fcMode src == 1 then
      s.modLink src (fun l => { l with pause := (List.range 7).foldl (fun m i =>
        if !bitOf en i then m
        else if q i = 0 then m.erase i
        else m.insert i (s.now + BitVec.ofNat 64 (ceilDiv (q i * 512 * 256) (s.rate src)))) l.pause })
    else s

/-- A class's pause runs out (R67). -/
def State.pauseExpire (s : State) (src c : Nat) : State :=
  match (s.link src).pause.find? c with
  | some t => if atOrBefore t s.now then s.modLink src (fun l => { l with pause := l.pause.erase c }) else s
  | none => s

/-- The limits of every lossless class are computed and sent (R71, R112). -/
def State.creditSend (s : State) (src : Nat) : State :=
  if s.isUp src && s.fcMode src == 2 then
    let l := s.link src
    let g := ((List.range 7).filter (fun c => s.lossless (src / 8) c)).foldl (fun g c => Tab.put g 0 c (s.creditLimit src c)) l.granted
    (s.setLink src { l with granted := g }).sendCredit src
  else s

/-- CREDIT_INIT (R69): limits and counts are zero, FC_INIT ends, the first CREDIT_UPDATE is sent. -/
def State.creditInitRx (s : State) (src : Nat) : State :=
  match s.takeCtl src (isEchOp 0x78) with
  | none => s
  | some (c, s) =>
    let st := (s.link src).st
    if s.fcMode src == 2 && (st == .fcInit || st == .up) then
      let s := s.modLink src (fun l => { l with
        peerMask := some (byteAt (echPayload c.bytes) 1), limit := [], consumed := [], rxUnits := [], granted := [], lastUpdate := s.now })
      let s := s.creditClock src
      let s := if st == .fcInit then s.linkUp src else s
      s.creditSend src
    else s

/-- CREDIT_UPDATE (R69): the cumulative limit of each lossless class. -/
def State.creditUpdateRx (s : State) (src : Nat) : State :=
  match s.takeCtl src (isEchOp 0x79) with
  | none => s
  | some (c, s) =>
    if s.fcMode src == 2 then
      let pl := echPayload c.bytes
      (s.modLink src (fun l => { l with lastUpdate := s.now, limit := (List.range 7).foldl (fun m i =>
        if s.lossless (src / 8) i then m.put 0 i (beAt pl (4 + 4 * i) 4) else m) l.limit })).creditClock src
    else s

/-- A frame has waited for credit, and no CREDIT_UPDATE has come meanwhile, for the credit timeout (R71). -/
def State.creditTimeout (s : State) (src : Nat) : State :=
  let t := s.reg (PORT_CREDIT_CFG_timeout (src / 8)) * 10000
  match (s.link src).eg.creditSince with
  | some t0 =>
    if s.fcMode src == 2 && s.elapsed t0 t && s.elapsed (s.link src).lastUpdate t then
      s.raise (evPort (src / 8) (PORT_INTR_STATUS_credit_timeout_ev (src / 8)))
    else s
  | none => s

/-- All counters of a fabric port and its logical ports are zero (R73); the wait for credit under way counts from now on. -/
def State.portCtrClear (s : State) (p : Nat) : State :=
  let base := 0x400000 + 0x20000 * p
  let s := s.clearCounters (fun k =>
    keyIn (base + 0x800) (base + 0x900) k || keyIn (base + 0x1000) (base + 0x1800) k ||
      (keyIn (base + 0x2000) (base + 0x3000) k && decide (0x10 ≤ k / 64 % 0x40)))
  (List.range 8).foldl (fun s l => s.modEg (8 * p + l) (fun e => { e with creditWait := e.creditWait.map (fun _ => s.now) })) s

/-! ### The commands -/

def execPortEnable (p : Port) (brk : Fin 4) (s : State) : Host.Outcome State Fault Refusal := s.does (fun s => s.portEnable p.val brk.val)
def execPortDisable (p : Port) (brk : Fin 4) (s : State) : Host.Outcome State Fault Refusal := s.does (fun s => s.portDisable p.val brk.val)
def execPortFcCfgWrite (p : Port) (v : Nat) (s : State) : Host.Outcome State Fault Refusal := s.does (fun s => s.fcCfgWrite p.val v)
def execPortClassCfgWrite (p : Port) (v : Nat) (s : State) : Host.Outcome State Fault Refusal := s.does (fun s => s.classCfgWrite p.val v)
def execSignalDetect (p : Port) (l : Lp) (s : State) : Host.Outcome State Fault Refusal := s.does (fun s => s.signalDetect p.val l.val)
def execAlignLockDone (p : Port) (l : Lp) (s : State) : Host.Outcome State Fault Refusal := s.does (fun s => s.alignDone p.val l.val)
def execAlignLossTimeout (p : Port) (l : Lp) (s : State) : Host.Outcome State Fault Refusal := s.does (fun s => s.lockTimeout p.val l.val)
def execAlignmentLockLoss (p : Port) (l : Lp) (s : State) : Host.Outcome State Fault Refusal := s.does (fun s => s.lockLoss p.val l.val)
def execAlignmentLockReturn (p : Port) (l : Lp) (s : State) : Host.Outcome State Fault Refusal := s.does (fun s => s.lockReturn p.val l.val)
def execFecDegradeInterval (p : FecPort) (c : FecCount) (s : State) : Host.Outcome State Fault Refusal :=
  s.does (fun s => s.fecInterval p.val c.hist c.uncor)
def execLlrInitTimer (p : LlrPort) (l : Lp) (s : State) : Host.Outcome State Fault Refusal := s.does (fun s => s.llrInitTimer (srcOf p l))
def execLlrInitRx (p : LlrPort) (l : Lp) (s : State) : Host.Outcome State Fault Refusal := s.does (fun s => s.llrInitRx (srcOf p l))
def execLlrInitTimeout (p : LlrPort) (l : Lp) (s : State) : Host.Outcome State Fault Refusal :=
  s.does (fun s => s.llrInitTimeout (srcOf p l))
def execCreditInitRx (p : Port) (l : Lp) (s : State) : Host.Outcome State Fault Refusal := s.does (fun s => s.creditInitRx (srcOf p l))
def execLlrAckRx (p : LlrPort) (l : Lp) (s : State) : Host.Outcome State Fault Refusal := s.does (fun s => s.llrAckRx (srcOf p l))

def execLlrAckTimer (p : LlrPort) (l : Lp) (s : State) : Host.Outcome State Fault Refusal := s.does (fun s => s.llrAckTimer (srcOf p l))
def execPfcFrameRx (p : Port) (l : Lp) (s : State) : Host.Outcome State Fault Refusal := s.does (fun s => s.pfcRx (srcOf p l))
def execPfcPauseExpire (p : Port) (l : Lp) (c : Cls) (s : State) : Host.Outcome State Fault Refusal :=
  s.does (fun s => s.pauseExpire (srcOf p l) c.val)
def execPfcRefreshTimer (p : Port) (l : Lp) (s : State) : Host.Outcome State Fault Refusal := s.does (fun s => s.sendPause (srcOf p l))
def execCreditUpdateRx (p : Port) (l : Lp) (s : State) : Host.Outcome State Fault Refusal := s.does (fun s => s.creditUpdateRx (srcOf p l))
def execCreditKeepaliveTimer (p : Port) (l : Lp) (s : State) : Host.Outcome State Fault Refusal := s.does (fun s => s.creditSend (srcOf p l))
def execCreditTimeout (p : Port) (l : Lp) (s : State) : Host.Outcome State Fault Refusal := s.does (fun s => s.creditTimeout (srcOf p l))
def execPortCounterClear (p : Port) (s : State) : Host.Outcome State Fault Refusal :=
  s.does (fun s => s.whenReady (fun s => s.portCtrClear p.val))

end Sys2Proof.Machine
end

