-- ==== Sys2Proof/Machine/Record.lean ====
section
/-! DEFINITION. Contexts, channels and the cores' pips (R140, R162), which other blocks write to. -/

namespace Sys2Proof.Machine

/-! ### Contexts and pips -/

/-- A context. -/
def State.ctx (s : State) (cx : Nat) : Ctx := s.ctxs.get {} cx

/-- A context changed. -/
def State.modCtx (s : State) (cx : Nat) (f : Ctx → Ctx) : State := { s with ctxs := s.ctxs.put {} cx (f (s.ctx cx)) }

/-- A channel. -/
def State.chan (s : State) (ch : Nat) : Chan := s.chans.get {} ch

/-- A channel changed. -/
def State.modChan (s : State) (ch : Nat) (f : Chan → Chan) : State := { s with chans := s.chans.put {} ch (f (s.chan ch)) }

/-- Channel, core and channel-local number of a context (R140). -/
def chOf (cx : Nat) : Nat := cx / 32
def coreOf (cx : Nat) : Nat := cx % 32 / 8

/-! ### CORE cycles (R19, R20, R348, R351) -/

/-- Sixteenths of CORE cycles of a compute die, or with 4 of the level in force without stretch. -/
def State.coreUnits (s : State) (die : Nat) : Nat :=
  s.clk.core.get 0 die + (s.clk.cyc - s.clk.coreSince) * (10 - s.reg PWR_STATUS_level) * (if (s.pmc.stretch.find? die).isSome then 1 else 2)

/-- The CORE cycle that a compute die is in. -/
def State.coreNow (s : State) (die : Nat) : Nat := s.coreUnits die / 16

/-- CORE cycles so far are kept, before a level or a stretch changes. -/
def State.syncCore (s : State) : State :=
  { s with clk := { s.clk with core := (List.range 5).foldl (fun t d => t.put 0 d (s.coreUnits d)) [], coreSince := s.clk.cyc } }

/-- Doubled cycles of stretches under way that stretch_cycles has not counted yet (R351). -/
def State.stretched (s : State) : Nat := s.pmc.stretch.foldl (fun a e => a + (s.coreNow e.1 - e.2)) 0

/-- Whole microseconds of a thermal level in force that throttle_us has not counted yet, up to `t` (R354). -/
def State.throttledFor (s : State) (t : FT64) : Nat := if s.pmc.therm.isEmpty then 0 else (ftDiff s.pmc.thermAt t).toNat / 256000

/-- Sixty-fourths of bubble cycles since they were last counted, over the two channels of each die (R347): d of every 64 of its CORE cycles,
stretched ones as they were, and before the first window under d the count before it. -/
def State.bubbling (s : State) : Nat :=
  (List.range 4).foldl (fun a d =>
    let was := s.pmc.coreWas.get 0 d
    let now := s.coreNow d
    let from_ := min now (max was (s.pmc.dFrom.get 0 d))
    a + 2 * (s.pmc.dWas * (from_ - was) + s.reg PWR_STATUS_d * (now - from_))) s.pmc.bubble

/-! ### Waits of the pod (R407, R421) -/

/-- Nanoseconds since a stamp. -/
def State.since (s : State) (t : FT64) : Nat := (ftDiff t s.now).toNat / 256

/-- The wait for room that goes on, and that confirm_wait_ns has not counted yet. -/
def State.roomWait (s : State) : Nat := match s.mir.held with | h :: _ => s.since h.since | [] => 0

/-- The times held of STEP_DONEs that fence_hold_ns has not counted yet. -/
def State.fenceWait (s : State) : Nat := s.groups.foldl (fun a g => a + (g.2.cur.fenceHeld.map s.since).getD 0) 0

/-! ### Events that the PMC counts (R342) -/

/-- `n` events of a class by an engine of a channel: 0–4 M, V, S, X, P, 5 the combine engine's group work. -/
def State.event (s : State) (ch engine cls n : Nat) : State :=
  s.modChan ch (fun c => { c with events := c.events.put 0 (16 * engine + cls) (c.events.get 0 (16 * engine + cls) + n) })

/-! ### Owners and pips -/

/-- Owner charged for what context `cx` allocates or receives (R106). -/
def ownerOf (cx : Nat) : Nat := 192 + 4 * chOf cx + coreOf cx

/-- The SEQ cycle that a core is in (R19): the one its last instruction was issued in, where that runs ahead of device time because several
commands stand in one TIME cycle (DESIGN CHOICE). -/
def State.seqNow (s : State) (ch core : Nat) : Nat := max (s.clk.cyc * 5 / 4) ((s.chan ch).nextSeq.get 0 core - 1)

/-- A pip of a core is set in a SEQ cycle (R162): one already set is recorded as overset. -/
def State.setPipIn (s : State) (ch core i seq : Nat) : State :=
  let at_ := (s.chan ch).pipAt.get (0, 0) (64 * core + i)
  let was := bitOf (s.reg (CH_PIP_pips ch core)) i
  let s := s.modChan ch (fun c => { c with pipAt := c.pipAt.put (0, 0) (64 * core + i) (if was then at_.1 else seq, seq) })
  if was then
    ((s.setW1c (CH_PIP_OVERSET_overset ch core) (2 ^ i)).count
      (CH_CTR_overset_count ch)).raise (evCh ch (CH_INTR_STATUS_overset_ev ch))
  else s.setReg (CH_PIP_pips ch core) (setBit (s.reg (CH_PIP_pips ch core)) i)

/-- A pip of a core is set now. -/
def State.setPip (s : State) (ch core i : Nat) : State := s.setPipIn ch core i (s.seqNow ch core)

/-- Pips of a mask are cleared in a SEQ cycle; one that is set in the same cycle stays set (R164). -/
def State.clearPipsIn (s : State) (ch core mask seq : Nat) : State :=
  s.setReg (CH_PIP_pips ch core) ((List.range 48).foldl (fun v i =>
    if bitOf mask i && decide (((s.chan ch).pipAt.get (0, 0) (64 * core + i)).2 < seq) then clearBit v i else v) (s.reg (CH_PIP_pips ch core)))

/-- Pips of a mask are cleared now (R164). -/
def State.clearPips (s : State) (ch core mask : Nat) : State := s.clearPipsIn ch core mask (s.seqNow ch core)

/-- The SEQ cycle in which a condition over the pips of a mask came to hold: any of them set, or all (R165). -/
def State.pipsSince (s : State) (ch core mask : Nat) (any : Bool) : Nat :=
  let l := ((List.range 48).filter (fun i => bitOf mask i && bitOf (s.reg (CH_PIP_pips ch core)) i)).map (fun i =>
    ((s.chan ch).pipAt.get (0, 0) (64 * core + i)).1)
  match l with
  | [] => 0
  | x :: r => if any then r.foldl min x else r.foldl max x

/-- Pips whose condition has been seen to hold are cleared, no sooner than the cycle after it came to hold (R165). -/
def State.usePips (s : State) (ch core mask : Nat) (any : Bool) : State :=
  s.clearPipsIn ch core mask (max (s.seqNow ch core) (s.pipsSince ch core mask any + 1))

/-- A pip of another core is set 8 SEQ cycles from now (R163). -/
def State.setPipLater (s : State) (ch core i now : Nat) : State :=
  { s with clk := { s.clk with pips := insertBy (fun a b => decide (a.seq ≤ b.seq)) { seq := now + 8, ch := ch, core := core, pip := i } s.clk.pips } }

end Sys2Proof.Machine
end

