-- ==== Sys2Proof/Machine/Pipeline.lean ====
section
/-! DEFINITION. Frames arriving: the header, the decision, the tail (chapters 03, 04, 06: R21, R22, R45, R52, R56–R60, R73–R76,
R81–R91, R94, R101, R106–R113, R120–R126, R203); and the commands of egress, gates and policers. -/

namespace Sys2Proof.Machine

/-! ### Classes and policers (R120–R126) -/

/-- The class of a received frame (R64, R120). -/
def State.classify (s : State) (p : Nat) (f : Parsed) : Nat :=
  let trust := s.reg (PORT_CLASS_CFG_trust p)
  let byPcp := match f.tags with
    | t :: _ => bits (s.reg (PORT_PCP_MAP_map p)) (3 * (t / 0x2000 % 8)) 3
    | [] => s.reg (PORT_CLASS_CFG_default_tc p)
  if trust = 0 then s.reg (PORT_CLASS_CFG_default_tc p)
  else if trust = 2 then
    match f.ip with
    | some ip => s.reg (PORT_DSCP_MAP_tc p (ip.dscp / 8) (ip.dscp % 8))
    | none => byPcp
  else byPcp

/-- A policer's buckets brought up to stamp `t` (R124, R126): full depths bound them, and cir bounds pir from below. -/
def Policer.fill (q : Policer) (t : FT64) (cir pir cbs pbs : Nat) : Policer :=
  let e : Nat := match q.last with
    | none => 0
    | some l => if precedes t l then 0 else (ftDiff l t).toNat
  let pir := max cir pir
  let c := q.rc + e * cir * 4
  let p := q.rp + e * pir * 4
  { tc := min (q.tc + ((c / 125 : Nat) : Int)) ((cbs * 65536 : Nat) : Int), rc := c % 125,
    tp := min (q.tp + ((p / 125 : Nat) : Int)) ((pbs * 65536 : Nat) : Int), rp := p % 125,
    last := match q.last with
      | none => some t
      | some l => if precedes t l then some l else some t }

/-- A frame of `est` bytes is coloured (R124): 1 yellow, 2 green, 3 red. -/
def Policer.colour (q : Policer) (est : Nat) : Nat :=
  let e : Int := ((est * 65536 : Nat) : Int)
  if q.tp < e then 3 else if q.tc < e then 1 else 2

/-- A bucket is debited, never below −65,600 bytes (R125). -/
def debit (b : Int) (bytes : Nat) : Int := max (-(65600 * 65536 : Nat) : Int) (b - ((bytes * 65536 : Nat) : Int))

/-- The policer of (logical port, class) sees a frame at its decision (R123, R124); answers the colour, 0 when not policed. -/
def State.police (s : State) (src cls : Nat) (stamp : FT64) (est : Nat) : Nat × State :=
  let p := src / 8
  let l := src % 8
  if decide (cls < 7) && !s.lossless p cls && s.flag (PORT_POL_RATE_en p l cls) then
    let q := ((s.link src).policers.get {} cls).fill stamp (s.reg (PORT_POL_RATE_cir p l cls)) (s.reg (PORT_POL_RATE_pir p l cls))
      (s.reg (PORT_POL_BURST_cbs p l cls)) (s.reg (PORT_POL_BURST_pbs p l cls))
    let k := q.colour est
    let s := s.modLink src (fun x => { x with policers := x.policers.put {} cls q })
    (k, s.count (if k = 3 then PORT_POL_RED_count p l cls else if k = 2 then PORT_POL_GREEN_count p l cls else PORT_POL_YELLOW_count p l cls))
  else (0, s)

/-- A coloured frame's buckets are debited at its tail (R125). -/
def State.policeTail (s : State) (src cls colour len : Nat) : State :=
  if colour = 1 || colour = 2 then
    s.modLink src (fun x =>
      let q := x.policers.get {} cls
      let q := { q with tp := debit q.tp len, tc := if colour = 2 then debit q.tc len else q.tc }
      { x with policers := x.policers.put {} cls q })
  else s

/-! ### Fates (R74) -/

/-- The frame is a PTP message within the profile of R38. -/
def State.ptpProfile (s : State) (b : Bytes) (f : Parsed) : Bool :=
  let ty := byteAt b f.l3 % 16
  let log := signed 8 (byteAt b (f.l3 + 33))
  f.et == 0x88F7 && byteAt b (f.l3 + 1) % 16 == 2 && byteAt b (f.l3 + 4) == s.reg TIME_PTP_CFG_domain &&
    (ty == 2 || ty == 3 || ty == 8 || ty == 10 || ty == 11 || (ty == 0 && decide (-7 ≤ log) && decide (log ≤ 0)))

/-- Opcodes of link control frames (R64). -/
def isLinkOp (op : Nat) : Bool := op == 0x74 || op == 0x75 || op == 0x76 || op == 0x78 || op == 0x79

/-- The frame is an LLR or credit control frame (R64). -/
def State.isLinkCtl (s : State) (src : Nat) (b : Bytes) : Bool :=
  let e := echOf b
  !isPfc b && (parseFrame b).isEch (s.echType (src / 8)) && e.gid == 0 && isLinkOp e.opcode

/-- Rows 1 to 3 of the precedence table: which one takes the frame. -/
def State.portRow (s : State) (src : Nat) (b : Bytes) (f : Parsed) : Option Nat :=
  if isPfc b || s.isLinkCtl src b then some 1
  else if s.ptpProfile b f && s.designated 1 == src then some 2
  else if f.isEch (s.echType (src / 8)) && (echOf b).gid == 0 then some 3
  else none

/-- The group's owning channel and core, as its entry's byte 16 names the context (R106, R270). -/
def State.groupOwner (s : State) (gid : Nat) : Nat :=
  let o := byteAt ((s.groups.find? gid).map (·.entry) |>.getD []) 16
  192 + 4 * (o % 8) + o / 64

/-- The lookup's backlog takes a frame of `present` bytes, or it overruns (R91). -/
def State.lookupSlot (s : State) (p present : Nat) : Option State :=
  let now := 7 * s.clk.cyc
  let q := s.port p
  let wait := q.lookWait.filter (fun w => decide (now < w.1))
  let start := max now q.lookFree
  if start = now then some (s.modPort p (fun q => { q with lookFree := start + 5, lookWait := wait }))
  else if 4096 < wait.foldl (fun a w => a + w.2) 0 + present then none
  else some (s.modPort p (fun q => { q with lookFree := start + 5, lookWait := wait ++ [(start, present)] }))

/-- A received frame takes a buffer and stands in the store, its first bytes with it (R101, R106, R108, R109). -/
def State.receive (s : State) (src owner cls : Nat) (r : Rx) (b : Bytes) (f : Parsed) (push : Option Nat) : Option (Nat × State) :=
  let p := src / 8
  let est := headerLen b f (s.echType p)
  let len := est.getD (s.maxFrame p)
  let ll := s.lossless p cls
  match s.admitRx owner len cls ll src push with
  | none => none
  | some (unit, s) =>
    let fr : Frm := { src := src, cnt := src, stamp := r.stamp, arr := r.arr, unit := unit, len := 0, est := est, cls := cls,
                      excess := r.colour == 1, lossless := ll }
    let (id, s) := s.newFrame fr
    some (id, s.frameAppend id b)

/-- A forwarded frame may be cut through to an egress logical port (R86). -/
def State.mayCut (s : State) (src eg : Nat) (whole : Bool) : Bool :=
  !whole && s.flag (PORT_LOOKUP_CFG_cut_through (src / 8)) && decide (s.rate eg ≤ s.rate src)

/-- Rows 4 to 9: the frame's fate (R74–R90, R109–R113). -/
def State.decideFate (s : State) (src cls : Nat) (r : Rx) (b : Bytes) (f : Parsed) (whole : Bool) : Fate × State :=
  let p := src / 8
  let len := (headerLen b f (s.echType p)).getD (s.maxFrame p)
  let ll := s.lossless p cls
  if f.isEch (s.echType p) && f.dmac == s.station p then
    let e := echOf b
    if (s.groups.find? e.gid).isNone then (.drop, s.countL PORT_LCTR_ech_unknown_drops src)
    else
      let o := s.groupOwner e.gid
      match s.receive src o cls r b f none with
      | none => (.drop, s.refusedRx o len ll src)
      | some (id, s) => (if 0x40 ≤ e.opcode && e.opcode ≤ 0x4F then .token id e.gid else .group id e.gid, s)
  else
    match s.lookup src true false b f with
    | (.drop, s) => (.drop, s)
    | (.prog cx tag, s) =>
      match s.receive src (ownerOf cx) cls r b f none with
      | none => (.drop, s.refusedRx (ownerOf cx) len ll src)
      | some (id, s) => (.prog id cx tag, s)
    | (.copies rep l, s) =>
      let o := 8 * p + cls
      let push := match rep, l with
        | false, [x] => some x.1
        | _, _ => none
      match s.receive src o cls r b f push with
      | none => (.drop, s.refusedRx o len ll src)
      | some (id, s) =>
        (.fwd id, s.spread id rep o (l.map (fun x =>
          (x.1, { frm := id, edit := x.2, cut := s.mayCut src x.1 whole, rep := rep }))))

/-! ### The three events of a received frame -/

/-- The decision of a frame (R21). Row 1 of R74 comes first; a port that is not UP acts on nothing else, and drops the rest at the port
(DESIGN CHOICE). Then class, recording and policing, whatever becomes of the frame (R120, R123, R329); then it is discarded while the store is
disabled (R94), when red (R125), or when the lookup overruns (R91); else its fate is decided. `live` is false for a frame that a replay presents. -/
def State.judgeFrame (s : State) (p l : Nat) (bytes : Bytes) (whole live : Bool) : State :=
  let src := 8 * p + l
  match (s.link src).rx with
  | none => s
  | some r =>
    let b := bytes.take (if whole then 252 else 256)
    let r := { r with decided := true, whole := whole, data := b }
    let put := fun (s : State) (r : Rx) => s.modLink src (fun k => { k with rx := some r })
    if r.dropped || !r.accept || (whole && decide (b.length < 60)) then put s r
    else
      let f := parseFrame b
      let present := if whole then b.length + 4 else 256
      match s.portRow src b f with
      | some 1 => put s { r with fate := .port, cls := 7 }
      | row =>
        let cls := s.classify p f
        let r := { r with cls := cls }
        if live && !s.isUp src then put s { r with dropped := true }
        else match row with
          | some _ =>
            match s.lookupSlot p present with
            | none => put (s.countL PORT_LCTR_lookup_overrun_drops src) { r with fate := .drop }
            | some s => put s { r with fate := .port }
          | none =>
            let (rec, s) := s.recordFrame src cls r.stamp r.arr b
            let (k, s) := s.police src cls r.stamp ((headerLen b f (s.echType p)).getD present)
            let r := { r with colour := k, recorded := rec }
            if !s.flag STORE_STATUS_ready then put (s.count STORE_CTR_disabled_drops) { r with fate := .drop }
            else if k = 3 then put s { r with fate := .drop }
            else match s.lookupSlot p present with
              | none => put (s.countL PORT_LCTR_lookup_overrun_drops src) { r with fate := .drop }
              | some s =>
                let (ft, s) := s.decideFate src cls r b f whole
                put s { r with fate := ft }

/-- The decision point of a frame on the wire (R21). A frame whose first bit came before a replay began and whose decision falls into it is
discarded at the port as those that come later are (R338). -/
def State.decideFrame (s : State) (p l : Nat) (bytes : Bytes) (whole : Bool) : State :=
  let src := 8 * p + l
  match (s.link src).rx with
  | none => s
  | some r =>
    if r.decided then s
    else if s.replaying && !r.dropped then
      ((s.count SBK_CTR_replay_live_drops).modLink src (fun k => { k with rx := some { r with dropped := true } })).judgeFrame p l bytes whole true
    else s.judgeFrame p l bytes whole true

/-- Every copy of a frame that has not begun is discarded (R22, R90). -/
def State.dropCopies (s : State) (id : Nat) : State :=
  let waiting := match s.frm id with
    | some f => f.saf
    | none => []
  let s := s.modFrm id (fun f => { f with saf := [] })
  let s := waiting.foldl (fun s x => s.copyDone id x.1) s
  s.links.foldl (fun s e =>
    (List.range 8).foldl (fun s c =>
      (((s.link e.1).eg.queue c).filter (fun x => x.frm == id)).foldl (fun s x => s.dropQueued e.1 c x) s) s) s

/-- A frame with no copy left leaves the store. -/
def State.reap (s : State) (id home : Nat) : State :=
  match s.frm id with
  | none => s
  | some f => if f.copies = 0 then { (s.release f.unit home) with frames := s.frames.erase id } else s

/-- A consumed or discarded frame's buffer is released and its record ends. -/
def State.dropFrame (s : State) (id home : Nat) : State :=
  match s.frm id with
  | none => s
  | some f => let s := s.release f.unit home; { s with frames := s.frames.erase id }

/-- A stored frame whose header gives no length and whose tail shows it beyond the max_frame of the ingress port counts in mtu_drops for every copy
whose egress port takes no more (R87). -/
def State.countLong (s : State) (id : Nat) (cutAt : Option Nat) : State :=
  match cutAt, s.frm id with
  | some m, some f =>
    if f.est.isSome then s
    else f.saf.foldl (fun s x => if s.maxFrame (x.1 / 8) ≤ m then s.countL PORT_LCTR_mtu_drops f.cnt else s) s
  | _, _ => s

/-- The tail of a forwarded frame (R22, R56, R86, R87, R90). -/
def State.tailFwd (s : State) (src id : Nat) (good : Bool) (cutAt : Option Nat) : State :=
  let s := s.modFrm id (fun f => { f with tail := some (if good then .good else .bad), cutAt := cutAt })
  if good && cutAt.isNone then
    let waiting := match s.frm id with
      | some f => f.saf
      | none => []
    let s := s.modFrm id (fun f => { f with saf := [] })
    (waiting.foldl (fun s x => s.enqueue x.1 x.2) s).reap id (s.portHome src)
  else ((s.countLong id cutAt).dropCopies id).reap id (s.portHome src)

/-- The tail of a frame with the program fate (R76, R203). -/
def State.tailProg (s : State) (id cx tag : Nat) (good : Bool) : State :=
  let ch := chOf cx
  let k := s.ctx cx
  if !good then s.dropFrame id (s.home ch)
  else if (k.st == .run || k.st == .wait || k.st == .drain) && decide (k.fifo.length < 64) then
    let s := s.modFrm id (fun f => { f with tail := some .good })
    let s := s.modCtx cx (fun k => { k with fifo := k.fifo ++ [{ frm := id, tag := tag }] })
    match k.apip with
    | some i => s.setPip ch (coreOf cx) i
    | none => s
  else (s.count (CH_CTR_program_rx_drops ch)).dropFrame id (s.home ch)

/-- What LLR makes of a sequenced frame's tail (R59, R60). -/
def State.llrTail (s : State) (src : Nat) (r : Rx) (fcs : Fcs) : State :=
  if r.sequenced && r.accept then
    if fcs = .bad then s.nack src
    else s.modLink src (fun k => { k with nextExp := (k.nextExp + 1) % 65536 })
  else s

/-- A good control, time or PTP frame waits to be acted on; a bad header or an unknown opcode of group 0 is counted (R64, R74, R268). -/
def State.tailCtl (s : State) (src : Nat) (r : Rx) (b : Bytes) : State :=
  let keep := fun s : State => s.modLink src (fun k => { k with ctl := k.ctl ++ [{ stamp := r.stamp, arr := r.arr, good := true, bytes := b }] })
  let f := parseFrame b
  let op := (echOf b).opcode
  if isPfc b || !f.isEch (s.echType (src / 8)) then keep s
  else if isLinkOp op then (if echHeaderOk b then keep s else s.countL PORT_LCTR_ctl_discards src)
  else if op == 0x70 || op == 0x71 || op == 0x72 then keep (if echHeaderOk b then s else s.countL PORT_LCTR_ech_hdr_err src)
  else s.countL PORT_LCTR_ctl_discards src

/-- The tail of a frame (R22, R52, R54, R56, R73, R76, R88). The units of every frame that the port has taken count as received, those of one that
retry rejects here too (DESIGN CHOICE, R69). -/
def State.rxTail (s : State) (p l : Nat) (rest : Bytes) (fcs0 : Fcs) : State :=
  let src := 8 * p + l
  match (s.link src).rx with
  | none => s
  | some r =>
    if !r.decided then s
    else
      let fcs := if (s.link src).lostAt.isSome || r.cut then .bad else fcs0
      let taken := !r.dropped && r.accept
      let all := r.data ++ (if r.whole then [] else rest)
      let mx := s.maxFrame p
      let long := decide (mx < all.length + 4)
      let len := min (all.length + 4) mx
      let s := s.modLink src (fun k => { k with rx := none })
      if all.length < 60 then (if taken then s.llrTail src r fcs else s).countL PORT_LCTR_rx_undersize src
      else
        let s := (s.countL PORT_LCTR_rx_frames src).countL PORT_LCTR_rx_bytes src len
        let s := if long then s.countL PORT_LCTR_rx_oversize src else s
        if !taken then s
        else
          let s := s.llrTail src r fcs
          let s := match fcs with
            | .good => s
            | .bad => s.countL PORT_LCTR_rx_fcs_err src
            | .abort => s.countL PORT_LCTR_rx_tail_abort src
          let s := s.policeTail src r.cls r.colour len
          let good := fcs = .good && !long
          let s := if r.recorded then s.recordTail src r.arr (all.take (mx - 4)) (if long then .bad else fcs) else s
          let cut := all.take mx
          let credit := fun (s : State) =>
            if s.fcMode src == 2 && s.lossless p r.cls && r.fate != .port then
              (s.modLink src (fun k => { k with rxUnits := k.rxUnits.put 0 r.cls (k.rxUnits.get 0 r.cls + ceilDiv len 256) })).creditSync src
            else s
          let fill := fun (s : State) (id : Nat) =>
            let s := s.frameAppend id (cut.drop r.data.length)
            let s := s.traffic (unitsAt 0 cut.length) (2 * unitsAt 0 cut.length)
            match s.frm id with
            | some f => s.recharge f.unit len
            | none => s
          match r.fate with
          | .none => credit s
          | .drop => credit s
          | .port =>
            if good then s.tailCtl src r all
            else if s.isLinkCtl src r.data then s.countL PORT_LCTR_ctl_discards src else s
          | .fwd id => credit ((fill s id).tailFwd src id good (if long then some mx else none))
          | .group id gid =>
            let s := fill s id
            if good then credit ((s.modFrm id (fun f => { f with tail := some .good })) |> fun s =>
              { s with inbox := s.inbox ++ [{ frm := id, gid := gid, token := false }] })
            else credit (s.dropFrame id (s.portHome src))
          | .token id gid =>
            let s := fill s id
            if good then credit ((s.modFrm id (fun f => { f with tail := some .good })) |> fun s =>
              { s with inbox := s.inbox ++ [{ frm := id, gid := gid, token := true }] })
            else credit (s.dropFrame id (s.portHome src))
          | .prog id cx tag => credit ((fill s id).tailProg id cx tag good)

/-- A frame that a link going down has cut ends with a bad tail, undecided or not, before anything else arrives (R52, R54). -/
def State.rxCut (s : State) (p l : Nat) : State :=
  match (s.link (8 * p + l)).rx with
  | some r =>
    if !r.cut then s
    else if r.decided then s.rxTail p l [] .bad
    else s.modLink (8 * p + l) (fun k => { k with rx := none })
  | none => s

/-- The first bit of a frame at the receive plane (R45, R57, R59, R338), in the states in which a port exchanges frames (R54). -/
def State.rxStart (s : State) (p l : Nat) (pre : Bytes) : State :=
  let src := 8 * p + l
  let s := s.rxCut p l
  let st := (s.link src).st
  if !(st == .up || st == .llrInit || st == .fcInit) || decide (s.lpCount p ≤ l) || (s.link src).rx.isSome then s
  else
    let (n, s) := s.arrival src
    let r : Rx := { stamp := s.planeNow src, arr := n }
    if s.replaying then
      (s.count SBK_CTR_replay_live_drops).modLink src (fun k => { k with rx := some { r with dropped := true } })
    else
      let (seqd, ok, s) := s.tagIn src pre
      s.modLink src (fun k => { k with rx := some { r with sequenced := seqd, accept := ok } })

end Sys2Proof.Machine
end

