-- ==== Sys2Proof/Machine/Sched.lean ====
section
/-! DEFINITION. The commands of the packet path: frames arriving, egress, shapers, gates, policers (chapters 04 and 06). -/

namespace Sys2Proof.Machine

/-! ### Egress (R89, R127, R132) -/

/-- The link of a logical port can start a frame (R127). -/
def State.egressSelect (s : State) (src : Nat) : State :=
  if s.isUp src && (s.link src).eg.tx.isNone && decide (src % 8 < s.lpCount (src / 8)) then
    let s := s.dropOversize src
    s.select src ((s.link src).eg.total + 1)
  else s

/-- The copy under way can end: its tail is in, or something ends it before (R56, R87, R89). -/
def State.txEnds (s : State) (t : Tx) (p : Nat) : Bool :=
  match s.frm t.copy.frm with
  | none => true
  | some f => f.tail.isSome || t.stopAt.isSome || t.abort || f.cutAt.isSome || decide (s.maxFrame p < (s.copyBytes t.copy p).length + 4)

/-- A copy finishes transmission (R22, R132). -/
def State.frameTxEnd (s : State) (src : Nat) : State :=
  match (s.link src).eg.tx with
  | none => s
  | some t => if s.txEnds t (src / 8) then s.endTx src t else s

/-- A cut-through copy has waited 200 ns for a unit (R89). -/
def State.underrun (s : State) (src : Nat) : State :=
  match (s.link src).eg.tx with
  | none => s
  | some t =>
    match s.frm t.copy.frm with
    | none => s
    | some f =>
      if t.copy.cut && f.tail.isNone then
        (s.countL PORT_LCTR_tx_underrun src).endTx src { t with stopAt := some (s.copyAt t.copy (f.len / 256 * 256)) }
      else s

/-! ### Shapers and gates (R131, R133–R138) -/

/-- A parked shaper's slot is reached (R131). -/
def State.fireShaper (s : State) (src c : Nat) : State := (s.unschedule (.shaper src c)).park src c

/-- The gate state as the list gives it now, and the next boundary scheduled (R133, R138). -/
def State.fireGate (s : State) (p : Nat) : State :=
  let s := s.unschedule (.gateChange p)
  if s.reg (PORT_GATE_CTRL_oper_len p) = 0 then s
  else
    let (m, left) := s.gateAt p s.now
    (s.modPort p (fun q => { q with mask := m, gateHeld := false })).schedule (s.now + BitVec.ofNat 64 (max left 1)) (.gateChange p)

/-- The administrative list becomes operational (R136). -/
def State.fireGateApply (s : State) (p : Nat) : State :=
  let s := s.unschedule (.gateApply p)
  let n := s.reg (PORT_GATE_CTRL_admin_len p)
  let s := (List.range n).foldl (fun s i =>
    (s.setReg (PORT_GATE_OPER_mask p i) (s.reg (PORT_GATE_ADMIN_mask p i))).setReg (PORT_GATE_OPER_interval p i) (s.reg (PORT_GATE_ADMIN_interval p i))) s
  let s := ((s.setReg (PORT_GATE_OPER_BASE_base p) (s.reg (PORT_GATE_BASE_base p))).setReg
    (PORT_GATE_OPER_CYCLE_cycle p) (s.reg (PORT_GATE_CYCLE_cycle p))).setReg (PORT_GATE_CTRL_oper_len p) n
  (s.setReg (PORT_GATE_CTRL_pending p) 0).fireGate p

/-- The check of R137 passes. -/
def State.gateCheck (s : State) (p : Nat) : Bool :=
  let n := s.reg (PORT_GATE_CTRL_admin_len p)
  decide (1 ≤ n) && decide (n ≤ 256) && decide (1000 ≤ s.reg (PORT_GATE_CYCLE_cycle p)) &&
    (List.range n).all (fun i => s.reg (PORT_GATE_ADMIN_interval p i) != 0) &&
    (List.range 7).all (fun c => !s.lossless p c ||
      (match longestRun (s.adminRuns p) c 1 with
       | some m => decide (lineNs (s.maxFrame p) (s.rate (8 * p)) ≤ m)
       | none => true))

/-- A list change is requested (R136). -/
def State.gateCfgChange (s : State) (p : Nat) : State :=
  if !s.flag HUB_STATUS_ready || s.flag (PORT_GATE_CTRL_pending p) then s
  else if !s.gateCheck p then s.setW1c (PORT_GATE_CTRL_cfg_err p) 1
  else
    let base : FT64 := BitVec.ofNat 64 (s.reg (PORT_GATE_BASE_base p))
    let cyc := s.reg (PORT_GATE_CYCLE_cycle p) * 256
    let ahead := ftDiff base (s.now + ns 1000)
    let n := ceilDiv ahead.toNat cyc
    let t := base + BitVec.ofNat 64 (n * cyc)
    ((s.setReg (PORT_GATE_CFG_TIME_t p) t.toNat).setReg (PORT_GATE_CTRL_pending p) 1).schedule t (.gateApply p)

/-- A write to PORT_POL_RATE (R126). A policer that is enabled starts with both residues zero (DESIGN CHOICE). -/
def State.policerWrite (s : State) (src c v : Nat) : State :=
  let p := src / 8
  let l := src % 8
  if !s.flag HUB_STATUS_ready then s
  else
    let rise := !s.flag (PORT_POL_RATE_en p l c) && bitOf v 31
    let s := ((s.setReg (PORT_POL_RATE_cir p l c) (bits v 0 21)).setReg (PORT_POL_RATE_en p l c) (bits v 31 1)).setReg
      (PORT_POL_RATE_pir p l c) (bits v 32 21)
    if rise then
      let q : Policer := { tc := ((s.reg (PORT_POL_BURST_cbs p l c) * 65536 : Nat) : Int), tp := ((s.reg (PORT_POL_BURST_pbs p l c) * 65536 : Nat) : Int) }
      s.modLink src (fun k => { k with policers := k.policers.put {} c q })
    else s

/-! ### The commands -/

def execFrameRxStart (p : Port) (l : Lp) (pre : Bytes) (s : State) : Host.Outcome State Fault Refusal :=
  s.does (fun s => s.rxStart p.val l.val pre)
def execFrameDecision (p : Port) (l : Lp) (bytes : Bytes) (whole : Bool) (s : State) : Host.Outcome State Fault Refusal :=
  s.does (fun s => s.decideFrame p.val l.val bytes whole)
def execFrameTail (p : Port) (l : Lp) (rest : Bytes) (fcs : Fcs) (s : State) : Host.Outcome State Fault Refusal :=
  s.does (fun s => s.rxTail p.val l.val rest fcs)
def execEgressSelect (p : Port) (l : Lp) (s : State) : Host.Outcome State Fault Refusal := s.does (fun s => s.egressSelect (srcOf p l))

def execEgressUnderrun (p : Port) (l : Lp) (s : State) : Host.Outcome State Fault Refusal := s.does (fun s => s.underrun (srcOf p l))
def execShaperEligible (p : Port) (l : Lp) (c : Cls) (s : State) : Host.Outcome State Fault Refusal :=
  s.does (fun s => if s.dueEvent (.shaper (srcOf p l) c.val) then s.fireShaper (srcOf p l) c.val else s)
def execGateCfgChange (p : Port) (s : State) : Host.Outcome State Fault Refusal := s.does (fun s => s.gateCfgChange p.val)
def execGateConfigApply (p : Port) (s : State) : Host.Outcome State Fault Refusal :=
  s.does (fun s => if s.dueEvent (.gateApply p.val) then s.fireGateApply p.val else s)
def execGateChange (p : Port) (s : State) : Host.Outcome State Fault Refusal :=
  s.does (fun s => if s.dueEvent (.gateChange p.val) then s.fireGate p.val else s)

end Sys2Proof.Machine
end

