-- ==== Sys2Proof/Machine/Store.lean ====
section
/-! DEFINITION. The commands of the central store and the buffer pools (chapter 05). The reread of an uncorrectable word reaches
every requester and is in Machine/Faulty.lean. -/

namespace Sys2Proof.Machine

/-! ### Enabling and disabling (R93, R94, R99, R104, R107) -/

/-- Addresses of the layout (R99): where each pool starts, where each ring starts, and its end; pools from P5 down. -/
def State.layout (s : State) : List (Nat × Nat × Nat) × Nat :=
  let ks := [5, 4, 3, 2, 1, 0]
  let bases := ks.foldl (fun (a : List (Nat × Nat) × Nat) k => (a.1 ++ [(k, a.2)], a.2 + s.reg (POOL_CFG_count k) * poolSize k)) ([], 0)
  let metaEnd := bases.2 + 16 * ks.foldl (fun a k => a + s.reg (POOL_CFG_count k)) 0
  let rings := bases.1.foldl (fun (a : List (Nat × Nat × Nat) × Nat) e =>
    let r := ceilDiv a.2 4096 * 4096
    (a.1 ++ [(e.1, e.2, r)], r + 8 * s.reg (POOL_CFG_count e.1))) ([], metaEnd)
  rings

/-- The first failing check of R94, as cfg_err_code gives it. -/
def State.storeCheck (s : State) : Option Nat :=
  let pkt := s.reg STORE_REGION_CFG_pkt_size
  let sbk := s.reg STORE_REGION_CFG_sbk_size
  if pkt < 8 || 128 < pkt || 64 < sbk then some 2
  else if (List.range 6).any (fun k => s.reg (POOL_CFG_count k) == 0) then some 3
  else if s.pktEnd < s.layout.2 then some 1
  else if s.poolTotal < s.sumMin then some 4
  else none

/-- Free entries of a pool laid out from `base`, without the buffers that stay out of use (R103, R115). -/
def freshSegs (stride base : Nat) (lost : List Nat) (n : Nat) : List Seg :=
  let out := (lost.filter (fun u => decide (base ≤ u) && decide (u < base + n * stride) && (u - base) % stride == 0)).map (fun u => (u - base) / stride)
  let cut := fun (l : List Seg) (i : Nat) => match segTake stride l i with
    | some (_, r) => r
    | none => l
  (sortBy (fun a b => decide (b ≤ a)) out.eraseDups).foldl cut [⟨base, n, 1⟩]

/-- The pools are laid out and the store is ready (R94, R99, R104). -/
def State.layOut (s : State) : State :=
  let (l, _) := s.layout
  let s := l.foldl (fun s e => (s.setReg (POOL_BASE_base e.1) e.2.1).setReg (POOL_RING_BASE_base e.1) e.2.2) s
  let pools := l.foldl (fun (t : Tab PoolSt) e =>
    t.put {} e.1 { ring := freshSegs (poolUnits e.1) (e.2.1 / 256) s.store.lost (s.reg (POOL_CFG_count e.1)) }) []
  let s := { s with store := { s.store with pools := pools, bufs := [], usage := [], bp := [], bpPairs := [] } }
  let s := (List.range 6).foldl (fun s k => s.setReg (POOL_LOW_WATER_low k) (s.pool k).free) s
  let s := (List.range 256).foldl (fun s o => (s.setReg (POOL_OWN_PEAK_peak o) 0).setReg (POOL_OWN_CTRL_bp o) 0) s
  (((s.setReg STORE_SHARED_STATUS_total s.poolTotal).setReg STORE_STATUS_ready 1).setReg STORE_STATUS_cfg_err 0).setReg STORE_STATUS_cfg_err_code 0

/-- STORE_CTRL.enable written 1 (R94); a store that is enabled takes only scrub_en. -/
def State.storeEnable (s : State) (scrub : Bool) : State :=
  let s := s.setReg STORE_CTRL_scrub_en (bit1 scrub)
  if s.flag STORE_CTRL_enable then s
  else
    match s.storeCheck with
    | some c => (s.setReg STORE_STATUS_cfg_err 1).setReg STORE_STATUS_cfg_err_code c
    | none => (s.setReg STORE_CTRL_enable 1).layOut

/-- STORE_CTRL.enable written 0 (R94): buffers, rings and accounting do not survive, and what waits in them is gone. With every usage zero the
back-pressure ends and is taken back (R66), and the credit limits rise (R71, R112). -/
def State.storeDisable (s : State) (scrub : Bool) : State :=
  let s := s.setReg STORE_CTRL_scrub_en (bit1 scrub)
  if !s.flag STORE_CTRL_enable then s
  else
    let noEgress := fun (e : Egress) => { e with q := [], active := [], deficit := [], visited := [], tx := none }
    let noFate := fun (r : Rx) => { r with fate := if r.fate == .port then .port else .drop }
    let s := { s with frames := [], inbox := [], links := s.links.mapVals (fun _ l => { l with eg := noEgress l.eg, rx := l.rx.map noFate }) }
    let s := (List.range 192).foldl State.creditClock s
    let s := { s with ctxs := s.ctxs.mapVals (fun _ k => { k with fifo := [], held := [] }) }
    let s := { s with mir := { s.mir with unconfirmed := s.mir.unconfirmed.map (fun (r : MirRec) => { r with unit := none }) } }
    let s := State.bpSync { s with store := { s.store with pools := [], bufs := [], usage := [] } }
    let s := (List.range 24).foldl State.creditPort s
    ((s.setReg STORE_CTRL_enable 0).setReg STORE_STATUS_ready 0).setReg STORE_SHARED_STATUS_total 0

/-- A bundle is being loaded or verified (R391). -/
def State.bundleOpen (s : State) : Bool := s.reg SEC_STATUS_load_state == 1 || s.reg SEC_STATUS_load_state == 2

/-- A write to STORE_REGION_CFG (R93, R94); the region registers follow it. -/
def State.regionWrite (s : State) (v : Nat) : State :=
  if s.flag STORE_CTRL_enable || s.bundleOpen then s
  else
    let s := (s.setReg STORE_REGION_CFG_pkt_size (bits v 0 8)).setReg STORE_REGION_CFG_sbk_size (bits v 8 8)
    ((s.setReg STORE_PROG_BASE_base s.pktEnd).setReg STORE_PROG_BASE_size_gib ((s.progEnd - s.pktEnd) / gib)).setReg STORE_SBK_BASE_base s.sbkBase

/-! ### Free rings (R102, R103) -/

/-- Entries fetched from the ring head one by one until 64 are good; those at the positions of `bad` are discarded. -/
def fetchGood (stride : Nat) (bad : List Nat) : Nat → Nat → Nat → List Seg → List Seg × List Nat × List Seg
  | 0, _, _, r => ([], [], r)
  | fuel + 1, i, got, r =>
    if 64 ≤ got then ([], [], r)
    else match segTake stride r 0 with
      | none => ([], [], r)
      | some ((u, g), rest) =>
        let (a, b, c) := fetchGood stride bad fuel (i + 1) (if bad.contains i then got else got + 1) rest
        if bad.contains i then (a, u :: b, c) else (⟨u, 1, g⟩ :: a, b, c)

/-- A slice's cache below refill_low takes up to 64 entries from the ring (R102, R103). -/
def State.cacheRefill (s : State) (sl k : Nat) (bad : List Nat) : State :=
  let p := s.pool k
  if segCount (p.caches.get [] sl) < s.reg (POOL_CACHE_CFG_refill_low k) && decide (0 < segCount p.ring) then
    if bad.isEmpty then s.setPool k (p.refill (poolUnits k) sl)
    else
      let (good, lost, rest) := fetchGood (poolUnits k) bad (64 + bad.length) 0 0 p.ring
      let s := s.setPool k { ring := rest, caches := p.caches.put [] sl (p.caches.get [] sl ++ good) }
      let s := { s with store := { s.store with lost := s.store.lost ++ lost } }
      if lost.isEmpty then s
      else
        let s := (s.count STORE_CTR_ring_entry_errors lost.length).raise (evStore STORE_INTR_STATUS_ring_ev)
        s.setReg (POOL_LOW_WATER_low k) (min (s.reg (POOL_LOW_WATER_low k)) (s.pool k).free)
  else s

/-- A slice's cache above spill_high gives 64 entries to the ring (R102). -/
def State.cacheSpill (s : State) (sl k : Nat) : State :=
  let p := s.pool k
  if s.reg (POOL_CACHE_CFG_spill_high k) < segCount (p.caches.get [] sl) then s.setPool k (p.spill (poolUnits k) sl) else s

/-! ### Owners, scrubbing, counters (R73, R107, R117) -/

/-- POOL_OWN_CTRL.commit (R107). -/
def State.ownerCommit (s : State) (o : Nat) : State :=
  let l : Limits := { min := s.reg (POOL_OWN_MIN_min o), xon := s.reg (POOL_OWN_XON_xon o), xoff := s.reg (POOL_OWN_XOFF_xoff o),
                      ceil := s.reg (POOL_OWN_CEIL_ceil o) }
  if l.min ≤ l.xon && l.xon < l.xoff && l.xoff ≤ l.ceil && s.sumMin - (s.limits o).min + l.min ≤ s.total then
    ({ s with store := { s.store with limits := s.store.limits.put {} o l } }).usageSync o
  else s.setW1c (POOL_OWN_CTRL_cfg_err o) 1

/-- The buffer that holds a unit of the packet region, in use or free, goes out of use (R115, R117). -/
def State.retireUnit (s : State) (addr : Nat) : State :=
  match s.bufferAt addr with
  | some u => s.retire u
  | none =>
    match (List.range 6).find? (fun k => decide (s.reg (POOL_BASE_base k) ≤ addr) &&
        decide (addr < s.reg (POOL_BASE_base k) + s.reg (POOL_CFG_count k) * poolSize k)) with
    | none => s
    | some k =>
      let u := s.reg (POOL_BASE_base k) / 256 + (addr - s.reg (POOL_BASE_base k)) / poolSize k * poolUnits k
      if s.store.lost.contains u then s
      else
        let drop := fun (l : List Seg) => match l.find? (fun g => decide (g.unit ≤ u) && decide (u < g.unit + g.n * poolUnits k)) with
          | none => l
          | some g => l.flatMap (fun x => if x = g then
              ((segTake (poolUnits k) [g] ((u - g.unit) / poolUnits k)).map (·.2)).getD [g] else [x])
        let p := s.pool k
        let s := s.setPool k { ring := drop p.ring, caches := p.caches.mapVals (fun _ c => drop c) }
        let s := ({ s with store := { s.store with lost := s.store.lost ++ [u] } }).count STORE_CTR_retired_buffers
        s.setReg (POOL_LOW_WATER_low k) (min (s.reg (POOL_LOW_WATER_low k)) (s.pool k).free)

/-- A word is uncorrectable for good. -/
def State.markUe (s : State) (a : Nat) : State :=
  { s with store := { s.store with ue := if s.store.ue.contains (a / 32) then s.store.ue else s.store.ue ++ [a / 32] } }

/-- What the patrol scrubber finds in the word at `a` (R114, R117). -/
def State.scrubWord (s : State) (a : Nat) (res : EccResult) : State :=
  match res with
  | .clean => s
  | .corrected => ((s.count STORE_CTR_ce_count).raise (evStore STORE_INTR_STATUS_ce_ev)).rasCorrected
  | .uncorrectable =>
    let s := (s.markUe a).logUe a 6
    if s.flag STORE_STATUS_ready && decide (a < s.pktEnd) then s.retireUnit a else s

/-- The patrol scrubber reads the eight words of the next unit (R117). -/
def State.scrub (s : State) (res : List EccResult) : State :=
  if !s.flag STORE_CTRL_scrub_en then s
  else
    let a := s.store.scrubAt * 256
    let s := (List.range 8).foldl (fun s i => s.scrubWord (a + 32 * i) (res.getD i .clean)) (s.traffic 1 0)
    let next := s.store.scrubAt + 1
    if next * 256 = storeEnd then
      ({ s with store := { s.store with scrubAt := 0 } }).count STORE_CTR_scrub_passes
    else { s with store := { s.store with scrubAt := next } }

/-- STORE_CTR_CTRL.clear (R73): counters are zero, low-water and peak marks restart. -/
def State.storeCtrClear (s : State) : State :=
  let s := s.clearCounters (keyIn 0x1000100 0x1000150)
  let s := (List.range 6).foldl (fun s k => s.setReg (POOL_LOW_WATER_low k) (s.pool k).free) s
  (List.range 256).foldl (fun s o => s.setReg (POOL_OWN_PEAK_peak o) (s.usage o)) s

/-! ### The commands -/

def execStoreEnable (scrub : Bool) (s : State) : Host.Outcome State Fault Refusal := s.does (fun s => s.whenReady (fun s => s.storeEnable scrub))
def execStoreRegionCfgWrite (v : Nat) (s : State) : Host.Outcome State Fault Refusal := s.does (fun s => s.regionWrite v)
def execPoolCacheRefill (sl : Slice) (k : Pool) (bad : List Nat) (s : State) : Host.Outcome State Fault Refusal :=
  s.does (fun s => s.cacheRefill sl.val k.val bad)
def execPoolCacheSpill (sl : Slice) (k : Pool) (s : State) : Host.Outcome State Fault Refusal := s.does (fun s => s.cacheSpill sl.val k.val)
def execOwnerCommit (o : Fin 226) (s : State) : Host.Outcome State Fault Refusal := s.does (fun s => s.whenReady (fun s => s.ownerCommit o.val))
def execScrubRead (res : List EccResult) (s : State) : Host.Outcome State Fault Refusal := s.does (fun s => s.scrub res)
def execStoreCounterClear (s : State) : Host.Outcome State Fault Refusal := s.does (fun s => s.whenReady (fun s => s.storeCtrClear))

end Sys2Proof.Machine
end

