-- ==== Sys2Proof/Machine/Rings.lean ====
section
/-! DEFINITION. Submission and completion rings: errors, completion records, interrupts, doorbells, enables (R362–R369, R377–R381). -/

namespace Sys2Proof.Machine

def sqSize (s : State) (i : Nat) : Nat := 2 ^ s.reg (RING_SQ_CFG_log_size i)
def cqSize (s : State) (j : Nat) : Nat := 2 ^ s.reg (RING_CQ_CFG_log_size j)

def State.cq (s : State) (j : Nat) : CqSt := s.host.cqs.get {} j
def State.modCq (s : State) (j : Nat) (f : CqSt → CqSt) : State :=
  { s with host := { s.host with cqs := s.host.cqs.put {} j (f (s.cq j)) } }

/-- A descriptor in the device. -/
def State.desc (s : State) (d : Nat) : Option Desc := s.host.descs.find? d
def State.modDesc (s : State) (d : Nat) (f : Desc → Desc) : State :=
  match s.host.descs.find? d with
  | some x => { s with host := { s.host with descs := s.host.descs.insert d (f x) } }
  | none => s

def Desc.opcode (x : Desc) : Nat := byteAt x.bytes 0
def Desc.ordered (x : Desc) : Bool := bitOf (byteAt x.bytes 1) 0
def Desc.quiet (x : Desc) : Bool := bitOf (byteAt x.bytes 1) 1
def Desc.irqNow (x : Desc) : Bool := bitOf (byteAt x.bytes 1) 2
def Desc.tag (x : Desc) : Nat := leAt x.bytes 4 4

/-! ### Errors and full rings (R365, R366) -/

/-- A record has room in its CQ (R365). -/
def State.cqRoom (s : State) (j : Nat) : Bool := (s.reg (RING_CQ_STATE_tail j) + 1) % cqSize s j != s.reg (RING_CQ_STATE_head j)

/-- SQs bound to a CQ that are enabled. -/
def State.boundSqs (s : State) (j : Nat) : List Nat :=
  (List.range 1024).filter (fun i => s.flag (RING_SQ_CFG_en i) && s.reg (RING_SQ_CFG_cq i) == j)

/-- Records discarded at a CQ that is in error or disabled (R366, R381). -/
def State.discardRecs (s : State) (j : Nat) : State :=
  let n := (s.cq j).waiting.length
  if n = 0 then s else (s.modCq j (fun q => { q with waiting := [] })).count RING_CTR_records_discarded n

/-- RING_ERR_LOG is filled and the event raised (R366). -/
def State.ringLog (s : State) (i : Nat) (cq : Bool) (cause value : Nat) : State :=
  ((((((s.setReg RING_ERR_LOG_ring i).setReg RING_ERR_LOG_is_cq (bit1 cq)).setReg RING_ERR_LOG_cause cause).setReg
    RING_ERR_LOG_value value).setW1c RING_ERR_LOG_valid 1)).raise (evRing RING_INTR_STATUS_ring_err_ev)

/-- An SQ enters the error state (R366): what it has not fetched is not fetched. -/
def State.sqError (s : State) (i cause value : Nat) : State :=
  if s.flag (RING_SQ_STATE_error i) then s
  else
    let s := { s with host := { s.host with sqs := s.host.sqs.put [] i [] } }
    (s.setReg (RING_SQ_STATE_error i) 1).ringLog i false cause value

/-- cq_full_cycles adds up while some CQ holds waiting records that find no room; the SQs of such a CQ are stalled (R365). -/
def State.cqSync (s : State) (j : Nat) : State :=
  let full := s.flag (RING_CQ_CFG_en j) && !(s.cq j).waiting.isEmpty && !s.cqRoom j
  let was := s.flag (RING_CQ_STATE_full j)
  if full = was then s
  else
    let s := s.setReg (RING_CQ_STATE_full j) (bit1 full)
    let s := (s.boundSqs j).foldl (fun s i => s.setReg (RING_SQ_STATE_stalled i) (bit1 full)) s
    let s := if full then s.raise (evRing RING_INTR_STATUS_cq_full_ev) else s
    let any := (List.range 1024).any (fun k => s.flag (RING_CQ_STATE_full k))
    match s.host.fullSince, any with
    | none, true => { s with host := { s.host with fullSince := some s.clk.cyc } }
    | some t, false => ({ s with host := { s.host with fullSince := none } }).count RING_CTR_cq_full_cycles (s.clk.cyc - t)
    | _, _ => s

/-- A CQ enters the error state (R366): its held records are discarded. -/
def State.cqError (s : State) (j cause value : Nat) : State :=
  if s.flag (RING_CQ_STATE_error j) then s
  else (((s.setReg (RING_CQ_STATE_error j) 1).ringLog j true cause value).discardRecs j).cqSync j

/-! ### Completion (R364, R365, R370, R377, R379) -/

/-- A record goes to its CQ; one in error, or disabled, discards it (R366, R381). -/
def State.postRec (s : State) (j : Nat) (r : CRec) : State :=
  if s.flag (RING_CQ_CFG_en j) && !s.flag (RING_CQ_STATE_error j) then
    (s.modCq j (fun q => { q with waiting := q.waiting ++ [r] })).cqSync j
  else s.count RING_CTR_records_discarded

/-- A descriptor completes: its record, unless quiet holds it back (R370), and the descriptor is gone. -/
def State.complete (s : State) (d : Nat) (r : Report) : State :=
  match s.desc d with
  | none => s
  | some x =>
    let s := { s with host := { s.host with descs := s.host.descs.erase d } }
    let always := x.opcode == 2 || (x.opcode == 6 && byteAt x.bytes 8 == 0)
    if x.quiet && r.status == 0 && !always then s
    else
      s.stamped.postRec x.cq
        { tag := x.tag, status := r.status, opcode := x.opcode, sq := x.sq, exc := r.exc, unit := r.unit, inv := r.inv, result := r.result,
          stamp := s.now, detail := r.detail, irqNow := x.irqNow }

/-- A descriptor completes with a status alone. -/
def State.completeSt (s : State) (d status : Nat) : State := s.complete d { status := status }

/-- The 32 bytes of a record (R377). -/
def recordBytes (r : CRec) (sqHead phase : Nat) : Bytes :=
  leBytes 4 r.tag ++ leBytes 1 r.status ++ leBytes 1 r.opcode ++ leBytes 2 (r.sq % 1024 + 0x8000 * phase) ++ leBytes 2 sqHead ++
    leBytes 1 (r.exc % 32 + 32 * r.unit) ++ leBytes 1 r.inv ++ leBytes 4 r.result ++ leBytes 8 r.stamp.toNat ++ leBytes 8 r.detail

/-- A failed host access is a contained error (R359, R430): counted, and logged as a host error of the hub die. One that fails by a loss of IDE
integrity reaches the descriptors in execution too (DESIGN CHOICE: those that intake has taken and that have not completed). -/
def State.hostFail (s : State) (how : HostEnd) (index : Nat := 0) : State :=
  let s := if how = .ide then { s with host := { s.host with descs := s.host.descs.map (fun e => (e.1, { e.2 with ide := true })) } } else s
  (s.count RING_CTR_host_access_errors).rasContained 32 11 0x10 index

/-- How a host access of descriptor `d` ends that the host ends as `how`: after a loss of IDE integrity it fails (R359). -/
def State.hostEnd (s : State) (d : Option Nat) (how : HostEnd) : HostEnd :=
  if how = .done && (match d.bind s.desc with | some x => x.ide | none => false) then .error else how

/-- The CQ signals its vector when an interrupt is due and irq_en is 1 (R379); one that is due while irq_en is 0 is signalled when irq_en becomes 1
(DESIGN CHOICE). `now` makes one due whatever the count. -/
def State.cqSignal (s : State) (j : Nat) (now : Bool) : State :=
  let q := s.cq j
  if !(now || q.due || decide (max 1 (s.reg (RING_CQ_MOD_count j)) ≤ q.count)) then s
  else if s.flag (RING_CQ_CFG_irq_en j) then
    (s.modCq j (fun q => { q with count := 0, first := none, due := false })).signal (s.reg (RING_CQ_CFG_vector j))
  else s.modCq j (fun q => { q with due := q.due || now })

/-- A waiting record is written to its CQ, or the write fails (R359, R365, R366, R379). -/
def State.completionWrite (s : State) (j : Nat) (how : HostEnd) : State :=
  match (s.cq j).waiting with
  | [] => s
  | r :: rest =>
    if !s.flag (RING_CQ_CFG_en j) || s.flag (RING_CQ_STATE_error j) || !s.cqRoom j then s
    else if how ≠ .done then (s.hostFail how).cqError j 4 (s.reg (RING_CQ_STATE_tail j))
    else
      let tail := s.reg (RING_CQ_STATE_tail j)
      let phase := s.reg (RING_CQ_STATE_phase j)
      let s := s.emit (.hostWrite (s.reg (RING_CQ_BASE_base j) * 4096 + 32 * tail) (recordBytes r (s.reg (RING_SQ_STATE_head r.sq)) phase))
      let next := (tail + 1) % cqSize s j
      let s := (s.setReg (RING_CQ_STATE_tail j) next).setReg (RING_CQ_STATE_phase j) (if next = 0 then 1 - phase else phase)
      let s := (s.count RING_CTR_records_written).modCq j (fun q => { q with
        waiting := rest, count := q.count + 1, first := some (q.first.getD s.now) })
      (s.cqSync j).cqSignal j r.irqNow

/-- The moderation delay has run out (R379). -/
def State.irqDelay (s : State) (j : Nat) : State :=
  let dl := s.reg (RING_CQ_MOD_delay j)
  match (s.cq j).first with
  | some t => if dl != 0 && s.elapsed t (dl * 1000) then s.cqSignal j true else s
  | none => s

/-! ### Doorbells (R363, R366, R367, R369) -/

/-- Entries of an SQ that a tail of `v` adds, and that it leaves between head and tail. -/
def State.sqAdds (s : State) (i v : Nat) : Nat := (sqSize s i + v - s.reg (RING_SQ_STATE_tail i)) % sqSize s i
def State.sqHolds (s : State) (i v : Nat) : Nat :=
  (sqSize s i + s.reg (RING_SQ_STATE_tail i) - s.reg (RING_SQ_STATE_head i)) % sqSize s i + s.sqAdds i v

/-- Arrival numbers of source 194 for the `n` descriptors that a doorbell of SQ `i` makes visible (R367): doorbells of one HUB cycle count in
ascending ring number, so it takes the place of the first of a higher ring that has come in it and waits to be fetched. What stands there and
after it in that cycle moves behind, whatever the host has sent: waiting and fetched descriptors, seed writes, their records (R47). -/
def State.ringArrivals (s : State) (i n : Nat) : Nat × State :=
  let next := s.clk.arr.get 0 194
  let back := fun (a : Nat) => (2 ^ 32 + next - a) % 2 ^ 32
  let far : Nat := s.host.sqs.foldl (fun m q =>
    if i < q.1 then q.2.foldl (fun m v => if v.stamp == s.now then max m (back v.arr) else m) m else m) 0
  let num := fun (t : FT64) (a : Nat) => if t == s.now && decide (1 ≤ back a) && decide (back a ≤ far) then (a + n) % 2 ^ 32 else a
  ((2 ^ 32 + next - far) % 2 ^ 32, { s with
    clk := { s.clk with arr := s.clk.arr.put 0 194 ((next + n) % 2 ^ 32) }
    host := { s.host with
      sqs := s.host.sqs.map (fun q => (q.1, q.2.map (fun v => { v with arr := num v.stamp v.arr })))
      descs := s.host.descs.map (fun e => (e.1, if e.2.replayed then e.2 else { e.2 with arr := num e.2.stamp e.2.arr }))
      seeds := s.host.seeds.map (fun w => { w with arr := num w.stamp w.arr }) }
    sbk := { s.sbk with staged := s.sbk.staged.map (fun r => if r.src = 194 then { r with arr := num r.stamp r.arr } else r) } })

/-- What RING_ERR_LOG and ring_err_ev hold. -/
def State.ringErrNow (s : State) : List Nat :=
  [s.reg RING_ERR_LOG_ring, s.reg RING_ERR_LOG_is_cq, s.reg RING_ERR_LOG_cause, s.reg RING_ERR_LOG_value, s.reg RING_ERR_LOG_valid,
    s.reg RING_INTR_STATUS_ring_err_ev]

/-- A tail doorbell of SQ `i` has come in this TIME cycle; `err` tells one that puts the ring into the error state. -/
def State.noteBell (s : State) (i : Nat) (err : Bool) : State :=
  let b := s.host.bells.get {} i
  let b := if b.cyc = s.clk.cyc then b else { cyc := s.clk.cyc, tail := s.reg (RING_SQ_STATE_tail i) }
  { s with host := { s.host with bells := s.host.bells.put {} i { b with n := b.n + 1, log := if err then some s.ringErrNow else b.log } } }

/-- A disable in the TIME cycle of doorbells of its SQ prevails over them: they count as ignored, and the tail and the error log are as before
(R381). -/
def State.undoBells (s : State) (i : Nat) : State :=
  let b := s.host.bells.get {} i
  if b.cyc ≠ s.clk.cyc || b.n = 0 then s
  else
    let s := { s with host := { s.host with bells := s.host.bells.erase i } }
    let s := (s.count RING_CTR_doorbell_ignored b.n).setReg (RING_SQ_STATE_tail i) b.tail
    match b.log with
    | some l =>
      ([RING_ERR_LOG_ring, RING_ERR_LOG_is_cq, RING_ERR_LOG_cause, RING_ERR_LOG_value, RING_ERR_LOG_valid, RING_INTR_STATUS_ring_err_ev].zip l).foldl
        (fun s x => s.setReg x.1 x.2) s
    | none => s

/-- An SQ tail doorbell: it makes descriptors visible and stamps them. One that would leave 2^s entries or more between head and tail stops
the queue (R4, R364; DESIGN CHOICE: of the outcomes of R4 the error state of R366, logged as a tail out of range). -/
def State.sqDoorbell (s : State) (i v : Nat) : State :=
  let v := v % 65536
  if !s.flag (RING_SQ_CFG_en i) then s.count RING_CTR_doorbell_ignored
  else if s.flag (RING_SQ_STATE_error i) then s.noteBell i false
  else if sqSize s i ≤ v || decide (sqSize s i ≤ s.sqHolds i v) then (s.noteBell i true).sqError i 1 v
  else
    let n := s.sqAdds i v
    let s := (s.noteBell i false).setReg (RING_SQ_STATE_tail i) v
    let s := if s.flag HUB_STATUS_ready || i = 0 then s else s.setReg (RING_SQ_STATE_held i) 1
    if n = 0 then s
    else
      let (arr, s) := s.ringArrivals i n
      { s with host := { s.host with sqs := s.host.sqs.put [] i (s.host.sqs.get [] i ++ [{ n := n, stamp := s.now, arr := arr }]) } }

/-- A CQ head doorbell: entries are free again (R363, R366). -/
def State.cqDoorbell (s : State) (j v : Nat) : State :=
  let v := v % 65536
  if !s.flag (RING_CQ_CFG_en j) then s.count RING_CTR_doorbell_ignored
  else if s.flag (RING_CQ_STATE_error j) then s
  else
    let s := s.modCq j (fun q => { q with bell := (s.clk.cyc, if q.bell.1 = s.clk.cyc then q.bell.2 + 1 else 1) })
    let sz := cqSize s j
    let head := s.reg (RING_CQ_STATE_head j)
    let span := (sz + s.reg (RING_CQ_STATE_tail j) - head) % sz
    if sz ≤ v || span < (sz + v - head) % sz then s.cqError j 2 v
    else (s.setReg (RING_CQ_STATE_head j) v).cqSync j

/-! ### Enabling and disabling (R362, R366, R381) -/

/-- The CQ field of RING_SQ_CFG takes a written value, whatever en is (R8): the ring waits with its CQ (R365). -/
def State.sqBind (s : State) (i cq : Nat) : State :=
  let s := s.setReg (RING_SQ_CFG_cq i) cq
  if s.flag (RING_SQ_CFG_en i) then s.setReg (RING_SQ_STATE_stalled i) (s.reg (RING_CQ_STATE_full cq)) else s

/-- RING_SQ_CFG written with en 1 (R362). For a ring that is enabled the size is not taken; a CQ that is not enabled is an error of the
configuration there too, and en stays as it is (DESIGN CHOICE). -/
def State.sqEnable (s : State) (i v : Nat) : State :=
  if s.flag (RING_SQ_CFG_en i) then
    let s := s.sqBind i (bits v 8 10)
    if s.flag (RING_CQ_CFG_en (bits v 8 10)) then s else s.raise (evRing RING_INTR_STATUS_cfg_err_ev)
  else
    let s := (s.setReg (RING_SQ_CFG_log_size i) (bits v 1 4)).setReg (RING_SQ_CFG_cq i) (bits v 8 10)
    if !s.flag (RING_CQ_CFG_en (bits v 8 10)) || bits v 1 4 < 4 then s.raise (evRing RING_INTR_STATUS_cfg_err_ev)
    else
      let s := ((s.setReg (RING_SQ_CFG_en i) 1).setReg (RING_SQ_STATE_head i) 0).setReg (RING_SQ_STATE_tail i) 0
      let s := { s with host := { s.host with sqs := s.host.sqs.put [] i [] } }
      let s := (s.setReg (RING_SQ_STATE_error i) 0).setReg (RING_SQ_STATE_held i) (bit1 (!s.flag HUB_STATUS_ready && i != 0))
      s.setReg (RING_SQ_STATE_stalled i) (s.reg (RING_CQ_STATE_full (bits v 8 10)))

/-- RING_SQ_CFG written with en 0: fetched descriptors still complete, and doorbells of the same cycle are ignored (R381). -/
def State.sqDisable (s : State) (i v : Nat) : State :=
  if s.flag (RING_SQ_CFG_en i) then
    let s := s.undoBells i
    let s := { s with host := { s.host with sqs := s.host.sqs.put [] i [] } }
    ((((s.setReg (RING_SQ_CFG_en i) 0).setReg (RING_SQ_STATE_error i) 0).setReg (RING_SQ_STATE_stalled i) 0).setReg (RING_SQ_STATE_held i) 0).sqBind i
      (bits v 8 10)
  else (s.setReg (RING_SQ_CFG_log_size i) (bits v 1 4)).setReg (RING_SQ_CFG_cq i) (bits v 8 10)

/-- An interrupt that has come due is signalled, as irq_en becomes 1 or as RING_CQ_MOD asks for fewer records (R379). -/
def State.cqDue (s : State) (j : Nat) : State := if s.flag (RING_CQ_CFG_en j) && (s.cq j).first.isSome then s.cqSignal j false else s

/-- Fields of RING_CQ_CFG that a write sets whatever en is. -/
def State.cqIrq (s : State) (j v : Nat) : State :=
  ((s.setReg (RING_CQ_CFG_vector j) (bits v 8 6)).setReg (RING_CQ_CFG_irq_en j) (bits v 14 1)).cqDue j

/-- RING_CQ_CFG written with en 1. -/
def State.cqEnable (s : State) (j v : Nat) : State :=
  if s.flag (RING_CQ_CFG_en j) then s.cqIrq j v
  else if bits v 1 4 < 4 then (s.setReg (RING_CQ_CFG_log_size j) (bits v 1 4)).cqIrq j v
  else
    let s := ((s.setReg (RING_CQ_CFG_log_size j) (bits v 1 4)).cqIrq j v).setReg (RING_CQ_CFG_en j) 1
    let s := ((s.setReg (RING_CQ_STATE_head j) 0).setReg (RING_CQ_STATE_tail j) 0).setReg (RING_CQ_STATE_phase j) 1
    (s.setReg (RING_CQ_STATE_error j) 0).modCq j (fun _ => {})

/-- RING_CQ_CFG written with en 0: waiting records are discarded, and the SQs bound to it enter the error state; doorbells of the same cycle
count as ignored (R381). -/
def State.cqDisable (s : State) (j v : Nat) : State :=
  if s.flag (RING_CQ_CFG_en j) then
    let s := if (s.cq j).bell.1 = s.clk.cyc then s.count RING_CTR_doorbell_ignored (s.cq j).bell.2 else s
    let lost := !(s.cq j).waiting.isEmpty
    let bound := s.boundSqs j
    let s := (((s.discardRecs j).setReg (RING_CQ_CFG_en j) 0).cqIrq j v).cqSync j
    let s := (s.setReg (RING_CQ_STATE_error j) 0).modCq j (fun _ => {})
    if lost then bound.foldl (fun s i => s.sqError i 4 j) s else s
  else ((s.setReg (RING_CQ_CFG_log_size j) (bits v 1 4))).cqIrq j v

/-- RING_CTR_CLEAR (R73): a full CQ counts on from now. -/
def State.ringCtrClear (s : State) : State :=
  { s.clearCounters (keyIn 0x300100 0x300130) with host := { s.host with fullSince := s.host.fullSince.map (fun _ => s.clk.cyc) } }

/-- A write to doorbell page `i`: its two registers, and nothing at any other offset (R363). -/
def State.pageWrite (s : State) (i off v : Nat) : State :=
  if off = 0 then s.sqDoorbell i v else if off = 8 then s.cqDoorbell i v else s

/-- A read of a doorbell page returns zero at every offset, and changes nothing (R363). -/
def State.pageRead (_s : State) (_i _off : Nat) : Nat := 0

/-! ### The commands -/

def execSqTailDoorbell (i : Ring) (v : Nat) (s : State) : Host.Outcome State Fault Refusal := s.does (fun s => s.pageWrite i.val 0 v)
def execCqHeadDoorbell (i : Ring) (v : Nat) (s : State) : Host.Outcome State Fault Refusal := s.does (fun s => s.pageWrite i.val 8 v)
def execCompletionWrite (j : Ring) (how : HostEnd) (s : State) : Host.Outcome State Fault Refusal :=
  s.does (fun s => s.completionWrite j.val how)
def execCqIrqDelayExpire (j : Ring) (s : State) : Host.Outcome State Fault Refusal := s.does (fun s => s.irqDelay j.val)
def execSqEnable (i : Ring) (v : Nat) (s : State) : Host.Outcome State Fault Refusal := s.does (fun s => s.sqEnable i.val v)
def execSqDisable (i : Ring) (v : Nat) (s : State) : Host.Outcome State Fault Refusal := s.does (fun s => s.sqDisable i.val v)
def execCqEnable (j : Ring) (v : Nat) (s : State) : Host.Outcome State Fault Refusal := s.does (fun s => s.cqEnable j.val v)
def execCqDisable (j : Ring) (v : Nat) (s : State) : Host.Outcome State Fault Refusal := s.does (fun s => s.cqDisable j.val v)
def execRingCounterClear (s : State) : Host.Outcome State Fault Refusal := s.does State.ringCtrClear

end Sys2Proof.Machine
end

