-- ==== Sys2Proof/Machine/Operands.lean ====
section
/-! DEFINITION. Instruction words and operands: the fields of R178–R206, the checks of R145, where an operand lies, and the
checked reads and writes of a repeat (R150–R152, R181–R185). -/

namespace Sys2Proof.Machine

/-! ### Fields of an instruction word (R178–R181, R186) -/

def iOp (w : Nat) : Nat := bits w 0 8
def iFa (w : Nat) : Nat := bits w 8 4
def iFd (w : Nat) : Nat := bits w 12 4

/-- The queue of an engine opcode (R179). -/
def iQueue (w : Nat) : Nat := bits w 4 4 - 1

/-- An engine opcode (R179). -/
def isEngine (op : Nat) : Bool := [0x10, 0x11, 0x12, 0x20, 0x21, 0x30, 0x31, 0x32, 0x33, 0x40, 0x41, 0x42, 0x50, 0x51, 0x52].contains op

/-- Operand slots A, B, D. -/
def slotA (w : Nat) : Nat := bits w 35 23
def slotB (w : Nat) : Nat := bits w 58 23
def slotD (w : Nat) : Nat := bits w 81 23
def slReg (t : Nat) : Nat := bits t 0 4
def slSpace (t : Nat) : Nat := bits t 4 2
def slUpd (t : Nat) : Bool := bitOf t 6
def slStride (t : Nat) : Nat := bits t 7 16

/-- Byte stride of a slot (R181). -/
def strideOf (w t : Nat) : Int :=
  signed 16 (slStride t) * ((match bits w 33 2 with | 0 => 1 | 1 => 32 | 2 => 256 | _ => 4096 : Nat) : Int)

/-- Repeat count from the counter value `cnt` that the entry saw (R180, R183). -/
def repeats (w cnt : Nat) : Nat := if bitOf w 16 then cnt else bits w 17 16 + 1

/-! Fields of mod, by absolute bit number. -/

def gmaskOf (w : Nat) : Nat := bits w 104 16
def bankOf (w : Nat) : Nat := bits w 120 2
def rndOf (w : Nat) : Nat := if iOp w = 0x12 then bits w 122 3 else bits w 109 3

/-- Tiles of a gmask in ascending logical number. -/
def tilesOf (g : Nat) : List Nat := ((List.range 16).filter (bitOf g)).flatMap (fun k => (List.range 16).map (fun j => 16 * k + j))

/-! ### The image (R144, R145) -/

def hLength (h : Bytes) : Nat := leAt h 0 4
def hMode (h : Bytes) : Nat := byteAt h 4
def hQueues (h : Bytes) : Nat := byteAt h 5
def hTiles (h : Bytes) : Nat := leAt h 6 2
def hClaim (h : Bytes) : Nat := leAt h 8 6
def hShare (h : Bytes) : Nat := leAt h 16 6

/-- Every header field is in its range (R144). -/
def headerOk (h : Bytes) : Bool :=
  let n := hLength h
  decide (1 ≤ n) && decide (n ≤ 16384) && decide (hMode h ≤ 1) && decide (hQueues h < 32) && leAt h 14 2 == 0 &&
    leAt h 22 42 == 0 && (hClaim h &&& hShare h) == 0

/-- The instructions of an image. -/
def imageWords (n : Nat) (b : Bytes) : List Nat := (List.range n).map (fun i => leAt b (16 * i) 16)

/-- A mask lies within another. -/
def within (m all : Nat) : Bool := (m &&& all) == m

/-- A sequencer instruction has no reserved code and no nonzero reserved field (R186, R187). -/
def seqWordOk (h : Bytes) (w : Nat) : Bool :=
  let pips := hClaim h ||| hShare h
  match iOp w with
  | 0x01 => bits w 39 89 == 0 && (!bitOf w 10 || bits w 14 13 == 0)
  | 0x02 => bits w 12 116 == 0
  | 0x03 =>
    let dc := bits w 8 2
    let op := bits w 14 2
    dc != 3 && (dc != 1 || !bitOf w 13) && bits w 22 10 == 0 && bits w 80 48 == 0 &&
      (if op < 2 then bits w 16 6 == 0 && (dc == 0 || bits w 64 16 == (if bitOf w 63 then 0xFFFF else 0))
       else bits w 32 48 == 0 && bits w 16 2 != 3 && (bits w 16 2 != 1 || !bitOf w 21))
  | 0x04 =>
    decide (bits w 10 3 ≤ 5) && (bitOf w 13 || !bitOf w 17) && bits w 24 8 == 0 && bits w 64 64 == 0 &&
      (if bitOf w 18 then bits w 19 5 == 0 else bitOf w 19 || !bitOf w 23)
  | 0x05 =>
    let q := bits w 16 3
    decide (bits w 8 6 < 48) && (q == 7 || (decide (q ≤ 4) && bitOf (hQueues h) q)) && bits w 19 109 == 0
  | 0x06 => bits w 8 48 != 0 && within (bits w 8 48) pips && bits w 56 72 == 0
  | 0x07 => bits w 8 48 != 0 && within (bits w 8 48) pips && bits w 58 70 == 0
  | 0x08 => bits w 8 48 != 0 && within (bits w 8 48) pips && bits w 56 5 != 0 && bits w 61 67 == 0
  | 0x09 => bits w 8 4 != 0 && bits w 48 80 == 0
  | _ => false

/-- A slot in use: its space is permitted, and a buffer operand neither advances nor strides where it may not (R181). -/
def slotOk (t : Nat) (spaces : List Nat) (strides : Bool) : Bool :=
  spaces.contains (slSpace t) && (slSpace t != 3 || (!slUpd t && (strides || slStride t == 0)))

def floatFmts : List Nat := [0, 1, 2, 3, 4, 5, 6, 7, 8, 9]
def intFmts : List Nat := [0xA, 0xB, 0xC, 0xD]
def mxFmts : List Nat := [5, 6, 7, 8, 9]
def mmaFloat : List Nat := [1, 2, 3, 4, 5, 6, 7, 8, 9]
def mmaInt : List Nat := [0xC, 0xD]
def eagerFmts : List Nat := [0, 1, 3, 4, 5, 6, 0xA, 0xB, 0xC]
def anchorFmts : List Nat := [1, 3, 4, 5, 6]

/-- Operation of vop takes B (R195). -/
def vopBinary (op : Nat) : Bool := decide (op ≤ 5) || decide (13 ≤ op)

/-- Formats of a vop operation (R195). -/
def vopFmts (op : Nat) : List Nat :=
  if op = 6 then floatFmts ++ intFmts ++ [0xE]
  else if 8 ≤ op && op ≤ 11 then floatFmts
  else if 13 ≤ op then intFmts else floatFmts ++ intFmts

/-- An engine instruction is one that R180–R206 and R215 allow. -/
def engineWordOk (h : Bytes) (w : Nat) : Bool :=
  let a := slotA w
  let b := slotB w
  let d := slotD w
  let fa := iFa w
  let fd := iFd w
  let ss := [0, 1]
  let noFmt := fa == 0 && fd == 0
  let none := fun (t : Nat) => t == 0
  (!bitOf w 16 || bits w 20 13 == 0) && bitOf (hQueues h) (iQueue w) &&
  match iOp w with
  | 0x10 =>
    let sp := bits w 122 2
    let mx := bitOf w 124
    bits w 125 3 == 0 && sp != 3 && within (gmaskOf w) (hTiles h) && none d && slotOk a ss false && slotOk b ss false &&
      ((mmaFloat.contains fa && mmaFloat.contains fd) || (mmaInt.contains fa && mmaInt.contains fd)) &&
      (!mx || (mxFmts.contains fa && mxFmts.contains fd)) && (sp == 0 || slStride b == 0)
  | 0x11 => bits w 122 6 == 0 && noFmt && none a && none b && none d && within (gmaskOf w) (hTiles h)
  | 0x12 =>
    let rnd := rndOf w
    within (gmaskOf w) (hTiles h) && decide (rnd ≤ 4) && (fa == 1 || fa == 0xA) && decide (1 ≤ fd) && decide (fd ≤ 0xD) &&
      (!bitOf w 126 || mxFmts.contains fd) && (if bitOf w 125 then slotOk a ss false else none a) && slotOk d ss false &&
      (if rnd = 4 then bits b 4 19 == 0 else none b)
  | 0x20 =>
    let op := bits w 104 5
    decide (op ≤ 15) && decide (rndOf w ≤ 4) && bits w 120 8 == 0 && (rndOf w == 4 || bits w 116 4 == 0) &&
      (vopFmts op).contains fa && (vopFmts op).contains fd && slotOk a ss false && slotOk d ss false &&
      (if vopBinary op then slotOk b ss false else none b)
  | 0x21 =>
    let op := bits w 104 4
    let cls := bits w 108 2
    let wt := bitOf w 110
    bits w 111 17 == 0 && slotOk a ss false && slotOk d [1] false && (if wt || cls != 0 then slotOk b ss false else none b) &&
      (match cls with
       | 0 => if wt then op == 0 && anchorFmts.contains fa && fd == 1 else decide (op ≤ 2) && fa == fd && eagerFmts.contains fa
       | 1 => !wt && op == 0 && anchorFmts.contains fa && fd == 0
       | 2 => !wt && op == 0 && fa == 0 && anchorFmts.contains fd
       | _ => false)
  | 0x30 => bits w 111 17 == 0 && noFmt && bits w 108 2 != 3 && slotOk a [1] false && none b && slotOk d [1] false
  | 0x31 =>
    bits w 120 8 == 0 && [1, 3, 4].contains fa && fd == 0 && decide (bits w 104 3 ≤ bits w 107 12) && slotOk a [1] false &&
      slotOk d [1] false && (if bitOf w 119 then slotOk b [1] false else none b)
  | 0x32 =>
    bits w 120 8 == 0 && noFmt && decide (bits w 104 3 ≤ 5) && bits w 107 2 != 3 && slotOk a [1] false && none b &&
      slotOk d [1] false && slStride d == 0
  | 0x33 =>
    bits w 126 2 == 0 && noFmt && slotOk a [1] false && slotOk d [1] false &&
      (if bitOf w 121 then slotOk b [1] false else none b && bits w 122 4 == 0)
  | 0x40 =>
    noFmt && slotOk a [0, 1, 2, 3] true && none b && slotOk d [0, 1, 2, 3] true &&
      (bits w 116 12 == 0 || slSpace a == 3 || slSpace d == 3)
  | 0x41 => bits w 124 4 == 0 && noFmt && slotOk a [0, 1, 2] false && slotOk b [1] false && slotOk d [1] false && !slUpd a
  | 0x42 => bits w 124 4 == 0 && noFmt && slotOk a [1] false && slotOk b [1] false && slotOk d [0, 1, 2] false && !slUpd d
  | 0x50 =>
    bits w 123 5 == 0 && noFmt && bits w 104 3 != 7 && (bitOf w 107 || bits w 108 4 == 0) && slotOk a [1, 3] true &&
      slotOk b [1, 3] true && none d
  | 0x51 =>
    let hold := bitOf w 104
    let apip := bits w 105 6
    noFmt && (apip == 63 || decide (apip < 48)) &&
      slotOk a (if hold then [3] else [1, 3]) (!hold) && none b && slotOk d [1] false
  | 0x52 => bits w 104 24 == 0 && noFmt && slotOk a [3] false && none b && none d
  | _ => false

/-- One instruction passes the checks of R145 that need no other. -/
def wordOk (h : Bytes) (w : Nat) : Bool := if isEngine (iOp w) then engineWordOk h w else seqWordOk h w

/-- Loops nest as R154 and R156 ask: `open_` holds (register, index of the last body instruction), innermost first. -/
def loopsOk (n : Nat) : List Nat → Nat → List (Nat × Nat) → Bool
  | [], _, _ => true
  | w :: r, i, open_ =>
    let act := open_.filter (fun e => decide (i ≤ e.2))
    match iOp w with
    | 1 =>
      let last := i + bits w 27 12 + 1
      decide (last < n) && act.all (fun e => decide (last ≤ e.2) && e.1 != bits w 8 2) && loopsOk n r (i + 1) ((bits w 8 2, last) :: act)
    | 2 => act.any (fun e => e.1 == bits w 8 2) && loopsOk n r (i + 1) act
    | _ => loopsOk n r (i + 1) act

/-- The image passes every check of R145. -/
def imageOk (h : Bytes) (ws : List Nat) : Bool := headerOk h && ws.all (wordOk h) && loopsOk ws.length ws 0 []

/-- Every pset to the context's own core names a pip of the header (R146). -/
def psetsOk (h : Bytes) (core : Nat) (ws : List Nat) : Bool :=
  ws.all (fun w => iOp w != 5 || bits w 14 2 != core || bitOf (hClaim h ||| hShare h) (bits w 8 6))

/-! ### Where an operand lies (R150, R151, R182) -/

/-- An operand's place: its space, its address, window offset or offset in the buffer, and the buffer's handle. -/
structure Loc where
  space : Nat
  addr : Int
  handle : Option Nat := none
  deriving DecidableEq, Repr

/-- The place of slot `t` whose register held `a` (and its x register `x`): `i` strides and `off` bytes on. -/
def locOf (w t a x i off : Nat) : Loc :=
  let step : Int := i * strideOf w t + off
  if slSpace t = 3 then ⟨3, step, if x / 2 ^ 11 = 0 then some (a + x * 2 ^ 48) else none⟩
  else ⟨slSpace t, ((a : Int) + step) % ((2 ^ 48 : Nat) : Int), none⟩

/-- An operand of a repeat as its checks see it: place, bytes, alignment. -/
structure Use where
  loc : Loc
  n : Nat
  align : Nat := 32
  deriving DecidableEq, Repr

/-- A misaligned operand (R152). -/
def Use.misaligned (u : Use) : Bool := decide (1 < u.align) && u.loc.addr % (u.align : Int) != 0

def stAlign : Nat := 0x40
def stScratchRange : Nat := 0x41
def stTileFault : Nat := 0x42
def stResourceBusy : Nat := 0x43
def stFrameLength : Nat := 0x44
def stRepeatRange : Nat := 0x45
def stBadHandle : Nat := 0x46
def stBankKind : Nat := 0x47
def stSparseDesc : Nat := 0x48

/-- An operand beyond its space (R96, R152); nothing of length zero is. -/
def State.useRange (s : State) (k : Ctx) (u : Use) : Option Nat :=
  if u.n = 0 then none
  else match u.loc.space with
    | 0 => s.rangeCheck u.loc.addr.toNat u.n [.program]
    | 1 => if u.loc.addr + u.n ≤ k.winLen then none else some stScratchRange
    | 2 => if u.loc.addr + u.n ≤ k.hostLen then none else some stScratchRange
    | _ => none

/-- The buffer of a buffer operand, when the context holds it and the access lies within it (R182). -/
def State.useUnit (s : State) (k : Ctx) (u : Use) : Option Nat :=
  match u.loc.handle.bind s.handleUnit with
  | none => none
  | some unit =>
    match s.store.bufs.find? unit with
    | none => none
    | some b => if k.held.contains unit && decide (0 ≤ u.loc.addr) && decide (u.loc.addr + u.n ≤ poolSize b.pool) then some unit else none

/-- The checks of R185 on the operands of a repeat: alignment, then range, then handles; the first that fails. -/
def State.useChecks (s : State) (k : Ctx) (us : List Use) : Option Nat :=
  if us.any Use.misaligned then some stAlign
  else match us.findSome? (s.useRange k) with
    | some e => some e
    | none => if us.any (fun u => u.loc.space == 3 && (s.useUnit k u).isNone) then some stBadHandle else none

/-! ### Reading and writing operands (R98, R115, R184, R431) -/

/-- An uncorrectable word of channel scratch (R430, R431). -/
def State.scratchUe (s : State) (ch : Nat) : State := s.rasContained (ch / 2) 1 stMemUncorrectable ch

/-- Units of 256 bytes that an access of an engine to the store touches are counted (R342); which engine it was makes no difference to their
power, so they stand under one key. -/
def State.storeEvent (s : State) (ch a n : Nat) : State := (s.event ch 7 9 (unitsAt a n)).traffic 0 (unitsAt a n)

/-- Store address of an operand that lies in the store or in a buffer. -/
def State.useAddr (s : State) (k : Ctx) (u : Use) : Nat :=
  if u.loc.space = 3 then (s.useUnit k u).getD 0 * 256 + u.loc.addr.toNat else u.loc.addr.toNat

/-- Bytes of an operand that has passed its checks. `host` is what the host returned for a host operand (R359). -/
def State.useRead (s : State) (ch : Nat) (k : Ctx) (host : HostData) (u : Use) : Except Nat Bytes × State :=
  if u.n = 0 then (.ok [], s)
  else match u.loc.space with
    | 1 =>
      let a := k.win + u.loc.addr.toNat
      let c := s.chan ch
      if c.scratchUe.any (fun w => decide (w * 32 < a + u.n) && decide (a < w * 32 + 32)) then (.error stMemUncorrectable, s.scratchUe ch)
      else (.ok (Mem.read c.scratch a u.n), s.event ch 6 8 (ceilDiv u.n 32))
    | 2 =>
      match host, s.hostEnd k.d host.how with
      | .ok b, .done => (.ok (padTo u.n (b.take u.n)), s)
      | _, how => (.error stHostAccess, s.hostFail how ch)
    | _ =>
      let a := s.useAddr k u
      match (s.badWords a u.n).head? with
      | some w => (.error stMemUncorrectable, if u.loc.space = 3 then (s.logUe (w * 32) 2).retire ((s.useUnit k u).getD 0) else s.logUe (w * 32) 2)
      | none => (.ok (s.storeRead a u.n), s.storeEvent ch a u.n)

/-- Bytes written over an operand that has passed its checks. -/
def State.useWrite (s : State) (ch : Nat) (k : Ctx) (u : Use) (b : Bytes) : Option Nat × State :=
  if b.isEmpty then (none, s)
  else match u.loc.space with
    | 1 =>
      let a := k.win + u.loc.addr.toNat
      let c := s.chan ch
      let e := a + b.length
      if c.scratchUe.any (fun w => decide (w * 32 < e) && decide (a < w * 32 + 32) && (decide (w * 32 < a) || decide (e < w * 32 + 32))) then
        (some stMemUncorrectable, s.scratchUe ch)
      else
        (none, (s.modChan ch (fun c => { c with
          scratch := Mem.write c.scratch a b, scratchUe := c.scratchUe.filter (fun w => !(decide (a ≤ w * 32) && decide (w * 32 + 32 ≤ e))) })).event
            ch 6 8 (ceilDiv b.length 32))
    | 2 => (none, s.emit (.hostWrite (k.host + u.loc.addr.toNat) b))
    | _ =>
      let a := s.useAddr k u
      match s.partialUe a b.length with
      | some w => (some stMemUncorrectable, if u.loc.space = 3 then (s.logUe (w * 32) 2).retire ((s.useUnit k u).getD 0) else s.logUe (w * 32) 2)
      | none => (none, (s.storeWrite a b).storeEvent ch a b.length)

end Sys2Proof.Machine
end

