-- ==== Sys2Proof/Machine/Sha3.lean ====
section
/-! DEFINITION. SHA3-512 (FIPS 202), by which images, bundles and certificates are measured (R320, R322, R323, R384–R395). The round constants
and the rotations are formed as the standard forms them, from its shift register and its walk over the lanes. -/

namespace Sys2Proof.Machine

/-- A 64-bit lane rotated left. -/
def rotl64 (x n : Nat) : Nat := (x * 2 ^ n % 2 ^ 64) ||| (x / 2 ^ (64 - n))

/-- The shift register of rc (algorithm 5): one step. -/
def rcStep (r : Nat) : Nat := if r < 128 then 2 * r else (2 * r) ^^^ 0x171

/-- The constant that iota adds in a round, whose seven bits the register gives in turn, and the register after them (algorithm 6). -/
def rcDraw : Nat → Nat → Nat → Nat × Nat
  | 0, _, r => (0, r)
  | n + 1, j, r =>
    let (v, r') := rcDraw n (j + 1) (rcStep r)
    (v + (if r % 2 = 1 then 2 ^ (2 ^ j - 1) else 0), r')

/-- How far rho turns lane (x, y): the walk from (1, 0) reaches it at step t and turns it by (t + 1)(t + 2) / 2 (algorithm 2). -/
def rhoTurn (x y : Nat) : Nat → Nat → Nat → Nat → Nat
  | 0, _, _, _ => 0
  | n + 1, t, u, v => if u = x ∧ v = y then (t + 1) * (t + 2) / 2 % 64 else rhoTurn x y n (t + 1) v ((2 * u + 3 * v) % 5)

/-- Parity of column x. -/
def column (a : List Nat) (x : Nat) : Nat := ((a.drop x).zipIdx.filter (fun e => e.2 % 5 = 0)).foldl (fun p e => p ^^^ e.1) 0

/-- Theta: each lane meets the parities of the columns beside its own. -/
def theta (a : List Nat) : List Nat :=
  a.zipIdx.map (fun e => e.1 ^^^ column a ((e.2 + 4) % 5) ^^^ rotl64 (column a ((e.2 + 1) % 5)) 1)

/-- Rho and pi: the lane that comes to (x, y) was at (x + 3y, x), turned there. -/
def rhoPi (a : List Nat) : List Nat :=
  (List.range 25).map (fun i =>
    let u := (i % 5 + 3 * (i / 5)) % 5
    let v := i % 5
    rotl64 (a.getD (u + 5 * v) 0) (rhoTurn u v 24 0 1 0))

/-- Chi on one row. -/
def chiRow (r : List Nat) : List Nat :=
  ((r.zip (r.drop 1 ++ r.take 1)).zip (r.drop 2 ++ r.take 2)).map (fun t => t.1.1 ^^^ ((2 ^ 64 - 1 - t.1.2) &&& t.2))

/-- Chi, row by row. -/
def chi : Nat → List Nat → List Nat
  | 0, _ => []
  | n + 1, a => chiRow (a.take 5) ++ chi n (a.drop 5)

/-- Rounds of Keccak-f[1600], the register of the constants going along. -/
def keccak : Nat → Nat → List Nat → List Nat
  | 0, _, a => a
  | n + 1, r, a =>
    let (c, r') := rcDraw 7 0 r
    keccak n r' ((chi 5 (rhoPi (theta a))).modify 0 (· ^^^ c))

/-- A message, padded to whole blocks of 72 bytes, is absorbed block by block. -/
def absorb : Nat → Bytes → List Nat → List Nat
  | 0, _, a => a
  | n + 1, b, a => absorb n (b.drop 72) (keccak 24 1 (a.zipIdx.map (fun e => if e.2 < 9 then e.1 ^^^ leAt b (8 * e.2) 8 else e.1)))

/-- The 64-byte digest. -/
def sha3 (b : Bytes) : Bytes :=
  let n := b.length / 72 + 1
  let fill := padTo (72 * n) (b ++ [0x06])
  let last := fill.modify (72 * n - 1) (· ||| 0x80)
  ((absorb n last (List.replicate 25 0)).take 8).flatMap (leBytes 8)

end Sys2Proof.Machine
end

