-- ==== Sys2Proof/Machine/Sequencer.lean ====
section
/-! DEFINITION. Contexts, queues, pips, faults and the commands of the sequencer (chapter 07, R186–R189). -/

namespace Sys2Proof.Machine

/-! ### Registers and program flow (R149, R153–R156) -/

/-- A register of class 0 a, 1 c, 2 x. -/
def Ctx.reg (k : Ctx) (cls n : Nat) : Nat :=
  match cls with
  | 0 => k.a.get 0 n
  | 1 => k.c.get 0 n
  | _ => k.x.get 0 n

/-- A register written, wrapping at its width. -/
def Ctx.setReg (k : Ctx) (cls n v : Nat) : Ctx :=
  match cls with
  | 0 => { k with a := k.a.put 0 n (v % 2 ^ 48) }
  | 1 => { k with c := k.c.put 0 n (v % 2 ^ 32) }
  | _ => { k with x := k.x.put 0 n (v % 2 ^ 32) }

/-- The sequencer goes on at `next`: a loop whose body ends there runs again or is left. `fuel` is the number of loops. -/
def Ctx.goto (k : Ctx) (next : Nat) : Nat → Ctx
  | 0 => { k with pc := next }
  | fuel + 1 =>
    match k.loops with
    | l :: r =>
      if next = l.last + 1 then
        (if 1 < l.left then { k with pc := l.first, loops := { l with left := l.left - 1 } :: r }
         else Ctx.goto { k with loops := r } next fuel)
      else { k with pc := next }
    | [] => { k with pc := next }

/-- The instruction after the present one. -/
def Ctx.forward (k : Ctx) : Ctx := k.goto (k.pc + 1) k.loops.length

/-- The instruction at the pc, while there is one. -/
def Ctx.word (k : Ctx) : Option Nat := if k.pc < k.prog.length then some (k.prog.getD k.pc 0) else none

/-- A queue. -/
def Ctx.queue (k : Ctx) (q : Nat) : List Entry := k.q.get [] q

/-- Every queue is empty. -/
def Ctx.idleQueues (k : Ctx) : Bool := (List.range 5).all (fun q => (k.queue q).isEmpty)

/-- The context runs entries: RUN, WAIT or DRAIN. -/
def Ctx.running (k : Ctx) : Bool := k.st == .run || k.st == .wait || k.st == .drain

/-- SEQ or CORE cycles in `n` TIME cycles (R19). -/
def coreCycles (n : Nat) : Nat := n * 5 / 4

/-- The core of a context is in solo mode (R141). -/
def State.solo (s : State) (cx : Nat) : Bool := bitOf (s.reg (CH_CORE_CFG_solo (chOf cx))) (coreOf cx)

/-! ### Waiting and waking (R143, R158, R165) -/

/-- A context waits: kind 1 pwait, 2 full queue. -/
def State.waitOn (s : State) (cx kind : Nat) : State :=
  s.modCtx cx (fun k => { k with st := .wait, waits := kind, waitSince := s.clk.cyc, waitAt := s.now })

/-- The context waits on a pip, on a full queue or for its image, and a solo core's clock stands still (R143). -/
def Ctx.asleep (k : Ctx) : Bool := k.st == .loading || (k.st == .wait && (k.waits == 1 || k.waits == 2))

/-- SEQ cycles for which the core of a context has stood still in the wait under way, as far as gated_cycles does not hold them yet. -/
def State.gatedFor (s : State) (cx : Nat) : Nat :=
  if s.solo cx && (s.ctx cx).asleep then coreCycles (s.clk.cyc - (s.ctx cx).waitSince) else 0

/-- The same, of all cores of a channel. -/
def State.gatedNow (s : State) (ch : Nat) : Nat := (List.range 32).foldl (fun a c => a + s.gatedFor (32 * ch + c)) 0

/-- A wait ends and is counted. -/
def State.endGate (s : State) (cx : Nat) : State :=
  let n := s.gatedFor cx
  if n = 0 then s else s.count (CH_CTR_gated_cycles (chOf cx)) n

/-- A wait ends. Its latency runs from now (R143); a solo core's clock has stood still since the wait began. -/
def State.wake (s : State) (cx : Nat) : State :=
  let s := if s.solo cx then (s.endGate cx).count (CH_CTR_wake_events (chOf cx)) else s
  s.modCtx cx (fun k => { k with waits := if k.st == .wait then 3 else 0, waitSince := s.clk.cyc, waitAt := s.now })

/-- The context is ready: it has an instruction, and it is in RUN or its wake latency of 4 or 16 SEQ cycles is over (R143). -/
def State.ready (s : State) (cx : Nat) : Bool :=
  let k := s.ctx cx
  k.word.isSome &&
    (k.st == .run || (k.st == .wait && k.waits == 3 && decide ((if s.solo cx then 16 else 4) ≤ coreCycles (s.clk.cyc - k.waitSince))))

/-- The context may issue now: of the ready contexts of its core it is the next in round-robin order after the one that issued last (R143). -/
def State.mayIssue (s : State) (cx : Nat) : Bool :=
  let last := (s.chan (chOf cx)).lastCtx.get 0 (coreOf cx)
  ((List.range 8).map (fun j => 32 * chOf cx + 8 * coreOf cx + (last + j) % 8)).find? s.ready == some cx

/-- The queues that an instruction takes entries in (R158). -/
def targets (w : Nat) : List Nat :=
  if isEngine (iOp w) then [iQueue w]
  else if iOp w = 5 then (if bits w 16 3 ≤ 4 then [bits w 16 3] else [])
  else if iOp w = 8 then (List.range 5).filter (fun q => bitOf (bits w 56 5) q)
  else []

/-- Some queue that the next instruction needs is full (R158). -/
def Ctx.noRoom (k : Ctx) (qs : List Nat) : Bool := qs.any (fun q => decide (64 ≤ (k.queue q).length))

/-! ### Queue entries (R158, R159, R163, R166) -/

/-- What an entry notes on reaching the head of its queue: when, and the tensor id of SR (R167, R222). -/
def Ctx.atHead (k : Ctx) (now : FT64) (e : Entry) : Entry :=
  let tid := if iOp e.word = 0x12 then k.reg 2 (slReg (slotB e.word)) else if iOp e.word = 0x20 then k.reg 2 (bits e.word 116 4) else 0
  { e with since := some now, tid := tid }

/-- An entry joins a queue. -/
def State.push (s : State) (cx q : Nat) (e : Entry) : State :=
  s.modCtx cx (fun k => { k with q := k.q.put [] q (k.queue q ++ [if (k.queue q).isEmpty then k.atHead s.now e else e]) })

/-- An entry is a bar marker whose pips are not all set. -/
def State.barBlocks (s : State) (cx : Nat) (e : Entry) : Bool :=
  iOp e.word == 8 && !within (bits e.word 8 48) (s.reg (CH_PIP_pips (chOf cx) (coreOf cx)))

/-- In DRAIN, a queue whose head is a bar marker that cannot pass is discarded (R168). -/
def State.drainScan (s : State) (cx : Nat) : State :=
  if (s.ctx cx).st == .drain then
    (List.range 5).foldl (fun s q => match ((s.ctx cx).queue q).head? with
      | some e => if s.barBlocks cx e then s.modCtx cx (fun k => { k with q := k.q.put [] q [] }) else s
      | none => s) s
  else s

/-- A queue replaced. -/
def State.setQueue (s : State) (cx q : Nat) (l : List Entry) : State := s.modCtx cx (fun k => { k with q := k.q.put [] q l })

/-- The head entry of a queue has completed; a context that waited for room in it wakes (R158). -/
def State.pop (s : State) (cx q : Nat) : State :=
  let s := s.modCtx cx (fun k => { k with q := k.q.put [] q (match (k.queue q).drop 1 with
    | e :: r => k.atHead s.now e :: r
    | [] => []) })
  let k := s.ctx cx
  let s := if k.st == .wait && k.waits == 2 && !k.noRoom (targets (k.word.getD 0)) then s.wake cx else s
  s.drainScan cx

/-! ### The end of a context (R148, R168, R238, R377) -/

/-- Banks of the tiles of some groups are kind zero again (R238), and no start of theirs stays admitted. -/
def State.clearBanks (s : State) (ch groups : Nat) : State :=
  s.modChan ch (fun c => { c with
    banks := c.banks.filter (fun e => !bitOf groups (e.1 / 4 / 16)), bankUe := c.bankUe.filter (fun b => !bitOf groups (b / 4 / 16)),
    admitted := c.admitted.filter (fun t => !bitOf groups (t / 16)) })

/-- The record of a program's end (R377): the fault's place, and the first inv's. -/
def Ctx.report (k : Ctx) (status : Nat) : Report :=
  let f := k.fault.filter (fun f => f.status == status && status != stFenced)
  { status := status
    result := match f with | some f => bits f.instr 0 14 + bits f.rep 0 16 * 2 ^ 14 | none => 0
    unit := match f with | some f => f.unit | none => 0
    exc := k.exc
    inv := match k.inv with | some c => 0x80 + c.at_.row % 32 | none => 0
    detail := match k.inv with
      | some c => bits c.instr 0 14 + bits c.at_.rep 0 16 * 2 ^ 14 + bits c.at_.col 0 13 * 2 ^ 30 + bits c.at_.k 0 21 * 2 ^ 43
      | none => 0 }

/-- The status that a program which ends with `status` reports: ST_RETRACTED where a retraction has withdrawn a result of a group it owns
(R290; DESIGN CHOICE: the spec does not say which records a retraction affects). -/
def Ctx.endStatus (k : Ctx) (status : Nat) : Nat := if status = stOk && k.retracted then stRetracted else status

/-- A context returns to IDLE with a status: it frees its tile groups, its claims and its buffers, and the descriptors that wait for it complete. -/
def State.endCtx (s : State) (cx status : Nat) : State :=
  let k := s.ctx cx
  let ch := chOf cx
  let s := s.endGate cx
  let s := k.held.foldl (fun s u => s.release u (s.home ch)) s
  let s := k.fifo.foldl (fun s x => s.dropFrame x.frm (s.home ch)) s
  let s := (s.clearBanks ch (hTiles k.header)).setReg (CH_TILE_HOLD_held ch) (s.reg (CH_TILE_HOLD_held ch) &&& (0xFFFF - hTiles k.header))
  let s := s.modChan ch (fun c => { c with hints := c.hints.erase (cx % 32) })
  let s := s.modCtx cx (fun k => { step := k.step, pc := k.pc })
  let s := match k.d with
    | some d => s.complete d (k.report (k.endStatus status))
    | none => s
  k.fences.foldl (fun s d => s.completeSt d stOk) s

/-! ### Faults and fences (R167–R169) -/

/-- CH_CTX_FAULT is filled (R169). -/
def State.logFault (s : State) (cx : Nat) (f : CtxFault) : State :=
  let ch := chOf cx
  let c := cx % 32
  ((((((s.setReg (CH_CTX_FAULT_status ch c) f.status).setReg (CH_CTX_FAULT_unit ch c) f.unit).setReg (CH_CTX_FAULT_instr ch c) f.instr).setReg
    (CH_CTX_FAULT_repeat ch c) f.rep).setReg (CH_CTX_FAULT_valid ch c) 1).setReg (CH_CTX_FAULT_STAMP_stamp ch c) (s.chNow ch).toNat).stamped

/-- The context drains: it issues nothing more, and queues that wait on a pip are discarded. -/
def State.drain (s : State) (cx : Nat) : State :=
  let s := if (s.ctx cx).st == .wait && (s.ctx cx).waits != 3 then s.wake cx else s
  (s.modCtx cx (fun k => { k with st := .drain, waits := 0 })).drainScan cx

/-- A fault comes before the one reported so far: there is none, or one of a later SEQ cycle, or one of the same and a higher unit (R169). -/
def CtxFault.first (f : CtxFault) : Option CtxFault → Bool
  | none => true
  | some o => o.status != stFenced && (decide (f.seq < o.seq) || (o.seq == f.seq && decide (f.unit < o.unit)))

/-- A fault of unit 0–4 (a queue, which is discarded) or 5 that arose `ago` SEQ cycles before now (R168, R169): the first is reported, later
ones are counted. -/
def State.faultAgo (s : State) (cx unit status instr rep ago : Nat) : State :=
  let k := s.ctx cx
  let ch := chOf cx
  if k.st == .idle || k.st == .loading then s
  else
    let f : CtxFault := { status := status, unit := unit, instr := instr, rep := rep, seq := s.seqNow ch (coreOf cx) - ago }
    let s := if f.first k.fault then (s.modCtx cx (fun k => { k with fault := some f })).logFault cx f else s
    let s := if k.fault.isSome then s.count (CH_CTR_fault_count ch) else s
    let s := s.raise (evCh ch (CH_INTR_STATUS_fault_ev ch))
    let s := if status = stTimeout then s.raise (evCh ch (CH_INTR_STATUS_timeout_ev ch)) else s
    (if unit < 5 then s.setQueue cx unit [] else s).drain cx

/-- A fault that arises now. -/
def State.fault (s : State) (cx unit status instr rep : Nat) : State := s.faultAgo cx unit status instr rep 0

/-- A fence ends a context through the same drain (R169, R375). -/
def State.fenceCtx (s : State) (cx : Nat) : State :=
  let k := s.ctx cx
  if k.st == .idle then s
  else
    let f : CtxFault := { status := stFenced, unit := 5, instr := k.pc, rep := 0, seq := s.seqNow (chOf cx) (coreOf cx) }
    let s := if k.fault.isNone then (s.modCtx cx (fun k => { k with fault := some f })).logFault cx f else s
    if k.st == .loading then s.endCtx cx stFenced else s.drain cx

/-! ### Issue (R143, R149, R151) -/

/-- An instruction of the given opcodes is issued in the core's next free SEQ cycle: counted, with the turn of its core. `f` gives its effect; a
context that must wait for room issues nothing, and the cycle stays free (R143, R158). -/
def State.issue (s : State) (cx : Nat) (ok : Nat → Bool) (f : Ctx → Nat → State → State) : State :=
  let k := s.ctx cx
  match k.word with
  | none => s
  | some w =>
    if !s.mayIssue cx || !ok (iOp w) then s
    else if k.progUe.contains k.pc then (s.rasContained (chOf cx / 2) 1 stMemUncorrectable (chOf cx)).fault cx 5 stMemUncorrectable k.pc 0
    else
      let ch := chOf cx
      let free := (s.chan ch).nextSeq.get 0 (coreOf cx)
      let take := fun (n : Nat) (s : State) => s.modChan ch (fun c => { c with nextSeq := c.nextSeq.put 0 (coreOf cx) n })
      let s := f k w (take (max (s.clk.cyc * 5 / 4) free + 1) (s.modCtx cx (fun k => { k with st := .run, waits := 0 })))
      if (s.ctx cx).waits = 2 then take free s
      else
        let last := (s.chan ch).lastCtx.get 0 (coreOf cx)
        let s := if last = 0 || last = cx % 8 + 1 then s else s.count (CH_CTR_ctx_switches ch)
        (s.modChan ch (fun c => { c with lastCtx := c.lastCtx.put 0 (coreOf cx) (cx % 8 + 1) })).count (CH_CTR_instr_issued ch)

/-- The context goes on at the next instruction. -/
def State.next (s : State) (cx : Nat) : State := s.modCtx cx Ctx.forward

/-- Entries go to queues, or the context waits for room and the instruction has not been issued (R158). -/
def State.queueAll (s : State) (cx : Nat) (qs : List Nat) (e : Entry) (upd : Ctx → Ctx) : State :=
  if (s.ctx cx).noRoom qs then s.waitOn cx 2
  else ((qs.foldl (fun s q => s.push cx q e) s).modCtx cx upd).next cx

/-- A register written at issue in a SEQ cycle; an engine result of the same cycle is applied second and remains (R149). -/
def Ctx.issueReg (k : Ctx) (seq cls n v : Nat) : Ctx := if k.engAt.get 0 (16 * cls + n) = seq + 1 then k else k.setReg cls n v

/-- A register written by an engine (R149); `engAt` keeps the SEQ cycle plus 1. -/
def State.engineReg (s : State) (cx cls n v : Nat) : State :=
  s.modCtx cx (fun k => { k.setReg cls n v with engAt := k.engAt.put 0 (16 * cls + n) (s.seqNow (chOf cx) (coreOf cx) + 1) })

/-- Registers advance at issue: a + r × s, each register once (R151). -/
def advance (seq w r : Nat) (k : Ctx) : Ctx :=
  if r = 0 then k
  else
    ([slotA w, slotB w, slotD w].foldl (fun (x : Ctx × List Nat) t =>
      if slUpd t && !x.2.contains (slReg t) then
        (x.1.issueReg seq 0 (slReg t) (((x.1.reg 0 (slReg t) : Int) + r * strideOf w t) % ((2 ^ 48 : Nat) : Int)).toNat, slReg t :: x.2)
      else x) (k, [])).1

/-- The x registers that mod names (R195, R199, R200, R202, R205). -/
def modRegs (w : Nat) : Nat × Nat :=
  match iOp w with
  | 0x20 => (bits w 112 4, 0)
  | 0x32 => (bits w 109 4, 0)
  | 0x33 => (bits w 122 4, 0)
  | 0x41 => (bits w 116 4, 0)
  | 0x42 => (bits w 116 4, 0)
  | 0x50 => (bits w 112 4, bits w 108 4)
  | _ => (0, 0)

/-- An entry of the instruction at the pc, with the registers as they stand (R149, R151, R183). -/
def Ctx.entry (k : Ctx) (w : Nat) : Entry :=
  let ra := slReg (slotA w)
  let rb := slReg (slotB w)
  let rd := slReg (slotD w)
  { word := w, pc := k.pc, a := k.reg 0 ra, b := k.reg 0 rb, d := k.reg 0 rd, xa := k.reg 2 ra, xb := k.reg 2 rb, xd := k.reg 2 rd,
    m1 := k.reg 2 (modRegs w).1, m2 := k.reg 2 (modRegs w).2, cnt := k.reg 1 (bits w 17 3) }

/-- An engine instruction goes to its queue; a precv names the pip of later arrivals (R203). -/
def State.issueEngine (s : State) (cx : Nat) : State :=
  s.issue cx isEngine (fun k w s =>
    let upd := fun (c : Ctx) =>
      let c := advance (s.seqNow (chOf cx) (coreOf cx)) w (repeats w (k.reg 1 (bits w 17 3))) c
      if iOp w = 0x51 && bits w 105 6 != 63 then { c with apip := some (bits w 105 6) } else c
    s.queueAll cx (targets w) (k.entry w) upd)

/-- loop (R153, R155, R188). -/
def State.issueLoop (s : State) (cx : Nat) : State :=
  s.issue cx (· == 1) (fun k w s =>
    let n := if bitOf w 10 then k.reg 1 (bits w 11 3) else bits w 11 16
    let last := k.pc + bits w 27 12 + 1
    if n = 0 then s.modCtx cx (fun c => c.goto (last + 1) c.loops.length)
    else s.modCtx cx (fun c => { c with pc := c.pc + 1, loops := { reg := bits w 8 2, first := k.pc + 1, last := last, left := n } :: c.loops }))

/-- Loops left when `r` is left: it and every loop inside it. -/
def leaveLoop (r : Nat) : List Loop → Option (Loop × List Loop)
  | [] => none
  | l :: t => if l.reg = r then some (l, t) else leaveLoop r t

/-- brk (R156). -/
def State.issueBrk (s : State) (cx : Nat) : State :=
  s.issue cx (· == 2) (fun k w s =>
    match leaveLoop (bits w 8 2) k.loops with
    | some (l, rest) =>
      if bitOf k.k (bits w 10 2) then s.modCtx cx (fun c => { c with loops := rest }.goto (l.last + 1) rest.length) else s.next cx
    | none => s.next cx)

/-- cnt (R149, R187). -/
def State.issueCnt (s : State) (cx : Nat) : State :=
  s.issue cx (· == 3) (fun k w s =>
    let dc := bits w 8 2
    let r := bits w 10 4
    let op := bits w 14 2
    let v := if op < 2 then bits w 32 48 else k.reg (bits w 16 2) (bits w 18 4)
    let v := if dc = 0 then v else v % 2 ^ 32
    (s.modCtx cx (fun c => c.issueReg (s.seqNow (chOf cx) (coreOf cx)) dc r (if op % 2 = 1 then k.reg dc r + v else v))).next cx)

/-- The relations of cmp on 32-bit values (R157). -/
def cmpHolds (rel x y : Nat) : Bool :=
  match rel with
  | 0 => x == y
  | 1 => x != y
  | 2 => decide (x < y)
  | 3 => decide (y ≤ x)
  | 4 => decide (signed 32 x < signed 32 y)
  | _ => decide (signed 32 y ≤ signed 32 x)

/-- cmp (R157). -/
def State.issueCmp (s : State) (cx : Nat) : State :=
  s.issue cx (· == 4) (fun k w s =>
    let x := k.reg (if bitOf w 13 then 2 else 1) (bits w 14 4)
    let y := if bitOf w 18 then bits w 32 32 else k.reg (if bitOf w 19 then 2 else 1) (bits w 20 4)
    let i := bits w 8 2
    (s.modCtx cx (fun c => { c with k := if cmpHolds (bits w 10 3) x y then setBit c.k i else clearBit c.k i })).next cx)

/-- The pip of a pset is set: of its own core at once, of another core of the channel 8 SEQ cycles later (R163). -/
def State.psetPip (s : State) (cx w : Nat) : State :=
  let ch := chOf cx
  let core := bits w 14 2
  if core = coreOf cx then s.setPip ch core (bits w 8 6) else s.setPipLater ch core (bits w 8 6) (s.seqNow ch (coreOf cx))

/-- pset (R163): a marker, or the pip at issue. -/
def State.issuePset (s : State) (cx : Nat) : State :=
  s.issue cx (· == 5) (fun k w s =>
    if bits w 16 3 ≤ 4 then s.queueAll cx (targets w) { word := w, pc := k.pc } id
    else (s.psetPip cx w).next cx)

/-- A pset marker completes (R163). -/
def State.psetMarker (s : State) (cx q : Nat) : State :=
  match ((s.ctx cx).queue q).head? with
  | some e =>
    if iOp e.word == 5 && (s.ctx cx).running then (s.psetPip cx e.word).pop cx q else s
  | none => s

/-- pclr (R164). -/
def State.issuePclr (s : State) (cx : Nat) : State :=
  s.issue cx (· == 6) (fun _ w s => (s.clearPips (chOf cx) (coreOf cx) (bits w 8 48)).next cx)

/-- The condition of a pwait holds (R165). -/
def State.pipsHold (s : State) (cx w : Nat) : Bool :=
  let set := s.reg (CH_PIP_pips (chOf cx) (coreOf cx)) &&& bits w 8 48
  if bitOf w 56 then set != 0 else set == bits w 8 48


/-- Contexts of a core that wait in a pwait whose condition holds, with the instruction. -/
def State.releasable (s : State) (ch core : Nat) : List (Nat × Nat) :=
  ((List.range 8).map (fun j => 32 * ch + 8 * core + j)).filterMap (fun cx =>
    let k := s.ctx cx
    match k.word with
    | some w => if k.st == .wait && k.waits == 1 && s.pipsHold cx w then some (cx, w) else none
    | none => none)

/-- Waiters are released, and what `l` clears is cleared once (R165). -/
def State.releaseAll (s : State) (ch core : Nat) (l : List (Nat × Nat)) (clearers : List (Nat × Nat)) : State :=
  let clears := (clearers.filter (fun e => bitOf e.2 57)).map (fun e =>
    (bits e.2 8 48, max (s.seqNow ch core) (s.pipsSince ch core (bits e.2 8 48) (bitOf e.2 56) + 1)))
  let s := l.foldl (fun s e => (s.wake e.1).next e.1) s
  clears.foldl (fun s c => s.clearPipsIn ch core c.1 c.2) s

/-- Every waiter of the core whose condition holds is released, and the clear is applied once (R165). -/
def State.pwaitRelease (s : State) (cx : Nat) : State :=
  let l := s.releasable (chOf cx) (coreOf cx)
  if l.any (fun e => e.1 == cx) then s.releaseAll (chOf cx) (coreOf cx) l l else s

/-- pwait (R165): it goes on at once when its condition holds. One that clears pips then releases every waiter of the core whose condition holds
in the same cycle. -/
def State.issuePwait (s : State) (cx : Nat) : State :=
  s.issue cx (· == 7) (fun _ w s =>
    if !s.pipsHold cx w then s.waitOn cx 1
    else if !bitOf w 57 then s.next cx
    else
      let l := s.releasable (chOf cx) (coreOf cx)
      (s.releaseAll (chOf cx) (coreOf cx) l ((cx, w) :: l)).next cx)

/-- bar (R166). -/
def State.issueBar (s : State) (cx : Nat) : State :=
  s.issue cx (· == 8) (fun k w s => s.queueAll cx (targets w) { word := w, pc := k.pc } id)

/-- A bar marker at the head passes (R166). -/
def State.barMarker (s : State) (cx q : Nat) : State :=
  match ((s.ctx cx).queue q).head? with
  | some e => if iOp e.word == 8 && (s.ctx cx).running && !s.barBlocks cx e then s.pop cx q else s
  | none => s

/-- hint (R189, R350): the power manager keeps it with its stamp. -/
def State.issueHint (s : State) (cx : Nat) : State :=
  s.issue cx (· == 9) (fun _ w s =>
    let s := s.count PWR_CTR_hints
    (s.modChan (chOf cx) (fun c => { c with hints := c.hints.insert (cx % 32) (w, s.chNow (chOf cx)) })).next cx)

/-! ### The life of a context (R141, R146–R148, R167, R168) -/

/-- A write to CH_CORE_CFG (R141). -/
def State.coreCfgWrite (s : State) (ch v : Nat) : State :=
  let old := s.reg (CH_CORE_CFG_solo ch)
  let busy := fun (core : Nat) => (List.range 8).any (fun j => (s.ctx (32 * ch + 8 * core + j)).st != .idle)
  s.setReg (CH_CORE_CFG_solo ch) ((List.range 4).foldl (fun a c => a + 2 ^ c * (if busy c then bits old c 1 else bits v c 1)) 0)

/-- The image and the argument block are in: the checks made while LOADING (R146, R147), then the wait for the image ends as any wait does: the
context issues after its wake latency (R143). -/
def State.imageDone (s : State) (cx : Nat) : State :=
  let k := s.ctx cx
  if k.st != .loading then s
  else
    let img := (k.d.bind s.desc).elim 0 (fun x => leAt x.bytes 8 6)
    let n := hLength k.header
    let bad := (s.badWords img (64 + 16 * n) ++ s.badWords k.args 256).head?
    match bad with
    | some w => (s.logUe (w * 32) 2).endCtx cx stMemUncorrectable
    | none =>
      let s := (s.hubAccess img (64 + 16 * n)).hubAccess k.args 256
      let ws := imageWords n (s.storeRead (img + 64) (16 * n))
      let arg := s.storeRead k.args 256
      if leAt arg 224 32 != 0 || !imageOk k.header ws || !psetsOk k.header (coreOf cx) ws then s.endCtx cx stBadDescriptor
      else
        let regs := fun (n w o : Nat) => (List.range n).foldl (fun (t : Tab Nat) i => t.put 0 i (leAt arg (o + w * i) w % 2 ^ 48)) []
        let s := s.endGate cx
        (s.modCtx cx (fun k => { k with
          st := .wait, pc := 0, prog := ws, a := regs 16 8 0, x := regs 16 4 128, c := regs 8 4 192, k := 0, loops := [],
          digest := sha3 (k.header ++ s.storeRead (img + 64) (16 * n)), waitSince := s.clk.cyc })).wake cx

/-- The program has passed its last instruction and its queues are empty (R148). -/
def State.programEnd (s : State) (cx : Nat) : State :=
  let k := s.ctx cx
  if (k.st == .run || (k.st == .wait && k.waits == 3)) && k.word.isNone && k.idleQueues then s.endCtx cx stOk else s

/-- All queues of a draining context are empty (R168). -/
def State.drainComplete (s : State) (cx : Nat) : State :=
  let k := s.ctx cx
  if k.st == .drain && k.idleQueues then s.endCtx cx (k.fault.elim stFenced (·.status)) else s

/-- What the watchdog times: bar markers at heads and a pwait, each as its unit, its instruction and the device time it began to wait at (R167). -/
def Ctx.timed (k : Ctx) : List (Nat × Nat × FT64) :=
  (List.range 5).filterMap (fun q => match (k.queue q).head? with
    | some e => if iOp e.word == 8 then e.since.map (fun t => (q, e.pc, t)) else none
    | none => none) ++
  (if k.st == .wait && k.waits == 1 then [(5, k.pc, k.waitAt)] else [])

/-- A pwait or a bar marker at a head has waited beyond the timeout, a duration of device time (R44, R167): each faults in the cycle in which its
time ran out, so the longest wait is first, of equal ones the lowest queue, and the sequencer last (R169). -/
def State.watchdog (s : State) (cx : Nat) : State :=
  let k := s.ctx cx
  let lim := s.reg (CH_WDOG_CFG_timeout (chOf cx)) * 1000
  let late := fun (t : FT64) => ftDiff t s.now - ((lim * 256 : Nat) : Int)
  if lim = 0 || !k.running then s
  else
    (sortBy (fun (a b : Nat × Nat × FT64) => decide (late b.2.2 ≤ late a.2.2)) (k.timed.filter (fun x => decide (0 < late x.2.2)))).foldl
      (fun s x => s.faultAgo cx x.1 stTimeout x.2.1 0 (coreCycles ((late x.2.2).toNat / 256))) s

/-! ### The exception log (R229–R231) -/

/-- The log records an inv: the first since it was rearmed, with equal stamps the one of the lowest context. -/
def State.logInv (s : State) (ch : Nat) (r : InvRec) : State :=
  let s := s.modChan ch (fun c => { c with lastInv := match c.lastInv with
    | some o => if o.stamp = r.stamp && decide (o.ctx ≤ r.ctx) then some o else some r
    | none => some r })
  let take := !s.flag (CH_EXC_INV_SRC_valid ch) ||
    (s.reg (CH_EXC_INV_STAMP_stamp ch) == r.stamp.toNat && decide (r.ctx < s.reg (CH_EXC_INV_SRC_ctx ch)))
  if take then
    (((((((((s.setReg (CH_EXC_INV_SRC_ctx ch) r.ctx).setReg (CH_EXC_INV_SRC_instr ch) r.instr).setReg (CH_EXC_INV_SRC_repeat ch) r.rep).setReg
      (CH_EXC_INV_SRC_unit ch) r.unit).setReg (CH_EXC_INV_SRC_valid ch) 1).setReg (CH_EXC_INV_COORD_row ch) r.row).setReg
      (CH_EXC_INV_COORD_column ch) r.col).setReg (CH_EXC_INV_COORD_k ch) r.k).setReg (CH_EXC_INV_STAMP_stamp ch) r.stamp.toNat).stamped
  else s

/-- Elements that raised each flag are counted (R231). -/
def State.countExc (s : State) (ch : Nat) (fl : List Flags) : State :=
  ((((s.count (CH_CTR_exc_inv ch) (countFlag fl 0)).count (CH_CTR_exc_dbz ch) (countFlag fl 1)).count (CH_CTR_exc_ovf ch) (countFlag fl 2)).count
    (CH_CTR_exc_unf ch) (countFlag fl 3)).count (CH_CTR_exc_inx ch) (countFlag fl 4)

/-- CH_EXC_CTRL.rearm (R231): an inv of the same cycle is recorded after it. -/
def State.excRearm (s : State) (ch : Nat) : State :=
  let s := s.setReg (CH_EXC_INV_SRC_valid ch) 0
  match (s.chan ch).lastInv with
  | some r => if r.stamp = s.chNow ch then s.logInv ch r else s
  | none => s

/-- CH_CTR_CTRL.clear: the channel, tile, sparse and exception counters are zero (R73), and waits under way count from now on. -/
def State.chCtrClear (s : State) (ch : Nat) : State :=
  let o := 0x800000 + 0x100000 * ch
  let s := (List.range 32).foldl (fun s c =>
    if (s.ctx (32 * ch + c)).asleep then s.modCtx (32 * ch + c) (fun k => { k with waitSince := s.clk.cyc }) else s) s
  let s := s.modChan ch (fun c => { c with stallAt := c.stallAt.map (fun _ => s.coreNow (ch / 2)) })
  s.clearCounters (fun k => keyIn (o + 0x408) (o + 0x430) k || keyIn (o + 0x1000) (o + 0x1048) k || keyIn (o + 0x1100) (o + 0x1130) k ||
    keyIn (o + 0x1200) (o + 0x1230) k)

/-! ### The commands -/

def execChCoreCfgWrite (ch : Ch) (v : Nat) (s : State) : Host.Outcome State Fault Refusal := s.does (fun s => s.whenReady (fun s => s.coreCfgWrite ch.val v))
def execImageLoadDone (cx : Cx) (s : State) : Host.Outcome State Fault Refusal := s.runs (fun s => s.imageDone cx.val)
def execEngineIssue (cx : Cx) (s : State) : Host.Outcome State Fault Refusal := s.runs (fun s => s.issueEngine cx.val)
def execLoop (cx : Cx) (s : State) : Host.Outcome State Fault Refusal := s.runs (fun s => s.issueLoop cx.val)
def execBrk (cx : Cx) (s : State) : Host.Outcome State Fault Refusal := s.runs (fun s => s.issueBrk cx.val)
def execCnt (cx : Cx) (s : State) : Host.Outcome State Fault Refusal := s.runs (fun s => s.issueCnt cx.val)
def execCmp (cx : Cx) (s : State) : Host.Outcome State Fault Refusal := s.runs (fun s => s.issueCmp cx.val)
def execPset (cx : Cx) (s : State) : Host.Outcome State Fault Refusal := s.runs (fun s => s.issuePset cx.val)
def execPsetMarkerComplete (cx : Cx) (q : Fin 5) (s : State) : Host.Outcome State Fault Refusal := s.runs (fun s => s.psetMarker cx.val q.val)
def execPclr (cx : Cx) (s : State) : Host.Outcome State Fault Refusal := s.runs (fun s => s.issuePclr cx.val)
def execPwait (cx : Cx) (s : State) : Host.Outcome State Fault Refusal := s.runs (fun s => s.issuePwait cx.val)
def execPwaitRelease (cx : Cx) (s : State) : Host.Outcome State Fault Refusal := s.runs (fun s => s.pwaitRelease cx.val)
def execBar (cx : Cx) (s : State) : Host.Outcome State Fault Refusal := s.runs (fun s => s.issueBar cx.val)
def execBarMarkerPass (cx : Cx) (q : Fin 5) (s : State) : Host.Outcome State Fault Refusal := s.runs (fun s => s.barMarker cx.val q.val)
def execHint (cx : Cx) (s : State) : Host.Outcome State Fault Refusal := s.runs (fun s => s.issueHint cx.val)
def execProgramEnd (cx : Cx) (s : State) : Host.Outcome State Fault Refusal := s.runs (fun s => s.programEnd cx.val)
def execDrainComplete (cx : Cx) (s : State) : Host.Outcome State Fault Refusal := s.runs (fun s => s.drainComplete cx.val)
def execWatchdogTimeout (cx : Cx) (s : State) : Host.Outcome State Fault Refusal := s.runs (fun s => s.watchdog cx.val)
def execChCounterClear (ch : Ch) (s : State) : Host.Outcome State Fault Refusal := s.does (fun s => s.whenReady (fun s => s.chCtrClear ch.val))
def execExcRearm (ch : Ch) (s : State) : Host.Outcome State Fault Refusal := s.does (fun s => s.whenReady (fun s => s.excRearm ch.val))

end Sys2Proof.Machine
end

