-- ==== Sys2Proof/Machine/Groups.lean ====
section
/-! DEFINITION. Groups: the entry and the member list, frames the device sends for a group, the mirror records and what waits for
their confirmation (R269–R273, R288, R294, R404–R408). -/

namespace Sys2Proof.Machine

/-! ### The group table entry (R270, R294) -/

def gGid (e : Bytes) : Nat := leAt e 0 2
def gValid (e : Bytes) : Bool := bitOf (byteAt e 2) 0
def gOwn (e : Bytes) : Bool := bitOf (byteAt e 2) 1
def gCls (e : Bytes) : Nat := bits (byteAt e 2) 2 1
def gGated (e : Bytes) : Bool := bitOf (byteAt e 2) 3
/-- wpol, or cmode of a dispatch group. -/
def gWpol (e : Bytes) : Nat := bits (byteAt e 2) 4 1
def gTc (e : Bytes) : Nat := bits (byteAt e 2) 5 3
def gFmt (e : Bytes) : Nat := byteAt e 3 % 16
def gOutFmt (e : Bytes) : Nat := byteAt e 3 / 16
def gOp (e : Bytes) : Nat := byteAt e 4
/-- The kind: 0 all-reduce, 1 reduce-scatter, 2 all-gather, 3 broadcast, 4 sparse, 5 dispatch. -/
def gKind (e : Bytes) : Nat := byteAt e 4 / 16
def gRed (e : Bytes) : Nat := byteAt e 4 % 16
/-- C: bytes of elements in a chunk, or the token row size R. -/
def gCap (e : Bytes) : Nat := 256 * (byteAt e 5 + 1)
def gEpoch (e : Bytes) : Nat := leAt e 6 2
def gCount (e : Bytes) : Nat := leAt e 8 2
def gUp (e : Bytes) : Nat := leAt e 10 2
def gParent (e : Bytes) : Nat := leAt e 12 2
def gRoot (e : Bytes) : Bool := gParent e == 0xFFFF
def gRootMember (e : Bytes) : Nat := leAt e 14 2
def gCh (e : Bytes) : Nat := byteAt e 16 % 8
def gCore (e : Bytes) : Nat := byteAt e 16 / 64
def gDonePip (e : Bytes) : Nat := byteAt e 17
def gRelPip (e : Bytes) : Nat := byteAt e 18
def gSlots (e : Bytes) : Nat := byteAt e 19
def gStepBytes (e : Bytes) : Nat := leAt e 20 5
def gBase (e : Bytes) : Nat := leAt e 28 4
def gList (e : Bytes) : Nat := leAt e 32 6
def gWindow (e : Bytes) : Nat := leAt e 40 4
def gStep (e : Bytes) : Nat := leAt e 44 4
def gFence (e : Bytes) : Nat := leAt e 48 4

/-- Bytes of an element of the format. -/
def gElem (e : Bytes) : Nat := elemBits (gFmt e) / 8

/-- n: chunks of a step (R270). -/
def gChunks (e : Bytes) : Nat := ceilDiv (gStepBytes e) (gCap e)

/-- Bytes of elements of chunk `c`. -/
def gChunkBytes (e : Bytes) (c : Nat) : Nat := min (gCap e) (gStepBytes e - c * gCap e)

/-- Slot size z (R270). -/
def gSlot (e : Bytes) : Nat :=
  if gKind e ≤ 1 then (if gCls e = 0 then gCap e else 16 * gCap e / gElem e)
  else if gKind e = 4 then ceilDiv (gCap e + gCap e / (8 * gElem e)) 256 * 256
  else 0

/-- Scratch offset of the slot of chunk `c`. -/
def gSlotAt (e : Bytes) (c : Nat) : Nat := gBase e + c % gSlots e * gSlot e

/-- The owner charged for the group (R106). -/
def gOwner (e : Bytes) : Nat := 192 + 4 * gCh e + gCore e

/-- An entry with a field changed. -/
def gSet (e : Bytes) (at_ n v : Nat) : Bytes := overwrite e at_ (leBytes n v)

def gSetOwn (e : Bytes) (own : Bool) : Bytes := gSet e 2 1 (byteAt e 2 - 2 * bit1 (gOwn e) + 2 * bit1 own)

/-- A group. -/
def State.grp (s : State) (gid : Nat) : Option Grp := s.groups.find? gid

/-- A group changed. -/
def State.modGrp (s : State) (gid : Nat) (f : Grp → Grp) : State :=
  match s.groups.find? gid with
  | some g => { s with groups := s.groups.insert gid (f g) }
  | none => s

/-! ### The member list (R272) -/

/-- A member's entry; `none` when its word is uncorrectable. -/
def State.memberEntry (s : State) (e : Bytes) (m : Nat) : Option Bytes :=
  if s.badWords (gList e + 8 * m) 8 == [] then some (s.storeRead (gList e + 8 * m) 8) else none

def mId (b : Bytes) : Nat := leAt b 0 2
def mChild (b : Bytes) : Bool := bitOf (byteAt b 2) 0
def mActive (b : Bytes) : Bool := bitOf (byteAt b 2) 1

/-- The members of a group by index, with those entries that can be read. -/
def State.members (s : State) (e : Bytes) : List (Nat × Bytes) :=
  (List.range (gCount e)).filterMap (fun m => (s.memberEntry e m).map (fun b => (m, b)))

/-- The active members; one whose entry cannot be read counts as not active. -/
def State.actives (s : State) (e : Bytes) : List (Nat × Bytes) := (s.members e).filter (fun m => mActive m.2)

/-- Words of the member list that the combine engine finds uncorrectable as it reads the list: counted and logged (R114, R115). -/
def State.listErrors (s : State) (e : Bytes) : State :=
  (s.badWords (gList e) (8 * gCount e)).foldl (fun s w => s.logUe (w * 32) 1) s

/-- The device writes bytes of a member's entry; a word of which it covers a part only, and that is uncorrectable, stays as it is (R114). -/
def State.listWrite (s : State) (a : Nat) (b : Bytes) : State :=
  match s.partialUe a b.length with
  | some w => s.logUe (w * 32) 1
  | none => s.storeWrite a b

/-! ### Frames the device sends for a group (R269) -/

/-- The endpoint entry that carries an endpoint ID: its key. -/
def State.endpointOf (s : State) (id : Nat) : Option Nat :=
  (List.find? (fun a : Nat × Nat => bits a.2 32 16 == id) s.tables.endpoint).map (·.1)

/-- The ECH header a send stands for. -/
def EchHead.ech (h : EchHead) : Ech :=
  { opcode := h.opcode, partial_ := h.partial_, resend := h.resend, gid := h.gid, member := h.member, cls := h.cls, epoch := h.epoch,
    step := h.step, chunk := h.chunk, fmt := h.fmt, op := h.op, part := h.part }

/-- What egress changes in a copy for one destination: its MAC, and the tag of its VLAN ID under the next hop's vlan_op. -/
def destEdit (mac vid : Nat) (e : Edit) : Edit :=
  let (op, v) := if vid = 0 then (e.vlanOp, e.vid) else if e.vlanOp = 0 then (2, vid) else if e.vlanOp = 1 then (0, 0) else (2, e.vid)
  { route := true, dmac := if e.route then e.dmac else mac, vlanOp := op, vid := v, smac := true }

/-- The copies for one destination (R269): a lookup from row 9 as if from logical port 0 of the channel's first port. -/
def State.destCopies (s : State) (ch tc et : Nat) (h : Ech) (payload : Bytes) (id : Nat) : List (Nat × Edit) × State :=
  let cnt := 24 * ch
  match s.endpointOf id with
  | none => ([], s.countL PORT_LCTR_lookup_miss_drops cnt)
  | some key =>
    let mac := key / 4096
    let vid := key % 4096
    let b := echFrame mac 0 et (if vid = 0 then none else some (tc * 0x2000 + vid)) h payload
    match s.lookup cnt false true b (parseFrame b) with
    | (.drop, s) => ([], s)
    | (.prog _ _, s) => ([], s.count (CH_CTR_program_loop_drops ch))
    | (.copies _ l, s) => (l.map (fun x => (x.1, destEdit mac vid x.2)), s)

/-- The frame is sent, its copies sharing one buffer (R105, R292); false when no buffer is granted, which is counted the first time. -/
def State.trySend (s : State) (g : GSend) : Bool × State :=
  let et := s.echType (3 * g.ch)
  let h := g.head.ech
  let b := echFrame 0 0 et none h g.payload
  match s.request g.owner (b.length + 4) false (s.home g.ch) none with
  | (.error _, s') => (false, if g.waited then s else s')
  | (.ok unit, s) =>
    let s := (s.storeWrite (unit * 256) (padTo (32 * ceilDiv b.length 32) b)).traffic (unitsAt 0 b.length) (unitsAt 0 b.length)
    let (l, s) := g.dests.foldl (fun a id => let (c, s) := a.2.destCopies g.ch g.tc et h g.payload id; (a.1 ++ c, s)) (([], s) : List (Nat × Edit) × State)
    if l.isEmpty then (true, s.release unit (s.home g.ch))
    else
      let (n, s) := s.arrival 195
      let fr : Frm :=
        { src := 195, cnt := 24 * g.ch, stamp := s.now, arr := n, unit := unit, len := b.length, tail := some Fcs.good, cls := g.tc,
          est := headerLen b (parseFrame b) et, oneStep := true, own := true, lossless := l.any (fun x => s.lossless (x.1 / 8) g.tc) }
      let (id, s) := s.newFrame fr
      let rep := decide (1 < l.length)
      (true, s.spread id rep g.owner (l.map (fun x => (x.1, { frm := id, edit := x.2, cut := false, rep := rep }))))

/-- Frames that found no buffer are tried again, each owner's in order. -/
def State.pump (s : State) : State :=
  let (keep, _, s) := s.grpTx.foldl (fun (a : List GSend × List Nat × State) g =>
    if a.2.1.contains g.owner then (a.1 ++ [g], a.2.1, a.2.2)
    else match a.2.2.trySend g with
      | (true, s) => (a.1, a.2.1, s)
      | (false, s) => (a.1 ++ [{ g with waited := true }], g.owner :: a.2.1, s)) ([], [], s)
  { s with grpTx := keep }

/-- A copy finishes transmission; a group's frame that waits for a buffer asks again. -/
def execFrameTxEnd (p : Port) (l : Lp) (s : State) : Host.Outcome State Fault Refusal := s.does (fun s => (s.frameTxEnd (srcOf p l)).pump)

/-- A group frame is sent; a self-fenced device sends none (R412). -/
def State.gsend (s : State) (g : GSend) : State :=
  if g.dests.isEmpty || s.flag MIR_STATUS_self_fenced then s else ({ s with grpTx := s.grpTx ++ [g] }).pump

/-- Opcodes that carry data, and so the group's class (R269). -/
def isDataOp (op : Nat) : Bool := (decide (1 ≤ op) && decide (op ≤ 5)) || op == 0x0D || op == 0x0E || op == 0x44

/-- A frame of a group for some endpoints, with the class of R269. -/
def gframe (e : Bytes) (h : EchHead) (payload : Bytes) (dests : List Nat) : GSend :=
  { ch := gCh e, owner := gOwner e, tc := if isDataOp h.opcode then gTc e else 7, head := { h with gid := gGid e, epoch := gEpoch e },
    payload := payload, dests := dests }

/-! ### The mirror engine's records (R404–R408) -/

def podSolo : Nat := 0
def podSync : Nat := 1
def podPaired : Nat := 2
def podDetached : Nat := 3
def podSurvivor : Nat := 4

def State.pod (s : State) : Nat := s.reg MIR_STATUS_state

/-- Mirror ports that are UP. -/
def State.mirUp (s : State) : List Nat :=
  (if s.flag MIR_STATUS_m0_up then [0] else []) ++ (if s.flag MIR_STATUS_m1_up then [1] else [])

/-- One more than the last twin record applied without a gap (R404): those that still wait to be applied are not confirmed. -/
def State.mirConfirm (s : State) : Nat :=
  (2 ^ 32 + s.mir.rxNext - (s.mir.inRecs.filter (fun r => r.kind != 1 && r.kind != 9)).length) % 2 ^ 32

/-- A mirror frame without FCS: MACs, EtherType, header, records (R404). -/
def State.mirFrame (s : State) (da count first : Nat) (recs : Bytes) : Bytes :=
  padTo 60 (beBytes 6 da ++ beBytes 6 0 ++ beBytes 2 0x88B6 ++ [1, BitVec.ofNat 8 (s.pod + 8 * s.reg MIR_CFG_role)] ++ beBytes 2 count ++ beBytes 4 first ++
    beBytes 4 s.mirConfirm ++ beBytes 2 (s.reg MIR_CFG_pod_id) ++ [0, 0] ++ recs)

/-- A mirror frame leaves on mirror port `m`, sequenced (R57, R72). -/
def State.mirOut (s : State) (m count first : Nat) (recs : Bytes) : State :=
  let b := s.mirFrame 0x0180C200000E count first recs
  (s.traffic 0 (unitsAt 0 b.length)).sendCtl (192 + m) { bytes := b, seqd := true }

/-- A record with its header: type, length in 4-byte words, body. -/
def mirRec (kind : Nat) (body : Bytes) : Bytes := beBytes 1 kind ++ [0] ++ beBytes 2 (ceilDiv body.length 4) ++ padTo (4 * ceilDiv body.length 4) body

/-- Unconfirmed records in frames of at most 9,216 bytes, each run on one port. -/
def packRecs : List MirRec → Nat → List (List MirRec)
  | [], _ => []
  | r :: t, room =>
    if r.bytes.length ≤ room then
      (match packRecs t (room - r.bytes.length) with
       | g :: gs => if t.isEmpty then [[r]] else (r :: g) :: gs
       | [] => [[r]])
    else [] :: (match packRecs t (9182 - r.bytes.length) with
      | g :: gs => (r :: g) :: gs
      | [] => [[r]])

/-- Records are sent on a mirror port. -/
def State.mirSend (s : State) (m : Nat) (rs : List MirRec) : State :=
  (packRecs rs 9182).foldl (fun s g => match g with
    | [] => s
    | r :: _ => s.mirOut m g.length r.seq (g.flatMap (·.bytes))) s

/-! ### Steps (R274, R276) -/

/-- `a − b` of two step numbers as a signed 32-bit number. -/
def stepDiff (a b : Nat) : Int := signed 32 (2 ^ 32 + a % 2 ^ 32 - b % 2 ^ 32)

/-- The state of a step: cur_step, the one after it, the one before. -/
def Grp.step (g : Grp) (n : Nat) : GStep :=
  match stepDiff n (gStep g.entry) with
  | 0 => g.cur
  | 1 => g.next
  | -1 => g.prev
  | _ => { closed := true }

/-- A step changed. -/
def Grp.modStep (g : Grp) (n : Nat) (f : GStep → GStep) : Grp :=
  match stepDiff n (gStep g.entry) with
  | 0 => { g with cur := f g.cur }
  | 1 => { g with next := f g.next }
  | -1 => { g with prev := f g.prev }
  | _ => g

/-- A chunk of a step. -/
def Grp.chunk (g : Grp) (n c : Nat) : Chunk := (g.step n).chunks.get {} c

/-- A chunk of a step changed. -/
def State.modChunk (s : State) (gid n c : Nat) (f : Chunk → Chunk) : State :=
  s.modGrp gid (fun g => g.modStep n (fun t => { t with chunks := t.chunks.modify {} c f }))

def State.modStep (s : State) (gid n : Nat) (f : GStep → GStep) : State := s.modGrp gid (fun g => g.modStep n f)

/-! ### What waits for the twin (R276, R288, R408) -/

/-- An action that waited is done. A STEP_DONE that leaves ends its step (R288). -/
def State.act1 (s : State) (a : Act) : State :=
  match a with
  | .send g =>
    let s := s.gsend g
    if g.head.opcode = 0x0C && !s.flag MIR_STATUS_self_fenced then
      { s with mir := { s.mir with ended := s.mir.ended ++ [(g.head.gid, g.head.step)] } }
    else s
  | .complete d r => s.complete d r
  | .ack g key =>
    let h := g.head
    let hit := fun (x : Contrib) => x.member == h.member && x.opcode == key && x.part == h.part
    let added := (s.grp h.gid).any (fun x => (x.chunk h.step h.chunk).have_.any (fun y => hit y && y.added))
    let s := s.modChunk h.gid h.step h.chunk (fun k => { k with have_ := k.have_.map (fun x => if hit x then { x with confirmed := true } else x) })
    if added then s.gsend g else s

def State.acts (s : State) (l : List Act) : State := l.foldl State.act1 s

/-- Unconfirmed records take buffers of owner 225, each its own (R106, R406; DESIGN CHOICE: which buffers the engine takes, and that a record
which is granted none is kept all the same, the spec does not say). -/
def State.mirKeep (s : State) (rs : List MirRec) : State :=
  rs.foldl (fun s r =>
    let (u, s) : Option Nat × State := if s.flag STORE_STATUS_ready then
        match s.request 225 r.bytes.length false (s.home 8) none with
        | (.ok u, s) =>
          let n := unitsAt 0 r.bytes.length
          (some u, (s.storeWrite (u * 256) (padTo (32 * ceilDiv r.bytes.length 32) r.bytes)).traffic n n)
        | (.error _, s) => (none, s)
      else (none, s)
    { s with mir := { s.mir with unconfirmed := s.mir.unconfirmed ++ [{ r with unit := u }] } }) s

/-- Buffers of records that need not be kept any longer are released. -/
def State.mirFree (s : State) (rs : List MirRec) : State :=
  (rs.filterMap (·.unit)).foldl (fun s u => s.release u (s.home 8)) s

/-- Records take sequence numbers and leave; their actions wait for the twin's confirmation in PAIRED (R406, R408). -/
def State.mirPost (s : State) (recs : List Bytes) (acts : List Act) : State :=
  let m := s.mirUp.head?
  let rs := recs.zipIdx.map (fun x => ({ seq := (s.mir.txSeq + x.2) % 2 ^ 32, bytes := x.1, link := m } : MirRec))
  let s := s.mirKeep rs
  let s := { s with mir := { s.mir with
    txSeq := (s.mir.txSeq + recs.length) % 2 ^ 32
    waits := if s.pod == podPaired && !acts.isEmpty then s.mir.waits ++ [((s.mir.txSeq + recs.length) % 2 ^ 32, acts)] else s.mir.waits } }
  let s := s.count MIR_CTR_records_tx recs.length
  let s := match m with | some m => s.mirSend m rs | none => s
  if s.pod == podPaired then s else s.acts acts

/-- How many more records may be unconfirmed (R406, R407). -/
def State.mirRoom (s : State) : Nat := 65536 - s.mir.unconfirmed.length

/-- Some state changes that the twin mirrors (R408): its records are made, and the actions wait where the pod has them wait. With
65,536 records unconfirmed what is left of them is held, and the actions with it (R407). -/
def State.mirror (s : State) (recs : List Bytes) (acts : List Act) : State :=
  let on := s.pod == podPaired || (s.pod == podSync && s.mir.source)
  let hold := fun (s : State) (l : List Bytes) => { s with mir := { s.mir with held := s.mir.held ++ [{ recs := l, acts := acts, since := s.now }] } }
  if !on || recs.isEmpty then s.acts acts
  else if !s.mir.held.isEmpty then hold s recs
  else if recs.length ≤ s.mirRoom then s.mirPost recs acts
  else hold (s.mirPost (recs.take s.mirRoom) []) (recs.drop s.mirRoom)

/-- GROUP record of an entry as it stands, own inverted (R404). -/
def groupRec (g : Grp) : Bytes := mirRec 2 (gSetOwn g.entry (!gOwn g.entry) ++ [BitVec.ofNat 8 (bit1 g.sfm), 0] ++ leBytes 2 g.base)

def cvecRec (gid step chunk part member event : Nat) : Bytes :=
  mirRec 4 (leBytes 2 gid ++ leBytes 4 step ++ leBytes 3 chunk ++ leBytes 1 part ++ leBytes 2 member ++ leBytes 1 event)

def homeRec (gid src step mark : Nat) : Bytes := mirRec 5 (leBytes 2 gid ++ leBytes 2 src ++ leBytes 4 step ++ leBytes 4 mark)

/-- Sends of a group that have not left are withdrawn: those for which `p` holds (R289, R291). -/
def State.withdraw (s : State) (gid : Nat) (p : GSend → Bool) : State :=
  let stays := fun (g : GSend) => !(g.head.gid == gid && p g)
  let stayA := fun (a : Act) => match a with | .send g => stays g | .ack g _ => stays g | .complete _ _ => true
  { s with
    grpTx := s.grpTx.filter stays
    mir := { s.mir with
      waits := (s.mir.waits.map (fun w => (w.1, w.2.filter stayA))).filter (fun w => !w.2.isEmpty)
      held := s.mir.held.map (fun h => { h with acts := h.acts.filter stayA }) } }

/-- The chunk CRC at the end of a result's payload is wrong (R287). -/
def badCrc (p : Bytes) : Bool := decide (p.length < 4) || crc32c (p.take (p.length - 4)) != beAt p (p.length - 4) 4

/-- What may still leave of an epoch that is over: notices and RETRACT, which tell the members so (DEDUCED: R291 has nothing of the old epoch
released, R290 and R414 send these because of the change), and the result that a rehearsal has released with its chunk CRC inverted (R424). -/
def outlives (opcode : Nat) (payload : Bytes) : Bool :=
  opcode == 0x0B || (opcode == 7 && byteAt payload 1 == 0) || ((opcode == 5 || opcode == 0x0E) && badCrc payload)

/-- Group frames this device made that wait in egress queues are discarded, where `p` says so of header and payload (R291, R302, R412). -/
def State.dropGroupCopies (s : State) (p : Ech → Bytes → Bool) : State :=
  let stale := fun (s : State) (c : Copy) => match s.frm c.frm with
    | some f =>
      let b := s.frameBytes f
      f.own && f.src == 195 && p (echOf b) (echPayload b)
    | none => false
  s.links.foldl (fun s l => (List.range 8).foldl (fun s c =>
    (((s.link l.1).eg.queue c).filter (stale s)).foldl (fun s x => s.dropQueued l.1 c x) s) s) s

end Sys2Proof.Machine
end

