-- ==== Sys2Proof/Machine/Engines.lean ====
section
/-! DEFINITION. One repeat of the entry at the head of a queue (R151, R158, R159, R168, R183, R229, R230). -/

namespace Sys2Proof.Machine

/-- What a repeat leaves: the entry, and for each output element that raised flags the flags and its place. -/
structure Rep where
  e : Entry
  fl : List (Flags × ExcCoord) := []

/-- The lowest place, by row and then column, of an element that raised inv. -/
def firstInv (fl : List (Flags × ExcCoord)) : Option ExcCoord :=
  fl.foldl (fun o x => if bitOf x.1 0 then
    (match o with
     | some c => if x.2.row < c.row || (x.2.row = c.row && decide (x.2.col < c.col)) then some x.2 else o
     | none => some x.2) else o) none

/-- The channel counts a repeat's flags and logs its first inv (R231). -/
def State.noteFlags (s : State) (cx q : Nat) (e : Entry) (fl : List (Flags × ExcCoord)) : State :=
  if fl.isEmpty then s
  else
    let ch := chOf cx
    let s := s.countExc ch (fl.map (·.1))
    match firstInv fl with
    | some c => s.logInv ch { stamp := s.chNow ch, ctx := cx % 32, instr := e.pc, rep := c.rep, unit := q, row := c.row, col := c.col, k := c.k }
    | none => s

/-- An entry gathers a repeat's flags (R191, R230). -/
def Entry.gather (e : Entry) (fl : List (Flags × ExcCoord)) : Entry :=
  { e with exc := fl.foldl (fun a x => a ||| x.1) e.exc, inv := match e.inv with | some c => some c | none => firstInv fl }

/-- The program gathers an entry's flags when the entry ends; its first inv is that of the entry that completed first, at equal
stamps that of the lowest queue (R230). -/
def State.flushEntry (s : State) (cx q : Nat) (e : Entry) : State :=
  s.modCtx cx (fun k =>
    let new := e.inv.map (fun c => ({ stamp := s.chNow (chOf cx), q := q, instr := e.pc, at_ := c } : CtxInv))
    { k with
      exc := k.exc ||| e.exc
      inv := match k.inv, new with
        | some o, some n => if o.stamp = n.stamp && decide (n.q < o.q) then some n else some o
        | some o, none => some o
        | none, n => n })

/-- An entry fails: what its completed repeats gathered is kept, and the context faults (R168, R229). -/
def State.failEntry (s : State) (cx q st : Nat) (e : Entry) : State := (s.flushEntry cx q e).fault cx q st e.pc e.i

/-- What the head entries of a context have gathered in completed repeats joins its report, before the context ends (R230). -/
def State.flushHeads (s : State) (cx : Nat) : State :=
  (List.range 5).foldl (fun s q => match (s.ctx cx).queue q with
    | e :: _ => s.flushEntry cx q e
    | [] => s) s

/-- A context has a repeat for engine `q`; a precv has none while no frame waits (R160). -/
def State.hasWork (s : State) (q cx : Nat) : Bool :=
  let k := s.ctx cx
  match (k.queue q).head? with
  | some e => k.running && isEngine (iOp e.word) && (iOp e.word != 0x51 || !k.fifo.isEmpty)
  | none => false

/-- The engine of queue `q` serves the context next: it is the first with work after the one served last, in round-robin order of context
number (R160). Tiles are not shared, so the M queue has no turns. -/
def State.engineTurn (s : State) (cx q : Nat) : Bool :=
  let ch := chOf cx
  q == 0 || ((List.range 32).map (fun j => 32 * ch + ((s.chan ch).served.get 0 q + j) % 32)).find? (s.hasWork q) == some cx

/-- The engine has served the context: its scratch accesses are the engine's (R342), and the turn passes on (R160). -/
def State.serve (s : State) (cx q : Nat) : State :=
  s.modChan (chOf cx) (fun c => { c with
    served := c.served.put 0 q (cx % 32 + 1)
    events := (c.events.put 0 (16 * q + 8) (c.events.get 0 (16 * q + 8) + c.events.get 0 104)).erase 104 })

/-- The class and number of the events of one repeat of the vector complex, the combine engine and the sort/filter engine (R342, classes 5–7).
Part of a unit counts as one (DESIGN CHOICE). -/
def repeatEvents (w : Nat) : Nat × Nat :=
  match iOp w with
  | 0x20 => (5, if iFd w = 0 then 2048 else 512)
  | 0x21 => (6, match bits w 108 2 with | 0 => 8 | 1 => elemBits (iFa w) / 8 | _ => 12)
  | 0x30 => (7, ceilDiv (2 ^ bits w 104 4) 16)
  | 0x31 => (7, ceilDiv (bits w 107 12 + 1) 16)
  | 0x32 => (7, ceilDiv (2 ^ bits w 116 4) 16)
  | 0x33 => (7, ceilDiv (2 ^ bits w 116 4) 16)
  | _ => (0, 0)

/-- One repeat of the head entry of queue `q`, when that entry has opcode `op`. `body` gives the repeat's effect or its fault, or
`none` while it must wait; `fin` what the entry's completion writes. -/
def State.runRepeat (s : State) (cx q op : Nat) (body : Ctx → Entry → State → Except Nat (Option Rep) × State)
    (fin : Entry → State → State) : State :=
  let k := s.ctx cx
  match k.queue q with
  | [] => s
  | e :: rest =>
    let r := repeats e.word e.cnt
    if !k.running || iOp e.word != op then s
    else if 65536 < r then s.fault cx q stRepeatRange e.pc 0
    else if r = 0 then s.pop cx q
    else if !s.engineTurn cx q then s
    else
      match body k e s with
      | (.error st, s) => (s.serve cx q).failEntry cx q st e
      | (.ok none, s) => s
      | (.ok (some p), s) =>
        let n := repeatEvents e.word
        let s := ((s.serve cx q).event (chOf cx) q n.1 n.2).noteFlags cx q p.e p.fl
        let e := { p.e.gather p.fl with i := e.i + 1 }
        if e.i = r then (fin e (s.flushEntry cx q e)).pop cx q else s.setQueue cx q (e :: rest)

/-- Reads of several operands in order; the first error ends them. -/
def State.readAll (s : State) (ch : Nat) (k : Ctx) (host : HostData) : List Use → Except Nat (List Bytes) × State
  | [] => (.ok [], s)
  | u :: r =>
    match s.useRead ch k host u with
    | (.error e, s) => (.error e, s)
    | (.ok b, s) =>
      match s.readAll ch k host r with
      | (.error e, s) => (.error e, s)
      | (.ok bs, s) => (.ok (b :: bs), s)

/-- Writes of several operands in order; an error ends them. -/
def State.writeAll (s : State) (ch : Nat) (k : Ctx) : List (Use × Bytes) → Option Nat × State
  | [] => (none, s)
  | (u, b) :: r =>
    match s.useWrite ch k u b with
    | (some e, s) => (some e, s)
    | (none, s) => s.writeAll ch k r

/-- A write of the whole operand would meet an uncorrectable word, or fails at the host, whose accesses end as `how`: the status, and the state
that has logged it. -/
def State.writeMeets (s : State) (ch : Nat) (k : Ctx) (how : HostEnd) (u : Use) : Option (Nat × State) :=
  let how := if u.loc.space = 2 && u.n != 0 then s.hostEnd k.d how else .done
  if how ≠ .done then some (stHostAccess, s.hostFail how ch)
  else match s.useWrite ch k u (List.replicate u.n 0) with
    | (some st, s) => some (st, s)
    | (none, _) => none

/-- A repeat that reads `rd`, computes bytes from them, and writes: checks first (R185), all reads before any write (R184). A write
that meets an uncorrectable word faults the repeat with no effect (R152, R431). -/
def State.transfer (s : State) (cx : Nat) (k : Ctx) (host : HostData) (rd wr : List Use)
    (f : List Bytes → Except Nat (List Bytes × List (Flags × ExcCoord) × Entry)) : Except Nat (Option Rep) × State :=
  match s.useChecks k (rd ++ wr) with
  | some st => (.error st, s)
  | none =>
    match s.readAll (chOf cx) k host rd with
    | (.error st, s) => (.error st, s)
    | (.ok bs, s) =>
      match f bs with
      | .error st => (.error st, s)
      | .ok (outs, fl, e) =>
        match wr.findSome? (s.writeMeets (chOf cx) k host.how) with
        | some (st, s) => (.error st, s)
        | none =>
          match s.writeAll (chOf cx) k (wr.zip outs) with
          | (_, s) => (.ok (some { e := e, fl := fl }), s)

end Sys2Proof.Machine
end

