-- ==== Sys2Proof/Machine/Sparse.lean ====
section
/-! DEFINITION. Sparse B operands: the descriptor, block maps, compressed blocks, transposed reads, their checks and counts
(chapter 11). -/

namespace Sys2Proof.Machine

/-! ### The descriptor (R248, R249) -/

def dData (d : Bytes) : Nat := leAt d 0 6
def dC (d : Bytes) : Nat := byteAt d 6
def dTr (d : Bytes) : Bool := bitOf (byteAt d 7) 0
def dMap (d : Bytes) : Nat := leAt d 8 6
def dRows (d : Bytes) : Nat := leAt d 16 2
def dCols (d : Bytes) : Nat := leAt d 18 2
def dRow0 (d : Bytes) : Nat := leAt d 20 2
def dCol0 (d : Bytes) : Nat := leAt d 22 2
def dLen (d : Bytes) : Nat := leAt d 24 6

/-- Checks 1 and 2 of R259. -/
def descCheck (d : Bytes) (w : Nat) : Option Nat :=
  let sp := bits w 122 2
  let mx := bitOf w 124
  if dData d % 32 != 0 || dMap d % 32 != 0 then some stAlign
  else if dC d == 0 || 8 < dC d || dRows d == 0 || dCols d == 0 || 4096 < dCols d || 1 < byteAt d 7 || 31 < byteAt d 14 ||
      byteAt d 15 != 0 || leAt d 30 2 != 0 || (sp == 1 && dMap d != 0) || byteAt d 14 % 16 != iFd w ||
      bitOf (byteAt d 14) 4 != mx || (dTr d && mx) then some stSparseDesc
  else none

/-- Block coordinates of tile `j` in repeat `i` (R250). -/
def blockAt (d : Bytes) (i j : Nat) : Nat × Nat := if dTr d then (dRow0 d + j, dCol0 d + i) else (dRow0 d + i, dCol0 d + j)

/-- Bytes of a dense block and of a compressed one (R251, R253). -/
def denseBytes (f : Nat) (mx : Bool) : Nat := elemBytes f 1024 + 32 * bit1 mx
def packedBytes (f c : Nat) (mx : Bool) : Nat := 128 + elemBytes f (128 * c) + 32 * bit1 mx

/-- Stored size of a block by its code (R253). -/
def codeBytes (f c : Nat) (mx : Bool) : Nat → Nat
  | 0 => 0
  | 1 => packedBytes f c mx
  | _ => denseBytes f mx

/-! ### Blocks as dense B operands (R250–R252, R257) -/

/-- Element (row, column) of a compressed block of W; one not stored is +0. -/
def packedElem (f c : Nat) (b : Bytes) (row col : Nat) : Nat :=
  let q := 4 * row + col / 8
  let m := byteAt b q
  if bitOf m (col % 8) then
    let slot := ((List.range (col % 8)).filter (bitOf m)).length
    element f (b.drop 128) (q * c + slot)
  else 0

/-- Element (k-row, output column) of the B view of a block with a code. -/
def viewElem (f c : Nat) (tr : Bool) (code : Nat) (b : Bytes) (kk n : Nat) : Nat :=
  let (row, col) := if tr then (n, kk) else (kk, n)
  match code with
  | 0 => 0
  | 1 => packedElem f c b row col
  | _ => element f b (32 * row + col)

/-- Nonzeros of row-group (kk, g) of the B view as R260 counts them. -/
def groupCount (f : Nat) (tr : Bool) (code : Nat) (b : Bytes) (kk g : Nat) : Nat :=
  let at_ := fun (i : Nat) => if tr then (8 * g + i, kk) else (kk, 8 * g + i)
  match code with
  | 1 => ((List.range 8).filter (fun i => let (row, col) := at_ i; bitOf (byteAt b (4 * row + col / 8)) (col % 8))).length
  | 3 => ((List.range 8).filter (fun i => let (row, col) := at_ i; !(decodeVal f (element f b (32 * row + col))).isZero)).length
  | _ => 0

/-- The first row-group of a block that holds more than c: kk, g and its count. -/
def overFull (f c : Nat) (tr : Bool) (code : Nat) (b : Bytes) : Option (Nat × Nat × Nat) :=
  (List.range 128).findSome? (fun q =>
    let n := groupCount f tr code b (q / 4) (q % 4)
    if c < n then some (q / 4, q % 4, n) else none)

/-! ### Finding a tile's block (R253, R254, R259) -/

/-- A tile's block: its code and its bytes. -/
structure BlockB where
  code : Nat
  bytes : Bytes

/-- Where a check of R259 failed: status, tile, row-group and count. -/
structure SparseFail where
  status : Nat
  tile : Nat := 0
  kk : Nat := 0
  g : Nat := 0
  count : Nat := 0

/-- Bytes of the tensor's own space, for the range checks of R96 and R152. -/
def sparseUse (space a n : Nat) : Use := { loc := ⟨space, a, none⟩, n := n, align := 1 }

/-- Where the map holds a row's offset, and its codes up to `col` (R254). -/
def mapUses (space : Nat) (d : Bytes) (row col : Nat) : List Use :=
  [sparseUse space (dMap d + 8 * row) 8,
   sparseUse space (dMap d + 32 * ceilDiv (dRows d * 8) 32 + 32 * ceilDiv (dCols d) 128 * row) (col / 4 + 1)]

/-- The map, with its row offset table and its code array (R254). -/
def mapUse (space : Nat) (d : Bytes) : Use :=
  sparseUse space (dMap d) (32 * ceilDiv (dRows d * 8) 32 + 32 * ceilDiv (dCols d) 128 * dRows d)

/-- A row of the map: the row's offset and the codes of its blocks up to `col`, or the order of the check of R259 that fails, with its status. The
offset is judged before the codes are read. -/
def State.mapRow (s : State) (ch : Nat) (k : Ctx) (space : Nat) (d : Bytes) (row col : Nat) : Except (Nat × Nat) (Nat × List Nat) :=
  match s.useRange k (mapUse space d) with
  | some e => .error (4, e)
  | none =>
    match (s.readAll ch k .error ((mapUses space d row col).take 1)).1 with
    | .error e => .error (7, e)
    | .ok os =>
      let off := bits (leNat (os.getD 0 [])) 0 48
      if off % 32 != 0 then .error (4, stAlign)
      else match (s.readAll ch k .error ((mapUses space d row col).drop 1)).1 with
        | .error e => .error (7, e)
        | .ok cs => .ok (off, (List.range (col + 1)).map (fun c => bits (byteAt (cs.getD 0 []) (c / 4)) (2 * (c % 4)) 2))

/-- Tile `j`'s block of repeat `i`: its offset, code and size, or the order of the first of checks 3–7 of R259 that fails, with its status. -/
def State.locateB (s : State) (ch : Nat) (k : Ctx) (w space : Nat) (d : Bytes) (i j : Nat) : Except (Nat × Nat) (Nat × Nat × Nat) :=
  let (row, col) := blockAt d i j
  let f := iFd w
  let mx := bitOf w 124
  if dRows d ≤ row || dCols d ≤ col then .error (3, stIndexRange)
  else
    let found : Except (Nat × Nat) (Nat × Nat) :=
      if bits w 122 2 = 1 then .ok ((row * dCols d + col) * packedBytes f (dC d) mx, 1)
      else match s.mapRow ch k space d row col with
        | .error e => .error e
        | .ok (off, codes) => .ok ((codes.dropLast).foldl (fun a c => a + codeBytes f (dC d) mx c) off, codes.getLastD 0)
    match found with
    | .error e => .error e
    | .ok (off, code) =>
      let n := codeBytes f (dC d) mx code
      if n != 0 && dLen d < off + n then .error (5, stIndexRange)
      else match s.useRange k (sparseUse space (dData d + off) n) with
        | some e => .error (6, e)
        | none => .ok (off, code, n)

/-- The failure of the lowest check before check 7, in the lowest tile, with the check's order: checks are made one after the other over all tiles
of the repeat. -/
def firstFailure (l : List (Except (Nat × Nat) (Nat × Nat × Nat))) : Option (Nat × SparseFail) :=
  l.zipIdx.foldl (fun (b : Option (Nat × SparseFail)) x => match x.1 with
    | .ok _ => b
    | .error (o, st) =>
      if o = 7 || b.any (fun y => decide (y.1 ≤ o)) then b else some (o, { status := st, tile := x.2 })) none

/-- The blocks' bytes (check 7), tile by tile from tile `j`, as far as they can be read; a tile whose map row is uncorrectable reports it. -/
def State.fetchAll (s : State) (ch : Nat) (k : Ctx) (space : Nat) (d : Bytes) (i j : Nat) :
    List (Except (Nat × Nat) (Nat × Nat × Nat)) → List BlockB × Option SparseFail × State
  | [] => ([], none, s)
  | .error (_, st) :: _ => ([], some { status := st, tile := j }, (s.readAll ch k .error (mapUses space d (blockAt d i j).1 (blockAt d i j).2)).2)
  | .ok (off, code, n) :: r =>
    match s.useRead ch k .error (sparseUse space (dData d + off) n) with
    | (.error e, s) => ([], some { status := e, tile := j }, s)
    | (.ok b, s) => let (l, x, s) := s.fetchAll ch k space d i (j + 1) r; (⟨code, b⟩ :: l, x, s)

/-- Check 8 of R259: the first tile with a row-group beyond c. -/
def capacityFail (f : Nat) (d : Bytes) : Nat → List BlockB → Option SparseFail
  | _, [] => none
  | j, b :: r =>
    match overFull f (dC d) (dTr d) b.code b.bytes with
    | some (kk, g, n) => some { status := stSparseCapacity, tile := j, kk := kk, g := g, count := n }
    | none => capacityFail f d (j + 1) r

/-- CH_SPARSE_FAULT of the context is filled, when the fault is the one that the context reports (R169, R261). -/
def State.logSparse (s : State) (cx : Nat) (d : Bytes) (x : SparseFail) : State :=
  let ch := chOf cx
  let c := cx % 32
  let f : CtxFault := { status := x.status, unit := 0, instr := 0, rep := 0, seq := s.seqNow ch (coreOf cx) }
  if !f.first (s.ctx cx).fault then s
  else
    ((((((s.setReg (CH_SPARSE_FAULT_tile ch c) x.tile).setReg (CH_SPARSE_FAULT_kk ch c) x.kk).setReg (CH_SPARSE_FAULT_g ch c) x.g).setReg
      (CH_SPARSE_FAULT_tr ch c) (bit1 (dTr d))).setReg (CH_SPARSE_FAULT_count ch c) x.count).setReg (CH_SPARSE_FAULT_c ch c) (dC d)).setReg
      (CH_SPARSE_FAULT_valid ch c) 1

/-- Rows of the map that a repeat reads (R250, R254). -/
def mapRows (w : Nat) (d : Bytes) (tiles : Nat) : Nat := if bits w 122 2 = 2 then (if dTr d then tiles else min 1 tiles) else 0

/-- Bytes of the map that a repeat reads: each row's offset entry and its codes (R254, R258). -/
def mapBytes (w : Nat) (d : Bytes) (tiles : Nat) : Nat := (8 + 32 * ceilDiv (dCols d) 128) * mapRows w d tiles

/-- Bytes of the map that a repeat has read when a check before check 7 fails: none before the offset of a row is judged, the offsets alone where
one is misaligned, the rows after that (DEDUCED). -/
def mapRead (w : Nat) (d : Bytes) (tiles : Nat) (x : Nat × SparseFail) : Nat :=
  if x.1 < 4 then 0 else if x.1 = 4 then (if x.2.status = stAlign then 8 * mapRows w d tiles else 0) else mapBytes w d tiles

/-- Operand bytes fetched, by space (R247). -/
def State.countFetch (s : State) (ch space n : Nat) : State :=
  if space = 0 then s.count (CH_CTR_store_operand_bytes ch) n else s.count (CH_CTR_scratch_operand_bytes ch) n

/-- Blocks that a sparse repeat has fetched are counted, once per tile, with the `m` bytes of the map; both are B bytes (R247, R258, R264). -/
def State.countBlocks (s : State) (ch w : Nat) (d : Bytes) (m : Nat) (bs : List BlockB) : State :=
  let n := fun (c : Nat) => (bs.filter (fun b => b.code == c)).length
  let s := ((s.count (CH_CTR_absent_blocks ch) (n 0)).count (CH_CTR_sparse_blocks ch) (n 1)).count (CH_CTR_dense_blocks ch) (n 2)
  let s := ((s.count (CH_CTR_escape_blocks ch) (n 3)).count (CH_CTR_map_bytes ch) m).countFetch ch (slSpace (slotB w))
    (bs.foldl (fun a b => a + b.bytes.length) m)
  if dTr d then s.count (CH_CTR_match_busy_cycles ch) (2 * dC d * n 1) else s

/-- The descriptor of a sparse entry: read and checked at repeat 0 (checks 1, 2 and 7 of R259), kept after it. -/
def State.sparseDesc (s : State) (cx : Nat) (k : Ctx) (e : Entry) : Except (Nat × Bytes) Bytes × State :=
  let u : Use := { loc := locOf e.word (slotB e.word) e.b e.xb 0 0, n := 32 }
  match e.desc with
  | some d => (.ok d, s)
  | none =>
    if u.misaligned then (.error (stAlign, []), s)
    else match s.useRead (chOf cx) k .error u with
      | (.error st, s) => (.error (st, []), s)
      | (.ok d, s) =>
        match descCheck d e.word with
        | some st => (.error (st, d), s)
        | none => (.ok d, s)

/-- The B blocks of every tile of a sparse repeat under its descriptor, or the check that failed (R259). -/
def State.sparseTiles (s : State) (cx : Nat) (k : Ctx) (e : Entry) (tiles : Nat) (d : Bytes) : Except SparseFail (List BlockB) × State :=
  let ch := chOf cx
  let space := slSpace (slotB e.word)
  let l := (List.range tiles).map (s.locateB ch k e.word space d e.i)
  match firstFailure l with
  | some x => (.error x.2, s.countBlocks ch e.word d (mapRead e.word d tiles x) [])
  | none =>
    let (bs, bad, s) := s.fetchAll ch k space d e.i 0 l
    let s := s.countBlocks ch e.word d (mapBytes e.word d tiles) bs
    match bad, capacityFail (iFd e.word) d 0 bs with
    | some x, _ => (.error x, s)
    | none, some x => (.error x, s)
    | none, none => (.ok bs, s)

/-- The descriptor and the B blocks of every tile of a sparse repeat, or the failed check, which is logged (R259, R261). -/
def State.sparseBlocks (s : State) (cx : Nat) (k : Ctx) (e : Entry) (tiles : Nat) : Except SparseFail (Bytes × List BlockB) × State :=
  match s.sparseDesc cx k e with
  | (.error (st, d), s) => (.error { status := st }, s.logSparse cx d { status := st })
  | (.ok d, s) =>
    match s.sparseTiles cx k e tiles d with
    | (.error x, s) => (.error x, s.logSparse cx d x)
    | (.ok bs, s) => (.ok (d, bs), s)

end Sys2Proof.Machine
end

