-- ==== Sys2Proof/Machine/Matrix.lean ====
section
/-! DEFINITION. The matrix tiles: mma, mmz and cvt (chapter 10, R192–R194, R217–R219, R226, R227, R237–R241). -/

namespace Sys2Proof.Machine

/-! ### The group rule (R239, R240) -/

/-- A group's products summed on the grid 50 bits below the largest. -/
def groupSum (p : List FVal) : FVal :=
  let infs := p.filterMap (fun x => match x with | .inf n => some n | _ => none)
  if p.any FVal.isNan || (infs.contains true && infs.contains false) then .nan false
  else match infs with
    | n :: _ => .inf n
    | [] =>
      let nz := p.filterMap (fun x => match x with | .fin n m e => if m = 0 then none else some (n, m, e) | _ => none)
      match nz with
      | [] => .fin (p.all (fun x => match x with | .fin n _ _ => n | _ => false)) 0 0
      | h :: t =>
        let u : Int := t.foldl (fun a x => max a (magLog x.2.1 x.2.2)) (magLog h.2.1 h.2.2) - 50
        let s : Int := nz.foldl (fun a x =>
          let v : Nat := if u ≤ x.2.2 then x.2.1 * 2 ^ (x.2.2 - u).toNat else x.2.1 / 2 ^ (u - x.2.2).toNat
          if x.1 then a - v else a + v) 0
        if s = 0 then .fin false 0 0 else .fin (decide (s < 0)) s.natAbs u

/-- A group sum added into an accumulator, rounded RNE to the bank's precision and range (R218, R219). -/
def addBank (acc s : FVal) : FVal × Flags :=
  match FVal.add 0 acc s with
  | (.fin n m e, _) =>
    if m = 0 then (.fin n 0 0, 0)
    else
      let q := bankFmt.grid m e
      let (r, _) := roundMag n m e q 0 0
      match bankFmt.encode n r q with
      | some c => (bankFmt.decode c, 0)
      | none => (.inf n, fOvf)
  | (x, _) => (x, 0)

/-- The first product of a group that raises inv: an invalid product, or an infinity against one already present (R240). -/
def groupInv : List (FVal × Flags) → Option Bool → Nat → Option Nat
  | [], _, _ => none
  | (p, f) :: r, inf, kk =>
    if f != 0 then some kk
    else match p with
      | .inf n => if inf = some (!n) then some kk else groupInv r (some n) (kk + 1)
      | _ => groupInv r inf (kk + 1)

/-- One group: the accumulator after it, its flags, and where it first raised inv. -/
def mmaGroup (acc : FVal) (p : List (FVal × Flags)) (k0 : Nat) : FVal × Flags × Option Nat :=
  let (r, f) := addBank acc (groupSum (p.map (·.1)))
  let at_ := groupInv p (match acc with | .inf n => some n | _ => none) k0
  (r, f ||| (if at_.isSome then fInv else 0), at_)

/-- The groups of an element in k order. -/
def mmaGroups (g : Nat) : List (List (FVal × Flags)) → FVal → Flags → Option Nat → Nat → FVal × Flags × Option Nat
  | [], acc, f, at_, _ => (acc, f, at_)
  | p :: r, acc, f, at_, k0 =>
    let (acc, f', a) := mmaGroup acc p k0
    mmaGroups g r acc (f ||| f') (match at_ with | some x => some x | none => a) (k0 + g)

/-- A list cut into pieces of `g`; `n` pieces. -/
def pieces {α : Type} (g : Nat) : Nat → List α → List (List α)
  | 0, _ => []
  | n + 1, l => l.take g :: pieces g n (l.drop g)

/-- mma_element (R239): accumulator code after one repeat, flags, and the k-row of the first inv. -/
def mmaElement (acc : Nat) (a b : List FVal) (g : Nat) : Nat × Flags × Option Nat :=
  let p := List.zipWith FVal.mul a b
  let (r, f, at_) := mmaGroups g (pieces g (32 / g) p) (bankFmt.decode acc) 0 none 0
  ((match r with
    | .nan _ => bankFmt.nanCode
    | .inf n => bankFmt.infinity n
    | .fin n m e => (bankFmt.encode n m e).getD (bankFmt.infinity n)), f, at_)

/-- An integer element (R241). -/
def mmaInteger (acc : Nat) (a b : List Int) : Nat := unsigned 32 (signed 32 acc + (List.zipWith (· * ·) a b).foldl (· + ·) 0)

/-- An element under a block scale (R217): 0xFF makes it NaN. -/
def scaled (sc : Option Nat) (x : FVal) : FVal :=
  match sc with
  | none => x
  | some s => if s = 255 then .nan false else match x with
    | .fin n m e => .fin n m (e + ((s : Int) - 127))
    | y => y

/-! ### Banks (R237, R238) -/

def State.bank (s : State) (ch tile b : Nat) : Bank := (s.chan ch).banks.get {} (4 * tile + b)

/-- A bank's elements: those of kind zero are +0 or 0. -/
def Bank.elems (b : Bank) : List Nat := if b.kind = 0 then List.replicate 1024 0 else b.vals

/-- Some tile's bank is of the other kind. -/
def State.kindClash (s : State) (ch b want : Nat) (tiles : List Nat) : Bool :=
  tiles.any (fun t => let k := (s.bank ch t b).kind; k != 0 && k != want)

/-- Banks of several tiles replaced, which ends an error in them (R431). -/
def State.setBanks (s : State) (ch b : Nat) (l : List (Nat × Bank)) : State :=
  s.modChan ch (fun c => { c with
    banks := l.foldl (fun t x => t.put {} (4 * x.1 + b) x.2) c.banks
    bankUe := c.bankUe.filter (fun y => !l.any (fun x => 4 * x.1 + b == y)) })

/-- Some tile's bank holds an uncorrectable word, which faults the entry that reads it (R431). -/
def State.bankBad (s : State) (ch b : Nat) (tiles : List Nat) : Bool := tiles.any (fun t => (s.chan ch).bankUe.contains (4 * t + b))

/-! ### Tile starts (R171, R234) -/

/-- A tile has done no work in the preceding 64 CORE cycles; the work of a repeat that goes on ends later than now. -/
def State.tileIdle (s : State) (ch t : Nat) : Bool :=
  match (s.chan ch).tileAt.get 0 t with
  | 0 => true
  | n + 1 => decide (64 ≤ s.coreNow (ch / 2) - n)

/-- Every tile works already or has its start admitted. -/
def State.tilesOpen (s : State) (ch : Nat) (tiles : List Nat) : Bool :=
  tiles.all (fun t => !s.tileIdle ch t || (s.chan ch).admitted.contains t)

/-- A repeat that begins now works in each of these tiles for so many CORE cycles (R234, R236, R258). -/
def State.tilesWork (s : State) (ch : Nat) (l : List (Nat × Nat)) : State :=
  s.modChan ch (fun c => { c with
    tileAt := l.foldl (fun t x => if x.2 = 0 then t else t.put 0 x.1 (s.coreNow (ch / 2) + x.2 + 1)) c.tileAt })

/-- A repeat that has passed its checks waits until all its tiles may begin; a fault does not wait. `s` is the state before it. -/
def State.begin_ (s : State) (ch : Nat) (tiles : List Nat) (r : Except Nat (Option Rep) × State) : Except Nat (Option Rep) × State :=
  match r with
  | (.error e, t) => (.error e, t)
  | (.ok p, t) => if s.tilesOpen ch tiles then (.ok p, t.modChan ch (fun c => { c with admitted := c.admitted.filter (fun t => !tiles.contains t) }))
    else (.ok none, s)

/-! ### mma (R192, R232, R233, R236) -/

/-- MACs per cycle of a tile (R233). -/
def macRate (f : Nat) : Nat := match f with | 1 => 32 | 2 => 64 | 3 => 128 | 4 => 128 | 9 => 512 | 0xD => 512 | _ => 256

def tileRate (w : Nat) : Nat := min (macRate (iFa w)) (macRate (iFd w))

/-- Group size (R233). -/
def groupSize (w : Nat) : Nat := if elemBits (iFa w) = 4 && elemBits (iFd w) = 4 then 32 else 16

/-- B as columns of 32 codes, with the scales of its columns. -/
def viewCols (f c : Nat) (tr : Bool) (x : BlockB) : List (List Nat) :=
  (List.range 32).map (fun n => (List.range 32).map (fun kk => viewElem f c tr x.code x.bytes kk n))

def blockScales (mx : Bool) (b : Bytes) (n : Nat) : List (Option Nat) :=
  (List.range 32).map (fun i => if mx then some (if b.isEmpty then 127 else byteAt b (n + i)) else none)

/-- One tile's bank after a repeat, with the flags of its elements; `j` is its place in the gmask. -/
def mmaTile (w i j c : Nat) (tr : Bool) (a : Bytes) (x : BlockB) (old : Bank) : Bank × List (Flags × ExcCoord) :=
  let fa := iFa w
  let fd := iFd w
  let mx := bitOf w 124
  let acc := old.elems
  let cols := viewCols fd c tr x
  let rows := (List.range 32).map (fun r => (List.range 32).map (fun kk => element fa a (32 * r + kk)))
  if 0xA ≤ fa then
    let ai := rows.map (fun l => l.map (fun v => signed (elemBits fa) v))
    let bi := cols.map (fun l => l.map (fun v => signed (elemBits fd) v))
    (⟨2, (List.range 1024).map (fun e => mmaInteger (acc.getD e 0) (ai.getD (e / 32) []) (bi.getD (e % 32) []))⟩, [])
  else
    let sa := blockScales mx a (elemBytes fa 1024)
    let sb := blockScales mx x.bytes (x.bytes.length - 32)
    let av := List.zipWith (fun l s => l.map (fun v => scaled s (decodeVal fa v))) rows sa
    let bv := List.zipWith (fun l s => l.map (fun v => scaled s (decodeVal fd v))) cols sb
    let res := (List.range 1024).map (fun e => mmaElement (acc.getD e 0) (av.getD (e / 32) []) (bv.getD (e % 32) []) (groupSize w))
    (⟨1, res.map (·.1)⟩, (res.zipIdx).filterMap (fun (r, e) =>
      if r.2.1 = 0 then none else some (r.2.1, { rep := i, row := e / 32, col := 32 * j + e % 32, k := 32 * i + r.2.2.getD 0 })))

/-- The event class of tile work (R342). -/
def tileClass (w : Nat) : Nat := match tileRate w with | 512 => 0 | 256 => 1 | 128 => 2 | 64 => 3 | _ => 4

/-- CORE cycles that each tile computes in a sparse repeat (R258). -/
def sparseCycles (w c : Nat) (x : BlockB) : Nat :=
  match x.code with
  | 0 => 0
  | 1 => 4096 * c / tileRate w
  | _ => 32768 / tileRate w

/-- The B blocks of a dense repeat, counted as they are fetched (R247). -/
def State.denseBlocks (s : State) (ch : Nat) (k : Ctx) (w : Nat) (ubs : List Use) : Except Nat (List BlockB) × State :=
  match s.readAll ch k .error ubs with
  | (.error st, s) => (.error st, s)
  | (.ok l, s) => (.ok (l.map (fun x => ⟨2, x⟩)), s.countFetch ch (slSpace (slotB w)) (ubs.foldl (fun n u => n + u.n) 0))

/-- One repeat of mma, whose operands were late by `waited` CORE cycles: its tiles stood idle for them (R234). -/
def State.mmaBody (cx waited : Nat) (k : Ctx) (e : Entry) (s : State) : Except Nat (Option Rep) × State :=
  let ch := chOf cx
  let w := e.word
  let tiles := tilesOf (gmaskOf w)
  let mx := bitOf w 124
  let sparse := bits w 122 2 != 0
  let b := bankOf w
  let want := if 0xA ≤ iFa w then 2 else 1
  let ua : Use := { loc := locOf w (slotA w) e.a e.xa e.i 0, n := denseBytes (iFa w) mx }
  let nb := denseBytes (iFd w) mx
  let ubs : List Use := if sparse then [] else
    (List.range tiles.length).map (fun j => { loc := locOf w (slotB w) e.b e.xb e.i (j * nb), n := nb })
  let ud : List Use := if sparse && e.desc.isNone then [{ loc := locOf w (slotB w) e.b e.xb 0 0, n := 32, align := 1 }] else []
  match s.useChecks k (ua :: ubs ++ ud) with
  | some st => (.error st, s)
  | none =>
    if s.kindClash ch b want tiles then (.error stBankKind, s)
    else
      let got : Except Nat (Bytes × List BlockB) × State :=
        if sparse then (match s.sparseBlocks cx k e tiles.length with
          | (.error x, s) => (.error x.status, s)
          | (.ok r, s) => (.ok r, s))
        else (match s.denseBlocks ch k w ubs with
          | (.error st, s) => (.error st, s)
          | (.ok l, s) => (.ok ([], l), s))
      match got with
      | (.error st, s) => (.error st, s)
      | (.ok (d, blocks), s) =>
        match s.useRead ch k .error ua with
        | (.error st, s) => (.error st, s)
        | (.ok a, s) =>
          let s := s.countFetch ch (slSpace (slotA w)) ua.n
          if s.bankBad ch b tiles then (.error stMemUncorrectable, s.scratchUe ch)
          else
            let res := (tiles.zip blocks).zipIdx.map (fun ((t, x), j) => (t, mmaTile w e.i j (dC d) (dTr d) a x (s.bank ch t b)))
            let s := s.setBanks ch b (res.map (fun r => (r.1, r.2.1)))
            let work := (tiles.zip blocks).map (fun (t, x) => (t, if sparse then sparseCycles w (dC d) x else 32768 / tileRate w))
            let busy := work.foldl (fun n x => n + x.2) 0
            let s := (((s.tilesWork ch work).count (CH_CTR_mma_repeats ch)).count (CH_CTR_tile_busy_cycles ch) busy).event ch 0 (tileClass w) busy
            let s := s.count (CH_CTR_operand_wait_cycles ch) (waited * (tiles.length / 16))
            (.ok (some { e := if sparse then { e with desc := some d } else e, fl := res.flatMap (fun r => r.2.2) }), s)

/-- One repeat of mmz (R193), of 8 CORE cycles (R236). -/
def State.mmzBody (cx : Nat) (_ : Ctx) (e : Entry) (s : State) : Except Nat (Option Rep) × State :=
  let b := (bankOf e.word + e.i) % 4
  let tiles := tilesOf (gmaskOf e.word)
  (.ok (some { e := e }), (s.setBanks (chOf cx) b (tiles.map (fun t => (t, {})))).tilesWork (chOf cx) (tiles.map (fun t => (t, 8))))

/-- A repeat of an M entry in the tiles of its gmask. -/
def State.inTiles (cx : Nat) (body : Ctx → Entry → State → Except Nat (Option Rep) × State) (k : Ctx) (e : Entry) (s : State) :
    Except Nat (Option Rep) × State :=
  s.begin_ (chOf cx) (tilesOf (gmaskOf e.word)) (body k e s)

/-! ### cvt (R194, R226, R227) -/

/-- Largest exponent of an MX element format (R227). -/
def emaxOf (f : Nat) : Int := match f with | 5 => 8 | 6 => 15 | 7 => 4 | _ => 2

/-- The scale exponent of a block of bank values; `none` when one is NaN (R227). -/
def blockExp (fd : Nat) (vs : List FVal) : Option Int :=
  if vs.any FVal.isNan then none
  else
    let logs := vs.filterMap (fun v => match v with | .fin _ m e => if m = 0 then none else some (magLog m e) | _ => none)
    match logs with
    | [] => some (-127)
    | h :: t => some (max (-127) (min 127 (t.foldl max h - emaxOf fd)))

/-- One output element (R226): `xb` is the block's scale exponent under mx. -/
def cvtElement (v : FVal) (ep : Option (FVal × FVal × FVal × FVal)) (fd rnd u : Nat) (xb : Option Int) : Nat × Flags :=
  let (sc, b, lo, hi) := ep.getD (.fin false 1 0, .fin false 0 0, .nan false, .nan false)
  let (t, f1) := match xb with
    | some x => (match v with | .fin n m e => FVal.fin n m (e - x) | y => y, 0)
    | none => FVal.mul v sc
  let (t, f2) := FVal.add rnd t b
  let ov := (convert t fd rnd u).2 &&& fOvf
  let t := if !lo.isNan && t.lt lo then lo else t
  let t := if !hi.isNan && hi.lt t then hi else t
  let (c, f3) := convert t fd rnd u
  (c, f1 ||| f2 ||| ov ||| f3)

/-- Rounding mode in force: SR is RNE under SBK_POLICY.sr_rne (R327). -/
def State.rounding (s : State) (rnd : Nat) : Nat := if rnd = 4 && s.flag SBK_POLICY_sr_rne then 0 else rnd

/-- Bank element as a value. -/
def bankVal (kind c : Nat) : FVal :=
  if kind = 2 then (let v := signed 32 c; .fin (decide (v < 0)) v.natAbs 0) else bankFmt.decode c

/-- The codes, flags and scale of one row of one tile. -/
def cvtRow (k : Ctx) (e : Entry) (tiles rnd row j : Nat) (recs : List (FVal × FVal × FVal × FVal)) (vs : List FVal) :
    List (Nat × Flags) × Nat :=
  let fd := iFd e.word
  let mx := bitOf e.word 126
  let xb := if mx then blockExp fd vs else some 0
  let elem := fun (n : Nat) =>
    let col := 32 * j + n
    let idx := (e.i * 1024 * tiles + row * 32 * tiles + col) % 2 ^ 32
    let u := if rnd = 4 then sesame k.seed k.step e.tid idx else 0
    cvtElement (vs.getD n (.fin false 0 0)) recs[col]? fd rnd u (if mx then xb else none)
  match xb with
  | none => (List.replicate 32 ((match fmtOf fd with | some f => if f.nan = 0 then 0 else f.nanCode | none => 0), 0), 255)
  | some x => ((List.range 32).map elem, (x + 127).toNat)

/-- One repeat of cvt. -/
def State.cvtBody (cx : Nat) (k : Ctx) (e : Entry) (s : State) : Except Nat (Option Rep) × State :=
  let ch := chOf cx
  let w := e.word
  let tiles := tilesOf (gmaskOf w)
  let t := tiles.length
  let fd := iFd w
  let mx := bitOf w 126
  let b := (bankOf w + e.i) % 4
  let want := if iFa w = 0xA then 2 else 1
  let mat := elemBytes fd (1024 * t)
  let ua : List Use := if bitOf w 125 then [{ loc := locOf w (slotA w) e.a e.xa e.i 0, n := 16 * 32 * t }] else []
  let ud : Use := { loc := locOf w (slotD w) e.d e.xd e.i 0, n := mat + 32 * t * bit1 mx }
  match s.useChecks k (ua ++ [ud]) with
  | some st => (.error st, s)
  | none =>
    if s.kindClash ch b want tiles then (.error stBankKind, s)
    else if s.bankBad ch b tiles then (.error stMemUncorrectable, s.scratchUe ch)
    else
      match s.readAll ch k .error ua with
      | (.error st, s) => (.error st, s)
      | (.ok bs, s) =>
        let s := s.countFetch ch (slSpace (slotA w)) (ua.foldl (fun a u => a + u.n) 0)
        let f32 := fun (x : Bytes) (o : Nat) => decodeVal 1 (leAt x o 4)
        let recs := (bs.headD []) |> (fun x => (List.range (x.length / 16)).map (fun c => (f32 x (16 * c), f32 x (16 * c + 4), f32 x (16 * c + 8), f32 x (16 * c + 12))))
        let rnd := s.rounding (rndOf w)
        let vals := tiles.map (fun x => let bk := s.bank ch x b; bk.elems.map (bankVal (if bk.kind = 0 then want else bk.kind)))
        let rows := (List.range 32).map (fun r => vals.zipIdx.map (fun (v, j) => cvtRow k e t rnd r j recs ((v.drop (32 * r)).take 32)))
        let codes := rows.flatMap (fun l => l.flatMap (fun x => x.1))
        let scales := if mx then rows.flatMap (fun l => l.map (fun x => BitVec.ofNat 8 x.2)) else []
        let out := pack fd (codes.map (·.1)) ++ scales
        match s.useWrite ch k ud out with
        | (some st, s) => (.error st, s)
        | (none, s) =>
          let s := if bitOf w 127 then s.setBanks ch b (tiles.map (fun x => (x, {}))) else s.setBanks ch b []
          let fl := codes.zipIdx.filterMap (fun (c, i) =>
            if c.2 = 0 then none else some (c.2, ({ rep := e.i, row := i / (32 * t), col := i % (32 * t), k := 0x1FFFFF } : ExcCoord)))
          (.ok (some { e := e, fl := fl }), (s.tilesWork ch (tiles.map (fun x => (x, 64)))).count (CH_CTR_cvt_repeats ch))

/-! ### The commands -/

def execMma (x : MmaRun) (s : State) : Host.Outcome State Fault Refusal :=
  s.runs (fun s => s.runRepeat x.cx.val 0 0x10 (State.inTiles x.cx.val (State.mmaBody x.cx.val x.waited)) (fun _ s => s))
def execMmz (cx : Cx) (s : State) : Host.Outcome State Fault Refusal :=
  s.runs (fun s => s.runRepeat cx.val 0 0x11 (State.inTiles cx.val (State.mmzBody cx.val)) (fun _ s => s))
def execCvt (cx : Cx) (s : State) : Host.Outcome State Fault Refusal :=
  s.runs (fun s => s.runRepeat cx.val 0 0x12 (State.inTiles cx.val (State.cvtBody cx.val)) (fun _ s => s))

end Sys2Proof.Machine
end

