-- ==== Sys2Proof/Machine/Vector.lean ====
section
/-! DEFINITION. The vector complex and the combine engine's arithmetic: vop and red (R195, R196, R213, R214, R225, R228, R279–R283). -/

namespace Sys2Proof.Machine

/-! ### Approximations of operations 8–11 (R195, R225) -/

/-- Floor of the square root. -/
def isqrt : Nat → Nat → Nat
  | 0, _ => 0
  | fuel + 1, n =>
    if n = 0 then 0
    else
      let r := 2 * isqrt fuel (n / 4)
      if (r + 1) * (r + 1) ≤ n then r + 1 else r

/-- Bits of fraction that e^x is computed with. -/
def expBits : Nat := 320

/-- Terms y^k / k! for y in units of 2^-expBits, summed. -/
def expSeries (y : Nat) : Nat → Nat → Nat → Nat → Nat
  | 0, _, _, acc => acc
  | fuel + 1, k, t, acc => let t := t * y / (2 ^ expBits * k); expSeries y fuel (k + 1) t (acc + t)

/-- `n` squarings. -/
def squares : Nat → Nat → Nat
  | 0, v => v
  | n + 1, v => squares n (v * v / 2 ^ expBits)

/-- e^(m × 2^e) in units of 2^-expBits, for an argument below 2^11. -/
def expFix (m : Nat) (e : Int) : Nat :=
  let x := if -(expBits : Int) ≤ e then m * 2 ^ (e + expBits).toNat else m / 2 ^ (-(e + expBits)).toNat
  squares 24 (expSeries (x / 2 ^ 24) 40 1 (2 ^ expBits) (2 ^ expBits))

/-- A magnitude cut down to `p` significant bits, on no finer grid than 2^qmin: count, grid, exact. -/
def cutTo (p : Nat) (qmin : Int) (m : Nat) (e : Int) (exact : Bool) : Nat × Int × Bool :=
  if m = 0 then (0, qmin, exact)
  else
    let q := max (magLog m e - p + 1) qmin
    if q ≤ e then (m * 2 ^ (e - q).toNat, q, exact) else (m / 2 ^ (q - e).toNat, q, exact && m % 2 ^ (q - e).toNat == 0)

/-- The magnitude of operation 8 exp, 9 rcp, 10 rsq or 11 sig of a finite nonzero operand, cut down to the working format. -/
def approxCut (op p : Nat) (qmin : Int) (neg : Bool) (m : Nat) (e : Int) : Nat × Int × Bool :=
  let P : Int := expBits
  let small := decide (magLog m e < -60)
  let big := decide (11 ≤ magLog m e)
  let above := fun (q : Int) => (2 ^ (p - 1), q - p + 1, false)
  let below := fun (q : Int) => (2 ^ p - 1, q - p, false)
  match op with
  | 8 =>
    if small then (if neg then below 0 else above 0)
    else if big then (if neg then (0, qmin, false) else (1, 4000, false))
    else if neg then cutTo p qmin (2 ^ (2 * expBits + 3200) / expFix m e) (-(P + 3200)) false
    else cutTo p qmin (expFix m e) (-P) false
  | 9 => cutTo p qmin (2 ^ 160 / m) (-160 - e) (2 ^ 160 % m == 0)
  | 10 =>
    let (m, e) := if e % 2 = 0 then (m, e) else (2 * m, e - 1)
    let t := isqrt 140 (2 ^ 256 / m)
    cutTo p qmin t (-128 - e / 2) (t * t * m == 2 ^ 256)
  | _ =>
    if small then (if neg then below (-1) else above (-1))
    else if big then (if neg then (0, qmin, false) else below 0)
    else
      let x := expFix m e
      if neg then cutTo p qmin (2 ^ (expBits + 3200) / (x + 2 ^ expBits)) (-3200) false
      else cutTo p qmin (x * 2 ^ 128 / (x + 2 ^ expBits)) (-128) false

/-- The approximation that is rounded: a value within one unit in the last place of FP32, or of FP64 for an FP64 operand, which
one the arithmetic revision fixes (R195). Whether a magnitude that lies outside that format's range leaves it there, with the flags of
leaving, is free as well. -/
def approx (op f code : Nat) (neg : Bool) (m : Nat) (e : Int) : FVal × Flags :=
  let p := if f = 0 then 53 else 24
  let (n, q, exact) := approxCut op p (if f = 0 then -1074 else -149) neg m e
  let c := Config.ulpChoice op f (significant f code)
  let sgn := neg && op == 9
  let n := if exact then n + c % 3 - 1 else n + c % 2
  let leaves := c / 6 % 2 == 1
  if leaves && decide ((if f = 0 then 1024 else 128) ≤ magLog n q) then (.inf sgn, fOvf + fInx)
  else (.fin sgn n q, if leaves && n == 0 then fUnf + fInx else 0)

/-- Operations 8–11 (R195, R228). -/
def transcend (op f code : Nat) : FVal × Flags :=
  match decodeVal f code with
  | .nan s => (.nan s, 0)
  | .inf n =>
    match op with
    | 8 => (if n then .fin false 0 0 else .inf false, 0)
    | 9 => (.fin n 0 0, 0)
    | 10 => if n then (.nan false, fInv) else (.fin false 0 0, 0)
    | _ => (if n then .fin false 0 0 else .fin false 1 0, 0)
  | .fin n m e =>
    if m = 0 then
      match op with
      | 8 => (.fin false 1 0, 0)
      | 9 => (.inf n, fDbz)
      | 10 => (.inf n, fDbz)
      | _ => (.fin false 1 (-1), 0)
    else if op = 10 && n then (.nan false, fInv)
    else approx op f code n m e

/-! ### vop (R195, R213, R214) -/

/-- IEEE 754-2019 maximum or minimum (R214); a signaling operand raises inv (R212). -/
def maxMin (isMax : Bool) (a b : FVal) : FVal × Flags :=
  if a.isNan || b.isNan then (.nan false, if a.signaling || b.signaling then fInv else 0)
  else
    let negative := fun (v : FVal) => match v with | .fin n _ _ => n | .inf n => n | _ => false
    let less := a.lt b || (!b.lt a && negative a && !negative b)
    (if less == isMax then b else a, 0)

def isIntFmt (f : Nat) : Bool := intFmts.contains f

/-- An element of an integer format as an integer. -/
def intVal (f c : Nat) : Int := signed (elemBits f) c

/-- An integer as an exact value. -/
def ofInt (i : Int) : FVal := .fin (decide (i < 0)) i.natAbs 0

/-- Integer operations (R195): `z` is D, `xs` the scalar register. -/
def vopInt (op : Nat) (x y z : Int) (xs : Nat) : Int :=
  match op with
  | 0 => x + y
  | 1 => x - y
  | 2 => x * y
  | 3 => x * y + z
  | 4 => max x y
  | 5 => min x y
  | 7 => x * signed 32 xs
  | 12 => max x 0
  | 13 => signed 32 (unsigned 32 x &&& unsigned 32 y)
  | 14 => signed 32 (unsigned 32 x ||| unsigned 32 y)
  | _ => signed 32 (unsigned 32 x ^^^ unsigned 32 y)

/-- One lane of vop: codes a and b in fa, d in fd; the scalar xs; the mode and the Sesame draw. -/
def vopElement (op fa fd : Nat) (a b d xs rnd u : Nat) : Nat × Flags :=
  let va := decodeVal fa a
  let vb := decodeVal fa b
  let fin := fun (x : FVal × Flags) => let (c, f) := convert x.1 fd rnd u; (c, x.2 ||| f)
  if op = 6 then fin (va, 0)
  else if isIntFmt fa then
    if isIntFmt fd then (unsigned (elemBits fd) (vopInt op (intVal fa a) (intVal fa b) (intVal fd d) xs), 0)
    else if op = 3 then fin (FVal.add rnd (ofInt (intVal fa a * intVal fa b)) (decodeVal fd d))
    else fin (ofInt (vopInt op (intVal fa a) (intVal fa b) 0 xs), 0)
  else
    match op with
    | 0 => fin (FVal.add rnd va vb)
    | 1 => fin (FVal.add rnd va vb.neg)
    | 2 => fin (FVal.mul va vb)
    | 3 =>
      let (p, f) := FVal.mul va vb
      let (r, g) := FVal.add rnd p (decodeVal fd d)
      fin (r, f ||| g)
    | 4 => fin (maxMin true va vb)
    | 5 => fin (maxMin false va vb)
    | 7 => fin (FVal.mul va (decodeVal 1 xs))
    | 12 => fin (maxMin true va (.fin false 0 0))
    | _ => fin (transcend op fa a)

/-- Flags of a list of elements, at row 0 and the element's column (R230). -/
def laneFlags (rep : Nat) (l : List (Nat × Flags)) : List (Flags × ExcCoord) :=
  l.zipIdx.filterMap (fun (c, i) => if c.2 = 0 then none else some (c.2, { rep := rep, row := 0, col := i, k := 0x1FFFFF }))

/-- One repeat of vop. -/
def State.vopBody (cx : Nat) (k : Ctx) (e : Entry) (s : State) : Except Nat (Option Rep) × State :=
  let w := e.word
  let op := bits w 104 5
  let fa := iFa w
  let fd := iFd w
  let ua : Use := { loc := locOf w (slotA w) e.a e.xa e.i 0, n := elemBytes fa 512 }
  let ub : Use := { loc := locOf w (slotB w) e.b e.xb e.i 0, n := elemBytes fa 512 }
  let ud : Use := { loc := locOf w (slotD w) e.d e.xd e.i 0, n := elemBytes fd 512 }
  let rnd := s.rounding (rndOf w)
  s.transfer cx k .error ([ua] ++ (if vopBinary op then [ub] else []) ++ (if op = 3 then [ud] else [])) [ud] (fun bs =>
    let a := bs.getD 0 []
    let b := if vopBinary op then bs.getD 1 [] else []
    let d := if op = 3 then bs.getD 2 [] else []
    let res := (List.range 512).map (fun i =>
      let u := if rnd = 4 then sesame k.seed k.step e.tid ((e.i * 512 + i) % 2 ^ 32) else 0
      vopElement op fa fd (element fa a i) (element fa b i) (element fd d i) e.m1 rnd u)
    .ok ([pack fd (res.map (·.1))], laneFlags e.i res, e))

/-! ### red and the anchored sums (R196, R279–R283) -/

/-- EAGER: D op A in one format, sums rounded RNE, integer sums wrapping (R196, R279). -/
def eager (f op d a : Nat) : Nat × Flags :=
  if isIntFmt f then
    (unsigned (elemBits f) (match op with
      | 0 => intVal f d + intVal f a
      | 1 => max (intVal f d) (intVal f a)
      | _ => min (intVal f d) (intVal f a)), 0)
  else
    let (x, g) := match op with
      | 0 => FVal.add 0 (decodeVal f d) (decodeVal f a)
      | 1 => maxMin true (decodeVal f d) (decodeVal f a)
      | _ => maxMin false (decodeVal f d) (decodeVal f a)
    let (c, h) := convert x f 0 0
    (c, g ||| h)

/-- The EAGER weighted form: D + w × A, rounded once to FP32. -/
def weighted (fa d w a : Nat) : Nat × Flags :=
  let (p, f) := FVal.mul (decodeVal 1 w) (decodeVal fa a)
  let (x, g) := FVal.add 0 (decodeVal 1 d) p
  let (c, h) := convert x 1 0 0
  (c, f ||| g ||| h)

/-- The anchor code of an element (R280). -/
def anchorOf (f c : Nat) : Nat :=
  match decodeVal f c with
  | .nan s => if s then 0xFF else 0xFC
  | .inf n => if n then 0xFE else 0xFD
  | .fin _ m e => if m = 0 then 53 else (max (magLog m e + 1) (-70) + 123).toNat

/-- Codes merged (R280); a finite code below 53 is taken as 53. -/
def mergeAnchor (x y : Nat) : Nat :=
  let x := max 53 x
  let y := max 53 y
  if x = 0xFF || y = 0xFF || (x = 0xFD && y = 0xFE) || (x = 0xFE && y = 0xFD) then 0xFF
  else if x = 0xFC || y = 0xFC then 0xFC
  else if 0xFD ≤ x then x
  else if 0xFD ≤ y then y
  else max x y

/-- The 96-bit integer that an element adds under a code (R281). -/
def anchorInt (f c a : Nat) : Nat :=
  let a := max 53 a
  if 0xFC ≤ a then 0
  else
    match decodeVal f c with
    | .fin n m e =>
      let q : Int := (a : Int) - 123 - 79
      if q ≤ e then unsigned 96 (onGrid n m e q)
      else
        let k := (q - e).toNat
        unsigned 96 (if n then -(((m + 2 ^ k - 1) / 2 ^ k : Nat) : Int) else ((m / 2 ^ k : Nat) : Int))
    | _ => Config.anchorOpen c a % 2 ^ 96

/-- The resolve of an element (R283): its 96-bit integer and its code, in format `f`. -/
def resolve (f v a : Nat) : Nat × Flags :=
  let a := max 53 a
  let nan := (convert (.nan false) f 0 0).1
  if a = 0xFF then (nan, fInv)
  else if a = 0xFC then (nan, 0)
  else if a = 0xFD then convert (.inf false) f 0 0
  else if a = 0xFE then convert (.inf true) f 0 0
  else
    let n := signed 96 v
    convert (.fin (decide (n < 0)) n.natAbs ((a : Int) - 123 - 79)) f 0 0

/-- One repeat of red. -/
def State.redBody (cx : Nat) (k : Ctx) (e : Entry) (s : State) : Except Nat (Option Rep) × State :=
  let w := e.word
  let op := bits w 104 4
  let cls := bits w 108 2
  let wt := bitOf w 110
  let fa := iFa w
  let fd := iFd w
  let n := if cls = 0 then 256 / (elemBits fa / 8) else 32
  let na := match cls with | 0 => 256 | 1 => elemBytes fa 32 | _ => 384
  let nd := match cls with | 0 => if wt then 4 * n else 256 | 1 => 384 | _ => elemBytes fd 32
  let ua : Use := { loc := locOf w (slotA w) e.a e.xa e.i 0, n := na }
  let ub : Use := { loc := locOf w (slotB w) e.b e.xb e.i 0, n := if wt then 4 else 32, align := if wt then 4 else 32 }
  let ud : Use := { loc := locOf w (slotD w) e.d e.xd e.i 0, n := nd }
  let hasB := wt || cls != 0
  s.transfer cx k .error ([ua] ++ (if hasB then [ub] else []) ++ (if cls = 2 then [] else [ud])) [ud] (fun bs =>
    let a := bs.getD 0 []
    let b := if hasB then bs.getD 1 [] else []
    let d := if cls = 2 then [] else bs.getLastD []
    match cls with
    | 0 =>
      let res := (List.range n).map (fun i =>
        if wt then weighted fa (element 1 d i) (leNat b) (element fa a i) else eager fa op (element fa d i) (element fa a i))
      .ok ([pack (if wt then 1 else fa) (res.map (·.1))], laneFlags e.i res, e)
    | 1 =>
      .ok ([(List.range 32).flatMap (fun i => leBytes 12 ((leAt d (12 * i) 12 + anchorInt fa (element fa a i) (byteAt b i)) % 2 ^ 96))], [], e)
    | _ =>
      let res := (List.range 32).map (fun i => resolve fd (leAt a (12 * i) 12) (byteAt b i))
      .ok ([pack fd (res.map (·.1))], laneFlags e.i res, e))

/-! ### The commands -/

def execVop (cx : Cx) (s : State) : Host.Outcome State Fault Refusal :=
  s.runs (fun s => s.runRepeat cx.val 1 0x20 (State.vopBody cx.val) (fun _ s => s))
def execRed (cx : Cx) (s : State) : Host.Outcome State Fault Refusal :=
  s.runs (fun s => s.runRepeat cx.val 1 0x21 (State.redBody cx.val) (fun _ s => s))

end Sys2Proof.Machine
end

