-- ==== Sys2Proof/Machine/Steps.lean ====
section
/-! DEFINITION. Steps and chunks of a group: taking a consumed frame, admission, acknowledgements, lateness, step ends, evictions,
aborts, retractions (R272, R274–R277, R287–R291, R415–R421). -/

namespace Sys2Proof.Machine

/-! ### A consumed frame -/

/-- A consumed group frame as its engine reads it. -/
structure GIn where
  frm : Nat
  gid : Nat
  h : Ech
  payload : Bytes
  stamp : FT64
  src : Nat
  smac : Nat
  len : Nat
  unit : Nat
  deriving DecidableEq, Repr

/-- What a frame in the store says. -/
def State.ginOf (s : State) (id gid : Nat) : Option GIn :=
  match s.frm id with
  | none => none
  | some f =>
    let b := s.frameBytes f
    some { frm := id, gid := gid, h := echOf b, payload := echPayload b, stamp := f.stamp, src := f.src, smac := beAt b 6 6, len := f.len, unit := f.unit }

/-- The home slice of the group's channel, or of the channel of the frame's port. -/
def State.gHome (s : State) (gid : Nat) : Nat := s.home (((s.grp gid).map (fun g => gCh g.entry)).getD 8)

/-- A consumed frame is done with: its buffer is released. -/
def State.gdrop (s : State) (g : GIn) : State := s.dropFrame g.frm (s.gHome g.gid)

/-- The frame comes from the group's parent: its source is the parent's endpoint entry, and its member field says so, or names this
device in an ACK or NACK of what it sent up. -/
def State.fromParent (s : State) (e : Bytes) (g : GIn) : Bool :=
  !gRoot e && (match s.endpointOf (gParent e) with | some k => k / 4096 == g.smac | none => false)
    && (g.h.member == 0xFFF || ((g.h.opcode == 6 || g.h.opcode == 7) && g.h.member == gUp e))

/-- The frame is one of a member that a rehearsal stalls (R424): not the parent's, and no expert's. While a replay runs the rehearsal is held
(R338). -/
def State.stalled (s : State) (g : GIn) : Bool :=
  match s.mir.rehearsal with
  | some r => r.kind == 1 && r.injected.isSome && r.gid == g.gid && r.member == g.h.member && !s.replaying && g.h.opcode != 0x43 &&
      !(s.grp g.gid).any (fun x => s.fromParent x.entry g)
  | none => false

/-- Frame `k` of those waiting is taken when it is one that `ok` accepts. One with a bad header is discarded and counted, whatever it
is (R268); one of a stalled member is held. -/
def State.take (s : State) (k : Nat) (ok : GIn → Bool) : Option GIn × State :=
  match s.inbox[k]? with
  | none => (none, s)
  | some x =>
    match s.ginOf x.frm x.gid with
    | none => (none, { s with inbox := s.inbox.eraseIdx k })
    | some g =>
      let rest := { s with inbox := s.inbox.eraseIdx k }
      let b := ((s.frm x.frm).map s.frameBytes).getD []
      if !echHeaderOk b then (none, (rest.countL PORT_LCTR_ech_hdr_err g.src).gdrop g)
      else if !ok g then (none, s)
      else if s.stalled g then
        (none, { rest with mir := { rest.mir with rehearsal := rest.mir.rehearsal.map (fun r => { r with frames := r.frames ++ [x], count := r.count + 1 }) } })
      else if (s.grp g.gid).isNone then (none, rest.gdrop g)
      else (some g, rest.traffic (unitsAt 0 g.len) (unitsAt 0 g.len))

/-- Decision order of two frames: by ingress stamp, ties by source number and arrival (R47). -/
def decidedBefore (t u : FT64) (a b : Nat × Nat) : Bool :=
  precedes t u || (t == u && (decide (a.1 < b.1) || (a.1 == b.1 && decide (a.2 < b.2))))

/-- A token frame of the group, of one of some opcodes, is on its way to the engine, or a frame that may prove to be one: with a stamp,
source number and arrival of which `p` holds. -/
def State.tokenDue (s : State) (gid : Nat) (ops : List Nat) (p : FT64 → Nat × Nat → Bool) : Bool :=
  let mine := fun (id : Nat) => match s.frm id with
    | some f => ops.contains (echOf (s.frameBytes f)).opcode && p f.stamp (f.src, f.arr)
    | none => false
  s.inbox.any (fun x => x.token && x.gid == gid && mine x.frm) ||
    s.links.any (fun l => match l.2.rx with
      | some r => (match r.fate with
        | .token id g => g == gid && mine id
        | .none => !r.decided && r.accept && !r.dropped && !r.cut && p r.stamp (l.1, r.arr)
        | _ => false)
      | none => false)

/-- The frame's turn has come: none of some opcodes for its group stands before it in decision order (R300, R315). -/
def State.turn (s : State) (ops : List Nat) (g : GIn) : Bool :=
  !s.tokenDue g.gid ops (fun t a => decidedBefore t g.stamp a (g.src, ((s.frm g.frm).map (·.arr)).getD 0))

/-! ### Scratch of the owner channel (R287, R431) -/

/-- Bytes of a slot; `none` when a word of them is uncorrectable. -/
def State.slotRead (s : State) (ch a n : Nat) : Option Bytes × State :=
  let c := s.chan ch
  let s := s.event ch 5 8 (ceilDiv n 32)
  if c.scratchUe.any (fun w => decide (w * 32 < a + n) && decide (a < w * 32 + 32)) then (none, s.scratchUe ch)
  else (some (Mem.read c.scratch a n), s)

/-- Bytes written to scratch. -/
def State.slotWrite (s : State) (ch a : Nat) (b : Bytes) : State :=
  (s.event ch 5 8 (ceilDiv b.length 32)).modChan ch (fun c => { c with
    scratch := Mem.write c.scratch a b
    scratchUe := c.scratchUe.filter (fun w => !(decide (a ≤ w * 32) && decide (w * 32 + 32 ≤ a + b.length))) })

/-- The combine engine takes `n` bytes of contribution, integers or result (R342, class 6; DESIGN CHOICE: each contribution counts as it is
taken and each result as it is released). -/
def State.combined (s : State) (ch n : Nat) : State := s.event ch 5 6 (ceilDiv n 32)

/-- Flags of group work are counted and its first inv logged, with the context zero (R231, R283). -/
def State.noteGroup (s : State) (e : Bytes) (chunk : Nat) (fl : List (Nat × Flags)) : State :=
  let hits := fl.filter (fun x => x.2 != 0)
  if hits.isEmpty then s
  else
    let s := s.countExc (gCh e) (hits.map (·.2))
    match List.find? (fun x : Nat × Flags => bitOf x.2 0) hits with
    | some (j, _) => s.logInv (gCh e) { stamp := s.chNow (gCh e), ctx := 0, instr := 0, rep := 0, unit := 7, row := bits j 13 5, col := bits j 0 13, k := bits chunk 0 21 }
    | none => s

/-! ### Who sent a frame, and answers to it (R269, R272, R274) -/

/-- Endpoint ID that an answer to the frame goes to. -/
def State.answerTo (s : State) (e : Bytes) (g : GIn) : List Nat :=
  if s.fromParent e g then [gParent e]
  else if g.h.member < gCount e then (match s.memberEntry e g.h.member with | some b => [mId b] | none => [])
  else []

/-- ACK or NACK payload (R272, R297). -/
def ctlPayload (status opcode epoch next : Nat) : Bytes := beBytes 1 status ++ beBytes 1 opcode ++ beBytes 2 epoch ++ beBytes 4 next

/-- An ACK, or a NACK, of a frame: its header echoes step, chunk, part and member. -/
def State.answer (s : State) (e : Bytes) (g : GIn) (status : Nat) (next : Nat := 0) : GSend :=
  gframe e { opcode := if status = 0 then 6 else 7, gid := g.gid, member := g.h.member, cls := gCls e, step := g.h.step, chunk := g.h.chunk,
             part := g.h.part, op := gOp e } (ctlPayload status g.h.opcode (gEpoch e) next) (s.answerTo e g)

/-- A frame is acknowledged again. -/
def State.reack (s : State) (e : Bytes) (g : GIn) : State := s.gsend (s.answer e g stOk)

/-- A NACK has gone to the member within nack_gap (R274). -/
def State.nacked (s : State) (g : GIn) : Bool :=
  match ((s.grp g.gid).map (·.nacks)).bind (fun t => t.find? g.h.member) with
  | some t => !s.elapsed t (s.reg GRP_CFG_nack_gap * 1000)
  | none => false

/-- A NACK, at most once in nack_gap for each member (R274). -/
def State.nackIn (s : State) (e : Bytes) (g : GIn) (status : Nat) (next : Nat := 0) : State :=
  if s.nacked g then s
  else (s.modGrp g.gid (fun x => { x with nacks := x.nacks.insert g.h.member s.now })).gsend (s.answer e g status next)

def stStepRange : Nat := 0x30
def stNotOwner : Nat := 0x31
def stChunkCrc : Nat := 0x33
def stOwnerMoved : Nat := 0x60
def stMemberEvicted : Nat := 0x61
def stTwinLost : Nat := 0x62
def stPodState : Nat := 0x63
def stPodConflict : Nat := 0x64

/-! ### Checks 1 to 3, and leases (R274, R299, R416) -/

/-- The failure detector acts (R415). -/
def State.detActs (s : State) : Bool := s.flag MIR_DET_CFG_det_en && !s.replaying

/-- A member's lease is renewed at its frame's stamp, unless the frame is at or past the end of a lease that the detector watches (R416;
DEDUCED: with the detector off, and after a refused eviction, the next frame that passes check 3 starts a lease anew). -/
def State.renew (s : State) (gid m : Nat) (stamp : FT64) : State :=
  let anew := s.modGrp gid (fun g => { g with lease := g.lease.insert m stamp })
  match (s.grp gid).bind (fun g => g.lease.find? m) with
  | some t => if precedes t stamp && (!s.detActs || precedes stamp (t + ns (s.reg MIR_DET_CFG_lease * 1000))) then anew else s
  | none => anew

/-- The word of a member's entry is found uncorrectable (R114). -/
def State.memberUe (s : State) (e : Bytes) (m : Nat) : State := s.logUe ((gList e + 8 * m) / 32 * 32) 1

/-- Checks 1 to 3: whether the frame goes on; one that does not is gone. -/
def State.admit3 (s : State) (e : Bytes) (g : GIn) : Bool × State :=
  let up := s.fromParent e g
  let m := g.h.member
  if !gOwn e then (false, ((s.count GRP_CTR_not_owner_drops).nackIn e g stNotOwner).gdrop g)
  else if !up && decide (gCount e ≤ m) then (false, (s.count GRP_CTR_member_drops).gdrop g)
  else if !up && (s.memberEntry e m).isNone then (false, (s.memberUe e m).gdrop g)
  else if !up && !mActive ((s.memberEntry e m).getD []) then (false, (s.count GRP_CTR_member_drops).gdrop g)
  else if g.h.epoch != gEpoch e then (false, ((s.count GRP_CTR_epoch_drops).nackIn e g stGroupEpoch).gdrop g)
  else (true, if up then s else s.renew g.gid m g.stamp)

/-! ### Lateness (R277) -/

/-- A member is late: counted once a step, its entry's late_count with it. -/
def State.markLate (s : State) (gid : Nat) (e : Bytes) (n m : Nat) : State :=
  if (((s.grp gid).map (fun g => (g.step n).late)).getD []).contains m then s
  else
    let a := gList e + 8 * m + 3
    let s := s.modStep gid n (fun t => { t with late := t.late ++ [m] })
    let s := s.listWrite a (leBytes 1 (min 255 (leNat (s.storeRead a 1) + 1)))
    (s.count GRP_CTR_late_members).raise (evGrp GRP_INTR_STATUS_late_ev)

/-- A member's lateness of a step, written to its entry in ns. -/
def State.putLateness (s : State) (e : Bytes) (m v : Nat) : State := s.listWrite (gList e + 8 * m + 4) (leBytes 4 (min (2 ^ 32 - 1) v))

/-- An accepted frame opens its step, if it is the first, and gives its member's lateness (R276, R277). -/
def State.arrive (s : State) (gid : Nat) (e : Bytes) (n m : Nat) (stamp : FT64) : State :=
  let t := ((s.grp gid).map (fun g => g.step n)).getD {}
  let s := match t.opened with
    | some _ => s
    | none =>
      let s := s.modStep gid n (fun t => { t with opened := some stamp })
      if gWindow e = 0 then s else s.schedule (stamp + ns (gWindow e)) (.windowEnd gid n)
  if m = 0xFFF || (t.firsts.find? m).isSome then s
  else
    let opened := t.opened.getD stamp
    let d := ftDiff opened stamp
    let s := s.modStep gid n (fun t => { t with firsts := t.firsts.insert m stamp })
    let s := s.putLateness e m (d.toNat / 256)
    if gWindow e != 0 && decide (((gWindow e * 256 : Nat) : Int) ≤ d) then s.markLate gid e n m else s

/-! ### Discarding steps (R278, R289–R291) -/

/-- Frames that a step's chunks hold are released. -/
def State.freeStep (s : State) (gid : Nat) (t : GStep) : State :=
  (t.chunks.flatMap (fun c => c.2.frames)).foldl (fun s id => s.dropFrame id (s.gHome gid)) s

/-- The step fence holds STEP_DONE of cur_step (R421). -/
def Grp.fenceHolds (g : Grp) : Bool := g.sfm && decide (stepDiff (gFence g.entry) ((gStep g.entry + 2 ^ 32 - 1) % 2 ^ 32) < 0)

/-- The time that a group's STEP_DONE has been held is counted up to now (R421). -/
def State.countHold (s : State) (gid : Nat) : State :=
  match (s.grp gid).bind (fun g => g.cur.fenceHeld) with
  | some t => (s.count MIR_CTR_fence_hold_ns (s.since t)).modGrp gid (fun g => { g with cur := { g.cur with fenceHeld := none } })
  | none => s

/-- The step fence may have let go of a group's STEP_DONE: the hold is over then, whatever the release waits for (R408, R421). -/
def State.fenceEase (s : State) (gid : Nat) : State := if (s.grp gid).any Grp.fenceHolds then s else s.countHold gid

/-- Frames that a dispatch group holds: early results, rows, waiting tokens. -/
def Disp.heldFrames (d : Disp) : List Nat :=
  (d.waiting ++ d.batches.flatMap (fun b => b.2.early ++ b.2.toks.flatMap (fun t =>
    t.asn.filterMap (fun a => match a with | .row _ f _ => some f | _ => none)))).eraseDups

/-- The state of every step of a group is discarded, and nothing more of it leaves (R291, R302). -/
def State.discardGroup (s : State) (gid : Nat) : State :=
  match s.grp gid with
  | none => s
  | some g =>
    let n := gStep g.entry
    let s := (((s.countHold gid).freeStep gid g.cur).freeStep gid g.next).freeStep gid g.prev
    let s := g.disp.heldFrames.foldl (fun s id => s.dropFrame id (s.gHome gid)) s
    let s := (s.unschedule (.windowEnd gid n)).unschedule (.windowEnd gid ((n + 1) % 2 ^ 32))
    let s := (g.disp.batches.foldl (fun s b => s.unschedule (.deadline gid b.1)) s).unschedule (.flush gid)
    let s := (s.withdraw gid (fun x => !outlives x.head.opcode x.payload)).dropGroupCopies (fun h p => h.gid == gid && !outlives h.opcode p)
    s.modGrp gid (fun g => { g with prev := {}, cur := {}, next := {}, twinReleased := [], twinAcked := [], twinHome := [], disp := {} })

/-! ### Rehearsals that a real event ends (R425) -/

def stRehearseDenied : Nat := 0x65
def stRehearseCancelled : Nat := 0x66

/-- A rehearsal ends: its descriptor completes, and the frames of a stalled member arrive now (R424, R425). -/
def State.endRehearsal (s : State) (status : Nat) : State :=
  match s.mir.rehearsal with
  | none => s
  | some r =>
    let s := { s with mir := { s.mir with rehearsal := none }, inbox := r.frames ++ s.inbox }
    let s := r.frames.foldl (fun s x => s.modFrm x.frm (fun f => { f with stamp := s.now })) s
    let s := (s.unschedule .rehearse).unschedule .rehearseEnd
    let s := if r.injected.isSome then s.raise (evMir MIR_INTR_STATUS_rehearse_ev) else s
    s.complete r.d (if status = 0 then
      { status := 0, result := (match r.kind with | 1 => r.count | 2 => 1 | 3 => r.count | _ => 0), detail := (r.injected.getD 0).toNat }
      else { status := status })

/-- A retraction of a group meets the rehearsal: one of kind 2 whose result has been released ends with the retraction that it has caused, any
other on the group is cancelled. -/
def State.rehearseRetract (s : State) (gid : Nat) : State :=
  match s.mir.rehearsal with
  | some r =>
    if r.gid != gid || (r.kind != 1 && r.kind != 2) || s.replaying then s
    else s.endRehearsal (if r.fired then 0 else stRehearseCancelled)
  | none => s

/-- A step of a group has been passed: a rehearsal of a chunk of it that has not been released here never will be, and is cancelled (DESIGN
CHOICE: R425 does not say what becomes of it). -/
def State.rehearsePast (s : State) (gid n : Nat) : State :=
  match s.mir.rehearsal with
  | some r => if r.gid = gid && r.kind == 2 && r.injected.isSome && !r.fired && decide (stepDiff r.step n ≤ 0) && !s.replaying then
      s.endRehearsal stRehearseCancelled else s
  | none => s

/-! ### Retractions (R287, R290) -/

/-- GRP_RETRACT_LOG and its event. -/
def State.logRetract (s : State) (gid cause epoch step resume : Nat) : State :=
  let s := (((s.setReg GRP_RETRACT_LOG_group_id gid).setReg GRP_RETRACT_LOG_cause cause).setReg GRP_RETRACT_LOG_new_epoch epoch).setW1c GRP_RETRACT_LOG_valid 1
  let s := (((s.setReg GRP_RETRACT_STEP_step step).setReg GRP_RETRACT_STEP_resume resume).setReg GRP_RETRACT_STAMP_stamp s.now.toNat).stamped
  ((s.count GRP_CTR_retractions).raise (evGrp GRP_INTR_STATUS_retract_ev)).raise (evGrp GRP_INTR_STATUS_epoch_ev)

/-- A result of an open step stands in its slot, or has been sent, and the owning program was told so by done_pip. -/
def Grp.handedOut (g : Grp) : Bool :=
  gDonePip g.entry != 63 && (g.cur.chunks ++ g.next.chunks).any (fun c => c.2.st == .held || c.2.st == .done)

/-- A program in the owning context that has been told of a result which is now withdrawn will say so at its end (R290). -/
def State.markRetracted (s : State) (gid : Nat) : State :=
  match s.grp gid with
  | some g => if g.handedOut then s.modCtx (32 * gCh g.entry + byteAt g.entry 16 / 8) (fun k => if k.st == .idle then k else { k with retracted := true }) else s
  | none => s

/-- The group takes a new epoch and resumes at a step; every step's state is discarded. `sends` leave once the twin holds it (R408). -/
def State.retracted (s : State) (gid step cause epoch resume : Nat) (sends : List Act) : State :=
  let s := ((s.markRetracted gid).discardGroup gid).modGrp gid (fun g => { g with entry := gSet (gSet g.entry 6 2 epoch) 44 4 resume })
  let s := s.logRetract gid cause epoch step resume
  let s := s.mirror (((s.grp gid).map (fun g => [groupRec g])).getD []) sends
  s.rehearseRetract gid

/-- The root retracts a step. -/
def State.retract (s : State) (gid step cause : Nat) : State :=
  match s.grp gid with
  | none => s
  | some g =>
    let e := g.entry
    let s := s.listErrors e
    let epoch := (gEpoch e + 1) % 2 ^ 16
    let resume := (gFence e + 1) % 2 ^ 32
    let fr := gframe e { opcode := 0x0B, gid := gid, cls := gCls e, step := step, op := gOp e }
      ([BitVec.ofNat 8 cause, 0] ++ beBytes 2 epoch ++ beBytes 4 resume) ((s.actives e).map (fun m => mId m.2))
    s.retracted gid step cause epoch resume [.send fr]

/-- A corruption of a step (R287): counted, and retracted, or reported to the parent. A chunk CRC mismatch is a contained error of
the owner channel (R430). -/
def State.corrupt (s : State) (gid step cause : Nat) : State :=
  match s.grp gid with
  | none => s
  | some g =>
    let e := g.entry
    let s := (s.count GRP_CTR_crc_errors).raise (evGrp GRP_INTR_STATUS_crc_ev)
    let s := if cause = stChunkCrc then s.rasContained (gCh e / 2) 0 stChunkCrc (gCh e) else s
    if gRoot e then s.retract gid step cause
    else s.gsend (gframe e { opcode := 0x0A, gid := gid, member := gUp e, cls := gCls e, step := step, op := gOp e } ([BitVec.ofNat 8 cause] ++ List.replicate 7 0) [gParent e])

/-! ### Evictions (R415–R419, R426) -/

/-- A frame on the active out-of-band port. -/
def State.oobOut (s : State) (da : Nat) (recs : Bytes) : State :=
  let k := s.reg MIR_OOB_CFG_active
  if bitOf (s.reg MIR_OOB_CFG_up) k then s.emit (.oob k (overwrite (s.mirFrame da 0 0 recs) 6 (beBytes 6 (s.reg MIR_OOB_MAC_mac)))) else s

/-- An event of the pod with its ALARM (R426). -/
def State.alarm (s : State) (f : Fld) (status gid member : Nat) : State :=
  (s.raise (evMir f)).oobOut (s.reg MIR_OOB_ALARM_DA_da)
    (mirRec 0x0B ([BitVec.ofNat 8 status, 0] ++ leBytes 2 gid ++ leBytes 2 member ++ [0, 0] ++ leBytes 8 s.now.toNat))

/-- MIR_DET_LOG is written. -/
def State.detLog (s : State) (gid m cause : Nat) : State :=
  (((((s.setReg MIR_DET_LOG_group_id gid).setReg MIR_DET_LOG_member m).setReg MIR_DET_LOG_cause cause).setW1c MIR_DET_LOG_valid 1).setReg
    MIR_DET_STAMP_stamp s.now.toNat).stamped

/-- The detector's alarm. -/
def State.detAlarm (s : State) (gid m cause : Nat) : State :=
  ((s.count MIR_CTR_det_alarms).detLog gid m cause).alarm MIR_INTR_STATUS_det_alarm_ev stTimeout gid m

/-- The detector may evict in this group (R415). -/
def State.detGroup (s : State) (e : Bytes) : Bool := gRoot e && !(s.members e).any (fun m => mChild m.2)

/-- A notice of the group's owner (R414): to members and the parent. -/
def noticeActs (e : Bytes) (status member : Nat) (dests : List Nat) (up : Bool) : List Act :=
  let p := [BitVec.ofNat 8 status, 0] ++ beBytes 2 (gEpoch e) ++ beBytes 2 member ++ [0, 0]
  let h : EchHead := { opcode := 7, gid := gGid e, cls := gCls e, step := gStep e, op := gOp e }
  [.send (gframe e h p dests)] ++ (if up && !gRoot e then [.send (gframe e { h with member := gUp e } p [gParent e])] else [])

/-- An eviction would exceed evict_max or the floor (R418). -/
def State.evictRefused (s : State) (g : Grp) : Bool :=
  let win := s.reg MIR_DET_CFG_evict_win * 1000000000
  let recent := (g.evicted.filter (fun t => !s.elapsed t.2 win)).length
  let left := (s.actives g.entry).length - 1
  decide (s.reg MIR_DET_CFG_evict_max < recent + 1) || decide (left < ceilDiv (s.reg MIR_DET_CFG_floor_pct * g.base) 100)

/-- A write by firmware to a group's entry, or to its member list at `addr`, is recorded (R329). -/
def State.recordFw (s : State) (target gid addr : Nat) (b : Bytes) : State :=
  s.recordNow 6 195 (leBytes 2 target ++ leBytes 2 gid ++ List.replicate 4 0 ++ leBytes 6 addr ++ [0, 0] ++ b)

/-- A member is evicted for cause 0 lease or 1 score, or the eviction is refused (R415, R418, R419). -/
def State.evict (s : State) (gid m cause : Nat) : State :=
  match s.grp gid with
  | none => s
  | some g =>
    if !s.detGroup g.entry then s.detAlarm gid m 3
    else if s.evictRefused g then s.detAlarm gid m 2
    else
      let s := s.listErrors g.entry
      let dests := (s.actives g.entry).map (fun x => mId x.2)
      let a := gList g.entry + 8 * m + 2
      let fl := clearBit (leNat (s.storeRead a 1)) 1
      let s := (s.listWrite a (leBytes 1 fl)).discardGroup gid
      let s := s.modGrp gid (fun g => { g with entry := gSet g.entry 6 2 ((gEpoch g.entry + 1) % 2 ^ 16), evicted := g.evicted ++ [(m, s.now)] })
      let s := (s.raise (evGrp GRP_INTR_STATUS_epoch_ev)).count MIR_CTR_evictions
      let s := (s.detLog gid m cause).alarm MIR_INTR_STATUS_evict_ev stMemberEvicted gid m
      let s := s.recordFw 1 gid a (leBytes 1 fl)
      match s.grp gid with
      | none => s
      | some g =>
        let s := s.recordFw 0 gid 0 g.entry
        s.mirror [mirRec 3 (leBytes 2 gid ++ leBytes 2 m ++ leBytes 1 fl ++ [0, 0, 0] ++ leBytes 8 s.now.toNat), groupRec g]
          (noticeActs g.entry stMemberEvicted m dests false)

/-- The lease of a member has ended (R416). -/
def State.leaseOver (s : State) (g : Grp) (m : Nat) : Bool :=
  match g.lease.find? m with
  | some t => s.elapsed t (s.reg MIR_DET_CFG_lease * 1000)
  | none => false

/-- The detector evicts a member whose lease has ended, or raises its alarm, once. -/
def State.leaseEvict (s : State) (gid m : Nat) : State := (s.modGrp gid (fun g => { g with lease := g.lease.erase m })).evict gid m 0

/-- Scores at a step end (R417): they fall for late members and rise for the others; a member below the threshold is evicted, after those
whose leases end with the step (R427). -/
def State.scoreStep (s : State) (gid : Nat) (late : List Nat) : State :=
  match s.grp gid with
  | none => s
  | some g =>
    if !s.detActs then s
    else
      let s := s.listErrors g.entry
      let score := fun (m : Nat) => let v := g.score.get 255 m; if late.contains m then v - s.reg MIR_DET_CFG_late_pen else min 255 (v + 4)
      let ms := (s.actives g.entry).map (·.1)
      let s := s.modGrp gid (fun g => { g with score := ms.foldl (fun t m => t.put 255 m (score m)) g.score })
      let ended := ms.filter (s.leaseOver g)
      let low := ms.filter (fun m => !ended.contains m && decide (score m < s.reg MIR_DET_CFG_evict_thresh))
      low.foldl (fun s m => s.evict gid m 1) (ended.foldl (fun s m => s.leaseEvict gid m) s)

/-! ### The end of a step (R288, R421) -/

/-- cur_step passes its step; the results of the step stay held until the next one ends (R276). -/
def State.passStep (s : State) (gid : Nat) : State :=
  match s.grp gid with
  | none => s
  | some g =>
    let n := gStep g.entry
    let s := (((s.countHold gid).freeStep gid g.cur)).unschedule (.windowEnd gid n)
    let strip := fun (t : GStep) => { t with chunks := t.chunks.mapVals (fun _ c => { c with frames := [] }) }
    let s := s.modGrp gid (fun g => { g with
      entry := gSet g.entry 44 4 ((n + 1) % 2 ^ 32), prev := strip { g.cur with closed := true }, cur := g.next, next := {},
      twinReleased := g.twinReleased.filter (fun r => r.1 != n) })
    (s.scoreStep gid g.cur.late).rehearsePast gid n

/-- A step has ended: cur_step passes it, and with it a step after it that has ended too. -/
def State.endStep (s : State) (gid n : Nat) : State :=
  match s.grp gid with
  | none => s
  | some g =>
    if stepDiff n (gStep g.entry) = 0 then
      let s := s.passStep gid
      match s.grp gid with
      | some g => if g.cur.closed then s.passStep gid else s
      | none => s
    else if stepDiff n (gStep g.entry) = 1 then
      ((s.freeStep gid g.next).unschedule (.windowEnd gid n)).modStep gid n (fun t =>
        { t with closed := true, chunks := t.chunks.mapVals (fun _ c => { c with frames := [] }) })
    else s

/-! ### Aborts (R289) -/

/-- The step is aborted here: logged, passed on to the members, its state discarded, and cur_step advances. -/
def State.aborted (s : State) (gid n : Nat) (payload : Bytes) : State :=
  match s.grp gid with
  | none => s
  | some g =>
    let e := g.entry
    let s := s.listErrors e
    let st := byteAt payload 0
    let s := ((((s.setReg GRP_ABORT_LOG_group_id gid).setReg GRP_ABORT_LOG_status st).setReg GRP_ABORT_LOG_member (beAt payload 2 2 % 4096)).setReg
      GRP_ABORT_LOG_detector (beAt payload 4 2)).setW1c GRP_ABORT_LOG_valid 1
    let s := ((s.setReg GRP_ABORT_STEP_step n).setReg GRP_ABORT_STEP_epoch (gEpoch e)).setReg GRP_ABORT_STAMP_stamp s.now.toNat |>.stamped
    let s := (s.count (if st = stTimeout then GRP_CTR_window_aborts else GRP_CTR_mismatch_aborts)).raise (evGrp GRP_INTR_STATUS_abort_ev)
    let s := s.withdraw gid (fun x => x.head.step == n && (isDataOp x.head.opcode || x.head.opcode == 0x0C))
    let s := s.gsend (gframe e { opcode := 9, gid := gid, cls := gCls e, step := n, op := gOp e } payload ((s.actives e).map (fun m => mId m.2)))
    let s := s.freeStep gid (g.step n)
    (s.modStep gid n (fun t => { t with chunks := [], closed := true })).endStep gid n

/-- Steps whose STEP_DONE has left are passed (R288). -/
def State.stepsEnd (s : State) : State :=
  s.mir.ended.foldl (fun s x => s.endStep x.1 x.2) { s with mir := { s.mir with ended := [] } }

/-- The endpoint ID of this device (R289): that of the endpoint entry with the station MAC of the channel's first port, else of another port
(DESIGN CHOICE: the spec gives the device no ID of its own). -/
def State.ownId (s : State) (ch : Nat) : Nat :=
  let id := fun (p : Nat) => (List.find? (fun a : Nat × Nat => a.1 / 4096 == s.station p) s.tables.endpoint).map (fun a => bits a.2 32 16)
  match (3 * ch :: List.range 24).filterMap id with
  | x :: _ => x
  | [] => Config.ownEndpoint % 2 ^ 16

/-- Some result of the step has been released here (R289). -/
def Grp.released (g : Grp) (n : Nat) : Bool :=
  (g.step n).chunks.any (fun c => c.2.st == .done) || g.twinReleased.any (fun r => r.1 == n)

/-- A mismatch, or a window abort, is detected here (R289): at the root the step aborts, elsewhere the parent is asked. A mismatch after a
release is a corruption. -/
def State.abortStep (s : State) (gid n status member : Nat) : State :=
  match s.grp gid with
  | none => s
  | some g =>
    let e := g.entry
    if status = stCollectiveMismatch && g.released n then s.corrupt gid n status
    else
      let p := [BitVec.ofNat 8 status, 0] ++ beBytes 2 member ++ beBytes 2 (s.ownId (gCh e)) ++ [0, 0]
      if gRoot e then s.aborted gid n p
      else (s.modStep gid n (fun t => { t with abortReq := true })).gsend
        (gframe e { opcode := 8, gid := gid, member := gUp e, cls := gCls e, step := n, op := gOp e } p [gParent e])

/-- The window end of a step (R277): members with no frame are late, and under wpol 1 an incomplete step aborts. -/
def State.fireWindow (s : State) (gid n : Nat) : State :=
  let s := s.unschedule (.windowEnd gid n)
  match s.grp gid with
  | none => s
  | some g =>
    let e := g.entry
    let d := stepDiff n (gStep e)
    let t := g.step n
    if (d != 0 && d != 1) || t.closed then s
    else
      let s := s.listErrors e
      let s := ((s.actives e).filter (fun m => (t.firsts.find? m.1).isNone)).foldl (fun s m => (s.markLate gid e n m.1).putLateness e m.1 (2 ^ 32 - 1)) s
      if gWpol e = 1 && !t.abortReq && (List.range (gChunks e)).any (fun c => (t.chunks.get {} c).st != .done) then s.abortStep gid n stTimeout 0xFFF else s

end Sys2Proof.Machine
end

