-- ==== Sys2Proof/Machine/Collectives.lean ====
section
/-! DEFINITION. Collectives: the chunk state machine, EAGER, ANCHORED and sparse reduction, all-gather and broadcast, results, and the
commands of the combine engine's group work (R273–R291). -/

namespace Sys2Proof.Machine

/-! ### Geometry and mismatches (R270, R275, R284, R285) -/

/-- Elements of chunk `c`. -/
def gElems (e : Bytes) (c : Nat) : Nat := gChunkBytes e c / gElem e

/-- q: elements in an INT_UP part (R284). -/
def gPartElems (e : Bytes) : Nat := max 32 (32 * (gCap e / 384))

/-- Parts of chunk `c`. -/
def gParts (e : Bytes) (c : Nat) : Nat := ceilDiv (gElems e c) (gPartElems e)

/-- Elements of part `p` of chunk `c`. -/
def gPartLen (e : Bytes) (c p : Nat) : Nat := min (gPartElems e) (gElems e c - p * gPartElems e)

/-- The key under which a chunk notes what has come for it: an ANCHOR_UP, data of a member, the parent's anchors, its result. -/
def contribKey (op : Nat) : Nat := if op = 2 ∨ op = 3 then op else if op = 5 ∨ op = 0x0E then 5 else 1

/-- The opcodes that a member may send (R275). -/
def allowedOps (e : Bytes) (child : Bool) : List Nat :=
  if gKind e ≤ 1 then (if gCls e = 1 && child then [2, 4] else [1])
  else if gKind e = 4 then (if child then [0x0D, 1] else [0x0D])
  else [1]

/-- The opcodes that the parent may send for a chunk (R275). -/
def parentOps (e : Bytes) : List Nat :=
  if gKind e ≤ 1 then (if gCls e = 1 then [3, 5] else [5]) else if gKind e = 4 then [5, 0x0E] else [5]

/-- Records of a SPARSE payload: index and value (R285). -/
def sparseRecs (p : Bytes) : List (Nat × Nat) := (List.range (beAt p 0 4)).map (fun i => (leAt p (8 + 8 * i) 4, leAt p (12 + 8 * i) 4))

/-- payload_len is the one the entry implies (R275, R284, R285). -/
def lengthOk (e : Bytes) (g : GIn) : Bool :=
  let c := g.h.chunk
  match g.h.opcode with
  | 2 => g.h.plen == ceilDiv (gElems e c) 4
  | 3 => g.h.plen == ceilDiv (gElems e c) 4
  | 4 => decide (g.h.part < gParts e c) && g.h.plen == 3 * gPartLen e c g.h.part
  | 5 => 4 * g.h.plen == gChunkBytes e c + 4
  | 0x0D => decide (2 ≤ g.h.plen) && g.h.plen == 2 + 2 * beAt g.payload 0 4
  | 0x0E => decide (3 ≤ g.h.plen) && g.h.plen == 3 + 2 * beAt g.payload 0 4
  | _ => 4 * g.h.plen == gChunkBytes e c

/-- The format of a frame of an opcode: the entry's, or 0 where the opcode carries no elements (R265; DEDUCED: anchors and 96-bit integers are
no elements in a format). -/
def headFmt (e : Bytes) (op : Nat) : Nat := if op = 1 ∨ op = 5 ∨ op = 0x0D ∨ op = 0x0E then gFmt e else 0

/-- A control frame fits the entry (R275): class, op, format, chunk and the eight bytes of its payload. -/
def controlFits (e : Bytes) (g : GIn) : Bool :=
  let h := g.h
  h.cls == gCls e && h.op == gOp e && h.fmt == 0 && h.plen == 2 &&
    (gKind e == 5 || (if h.opcode = 0x0C then h.chunk == gChunks e else decide (h.chunk < gChunks e)))

/-- The frame, whose sender may send `ops` with flags.partial as `part`, mismatches the entry (R275). -/
def mismatch (e : Bytes) (g : GIn) (ops : List Nat) (part : Bool) (ck : Chunk) : Bool :=
  let h := g.h
  h.cls != gCls e || h.op != gOp e || decide (gChunks e ≤ h.chunk) || h.partial_ != part || !ops.contains h.opcode ||
    (h.opcode != 4 && h.part != 0) || h.fmt != headFmt e h.opcode || !lengthOk e g ||
    ((gKind e == 2 || gKind e == 3) && (ck.st == .done || ck.have_.any (fun x => x.member != h.member))) ||
    (gKind e == 3 && gRootMember e != h.member) ||
    ((h.opcode == 0x0D || h.opcode == 0x0E) && (sparseRecs g.payload).any (fun r => decide (gCap e / gElem e ≤ r.1)))

/-! ### Sending for a chunk (R269, R273, R284, R287) -/

/-- Header of a frame about chunk `c` of step `n`. -/
def chunkHead (e : Bytes) (op n c : Nat) : EchHead :=
  { opcode := op, gid := gGid e, cls := gCls e, step := n, chunk := c, fmt := headFmt e op, op := gOp e }

/-- A part of this device's own contribution goes to the parent, and is kept for a resend (R276, R284, R411). -/
def State.sendUp (s : State) (gid n c : Nat) (e : Bytes) (op part : Nat) (payload : Bytes) : State :=
  let h := { chunkHead e op n c with member := gUp e, part := part, partial_ := true }
  (s.modChunk gid n c (fun k => { k with up := k.up ++ [(h, payload)] })).gsend (gframe e h payload [gParent e])

/-- Members that a result of chunk `c` goes to (R273). -/
def State.targets (s : State) (e : Bytes) (c : Nat) (source : Nat) : List Nat :=
  let act := s.actives e
  match gKind e with
  | 1 => (act.filter (fun m => m.1 == c * gCount e / gChunks e)).map (fun m => mId m.2)
  | 0 => act.map (fun m => mId m.2)
  | 4 => act.map (fun m => mId m.2)
  | _ => (act.filter (fun m => m.1 != source)).map (fun m => mId m.2)

/-- done_pip is set (R278). -/
def State.donePip (s : State) (e : Bytes) : State := if gDonePip e = 63 then s else s.setPip (gCh e) (gCore e) (gDonePip e)

/-- A rehearsal inverts the chunk CRC of this chunk (R424); not while a replay runs (R338). -/
def State.corrupts (s : State) (gid n c : Nat) : Bool :=
  match s.mir.rehearsal with
  | some r => r.kind == 2 && r.injected.isSome && r.gid == gid && r.step == n && r.chunk == c && !s.replaying
  | none => false

/-- A result with its CRC leaves for its targets once the twin holds the release (R278, R287, R408); `more` is done behind it. -/
def State.sendResult (s : State) (gid n c : Nat) (e : Bytes) (op : Nat) (payload : Bytes) (source : Nat) (more : List Act := []) : State :=
  let s := s.modChunk gid n c (fun k => { k with st := .done, resOp := op, result := payload, source := source })
  let dests := s.targets e c source
  ((s.combined (gCh e) payload.length).count GRP_CTR_results_sent dests.length).mirror [cvecRec gid n c 0 0xFFF 1] (.send (gframe e (chunkHead e op n c) payload dests) :: more)

/-- The device that forms a result gives it its chunk CRC. A rehearsed corruption inverts it; the result leaves so, and is then treated as
corrupt (R424). -/
def State.releaseResult (s : State) (gid n c : Nat) (e : Bytes) (op : Nat) (body : Bytes) (source : Nat) (more : List Act := []) : State :=
  let bad := s.corrupts gid n c
  let crc := crc32c body
  let s := s.sendResult gid n c e op (body ++ beBytes 4 (if bad then 0xFFFFFFFF - crc else crc)) source more
  if bad then
    ({ s with mir := { s.mir with rehearsal := s.mir.rehearsal.map (fun (r : Rehearsal) => { r with fired := true }) } }).corrupt gid n stChunkCrc
  else s

/-! ### Acknowledging (R276) -/

/-- The entry of a chunk's accepted contributions that the frame brought. -/
def GIn.brought (g : GIn) (x : Contrib) : Bool :=
  x.member == g.h.member && x.opcode == contribKey g.h.opcode && x.part == g.h.part

/-- What an accepted frame brings is noted in its chunk, and the twin is told (R408); `acts` wait for the twin to hold it. -/
def State.note (s : State) (g : GIn) (acts : List Act) : State :=
  (s.modChunk g.gid g.h.step g.h.chunk (fun k => { k with
    have_ := k.have_ ++ [{ member := g.h.member, opcode := contribKey g.h.opcode, part := g.h.part }] })).mirror
    [cvecRec g.gid g.h.step g.h.chunk g.h.part g.h.member 0] acts

/-- The twin's confirmation of an accepted contribution, as its ACK waits for it. -/
def State.ackAct (s : State) (e : Bytes) (g : GIn) : Act := .ack (s.answer e g stOk) (contribKey g.h.opcode)

/-- The contribution that the frame brought has been added. -/
def State.markAdded (s : State) (g : GIn) : State :=
  s.modChunk g.gid g.h.step g.h.chunk (fun k => { k with have_ := k.have_.map (fun x => if g.brought x then { x with added := true } else x) })

/-- A contribution has been added: it is acknowledged now when the twin holds it, else once it does. -/
def State.ackContrib (s : State) (e : Bytes) (g : GIn) : State :=
  let held := (s.grp g.gid).any (fun x => (x.chunk g.h.step g.h.chunk).have_.any (fun y => g.brought y && y.confirmed))
  let s := s.markAdded g
  if held then s.gsend (s.answer e g stOk) else s

/-- The contribution is forgotten: its frame could not be read, and its sender is to send it again (R287). -/
def State.unreadable (s : State) (e : Bytes) (g : GIn) : State :=
  let s := s.modChunk g.gid g.h.step g.h.chunk (fun k => { k with have_ := k.have_.filter (fun x => !g.brought x) })
  ((((s.logUe (((s.badWords (g.unit * 256) g.len).headD 0) * 32) 1).retire g.unit).gsend (s.answer e g stMemUncorrectable))).gdrop g

/-- Every word of the frame can be read. -/
def State.readable (s : State) (g : GIn) : Bool := s.badWords (g.unit * 256) g.len == []

/-- An acknowledged contribution is lost with its frame: a corruption of the step (R287). -/
def State.lost (s : State) (g : GIn) : State :=
  (((s.logUe (((s.badWords (g.unit * 256) g.len).headD 0) * 32) 1).retire g.unit).gdrop g).corrupt g.gid g.h.step stMemUncorrectable

/-! ### Slots (R278, R279, R281, R286) -/

/-- Held frames of a group are taken as `f` does; those left when an epoch ends between them are released (R291). -/
def State.eachHeld (s : State) (gid : Nat) (ids : List Nat) (f : GIn → State → State) : State :=
  let epoch := (s.grp gid).map (fun x => gEpoch x.entry)
  ids.foldl (fun s id => match s.ginOf id gid with
    | some g => if (s.grp gid).map (fun x => gEpoch x.entry) = epoch then f g s else s.gdrop g
    | none => s) s

/-- Every earlier chunk that uses the slot of chunk `c` of step `n` is DONE (R278). -/
def slotFree (g : Grp) (n c : Nat) : Bool :=
  let sl := gSlots g.entry
  let same := fun (c' : Nat) => c' % sl == c % sl
  let done := fun (t : GStep) (l : List Nat) => (l.filter same).all (fun c' => (t.chunks.get {} c').st == .done)
  if stepDiff n (gStep g.entry) = 0 then done g.cur (List.range c)
  else done g.cur (List.range (gChunks g.entry)) && done g.next (List.range c)

/-- EAGER: elements combined one by one, with their flags (R279). -/
def eagerList (f op : Nat) (old new : Bytes) (n : Nat) : List (Nat × Flags) :=
  (List.range n).map (fun i => eager f op (element f old i) (element f new i))

/-- Flags by element index. -/
def flagList (l : List (Nat × Flags)) : List (Nat × Flags) := l.zipIdx.map (fun x => (x.2, x.1.2))

/-- The codes of an ANCHORED slot. -/
def slotCodes (b : Bytes) (n : Nat) : List Nat := (List.range n).map (fun j => byteAt b (16 * j + 12))

/-- A slot with its codes replaced. -/
def withCodes (b : Bytes) (codes : List Nat) : Bytes :=
  codes.zipIdx.flatMap (fun x => slice b (16 * x.2) 12 ++ [BitVec.ofNat 8 x.1] ++ slice b (16 * x.2 + 13) 3)

/-- A slot with 96-bit integers added from element `from_` on (R281, R282). -/
def addInts (b : Bytes) (from_ : Nat) (ints : List Nat) : Bytes :=
  overwrite b (16 * from_) (ints.zipIdx.flatMap (fun x =>
    let o := 16 * (from_ + x.2)
    leBytes 12 ((leAt b o 12 + x.1) % 2 ^ 96) ++ slice b (o + 12) 4))

/-- Records added to a sparse chunk: those whose index is known or finds room in the memory, the rest into the dense slot and its
bitmap (R286). Answers memory, slot, spilled records, flags. -/
def sparseAdd (f cap : Nat) (recs : List (Nat × Nat)) (mem : Tab Nat) (slot : Bytes) : Tab Nat × Bytes × Nat × List (Nat × Flags) :=
  let w := elemBits f / 8
  recs.foldl (fun a r =>
    let (mem, slot, sp, fl) := a
    match mem.find? r.1 with
    | some v => let (x, g) := eager f 0 v (r.2 % 2 ^ (8 * w)); (mem.insert r.1 x, slot, sp, fl ++ [(r.1, g)])
    | none =>
      if mem.length < 8192 then (mem.insert r.1 (r.2 % 2 ^ (8 * w)), slot, sp, fl)
      else
        let bit := byteAt slot (cap + r.1 / 8)
        let old := leAt slot (r.1 * w) w
        let (x, g) := if bitOf bit (r.1 % 8) then eager f 0 old (r.2 % 2 ^ (8 * w)) else (r.2 % 2 ^ (8 * w), 0)
        (mem, overwrite (overwrite slot (r.1 * w) (leBytes w x)) (cap + r.1 / 8) (leBytes 1 (setBit bit (r.1 % 8))), sp + 1, fl ++ [(r.1, g)]))
    (mem, slot, 0, [])

/-- A sparse chunk's memory laid over its slot: values and bitmap. -/
def sparseDense (f cap : Nat) (mem : Tab Nat) (slot : Bytes) : Bytes :=
  let w := elemBits f / 8
  mem.foldl (fun b r => overwrite (overwrite b (r.1 * w) (leBytes w r.2)) (cap + r.1 / 8) (leBytes 1 (setBit (byteAt b (cap + r.1 / 8)) (r.1 % 8)))) slot

/-- What a sparse slot is sent as: records in ascending index order when they fit, else the dense chunk (R286). -/
def sparseBody (f cap n : Nat) (slot : Bytes) : Bool × Bytes :=
  let w := elemBits f / 8
  let idx := (List.range (cap / w)).filter (fun i => bitOf (byteAt slot (cap + i / 8)) (i % 8))
  if 8 + 8 * idx.length + 4 ≤ cap then
    (true, beBytes 4 idx.length ++ [0, 0, 0, 0] ++ idx.flatMap (fun i => leBytes 4 i ++ leBytes 4 (leAt slot (i * w) w)))
  else (false, slot.take n)

/-! ### One contribution in its slot (R276, R278–R282, R286) -/

/-- The slot of a chunk is taken: cleared, where its kind adds into it. -/
def State.openSlot (s : State) (e : Bytes) (c : Nat) : State :=
  if gCls e = 1 || gKind e = 4 then s.slotWrite (gCh e) (gSlotAt e c) (List.replicate (gSlot e) 0) else s

/-- An EAGER contribution: the first is copied, a later one combined. -/
def State.addEager (s : State) (e : Bytes) (g : GIn) (first : Bool) : State :=
  let c := g.h.chunk
  let a := gSlotAt e c
  let n := gChunkBytes e c
  let body := g.payload.take n
  if first then (((s.slotWrite (gCh e) a body).modChunk g.gid g.h.step c (fun k => { k with st := .gather })).ackContrib e g).gdrop g
  else
    match s.slotRead (gCh e) a n with
    | (none, s) => (s.gdrop g).corrupt g.gid g.h.step stMemUncorrectable
    | (some old, s) =>
      let res := eagerList (gFmt e) (gRed e) old body (gElems e c)
      (((s.slotWrite (gCh e) a (pack (gFmt e) (res.map (·.1)))).noteGroup e c (flagList res)).ackContrib e g).gdrop g

/-- A sparse contribution, or a child's dense partial of one, whose every element counts as a record. -/
def State.addSparse (s : State) (e : Bytes) (g : GIn) : State :=
  let c := g.h.chunk
  let a := gSlotAt e c
  match s.slotRead (gCh e) a (gSlot e) with
  | (none, s) => (s.gdrop g).corrupt g.gid g.h.step stMemUncorrectable
  | (some slot, s) =>
    let k := ((s.grp g.gid).map (fun x => x.chunk g.h.step c)).getD {}
    let recs := if g.h.opcode = 1 then (List.range (gElems e c)).map (fun i => (i, element (gFmt e) g.payload i)) else sparseRecs g.payload
    let (mem, slot, sp, fl) := sparseAdd (gFmt e) (gCap e) recs k.index slot
    let s := (s.slotWrite (gCh e) a slot).modChunk g.gid g.h.step c (fun k => { k with st := .gather, index := mem, spilled := k.spilled || sp != 0 })
    let s := if sp = 0 then s else s.count GRP_CTR_spill_records sp
    let s := if sp != 0 && !k.spilled then s.raise (evGrp GRP_INTR_STATUS_spill_ev) else s
    ((s.noteGroup e c fl).ackContrib e g).gdrop g

/-- The integer pass of a contribution: an endpoint's elements, or a child's part (R281, R284). -/
def State.addAnchored (s : State) (e : Bytes) (g : GIn) : State :=
  let c := g.h.chunk
  let a := gSlotAt e c
  if !s.readable g then s.unreadable e g
  else
    match s.slotRead (gCh e) a (16 * gElems e c) with
    | (none, s) => (s.gdrop g).corrupt g.gid g.h.step stMemUncorrectable
    | (some slot, s) =>
      let f := gFmt e
      let new := if g.h.opcode = 4 then
          addInts slot (g.h.part * gPartElems e) ((List.range (gPartLen e c g.h.part)).map (fun j => leAt g.payload (12 * j) 12))
        else addInts slot 0 ((slotCodes slot (gElems e c)).zipIdx.map (fun x => anchorInt f (element f g.payload x.2) x.1))
      ((s.slotWrite (gCh e) a new).ackContrib e g).gdrop g

/-- A frame stays in its buffer. -/
def State.holdFrame (s : State) (g : GIn) : State :=
  s.modChunk g.gid g.h.step g.h.chunk (fun k => { k with frames := k.frames ++ [g.frm] })

/-- Anchor codes merge into the slot (R280); false when it cannot be read. -/
def State.mergeCodes (s : State) (e : Bytes) (g : GIn) (codes : List Nat) : Bool × State :=
  let a := gSlotAt e g.h.chunk
  match s.slotRead (gCh e) a (16 * codes.length) with
  | (none, s) => (false, s)
  | (some slot, s) =>
    let new := withCodes slot (((slotCodes slot codes.length).zip codes).map (fun x => mergeAnchor x.1 x.2))
    (true, (s.slotWrite (gCh e) a new).modChunk g.gid g.h.step g.h.chunk (fun k => { k with st := .anchor }))

/-- One contribution is taken into its chunk, whose slot it has. -/
def State.takeOne (s : State) (e : Bytes) (g : GIn) : State :=
  let c := g.h.chunk
  match (s.grp g.gid).map (fun x => x.chunk g.h.step c) with
  | none => s.gdrop g
  | some k =>
    let s := if k.st = .idle then s.openSlot e c else s
    let s := s.combined (gCh e) g.payload.length
    if gCls e = 1 then
      match k.st with
      | .gather => if g.h.opcode = 2 then s.gdrop g else s.addAnchored e g
      | .idle | .anchor =>
        if !s.readable g then (if g.h.opcode = 2 then s.lost g else s.unreadable e g)
        else if g.h.opcode = 4 then (s.modChunk g.gid g.h.step c (fun k => { k with st := .anchor })).holdFrame g
        else
          let n := gElems e c
          let codes := if g.h.opcode = 2 then (g.payload.take n).map (·.toNat) else (List.range n).map (fun j => anchorOf (gFmt e) (element (gFmt e) g.payload j))
          match s.mergeCodes e g codes with
          | (false, s) => (s.gdrop g).corrupt g.gid g.h.step stMemUncorrectable
          | (true, s) => if g.h.opcode = 2 then s.gdrop g else s.holdFrame g
      | _ => if g.h.opcode = 2 then s.gdrop g else s.holdFrame g
    else if !s.readable g then s.unreadable e g
    else if gKind e = 4 then s.addSparse e g
    else s.addEager e g (k.st == .idle)

/-! ### What a chunk does when contributions are in (R278, R283, R284, R286) -/

/-- Every active member's contribution of a key is there: `need` says how many parts of it, and whether they must be added. -/
def State.allIn (s : State) (e : Bytes) (k : Chunk) (key : Bool → Nat) (parts : Bool → Nat) (added : Bool) : Bool :=
  (s.actives e).all (fun m => (List.range (parts (mChild m.2))).all (fun p =>
    k.have_.any (fun x => x.member == m.1 && x.opcode == key (mChild m.2) && x.part == p && (x.added || !added))))

/-- The anchors are final: ANCHOR_DOWN goes to the child members, and held contributions are added. -/
def State.fixAnchors (s : State) (gid n c : Nat) (e : Bytes) (codes : Option (List Nat)) : State :=
  let a := gSlotAt e c
  let ne := gElems e c
  match s.slotRead (gCh e) a (16 * ne) with
  | (none, s) => s.corrupt gid n stMemUncorrectable
  | (some slot, s) =>
    let codes := codes.getD (slotCodes slot ne)
    let bytes := codes.map (BitVec.ofNat 8)
    let held := ((s.grp gid).map (fun g => (g.chunk n c).frames)).getD []
    let s := s.slotWrite (gCh e) a (withCodes slot codes)
    let s := s.modChunk gid n c (fun k => { k with st := .gather, anchors := bytes, frames := [] })
    let kids := ((s.actives e).filter (fun m => mChild m.2)).map (fun m => mId m.2)
    let s := s.gsend (gframe e (chunkHead e 3 n c) bytes kids)
    s.eachHeld gid held (fun g s => s.addAnchored e g)

/-- A chunk whose members are all in its anchor pass goes on. -/
def State.anchorStage (s : State) (gid n c : Nat) : State :=
  match s.grp gid with
  | none => s
  | some g =>
    let e := g.entry
    let k := g.chunk n c
    if k.st = .anchor && s.allIn e k (fun child => if child then 2 else 1) (fun _ => 1) false then
      if gRoot e then s.fixAnchors gid n c e none
      else if (g.step n).abortReq then s
      else
        match s.slotRead (gCh e) (gSlotAt e c) (16 * gElems e c) with
        | (none, s) => s.corrupt gid n stMemUncorrectable
        | (some slot, s) =>
          (s.sendUp gid n c e 2 0 ((slotCodes slot (gElems e c)).map (BitVec.ofNat 8))).modChunk gid n c (fun k => { k with st := .awaitAnchor })
    else s

/-- This device's partial goes to the parent (R284, R286). -/
def State.sendPartial (s : State) (gid n c : Nat) (e : Bytes) : State :=
  let a := gSlotAt e c
  let ne := gElems e c
  let len := if gCls e = 1 then 16 * ne else if gKind e = 4 then gSlot e else gChunkBytes e c
  match s.slotRead (gCh e) a len with
  | (none, s) => s.corrupt gid n stMemUncorrectable
  | (some slot, s) =>
    let s :=
      if gCls e = 1 then
        (List.range (gParts e c)).foldl (fun s p =>
          s.sendUp gid n c e 4 p ((List.range (gPartLen e c p)).flatMap (fun j => slice slot (16 * (p * gPartElems e + j)) 12))) s
      else if gKind e = 4 then
        let k := ((s.grp gid).map (fun g => g.chunk n c)).getD {}
        let (sp, body) := sparseBody (gFmt e) (gCap e) (gChunkBytes e c) (sparseDense (gFmt e) (gCap e) k.index slot)
        s.sendUp gid n c e (if sp then 0x0D else 1) 0 body
      else s.sendUp gid n c e 1 0 slot
    s.modChunk gid n c (fun k => { k with st := .awaitResult })

/-- A result that stands in its slot is released: as the first bytes of the slot, or as records (R278, R286, R287). -/
def State.releaseSlot (s : State) (gid n c : Nat) (e : Bytes) : State :=
  match s.slotRead (gCh e) (gSlotAt e c) (if gKind e = 4 then gSlot e else gChunkBytes e c) with
  | (none, s) => s.corrupt gid n stMemUncorrectable
  | (some slot, s) =>
    if gKind e = 4 then
      let (sp, body) := sparseBody (gFmt e) (gCap e) (gChunkBytes e c) slot
      s.releaseResult gid n c e (if sp then 0x0E else 5) body 0xFFF
    else s.releaseResult gid n c e 5 slot 0xFFF

/-- The result stands in the slot (R278, R283, R286); false when the slot cannot be read. -/
def State.formSlot (s : State) (gid n c : Nat) (e : Bytes) : Bool × State :=
  let a := gSlotAt e c
  let ne := gElems e c
  if gCls e = 1 then
    match s.slotRead (gCh e) a (16 * ne) with
    | (none, s) => (false, s)
    | (some slot, s) =>
      let res := (List.range ne).map (fun j => resolve (gFmt e) (leAt slot (16 * j) 12) (byteAt slot (16 * j + 12)))
      (true, (s.slotWrite (gCh e) a (pack (gFmt e) (res.map (·.1)))).noteGroup e c (flagList res))
  else if gKind e = 4 then
    match s.slotRead (gCh e) a (gSlot e) with
    | (none, s) => (false, s)
    | (some slot, s) =>
      let k := ((s.grp gid).map (fun g => g.chunk n c)).getD {}
      (true, s.slotWrite (gCh e) a (sparseDense (gFmt e) (gCap e) k.index slot))
  else (true, s)

/-- The root forms the result in the slot, and holds it when gated (R278). -/
def State.formResult (s : State) (gid n c : Nat) (e : Bytes) : State :=
  match s.formSlot gid n c e with
  | (false, s) => s.corrupt gid n stMemUncorrectable
  | (true, s) =>
    if gGated e then (s.modChunk gid n c (fun k => { k with st := .held })).donePip e
    else
      let s := s.releaseSlot gid n c e
      if (s.grp gid).any (fun g => (g.chunk n c).st == .done) then s.donePip e else s

/-- A chunk whose contributions are all added goes on. -/
def State.gatherStage (s : State) (gid n c : Nat) : State :=
  match s.grp gid with
  | none => s
  | some g =>
    let e := g.entry
    let k := g.chunk n c
    let parts := fun (child : Bool) => if gCls e = 1 && child then gParts e c else 1
    if k.st = .gather && !(g.step n).abortReq && s.allIn e k (fun _ => 1) parts true then
      (if gRoot e then s.formResult gid n c e else s.sendPartial gid n c e)
    else s

/-- A chunk goes on as far as what has come for it allows; the engine reads the member list to judge that (R115). -/
def State.progress (s : State) (gid n c : Nat) : State :=
  let s := match s.grp gid with
    | some g => s.listErrors g.entry
    | none => s
  (s.anchorStage gid n c).gatherStage gid n c

/-! ### All-gather and broadcast (R273, R276, R278) -/

/-- A contribution is sent on as the result, and to the parent; its ACK follows the copies of the result. -/
def State.relay (s : State) (e : Bytes) (g : GIn) : State :=
  let c := g.h.chunk
  let body := g.payload.take (gChunkBytes e c)
  let s := ((s.note g []).markAdded g).combined (gCh e) g.payload.length
  let s := s.releaseResult g.gid g.h.step c e 5 body g.h.member [s.ackAct e g]
  let s := if gRoot e then s else s.sendUp g.gid g.h.step c e 1 0 body
  s.gdrop g

/-! ### Admission of contributions (R274) -/

/-- An accepted contribution, which can be read, enters its chunk, or waits for the slot behind those that wait (R278). ANCHOR_UP is acknowledged
at once (R276). -/
def State.accept (s : State) (e : Bytes) (g : GIn) : State :=
  let n := g.h.step
  let c := g.h.chunk
  if !s.readable g then s.unreadable e g
  else
    let s := (s.arrive g.gid e n g.h.member g.stamp).count GRP_CTR_chunks_accepted
    match s.grp g.gid with
    | none => s.gdrop g
    | some x =>
      let k := x.chunk n c
      if gKind e = 2 || gKind e = 3 then s.relay e g
      else
        let s := s.note g [s.ackAct e g]
        let s := if g.h.opcode = 2 then s.ackContrib e g else s
        if k.st = .idle && (!slotFree x n c || !k.frames.isEmpty) then s.holdFrame g
        else (s.takeOne e g).progress g.gid n c

/-- The step of a frame is open (R274 check 5); if not, the frame is refused. -/
def State.stepOpen (s : State) (x : Grp) (g : GIn) : Bool × State :=
  let d := stepDiff g.h.step (gStep x.entry)
  if (d != 0 && d != 1) || (x.step g.h.step).closed then (false, ((s.count GRP_CTR_step_drops).nackIn x.entry g stStepRange).gdrop g)
  else (true, s)

/-- Checks 4 to 6: whether the frame goes on; one that does not is gone. What has been acknowledged is acknowledged again. -/
def State.admit6 (s : State) (x : Grp) (g : GIn) : Bool × State :=
  let seen := (x.chunk g.h.step g.h.chunk).have_.find? g.brought
  let acked := seen.any (fun y => y.added && y.confirmed)
  let again := fun (s : State) => let s := s.count GRP_CTR_dup_chunks; (if acked then s.reack x.entry g else s).gdrop g
  if stepDiff g.h.step (gStep x.entry) = -1 && acked then (false, again s)
  else match s.stepOpen x g with
    | (false, s) => (false, s)
    | (true, s) => if seen.isSome then (false, again s) else (true, s)

/-- A frame mismatches the entry, or comes from one that may not send it: the step aborts (R275, R289). -/
def State.wrongSender (s : State) (g : GIn) : State := (s.gdrop g).abortStep g.gid g.h.step stCollectiveMismatch g.h.member

/-- A frame that no check before the seventh of R274 concerns is refused: its step is not open (order 5), or it mismatches (order 7). A dispatch
group has no step to abort. -/
def State.refuse (s : State) (x : Grp) (g : GIn) : State :=
  if gKind x.entry = 5 then s.gdrop g
  else
    match s.stepOpen x g with
    | (false, s) => s
    | (true, s) => s.wrongSender g

/-- No contribution to the group that waits for the engine stands before this one in decision order (R47, R291). -/
def State.contribTurn (s : State) (g : GIn) : Bool :=
  let arr := ((s.frm g.frm).map (·.arr)).getD 0
  s.inbox.all (fun x => x.gid != g.gid || (match s.frm x.frm with
    | some f => !([1, 2, 4, 0x0D].contains (echOf (s.frameBytes f)).opcode && decidedBefore f.stamp g.stamp (f.src, f.arr) (g.src, arr))
    | none => true))

/-- A contribution of opcode `op` (R274), in decision order (R291). -/
def State.contribute (s : State) (k op : Nat) : State :=
  match s.take k (fun g => g.h.opcode == op && s.contribTurn g) with
  | (none, s) => s
  | (some g, s) =>
    match s.grp g.gid with
    | none => s.gdrop g
    | some x =>
      let e := x.entry
      match s.admit3 e g with
      | (false, s) => s
      | (true, s) =>
        if gKind e = 5 then s.gdrop g
        else
          match s.admit6 x g with
          | (false, s) => s
          | (true, s) =>
            let child := mChild ((s.memberEntry e g.h.member).getD [])
            if s.fromParent e g || mismatch e g (allowedOps e child) child (x.chunk g.h.step g.h.chunk) then s.wrongSender g
            else s.accept e g

/-! ### Frames from the parent and from child devices (R276, R280, R287–R290) -/

/-- A frame that only the parent sends, of an open step: `f` handles it. -/
def State.parentFrame (s : State) (k : Nat) (ok : Nat → Bool) (f : Grp → GIn → State → State) : State :=
  match s.take k (fun g => ok g.h.opcode) with
  | (none, s) => s
  | (some g, s) =>
    match s.grp g.gid with
    | none => s.gdrop g
    | some x =>
      match s.admit3 x.entry g with
      | (false, s) => s
      | (true, s) =>
        if !s.readable g then s.unreadable x.entry g
        else
          match s.stepOpen x g with
          | (false, s) => s
          | (true, s) => if s.fromParent x.entry g && controlFits x.entry g then f x g (s.gdrop g) else s.wrongSender g

/-- What the parent sends for a chunk, under the checks that a member's contribution takes (R274, R275): `f` handles it. -/
def State.parentChunk (s : State) (k : Nat) (ok : Nat → Bool) (f : Grp → GIn → State → State) : State :=
  match s.take k (fun g => ok g.h.opcode) with
  | (none, s) => s
  | (some g, s) =>
    match s.grp g.gid with
    | none => s.gdrop g
    | some x =>
      match s.admit3 x.entry g with
      | (false, s) => s
      | (true, s) =>
        if !s.readable g then s.unreadable x.entry g
        else
          match s.admit6 x g with
          | (false, s) => s
          | (true, s) =>
            if !s.fromParent x.entry g || mismatch x.entry g (parentOps x.entry) false (x.chunk g.h.step g.h.chunk) then s.wrongSender g
            else f x g (s.gdrop g)

/-- ANCHOR_DOWN (R278, R280): the global anchors; one that no chunk awaits is not taken. -/
def State.anchorDown (s : State) (k : Nat) : State :=
  s.parentChunk k (· == 3) (fun x g s =>
    let e := x.entry
    let c := g.h.chunk
    if (x.chunk g.h.step c).st = .awaitAnchor then
      (((s.note g [s.ackAct e g]).ackContrib e g).fixAnchors g.gid g.h.step c e (some ((List.range (gElems e c)).map (fun j => max 53 (byteAt g.payload j))))).gatherStage
        g.gid g.h.step c
    else s)

/-- RESULT or SPARSE_RESULT from the parent (R278, R287); one that no chunk awaits is not taken. -/
def State.resultRx (s : State) (k : Nat) : State :=
  s.parentChunk k (fun o => o == 5 || o == 0x0E) (fun x g s =>
    let e := x.entry
    let c := g.h.chunk
    let n := g.payload.length
    let st := (x.chunk g.h.step c).st
    if n < 4 || crc32c (g.payload.take (n - 4)) != beAt g.payload (n - 4) 4 then s.corrupt g.gid g.h.step stChunkCrc
    else if !(x.step g.h.step).abortReq && (st == .awaitResult || (st == .idle && (gKind e == 2 || gKind e == 3))) then
      let s := ((s.note g [s.ackAct e g]).ackContrib e g).arrive g.gid e g.h.step 0xFFF g.stamp
      let s := s.sendResult g.gid g.h.step c e g.h.opcode g.payload 0xFFF
      if st == .awaitResult then s.donePip e else s
    else s)

/-- STEP_DONE of step `n` leaves once the twin holds it, and the step is passed then (R288, R408). -/
def State.passOn (s : State) (gid n c : Nat) (e : Bytes) (payload : Bytes) : State :=
  let s := s.listErrors e
  let dests := (s.actives e).map (fun m => mId m.2)
  ((s.modStep gid n (fun t => { t with ending := true })).mirror [cvecRec gid n c 0 0xFFF 1] [.send (gframe e (chunkHead e 0x0C n c) payload dests)]).stepsEnd

/-- STEP_DONE from the parent (R288). -/
def State.stepDoneRx (s : State) (k : Nat) : State :=
  s.parentFrame k (· == 0x0C) (fun x g s =>
    if (x.step g.h.step).ending then s else s.passOn g.gid g.h.step g.h.chunk x.entry g.payload)

/-- ABORT from the parent (R289). -/
def State.abortRx (s : State) (k : Nat) : State :=
  s.parentFrame k (· == 9) (fun _ g s => s.aborted g.gid g.h.step g.payload)

/-- RETRACT from the parent (R290, R291): only the current epoch's, whatever its step. -/
def State.retractRx (s : State) (k : Nat) : State :=
  match s.take k (fun g => g.h.opcode == 0x0B) with
  | (none, s) => s
  | (some g, s) =>
    match s.grp g.gid with
    | none => s.gdrop g
    | some x =>
      match s.admit3 x.entry g with
      | (false, s) => s
      | (true, s) =>
        if !s.readable g then s.unreadable x.entry g
        else if s.fromParent x.entry g && controlFits x.entry g then
          let e := x.entry
          let s := s.listErrors e
          let dests := (s.actives e).map (fun m => mId m.2)
          (s.gdrop g).retracted g.gid g.h.step (byteAt g.payload 0) (beAt g.payload 2 2) (beAt g.payload 4 4)
            [.send (gframe e (chunkHead e 0x0B g.h.step 0) g.payload dests)]
        else s.refuse x g

/-- A request of a child device about an open step: ABORT_REQ or RETRACT_REQ. -/
def State.childRequest (s : State) (k op : Nat) (f : Grp → GIn → State → State) : State :=
  match s.take k (fun g => g.h.opcode == op) with
  | (none, s) => s
  | (some g, s) =>
    match s.grp g.gid with
    | none => s.gdrop g
    | some x =>
      match s.admit3 x.entry g with
      | (false, s) => s
      | (true, s) =>
        if !s.readable g then s.unreadable x.entry g
        else
          match s.stepOpen x g with
          | (false, s) => s
          | (true, s) =>
            let e := x.entry
            if s.fromParent e g || !mChild ((s.memberEntry e g.h.member).getD []) || !controlFits e g then s.wrongSender g
            else if gRoot e then f x g (s.gdrop g)
            else (s.gdrop g).gsend (gframe e { chunkHead e op g.h.step 0 with member := gUp e } g.payload [gParent e])

/-- ABORT_REQ (R289): passed up, or at the root an abort, or a corruption when a result has been released. -/
def State.abortReqRx (s : State) (k : Nat) : State :=
  s.childRequest k 8 (fun x g s =>
    if byteAt g.payload 0 = stCollectiveMismatch && x.released g.h.step then s.corrupt g.gid g.h.step stCollectiveMismatch
    else s.aborted g.gid g.h.step g.payload)

/-- RETRACT_REQ (R290): passed up, or at the root the retraction. -/
def State.retractReqRx (s : State) (k : Nat) : State :=
  s.childRequest k 0x0A (fun _ g s => s.retract g.gid g.h.step (byteAt g.payload 0))

/-! ### ACK, NACK, RESEND_REQ (R272, R276, R413, R416) -/

/-- What a chunk sent up is sent again, with flags.resend: what `p` says of its header. -/
def State.resendUp (s : State) (gid n c : Nat) (p : EchHead → Bool) : State :=
  match s.grp gid with
  | none => s
  | some x => ((x.chunk n c).up.filter (fun u => p u.1)).foldl (fun s u => s.gsend (gframe x.entry { u.1 with resend := true } u.2 [gParent x.entry])) s

/-- A control frame that takes checks 1 to 3 and, but for the ACK that only renews a lease (R416), the seventh, and is then consumed. -/
def State.control (s : State) (k : Nat) (ok : GIn → Bool) (f : Grp → GIn → State → State) : State :=
  match s.take k ok with
  | (none, s) => s
  | (some g, s) =>
    match s.grp g.gid with
    | none => s.gdrop g
    | some x =>
      match s.admit3 x.entry g with
      | (false, s) => s
      | (true, s) =>
        if !s.readable g then s.unreadable x.entry g
        else if controlFits x.entry g || (g.h.opcode == 6 && byteAt g.payload 1 == 0) then f x g (s.gdrop g)
        else s.refuse x g

/-- The step was open as the group was taken from the twin: an ACK of what is sent up for it may repeat one that the twin had (R413; DEDUCED: an
ACK does not say that it is repeated). -/
def Grp.openAtTakeover (g : Grp) (n : Nat) : Bool :=
  match g.taken with
  | some t => stepDiff n t == 0 || stepDiff n t == 1
  | none => false

/-- ACK (R276, R413, R416). A survivor that has sent a chunk up again asks the parent for what it may already have sent. -/
def State.ackRx (s : State) (k : Nat) : State :=
  s.control k (fun g => g.h.opcode == 6) (fun x g s =>
    let e := x.entry
    let ck := x.chunk g.h.step g.h.chunk
    if byteAt g.payload 1 != 0 && x.openAtTakeover g.h.step && s.fromParent e g && (ck.st == .awaitAnchor || ck.st == .awaitResult) then
      s.gsend (gframe e { chunkHead e 0x0F g.h.step g.h.chunk with member := gUp e } (List.replicate 8 0) [gParent e])
    else s)

/-- NACK (R272, R276): a contribution that the parent could not read is sent again. -/
def State.nackRx (s : State) (k : Nat) : State :=
  s.control k (fun g => g.h.opcode == 7 && byteAt g.payload 1 != 0) (fun x g s =>
    if s.fromParent x.entry g && byteAt g.payload 0 = stMemUncorrectable then
      s.resendUp g.gid g.h.step g.h.chunk (fun h => h.opcode == byteAt g.payload 1 && h.part == g.h.part)
    else s)

/-- RESEND_REQ (R276, R413): answered for cur_step and the step before it, from the held results or the anchors last sent to a child device. -/
def State.resendReq (s : State) (k : Nat) : State :=
  s.control k (fun g => g.h.opcode == 0x0F) (fun x g s =>
    let e := x.entry
    let n := g.h.step
    let c := g.h.chunk
    let ck := x.chunk n c
    let child := mChild ((s.memberEntry e g.h.member).getD [])
    let dst := s.answerTo e g
    if stepDiff n (gStep e) != 0 && stepDiff n (gStep e) != -1 then s.gsend (s.answer e g stStepRange)
    else if ck.st == .done && !ck.result.isEmpty then s.gsend (gframe e { chunkHead e ck.resOp n c with resend := true } ck.result dst)
    else if child && !ck.anchors.isEmpty then s.gsend (gframe e { chunkHead e 3 n c with resend := true } ck.anchors dst)
    else s.gsend (s.answer e g stStepRange))

/-! ### Step end at the root, slots, release (R278, R288, R421) -/

/-- STEP_DONE at the root, once every chunk of cur_step is DONE and the step fence allows (R288, R421). -/
def State.stepDoneSend (s : State) (gid : Nat) : State :=
  match s.grp gid with
  | none => s
  | some x =>
    let e := x.entry
    let n := gStep e
    let nc := gChunks e
    if !gRoot e || !gOwn e || gKind e = 5 || x.cur.closed || x.cur.ending || !(List.range nc).all (fun c => (x.cur.chunks.get {} c).st == .done) then s
    else if x.fenceHolds then s.modStep gid n (fun t => { t with fenceHeld := some (t.fenceHeld.getD s.now) })
    else
      let s := s.countHold gid
      let crcs := (List.range nc).flatMap (fun c => let r := (x.cur.chunks.get {} c).result; r.drop (r.length - 4))
      s.passOn gid n nc e ([0, 0, 0, 0] ++ beBytes 4 (crc32c crcs))

/-- A slot is free: a waiting chunk leaves IDLE with its buffered contributions (R278). -/
def State.chunkSlotFree (s : State) (gid n c : Nat) : State :=
  match s.grp gid with
  | none => s
  | some x =>
    let k := x.chunk n c
    let d := stepDiff n (gStep x.entry)
    if (d != 0 && d != 1) || k.st != .idle || k.frames.isEmpty || !slotFree x n c then s
    else
      let s := s.modChunk gid n c (fun k => { k with frames := [] })
      (s.eachHeld gid k.frames (fun g s => s.takeOne x.entry g)).progress gid n c

/-- rel_pip is found set: every HELD chunk is sent, and the pip is cleared once (R278). -/
def State.groupRelease (s : State) (gid : Nat) : State :=
  match s.grp gid with
  | none => s
  | some x =>
    let e := x.entry
    let held := fun (t : GStep) => if t.closed || t.abortReq then [] else
      t.chunks.filterMap (fun c : Nat × Chunk => if c.2.st == .held then some c.1 else none)
    let n := gStep e
    let l := (held x.cur).map (fun c => (n, c)) ++ (held x.next).map (fun c => ((n + 1) % 2 ^ 32, c))
    if gKind e = 5 || !gOwn e || l.isEmpty || !bitOf (s.reg (CH_PIP_pips (gCh e) (gCore e))) (gRelPip e) then s
    else
      let s := l.foldl (fun s x => if (s.grp gid).any (fun g => (g.chunk x.1 x.2).st == .held) then s.releaseSlot gid x.1 x.2 e else s) s
      s.usePips (gCh e) (gCore e) (2 ^ gRelPip e) true

/-- GRP_CTR_CTRL.clear (R73). -/
def State.grpCtrClear (s : State) : State := s.clearCounters (fun k => keyIn 0x1600100 0x1600168 k || keyIn 0x1600200 0x1600258 k)

/-! ### The commands -/

def execDataRx (k : Nat) (s : State) : Host.Outcome State Fault Refusal := s.does (fun s => s.contribute k 1)
def execAnchorUpRx (k : Nat) (s : State) : Host.Outcome State Fault Refusal := s.does (fun s => s.contribute k 2)
def execAnchorDownRx (k : Nat) (s : State) : Host.Outcome State Fault Refusal := s.does (fun s => s.anchorDown k)
def execIntUpRx (k : Nat) (s : State) : Host.Outcome State Fault Refusal := s.does (fun s => s.contribute k 4)
def execSparseRx (k : Nat) (s : State) : Host.Outcome State Fault Refusal := s.does (fun s => s.contribute k 0x0D)
def execResultRx (k : Nat) (s : State) : Host.Outcome State Fault Refusal := s.does (fun s => s.resultRx k)
def execAckRx (k : Nat) (s : State) : Host.Outcome State Fault Refusal := s.does (fun s => s.ackRx k)
def execNackRx (k : Nat) (s : State) : Host.Outcome State Fault Refusal := s.does (fun s => s.nackRx k)
def execAbortReqRx (k : Nat) (s : State) : Host.Outcome State Fault Refusal := s.does (fun s => s.abortReqRx k)
def execAbortRx (k : Nat) (s : State) : Host.Outcome State Fault Refusal := s.does (fun s => s.abortRx k)
def execRetractReqRx (k : Nat) (s : State) : Host.Outcome State Fault Refusal := s.does (fun s => s.retractReqRx k)
def execRetractRx (k : Nat) (s : State) : Host.Outcome State Fault Refusal := s.does (fun s => s.retractRx k)
def execStepDoneRx (k : Nat) (s : State) : Host.Outcome State Fault Refusal := s.does (fun s => s.stepDoneRx k)
def execStepDoneSend (gid : Nat) (s : State) : Host.Outcome State Fault Refusal := s.does (fun s => s.stepDoneSend gid)
def execResendReqRx (k : Nat) (s : State) : Host.Outcome State Fault Refusal := s.does (fun s => s.resendReq k)
def execStepWindowEnd (gid step : Nat) (s : State) : Host.Outcome State Fault Refusal :=
  s.does (fun s => if s.dueEvent (.windowEnd gid step) then s.fireWindow gid step else s)
def execChunkSlotFree (gid step chunk : Nat) (s : State) : Host.Outcome State Fault Refusal := s.does (fun s => s.chunkSlotFree gid step chunk)
def execGroupRelease (gid : Nat) (s : State) : Host.Outcome State Fault Refusal := s.does (fun s => s.groupRelease gid)
def execGrpCounterClear (s : State) : Host.Outcome State Fault Refusal := s.does (fun s => s.whenReady State.grpCtrClear)

end Sys2Proof.Machine
end

