-- ==== Sys2Proof/Machine/View.lean ====
section
/-! DEFINITION. What a host read of a register returns (R7, R8), with the fields that show what the device holds elsewhere; the
identity tuple (R320–R323). -/

namespace Sys2Proof.Machine

/-! ### Identity (R320, R321, R323) -/

/-- HUB_BITID: arith_rev 1, policy_ver 1, and the copies of SBK_POLICY. -/
def State.bitid (s : State) : Nat :=
  0x10001 + 2 ^ 32 * s.reg SBK_POLICY_sr_rne + 2 ^ 33 * s.reg SBK_POLICY_anchored_only

/-- The bundle digest that HUB_BITID_BUNDLE reports. -/
def State.bundleDigest (s : State) : Bytes := (List.range 8).flatMap (fun i => leBytes 8 (s.reg (HUB_BITID_BUNDLE_digest i)))

/-- HUB_BITID_TAG: zero until a bundle runs. -/
def State.bitTag (s : State) : Nat :=
  if s.flag HUB_STATUS_ready then leNat ((sha3 (leBytes 8 s.bitid ++ s.bundleDigest)).take 8) else 0

/-- Bytes 8i to 8i + 7 of the program digest of the selected context (R322). -/
def State.progDigest (s : State) (i : Nat) : Nat :=
  let k := s.ctx (s.reg HUB_BITID_SEL_ctx)
  if k.running then leAt k.digest (8 * i) 8 else 0

/-! ### Fields that are formed when they are read -/

/-- The state code of a context. -/
def CtxSt.code : CtxSt → Nat
  | .idle => 0
  | .loading => 1
  | .run => 2
  | .wait => 3
  | .drain => 4

/-- CH_CTX_STATE of context `c` of channel `n`. -/
def State.viewCtx (s : State) (n c : Nat) : State :=
  let k := s.ctx (32 * n + c)
  let busy := (List.range 5).foldl (fun v q => v + 2 ^ q * bit1 (!(k.queue q).isEmpty)) 0
  let wait := if k.st = .wait || k.st = .loading then k.waits else 0
  ((((s.setReg (CH_CTX_STATE_state n c) k.st.code).setReg (CH_CTX_STATE_pc n c) k.pc).setReg (CH_CTX_STATE_busy_q n c) busy).setReg
    (CH_CTX_STATE_wait_kind n c) wait).setReg (CH_CTX_STATE_loop_depth n c) (min 3 k.loops.length)

/-- CH_STATUS.busy and gated. -/
def State.viewCh (s : State) (n : Nat) : State :=
  let any := fun (k : Nat) (f : Ctx → Bool) => (List.range 8).any (fun j => f (s.ctx (32 * n + 8 * k + j)))
  let busy := (List.range 4).foldl (fun v k => v + 2 ^ k * bit1 (any k (fun x => x.st != .idle))) 0
  let gated := (List.range 4).foldl (fun v k =>
    v + 2 ^ k * bit1 (bitOf (s.reg (CH_CORE_CFG_solo n)) k && any k Ctx.asleep)) 0
  (s.setReg (CH_STATUS_busy n) busy).setReg (CH_STATUS_gated n) gated

/-- A counter as it reads with `n` more that a wait under way has not counted yet. -/
def State.viewMore (s : State) (f : Fld) (n : Nat) : State := s.setReg f ((s.reg f + n) % 2 ^ 64)

/-- Waits under way count in gated_cycles and ramp_stall_cycles (R143, R171). -/
def State.viewChCtr (s : State) (n o : Nat) : State :=
  if o = 0x1018 then s.viewMore (CH_CTR_gated_cycles n) (s.gatedNow n)
  else if o = 0x1020 then s.viewMore (CH_CTR_ramp_stall_cycles n) ((s.chan n).stallAt.elim 0 (fun t => s.coreNow (n / 2) - t))
  else s

/-- A wait for credit under way counts in credit_wait_ns (R71, R73). -/
def State.viewPort (s : State) (off : Nat) : State :=
  let p := (off - 0x400000) / 0x20000
  let o := off % 0x20000
  if 0x1000 ≤ o ∧ o < 0x1800 ∧ o % 0x100 = 0x98 then
    s.viewMore (PORT_LCTR_credit_wait_ns p ((o - 0x1000) / 0x100)) (s.creditPast (8 * p + (o - 0x1000) / 0x100))
  else s

/-- Registers of the HUB_ block. -/
def State.viewHub (s : State) (off : Nat) : State :=
  if off = 0 then (s.setReg HUB_CAPS_grade s.hw.grade).setReg HUB_CAPS_stepping s.hw.stepping
  else if off = 0x8 ∨ off = 0x10 then
    (List.range 4).foldl (fun s c => if (s.chan (4 * ((off - 8) / 8) + c)).blocked then s.setReg (HUB_CAPS_PRESENT_ch ((off - 8) / 8) c) 0 else s) s
  else if off = 0x40 then
    let v := s.intrSummary
    [HUB_INTR_SUMMARY_time, HUB_INTR_SUMMARY_port, HUB_INTR_SUMMARY_store, HUB_INTR_SUMMARY_ch, HUB_INTR_SUMMARY_grp, HUB_INTR_SUMMARY_pwr,
      HUB_INTR_SUMMARY_sbk, HUB_INTR_SUMMARY_mir, HUB_INTR_SUMMARY_sec, HUB_INTR_SUMMARY_ring].zipIdx.foldl (fun s x => s.setReg x.1 (bits v x.2 1)) s
  else if off = 0x48 then s.setReg HUB_PORT_SUMMARY_port s.portSummary
  else if off = 0x4C then s.setReg HUB_CH_SUMMARY_ch s.chSummary
  else if off = 0x408 then
    (((s.setReg HUB_BITID_arith_rev 1).setReg HUB_BITID_policy_ver 1).setReg HUB_BITID_sr_rne (s.reg SBK_POLICY_sr_rne)).setReg
      HUB_BITID_anchored_only (s.reg SBK_POLICY_anchored_only)
  else if 0x480 ≤ off ∧ off < 0x4C0 then s.setReg (HUB_BITID_PROG_digest ((off - 0x480) / 8)) (s.progDigest ((off - 0x480) / 8))
  else if off = 0x4C0 then s.setReg HUB_BITID_TAG_tag s.bitTag
  else if off = 0x800 then
    (((s.setReg HUB_BOARD_STATUS_ls_pres (s.sys.lasers.foldl (fun v k => setBit v k) 0)).setReg HUB_BOARD_STATUS_ls_int s.hw.lsInt).setReg
      HUB_BOARD_STATUS_sb_addr (bit1 s.hw.sbAddr)).setReg HUB_BOARD_STATUS_alive_in (s.reg MIR_STATUS_alive_in)
  else s

/-- Registers of the SEC_ block that show fuses (R383). -/
def State.viewSec (s : State) (off : Nat) : State :=
  let o := off - 0x100000
  if o = 0 then (s.setReg SEC_STATUS_owner_enrolled (bit1 s.hw.ownerKey.isSome)).setReg SEC_STATUS_identity_ok (bit1 (!s.hw.erased))
  else if o = 0x10 then s.setReg SEC_BUNDLE_INFO_min_svn s.hw.svn
  else if o = 0x18 then s.setReg SEC_FUSE_MISC_revoke s.hw.revoke
  else if o = 0x20 ∨ o = 0x28 then s.setReg (SEC_SERIAL_serial ((o - 0x20) / 8)) (leAt s.hw.serial (o - 0x20) 8)
  else if 0x40 ≤ o ∧ o < 0x80 then s.setReg (SEC_ROOT_HASH_digest ((o - 0x40) / 8)) (leAt s.hw.vendorRoot (o - 0x40) 8)
  else if 0x80 ≤ o ∧ o < 0xC0 then s.setReg (SEC_OWNER_HASH_digest ((o - 0x80) / 8)) (leAt (s.hw.ownerKey.getD []) (o - 0x80) 8)
  else if 0x140 ≤ o ∧ o < 0x180 then s.setReg (SEC_NC_NONCE_nonce ((o - 0x140) / 8)) (leAt s.sec.nonce (o - 0x140) 8)
  else if o = 0x200 then s.setReg SEC_SPDM_CFG_pen s.hw.pen
  else s

/-- Registers of the STORE_ and POOL_ blocks. -/
def State.viewStore (s : State) (off : Nat) : State :=
  if off = 0x1000028 then s.setReg STORE_SHARED_STATUS_shared_used s.sharedUsed
  else if 0x1010000 ≤ off ∧ off < 0x1010180 then s.setReg (POOL_FREE_free ((off - 0x1010000) / 0x40)) (s.pool ((off - 0x1010000) / 0x40)).free
  else if 0x1020000 ≤ off ∧ off < 0x1022000 then s.setReg (POOL_OWN_USAGE_usage ((off - 0x1020000) / 0x20)) (s.usage ((off - 0x1020000) / 0x20))
  else s

/-- What a stretch, a bubble count and a thermal level have brought so far counts (R347, R351, R354). -/
def State.viewPwr (s : State) (off : Nat) : State :=
  if off = 0x200208 then s.viewMore PWR_CTR_stretch_cycles s.stretched
  else if off = 0x200210 then s.viewMore PWR_CTR_bubble_cycles (s.bubbling / 64)
  else if off = 0x200228 then s.viewMore PWR_CTR_throttle_us (s.throttledFor s.now)
  else s

/-- Waits that go on count in the pod's counters (R407, R421). -/
def State.viewMir (s : State) (off : Nat) : State :=
  if off = 0x1400118 then s.viewMore MIR_CTR_confirm_wait_ns s.roomWait
  else if off = 0x1400140 then s.viewMore MIR_CTR_fence_hold_ns s.fenceWait
  else s

/-- The state with the fields of the register at `off` as they read now. -/
def State.view (s : State) (off : Nat) : State :=
  if off < 0x100000 then s.viewHub off
  else if off < 0x200000 then s.viewSec off
  else if off < 0x300000 then s.viewPwr off
  else if off = 0x300120 then s.viewMore RING_CTR_cq_full_cycles (s.host.fullSince.elim 0 (fun t => s.clk.cyc - t))
  else if 0x400000 ≤ off ∧ off < 0x700000 then s.viewPort off
  else if off = 0x700008 then s.setReg TIME_NOW_now s.now.toNat
  else if off = 0x70002C then (if s.reg TIME_STATUS_state = dHoldover then s.setReg TIME_HOLDOVER_TIME_elapsed s.holdMs else s)
  else if 0x800000 ≤ off ∧ off < 0x1000000 then
    let n := (off - 0x800000) / 0x100000
    let o := off % 0x100000
    if o = 4 then s.viewCh n else if 0x100 ≤ o ∧ o < 0x200 then s.viewCtx n ((o - 0x100) / 8) else s.viewChCtr n o
  else if 0x1000000 ≤ off ∧ off < 0x1400000 then s.viewStore off
  else if 0x1400000 ≤ off ∧ off < 0x1500000 then s.viewMir off
  else if off = 0x1600010 then s.setReg GRP_COUNT_valid s.groups.length
  else s

/-- The MSI-X table (R378). -/
def inMsix (off : Nat) : Bool := decide (0x8000 ≤ off) && decide (off < 0x8400)

/-- A read of the MSI-X table or its pending bits: aligned accesses of 32 or 64 bits, as PCIe allows (R378). -/
def State.msixRead (s : State) (off width : Nat) : Nat :=
  let k := (off - 0x8000) / 16
  let v := if inMsix off then
      s.reg (HUB_MSIX_ADDR_addr k) + s.reg (HUB_MSIX_DATA_data k) * 2 ^ 64 + s.reg (HUB_MSIX_CTRL_mask k) * 2 ^ 96
    else s.reg HUB_MSIX_PBA_pending
  if (width = 32 || width = 64) && 8 * off % width = 0 then bits v (8 * (off % 16)) width else 0

/-- What a host read of `width` bits at `off` returns (R7, R8, R378): zero but for a register's own offset and full width. -/
def State.readReg (s : State) (off width : Nat) : Nat :=
  if inMsix off || (decide (0x9000 ≤ off) && decide (off < 0x9008)) then s.msixRead off width
  else match regAt regTable off with
    | some d => if d.width = width then readFields (s.view off).regs off d else 0
    | none => 0

end Sys2Proof.Machine
end

