-- ==== Sys2Proof/Machine/Intake.lean ====
section
/-! DEFINITION. Descriptors: fetch and intake, the layouts of their operands, their order, host memory reads (R364, R367–R371, R359). -/

namespace Sys2Proof.Machine

/-! ### Layouts (R370, R371) -/

/-- The bytes of each list lie within the fields that a descriptor uses; all others from 8 on are zero. -/
def unusedZero (b : Bytes) (used : List (Nat × Nat)) : Bool :=
  (List.range 56).all (fun i => used.any (fun u => decide (u.1 ≤ i + 8) && decide (i + 8 < u.1 + u.2)) || byteAt b (i + 8) == 0)

/-- The first 8 bytes are as R370 gives them. -/
def descHeadOk (b : Bytes) : Bool := b.length == 64 && decide (byteAt b 1 < 8) && byteAt b 2 == 0 && byteAt b 3 == 0

/-- An address of a stated alignment. -/
def aligned (b : Bytes) (at_ n a : Nat) : Bool := leAt b at_ n % a == 0

/-- The operands of an opcode and mode lie in their ranges, and what it does not use is zero (R371, R387, R420, R423). -/
def descOperandsOk (b : Bytes) : Bool :=
  let sel := byteAt b 8
  match byteAt b 0, sel with
  | 0x01, _ => unusedZero b [(8, 8), (16, 6), (24, 4)] && aligned b 8 8 64 && aligned b 16 6 256
  | 0x02, _ =>
    unusedZero b [(8, 6), (16, 6), (24, 1), (25, 1), (28, 4), (32, 4), (40, 8), (48, 8), (56, 8)] && aligned b 16 6 32 &&
      decide (byteAt b 25 < 16) && aligned b 28 4 32 && aligned b 32 4 32 && decide (leAt b 28 4 + leAt b 32 4 ≤ 0x6000000) &&
      aligned b 48 8 4096 && aligned b 56 8 4096
  | 0x03, _ => unusedZero b [(8, 8), (16, 2)] && aligned b 8 8 64 && decide (1 ≤ leAt b 16 2) && decide (leAt b 16 2 ≤ 64)
  | 0x04, _ =>
    unusedZero b [(8, 1), (12, 4), (16, 8)] && decide (sel ≤ 5) && decide (1 ≤ leAt b 12 4) && decide (leAt b 12 4 ≤ 65536) && aligned b 16 8 32
  | 0x05, _ =>
    unusedZero b [(8, 1), (16, 8), (24, 8), (32, 8)] && decide (sel ≤ 2) && aligned b 16 8 32 && aligned b 24 8 32 && aligned b 32 8 32 &&
      decide (32 ≤ leAt b 32 8) && decide (leAt b 32 8 ≤ 2 ^ 36)
  | 0x06, 0 => unusedZero b []
  | 0x06, 1 => unusedZero b [(8, 1), (9, 1)]
  | 0x06, 2 => unusedZero b [(8, 1), (9, 1), (10, 2), (12, 4)] && decide (byteAt b 9 ≤ 1)
  | 0x07, 0 => unusedZero b [(16, 8)] && aligned b 16 8 32
  | 0x07, 1 => unusedZero b [(8, 1), (10, 2), (16, 8)] && aligned b 16 8 32
  | 0x07, 2 => unusedZero b [(8, 1), (12, 1), (16, 8), (24, 32)] && decide (byteAt b 12 ≤ 5) && aligned b 16 8 32
  | 0x07, 3 => unusedZero b [(8, 1), (9, 1), (16, 8)] && aligned b 16 8 32
  | 0x08, 2 => unusedZero b [(8, 1), (16, 8)]
  | 0x08, 3 => unusedZero b [(8, 1), (16, 8), (24, 8)]
  | 0x08, op => unusedZero b [(8, 1)] && decide (op < 5)
  | 0x09, 0 =>
    unusedZero b [(12, 1), (16, 8), (24, 4)] && decide (byteAt b 12 ≤ 191) && decide (1 ≤ leAt b 24 4) && decide (leAt b 24 4 ≤ 10000000)
  | 0x09, 1 => unusedZero b [(8, 1), (10, 2), (14, 2), (16, 8), (24, 4)] && decide (1 ≤ leAt b 24 4) && decide (leAt b 24 4 ≤ 10000000)
  | 0x09, 2 => unusedZero b [(8, 1), (10, 2), (16, 8), (28, 4), (32, 3)]
  | 0x09, 3 => unusedZero b [(8, 1), (16, 8), (24, 4)] && decide (1 ≤ leAt b 24 4) && decide (leAt b 24 4 ≤ 10000000)
  | 0x0A, 0 => unusedZero b [(16, 8), (24, 8), (32, 4)] && aligned b 16 8 64
  | 0x0A, op => unusedZero b [(8, 1)] && decide (op < 4)
  | _, _ => false

/-- A descriptor passes the checks of R11, R370 and R371 that its bytes alone decide. -/
def descOk (b : Bytes) : Bool := descHeadOk b && descOperandsOk b

/-- A row of the table covers the descriptor: its opcode, and for 6–10 its mode, kind or operation, is one the spec gives. -/
def descKnown (b : Bytes) : Bool :=
  match byteAt b 0 with
  | 0x06 => decide (byteAt b 8 ≤ 2)
  | 0x07 => decide (byteAt b 8 ≤ 3)
  | 0x08 => decide (byteAt b 8 ≤ 4)
  | 0x09 => decide (byteAt b 8 ≤ 3)
  | 0x0A => decide (byteAt b 8 ≤ 3)
  | op => decide (1 ≤ op) && decide (op ≤ 5)

/-- A FENCE of mode 0 (R368). -/
def Desc.isFence0 (x : Desc) : Bool := x.opcode == 6 && byteAt x.bytes 8 == 0

/-! ### Fetch and intake (R364, R367, R369) -/

/-- Descriptors that were taken in before number `d`, of the same ring. -/
def State.earlier (s : State) (d : Nat) (x : Desc) : List (Nat × Desc) :=
  List.filter (fun e : Nat × Desc => decide (e.1 < d) && e.2.sq == x.sq && e.2.replayed == x.replayed) s.host.descs

/-- The SQ has a descriptor to fetch, and nothing holds it back (R365, R366, R368, R369). -/
def State.sqReady (s : State) (i : Nat) : Bool :=
  s.flag (RING_SQ_CFG_en i) && !s.flag (RING_SQ_STATE_error i) && !s.flag (RING_SQ_STATE_stalled i) && !s.flag (RING_SQ_STATE_held i) &&
    (s.flag HUB_STATUS_ready || i == 0) && decide (7 ≤ s.sys.phase) && !(s.host.sqs.get [] i).isEmpty &&
    !List.any s.host.descs (fun e : Nat × Desc => e.2.sq == i && !e.2.replayed && e.2.isFence0)

/-- The SQ that is served next, in round robin (R367). -/
def State.sqNext (s : State) : Option Nat :=
  ((List.range 1024).find? (fun k => s.sqReady ((s.host.turn + 1 + k) % 1024))).map (fun k => (s.host.turn + 1 + k) % 1024)

/-- What one doorbell made visible, without its first descriptor. -/
def Visible.drop1 (v : Visible) (rest : List Visible) : List Visible :=
  if v.n ≤ 1 then rest else { v with n := v.n - 1, arr := (v.arr + 1) % 2 ^ 32 } :: rest

/-- Intake order (R47, R368): by intake stamp, then by the arrival sequence of source 194. -/
def intakeBefore (t : FT64) (a : Nat) (t' : FT64) (a' : Nat) : Bool :=
  precedes t t' || (t == t' && decide (a != a' ∧ (2 ^ 32 + a' - a) % 2 ^ 32 < 2 ^ 31))

/-- The value of a seed slot as it stood at a doorbell: after every earlier write, by stamp and arrival number (R324, R340). A replayed descriptor
meets the slot as the replay has it. -/
def State.seedAt (s : State) (n : Nat) (x : Desc) : Nat :=
  let later := fun (w : SeedWrite) => w.slot == n && intakeBefore x.stamp x.arr w.stamp w.arr
  match (if x.replayed then none else s.host.seeds.find? later) with
  | some w => w.old
  | none => s.reg (SBK_SEED_seed n)

/-- A descriptor enters intake: it is recorded, latches its seed, and one that cannot run completes at once (R11, R324, R329, R338, R370). -/
def State.intake (s : State) (x : Desc) : State :=
  let x := { x with seed := s.seedAt (byteAt x.bytes 25 % 16) x }
  let s := s.count RING_CTR_descriptors_fetched
  let s := if s.recording && s.flag SBK_CFG_desc_en then
      s.record { kind := 2, src := 194, stamp := x.stamp, arr := x.arr, payload := leBytes 2 x.sq ++ leBytes 6 0 ++ x.bytes }
    else s
  let d := s.host.next
  let s := { s with host := { s.host with descs := s.host.descs.insert d x, next := d + 1 } }
  if s.replaying && !x.replayed && x.opcode != 7 && x.opcode != 8 then s.completeSt d 0x7A
  else if !descKnown x.bytes then s.completeSt d stBadDescriptor
  else s

/-- The descriptor at the head of SQ `i` is fetched (R359, R364, R366, R367, R369). -/
def State.fetchDesc (s : State) (i : Nat) (data : HostData) : State :=
  if s.sqNext != some i then s
  else
    let head := s.reg (RING_SQ_STATE_head i)
    let s := { s with host := { s.host with turn := i } }
    match data, s.host.sqs.get [] i with
    | _, [] => s
    | .error, _ => (s.hostFail .error).sqError i 3 head
    | .ide, _ => (s.hostFail .ide).sqError i 3 head
    | .ok b, v :: rest =>
      let b := (padTo 64 b).take 64
      if !s.flag HUB_STATUS_ready && byteAt b 0 != 0x0A then s.setReg (RING_SQ_STATE_held i) 1
      else
        let s := s.setReg (RING_SQ_STATE_head i) ((head + 1) % sqSize s i)
        let s := { s with host := { s.host with sqs := s.host.sqs.put [] i (v.drop1 rest) } }
        s.intake { sq := i, bytes := b, stamp := v.stamp, arr := v.arr, cq := s.reg (RING_SQ_CFG_cq i) }

/-! ### Execution (R368, R369, R371) -/

/-- An update of the groups or the tables that has not begun. -/
def Desc.applies (x : Desc) : Bool := (x.opcode == 3 || x.opcode == 4) && !x.started

/-- The update that is applied next (R368, R381): the first in intake order; those of a replay come before live ones. -/
def State.nextApply (s : State) : Option Nat :=
  let before := fun (x y : Desc) => (x.replayed && !y.replayed) || (x.replayed == y.replayed && intakeBefore x.stamp x.arr y.stamp y.arr)
  ((List.filter (fun e : Nat × Desc => e.2.applies) s.host.descs).foldl (fun (b : Option (Nat × Desc)) e => match b with
    | some y => if before e.2 y.2 then some e else b
    | none => some e) none).map (·.1)

/-- Descriptors that come before `x` in intake order can be fetched now, so an update waits for them (R368, R381). -/
def State.intakeOpen (s : State) (x : Desc) : Bool :=
  !x.replayed && s.host.sqs.any (fun q => s.sqReady q.1 &&
    (match q.2 with | v :: _ => intakeBefore v.stamp v.arr x.stamp x.arr | [] => false))

/-- A descriptor may start: `ordered`, a FENCE of mode 0 and a BUNDLE_LOAD (R387) wait for every earlier one of the ring; a replayed one waits for
an earlier FENCE of mode 0, behind which a live one is not fetched; updates of groups and tables go one at a time; before ready only bundles
load. -/
def State.mayStart (s : State) (d : Nat) (x : Desc) : Bool :=
  (!(x.ordered || x.isFence0 || x.opcode == 0x0A) || (s.earlier d x).isEmpty) &&
    (!x.replayed || !(s.earlier d x).any (fun e => e.2.isFence0)) && (!x.applies || (s.nextApply == some d && !s.intakeOpen x)) &&
    (s.flag HUB_STATUS_ready || x.opcode == 0x0A)

/-- Descriptor `d` is executed by the row of opcode `op`; for a row of one mode, kind or operation, `sel` is its code. -/
def State.runDesc (s : State) (d op : Nat) (sel : Option Nat) (f : Desc → State → State) : State :=
  match s.desc d with
  | none => s
  | some x =>
    if x.opcode != op || (match sel with | some v => byteAt x.bytes 8 != v | none => false) || x.started || !s.mayStart d x then s
    else if !descOk x.bytes then s.completeSt d stBadDescriptor
    else f x s

/-- The descriptor runs, and completes later. -/
def State.startDesc (s : State) (d : Nat) : State := s.modDesc d (fun x => { x with started := true })

/-- An apply must wait for a later stamp (R368): device time has been stepped back behind the last one. Within a TIME cycle the order of the
commands is the order of time (DESIGN CHOICE), and each apply takes the next FT64 unit. -/
def State.applyWaits (s : State) : Bool :=
  match s.host.applied with
  | some a => decide (256 ≤ ftDiff s.now a)
  | none => false

/-- An apply stamp: the present time, or the one after the last apply stamp when that is not earlier (R79, R368). -/
def State.applyStamp (s : State) : FT64 × State :=
  let t := match s.host.applied with
    | some a => if precedes a s.now then s.now else a + 1
    | none => s.now
  (t, { s with host := { s.host with applied := some t } })

/-! ### Host memory (R329, R337, R359) -/

/-- What a host read brings. -/
inductive HostGot where
  | got (b : Bytes)
  | fail
  /-- The recorded bytes have not been presented yet. -/
  | wait
  deriving DecidableEq, Repr

/-- Recorded pieces of at most 65,536 bytes that make up `n` bytes from `a` on, and what is left of the records. -/
def takePieces (l : List (Nat × Bytes)) (a n : Nat) : Option (Bytes × List (Nat × Bytes)) :=
  (List.range (ceilDiv n 65536)).foldl (fun acc k => match acc with
    | none => none
    | some (b, l) =>
      match List.find? (fun p : Nat × Bytes => p.1 == a + 65536 * k) l with
      | none => none
      | some p => some (b ++ p.2, l.erase p)) (some ([], l))

/-- The bytes that a descriptor read are recorded (R329, R331). -/
def State.recordHost (s : State) (a : Nat) (b : Bytes) : State :=
  if s.recording && s.flag SBK_CFG_desc_en && s.flag SBK_CFG_host_data then
    (List.range (ceilDiv b.length 65536)).foldl (fun s k => s.recordNow 3 194 (leBytes 8 (a + 65536 * k) ++ slice b (65536 * k) 65536)) s
  else s

/-- Descriptor `d` reads `n` bytes of host memory at `a`; `data` is what the host returns. A replayed one takes the recorded bytes. -/
def State.hostRead (s : State) (d : Nat) (x : Desc) (a n : Nat) (data : HostData) : HostGot × State :=
  match (if x.replayed then s.sbk.replay.filter (·.hostRec) else none) with
  | some r =>
    match takePieces r.hostData a n with
    | some (b, l) => (.got ((padTo n b).take n), { s with sbk := { s.sbk with replay := some { r with hostData := l } } })
    | none => (.wait, s)
  | none =>
    match data, s.hostEnd (some d) data.how with
    | .ok b, .done => (.got ((padTo n b).take n), s.recordHost a ((padTo n b).take n))
    | _, how => (.fail, s.hostFail how)

/-- A descriptor that begins with a host read: a failed read ends it (R359). -/
def State.withHost (s : State) (d : Nat) (x : Desc) (a n : Nat) (data : HostData) (f : Bytes → State → State) : State :=
  match s.hostRead d x a n data with
  | (.got b, s) => f b s
  | (.fail, s) => s.completeSt d stHostAccess
  | (.wait, s) => s

def execDescriptorFetch (i : Ring) (data : HostData) (s : State) : Host.Outcome State Fault Refusal := s.does (fun s => s.fetchDesc i.val data)

end Sys2Proof.Machine
end

