-- ==== Sys2Proof/Machine/Programs.lean ====
section
/-! DEFINITION. Descriptors that load and start programs, copy the store, fence and query, and the BAR4 window
(R95, R96, R115, R145–R147, R169, R359, R361, R371–R377). -/

namespace Sys2Proof.Machine

/-! ### Loading and starting (R145–R147, R372, R373) -/

/-- LOAD_PROGRAM: the image is read and checked, then written to the program region (R145, R372). -/
def State.loadProgram (s : State) (d : Nat) (x : Desc) (data : HostData) : State :=
  let src := leAt x.bytes 8 8
  let dst := leAt x.bytes 16 6
  let len := leAt x.bytes 24 4
  let n := (len - 64) / 16
  if n < 1 || 16384 < n || len != 64 + 16 * n then s.completeSt d stBadDescriptor
  else
    s.withHost d x src len data (fun b s =>
      if hLength b != n || !imageOk b (imageWords n (b.drop 64)) then s.completeSt d stBadDescriptor
      else match s.rangeCheck dst len [.program] with
        | some st => s.completeSt d st
        | none =>
          match s.partialUe dst len with
          | some w => (s.logUe (w * 32) 3).complete d { status := stMemUncorrectable, detail := w * 32 }
          | none => ((s.storeWrite dst b).hubAccess dst len).complete d { status := stOk, result := n })

/-- Tile groups of a channel that are present (R146, R174). -/
def State.present (s : State) (ch : Nat) : Nat := s.reg (HUB_CAPS_PRESENT_ch (ch / 4) (ch % 4))

/-- Check 6 of R146: the context, a tile group or a claimed pip is in use. -/
def State.startBusy (s : State) (cx : Nat) (h : Bytes) : Bool :=
  let ch := chOf cx
  (s.ctx cx).st != .idle || (s.reg (CH_TILE_HOLD_held ch) &&& hTiles h) != 0 ||
    (List.range 8).any (fun j =>
      let k := s.ctx (32 * ch + 8 * coreOf cx + j)
      k.st != .idle && (hClaim k.header &&& hClaim h) != 0)

/-- The context enters LOADING and holds its tile groups and claims (R146, R147, R238, R324). -/
def State.startLoading (s : State) (d cx : Nat) (x : Desc) (h : Bytes) : State :=
  let ch := chOf cx
  let c := cx % 32
  let s := s.clearPips ch (coreOf cx) (hClaim h)
  let s := (s.setReg (CH_TILE_HOLD_held ch) (s.reg (CH_TILE_HOLD_held ch) ||| hTiles h)).clearBanks ch (hTiles h)
  let s := s.setReg (CH_CTX_FAULT_valid ch c) 0
  let at_ := (CH_SPARSE_FAULT_valid ch c).off
  let s := { s with regs := s.regs.resetRange at_ (at_ + 8) }
  let k : Ctx :=
    { st := .loading, waits := 3, waitSince := s.clk.cyc, header := h, args := leAt x.bytes 16 6, win := leAt x.bytes 28 4,
      winLen := leAt x.bytes 32 4, host := leAt x.bytes 48 8, hostLen := leAt x.bytes 56 8,
      seed := x.seed, step := leAt x.bytes 40 8, d := some d }
  ((s.modCtx cx (fun _ => k)).hubAccess (leAt x.bytes 8 6) 64).startDesc d

/-- START_PROGRAM: the checks of R146 in their order; a group with a remap pending holds it at intake, and so does a store that is disabled,
which starts no program (R94; DESIGN CHOICE: the spec gives no status for it). -/
def State.startProgram (s : State) (d : Nat) (x : Desc) : State :=
  let img := leAt x.bytes 8 6
  let cx := byteAt x.bytes 24
  let ch := chOf cx
  match (s.rangeCheck img 64 [.program]).or (s.rangeCheck (leAt x.bytes 16 6) 256 [.program]) with
  | some st => s.completeSt d st
  | none =>
    match (s.badWords img 64).head? with
    | some w => (s.logUe (w * 32) 3).complete d { status := stMemUncorrectable, detail := w * 32 }
    | none =>
      let h := s.storeRead img 64
      let n := hLength h
      let solo := s.solo cx
      if hMode h != bit1 solo || (solo && cx % 8 != 0) || n < 1 || (if solo then 16384 else 2048) < n then s.completeSt d stBadDescriptor
      else match s.rangeCheck img (64 + 16 * n) [.program] with
        | some st => s.completeSt d st
        | none =>
          if (tilesOf (hTiles h)).any (fun t => s.reg (CH_SPARE_STATUS_group ch (t / 16)) == 2) || !s.flag STORE_STATUS_ready then s
          else if (s.chan ch).blocked || !within (hTiles h) (s.present ch) then s.completeSt d stEngineAbsent
          else if s.startBusy cx h then s.completeSt d stResourceBusy
          else s.startLoading d cx x h

/-! ### STORE_COPY (R95, R96, R115, R359, R371) -/

/-- The first address of a range that the refusal `st` of R96 concerns. -/
def State.firstFail (s : State) (a n st : Nat) (ok : List Region) : Nat :=
  let at_ := [a, s.pktEnd, s.progEnd, s.sbkBase, storeEnd].filter (fun c => decide (a ≤ c) && decide (c < a + n))
  (at_.find? (fun c => if st = stStoreRange then s.regionOf c == .none else !ok.contains (s.regionOf c) && s.regionOf c != .none)).getD a

/-- The refusal of a range, with its failing address. -/
def State.rangeFail (s : State) (a n : Nat) (ok : List Region) : Option Report :=
  (s.rangeCheck a n ok).map (fun st => { status := st, detail := s.firstFail a n st ok })

/-- A buffer for what a host descriptor moves, charged to owner 224 while it runs (R106, R109): `none` when the request is refused. Which buffer
a STORE_COPY asks for the spec does not say: the model takes one of its length, of the largest size for a longer copy, and none while the store
is disabled (DESIGN CHOICE). -/
def State.hostBuffer (s : State) (n : Nat) : Option (Option Nat) × State :=
  if !s.flag STORE_STATUS_ready then (some none, s)
  else match s.request 224 (min n (poolSize 5)) false (s.home 8) none with
    | (.ok u, s) => (some (some u), s)
    | (.error _, s) => (none, s)

/-- The bytes of a STORE_COPY move. -/
def State.copyBytesOf (s : State) (d : Nat) (x : Desc) (data : HostData) : State :=
  let dir := byteAt x.bytes 8
  let src := leAt x.bytes 16 8
  let dst := leAt x.bytes 24 8
  let n := leAt x.bytes 32 8
  if dir = 0 then s.withHost d x src n data (fun b s => ((s.storeWrite dst b).hubAccess dst n).completeSt d stOk)
  else
    match (s.badWords src n).head? with
    | some w => (s.logUe (w * 32) 3).complete d { status := stMemUncorrectable, detail := w * 32 }
    | none =>
      let b := s.storeRead src n
      let s := s.hubAccess src n
      if dir = 2 then ((s.storeWrite dst b).hubAccess dst n).completeSt d stOk
      else match s.hostEnd (some d) data.how with
        | .done => (s.emit (.hostWrite dst b)).completeSt d stOk
        | how => (s.hostFail how).completeSt d stHostAccess

/-- STORE_COPY. `data` is what the host read returns; for a copy to the host, whether its writes succeed. -/
def State.storeCopy (s : State) (d : Nat) (x : Desc) (data : HostData) : State :=
  let dir := byteAt x.bytes 8
  let n := leAt x.bytes 32 8
  let refused := (if dir = 0 then none else s.rangeFail (leAt x.bytes 16 8) n [.program, .seedbank]).or
    (if dir = 1 then none else s.rangeFail (leAt x.bytes 24 8) n [.program])
  match refused with
  | some r => s.complete d r
  | none =>
    match s.hostBuffer n with
    | (none, s) => s.completeSt d stPoolExhausted
    | (some u, s) =>
      let s := s.copyBytesOf d x data
      match u with
      | some u => s.release u (s.home 8)
      | none => s

/-! ### FENCE of modes 0 and 1 (R375) -/

/-- FENCE of mode 1: the context ends through its drain, and the fence completes when it is IDLE. A program that has come to its end ends as
such (R381). -/
def State.fenceContext (s : State) (d : Nat) (x : Desc) : State :=
  let cx := byteAt x.bytes 9
  let s := s.programEnd cx
  if (s.ctx cx).st == .idle then s.completeSt d stOk
  else ((s.startDesc d).modCtx cx (fun k => { k with fences := k.fences ++ [d] })).fenceCtx cx

/-! ### QUERY (R374, R376) -/

/-- A result of a QUERY is written to the host and the descriptor completes; `how` is how the write ends. -/
def State.answerQuery (s : State) (d : Nat) (x : Desc) (how : HostEnd) (b : Bytes) : State :=
  match s.hostEnd (some d) how with
  | .done => (s.emit (.hostWrite (leAt x.bytes 16 8) b)).complete d { status := stOk, result := b.length }
  | how => (s.hostFail how).completeSt d stHostAccess

/-- QUERY kind 0. -/
def State.queryDevice (s : State) : Bytes :=
  [0x0, 0x8, 0x10, 0x18, 0x20, 0x408, 0x4C0, 0x700008].flatMap (fun o => leBytes 8 (s.readReg o 64))

/-- QUERY kind 3. -/
def State.queryContext (s : State) (cx : Nat) : Bytes :=
  let b := 0x800000 + 0x100000 * chOf cx + 8 * (cx % 32)
  [0x100, 0x200, 0x300].flatMap (fun o => leBytes 8 (s.readReg (b + o) 64)) ++ leBytes 8 (s.ctx cx).step

/-- QUERY kind 2: the record of table `t` that matches the header and key of `k` exactly. -/
def State.queryTable (s : State) (t : Nat) (k : Bytes) : Option Bytes :=
  let t4 := fun (w plen addr : Nat) (tab : Tab Nat) =>
    if w < plen || addr % 2 ^ (w - plen) != 0 then none else tab.find? (lpmKey w plen addr)
  match t with
  | 0 =>
    (s.tables.endpoint.find? (endpointKey (beAt k 8 6) (leAt k 2 2 % 4096))).map (fun a =>
      [0, 0] ++ leBytes 2 (leAt k 2 2 % 4096) ++ leBytes 4 0 ++ slice k 8 6 ++ [0, 0] ++ leBytes 8 a ++ leBytes 8 0)
  | 1 => (t4 32 (byteAt k 1) (beAt k 8 4) s.tables.v4).map (fun a => [0] ++ slice k 1 1 ++ leBytes 6 0 ++ slice k 8 4 ++ leBytes 4 0 ++ leBytes 8 a ++ leBytes 8 0)
  | 2 => (t4 128 (byteAt k 1) (beAt k 8 16) s.tables.v6).map (fun a => [0] ++ slice k 1 1 ++ leBytes 6 0 ++ slice k 8 16 ++ leBytes 8 a)
  | 3 => (s.tables.nexthop.find? (leAt k 0 4)).map (fun e => slice k 0 4 ++ leBytes 4 0 ++ e ++ leBytes 8 0)
  | 4 => (s.tables.ecmp.find? (leAt k 0 4)).map (fun e => slice k 0 4 ++ leBytes 4 0 ++ e)
  | _ => (s.tables.repl.find? (leAt k 0 4)).map (fun e => slice k 0 4 ++ leBytes 4 0 ++ e)

/-! ### BAR4 (R95, R96, R98, R361) and the link -/

/-- BAR4 is open: a bundle runs and HUB_BAR4_CFG.en is set (R361, R391). -/
def State.bar4Open (s : State) : Bool := s.flag HUB_STATUS_ready && s.flag HUB_BAR4_CFG_en

/-- A read through BAR4: store bytes, or an error response. -/
def State.bar4Read (s : State) (a n : Nat) : State :=
  if !s.bar4Open || (s.rangeCheck a n [.program, .seedbank]).isSome then s.emit (.bar4Read a none)
  else
    match (s.badWords a n).head? with
    | some w => (s.logUe (w * 32) 3).emit (.bar4Read a none)
    | none => (s.hubAccess a n).emit (.bar4Read a (some (s.storeRead a n)))

/-- A write through BAR4. -/
def State.bar4Write (s : State) (a : Nat) (b : Bytes) : State :=
  if !s.bar4Open || (s.rangeCheck a b.length [.program]).isSome then s.emit (.bar4Write a false)
  else
    match s.partialUe a b.length with
    | some w => (s.logUe (w * 32) 3).emit (.bar4Write a false)
    | none => ((s.storeWrite a b).hubAccess a b.length).emit (.bar4Write a true)

/-- The CXL link is up (R443): HUB_BOOT_TIME.link_ms counts from the end of the reset. -/
def State.cxlLinkUp (s : State) : State :=
  if s.sys.cxlUp then s
  else ({ s with sys := { s.sys with cxlUp := true } }).setReg HUB_BOOT_TIME_link_ms (min 65535 ((s.clk.cyc - s.sys.endCyc) / 1000000))

/-! ### The commands -/

def execLoadProgram (d : Nat) (data : HostData) (s : State) : Host.Outcome State Fault Refusal :=
  s.does (fun s => s.runDesc d 1 none (fun x s => s.loadProgram d x data))
def execStartProgram (d : Nat) (s : State) : Host.Outcome State Fault Refusal :=
  s.does (fun s => s.runDesc d 2 none (fun x s => s.startProgram d x))
def execStoreCopy (d : Nat) (data : HostData) (s : State) : Host.Outcome State Fault Refusal :=
  s.does (fun s => s.runDesc d 5 none (fun x s => s.storeCopy d x data))
def execFenceRing (d : Nat) (s : State) : Host.Outcome State Fault Refusal :=
  s.does (fun s => s.runDesc d 6 (some 0) (fun _ s => s.completeSt d stOk))
def execFenceContext (d : Nat) (s : State) : Host.Outcome State Fault Refusal :=
  s.does (fun s => s.runDesc d 6 (some 1) (fun x s => s.fenceContext d x))
def execQueryDevice (d : Nat) (how : HostEnd) (s : State) : Host.Outcome State Fault Refusal :=
  s.does (fun s => s.runDesc d 7 (some 0) (fun x s => s.answerQuery d x how s.queryDevice))
def execQueryGroup (d : Nat) (how : HostEnd) (s : State) : Host.Outcome State Fault Refusal :=
  s.does (fun s => s.runDesc d 7 (some 1) (fun x s => match s.groups.find? (leAt x.bytes 10 2) with
    | some g => s.answerQuery d x how g.entry
    | none => s.completeSt d stBadDescriptor))
def execQueryTableEntry (d : Nat) (how : HostEnd) (s : State) : Host.Outcome State Fault Refusal :=
  s.does (fun s => s.runDesc d 7 (some 2) (fun x s => match s.queryTable (byteAt x.bytes 12) (slice x.bytes 24 32) with
    | some b => s.answerQuery d x how b
    | none => s.completeSt d stKeyAbsent))
def execQueryContext (d : Nat) (how : HostEnd) (s : State) : Host.Outcome State Fault Refusal :=
  s.does (fun s => s.runDesc d 7 (some 3) (fun x s => s.answerQuery d x how (s.queryContext (byteAt x.bytes 9))))
def execBar4Read (addr len : Nat) (s : State) : Host.Outcome State Fault Refusal := s.does (fun s => s.bar4Read addr len)
def execBar4Write (addr : Nat) (bytes : Bytes) (s : State) : Host.Outcome State Fault Refusal := s.does (fun s => s.bar4Write addr bytes)
def execCxlLinkUp (s : State) : Host.Outcome State Fault Refusal := s.does State.cxlLinkUp

end Sys2Proof.Machine
end

