-- ==== Sys2Proof/Machine/Tokens.lean ====
section
/-! DEFINITION. Token dispatch and combine: intake, batches, commits, expert results, going home (chapter 13). -/

namespace Sys2Proof.Machine

/-! ### The dispatch entry (R294, R300, R304) -/

def tkK (e : Bytes) : Nat := byteAt e 10 % 16
def tkRo (e : Bytes) : Nat := 256 * (byteAt e 11 + 1)
def tkB (e : Bytes) : Nat := leAt e 20 2
def tkE (e : Bytes) : Nat := leAt e 22 2
def tkC (e : Bytes) : Nat := leAt e 24 2
def tkFlush (e : Bytes) : Nat := leAt e 26 2
def tkXtab (e : Bytes) : Nat := leAt e 52 6
def tkComb (e : Bytes) : Nat := leAt e 58 4

/-- Result elements of a token. -/
def tkNo (e : Bytes) : Nat := tkRo e * 8 / elemBits (gOutFmt e)

/-- 256 × ceil(x / 256). -/
def tkPad (x : Nat) : Nat := 256 * ceilDiv x 256

/-- Zc, and the offsets of weights, slots and accumulators in a combine batch (R304). -/
def tkWeights (e : Bytes) : Nat := 256 + 8 * tkB e * tkK e
def tkSlots (e : Bytes) : Nat := tkWeights e + tkPad (4 * tkB e * tkK e)
def tkAccs (e : Bytes) : Nat := tkSlots e + tkPad (4 * tkB e * tkK e)
def tkZc (e : Bytes) : Nat := tkAccs e + 4 * tkB e * tkNo e
def tkCombAt (e : Bytes) (j : Nat) : Nat := tkComb e + j * tkZc e
def tkIntakeAt (e : Bytes) (j : Nat) : Nat := gBase e + j * tkB e * (gCap e + 16)

def stTokenGap : Nat := 0x38
def stDispatchMap : Nat := 0x39
def stResultLate : Nat := 0x3A

def State.modDisp (s : State) (gid : Nat) (f : Disp → Disp) : State := s.modGrp gid (fun g => { g with disp := f g.disp })
def State.batch (s : State) (gid j : Nat) : Batch := ((s.grp gid).map (fun g => g.disp.batches.get {} j)).getD {}
def State.modBatch (s : State) (gid j : Nat) (f : Batch → Batch) : State :=
  s.modDisp gid (fun d => { d with batches := d.batches.modify {} j f })

/-! ### Sources (R298, R299, R313) -/

/-- A source in a step: an open one, or a closed one that is still kept. -/
def Grp.src (g : Grp) (n m : Nat) : Option TokSrc :=
  match stepDiff n (gStep g.entry) with
  | 0 => some (g.disp.srcs.get {} m)
  | 1 => some (g.disp.srcs.get {} (4096 + m))
  | _ => (List.find? (fun x : Nat × Nat × TokSrc => x.1 == n && x.2.1 == m) g.disp.closed).map (fun x => x.2.2)

/-- A source in a step changed. -/
def State.modSrc (s : State) (gid n m : Nat) (f : TokSrc → TokSrc) : State :=
  s.modGrp gid (fun g =>
    let d := g.disp
    match stepDiff n (gStep g.entry) with
    | 0 => { g with disp := { d with srcs := d.srcs.modify {} m f } }
    | 1 => { g with disp := { d with srcs := d.srcs.modify {} (4096 + m) f } }
    | _ => { g with disp := { d with closed := d.closed.map (fun x => if x.1 = n && x.2.1 = m then (x.1, x.2.1, f x.2.2) else x) } })

/-! ### Batches fill and complete (R300–R302) -/

/-- The batch of a step that is filling. -/
def Grp.filling (g : Grp) (n : Nat) : Option Nat :=
  (List.find? (fun b : Nat × Batch => b.2.st == .filling && b.2.step == n) g.disp.batches).map (·.1)

/-- A filling batch is complete: padded, its header written, queued (R301, R304). -/
def State.completeBatch (s : State) (gid j : Nat) : State :=
  match s.grp gid with
  | none => s
  | some g =>
    let e := g.entry
    let b := g.disp.batches.get {} j
    let n := b.toks.length
    let pads := tkB e - n
    let a := tkIntakeAt e j
    let s := s.slotWrite (gCh e) (a + n * gCap e) (List.replicate (pads * gCap e) 0)
    let s := s.slotWrite (gCh e) (a + tkB e * gCap e + 16 * n) ((List.range pads).flatMap (fun _ => leBytes 2 0xFFFF ++ List.replicate 14 0))
    let first := (b.toks.head?.map (·.stamp)).getD 0
    let s := s.slotWrite (gCh e) (tkCombAt e j) (padTo 256 (leBytes 4 n ++ leBytes 4 b.step ++ leBytes 4 b.seq ++ List.replicate 4 0 ++ leBytes 8 first.toNat))
    (s.count GRP_CTR_pad_tokens pads).modBatch gid j (fun b => { b with st := .queued })

/-- A batch for tokens of step `n`: the one that fills, or the next of the ring when it is free (R300, R302). -/
def State.batchFor (s : State) (gid n : Nat) (stamp : FT64) : Option Nat × State :=
  match s.grp gid with
  | none => (none, s)
  | some g =>
    match g.filling n with
    | some j => (some j, s)
    | none =>
      let d := g.disp
      let j := d.nextBatch
      if (d.batches.get {} j).st != .free then (none, s)
      else
        let s := s.modDisp gid (fun d => { d with
          batches := d.batches.modify {} j (fun b => { b with st := .filling, step := n, seq := d.nextSeq, toks := [], taken := [], deadline := none })
          nextBatch := (j + 1) % gSlots g.entry, nextSeq := (d.nextSeq + 1) % 2 ^ 32 })
        (some j, if tkFlush g.entry = 0 then s else s.schedule (stamp + ns (tkFlush g.entry * 1000)) (.flush gid))

/-- One token enters the intake ring; false when no batch is free. -/
def State.takeToken (s : State) (gid n m num : Nat) (stamp : FT64) (row : Bytes) : Bool × State :=
  match s.grp gid with
  | none => (false, s)
  | some g =>
    let e := g.entry
    match s.batchFor gid n stamp with
    | (none, s) => (false, s)
    | (some j, s) =>
      let i := (s.batch gid j).toks.length
      let a := tkIntakeAt e j
      let s := s.slotWrite (gCh e) (a + i * gCap e) row
      let s := s.slotWrite (gCh e) (a + tkB e * gCap e + 16 * i) (leBytes 2 m ++ [1, 0] ++ leBytes 4 num ++ leBytes 8 stamp.toNat)
      let s := ((s.combined (gCh e) (gCap e)).count GRP_CTR_tokens_accepted).modBatch gid j (fun b => { b with toks := b.toks ++ [{ src := m, num := num, stamp := stamp }] })
      let s := s.modSrc gid n m (fun t => { t with next := num + 1 })
      (true, if i + 1 = tkB e then s.completeBatch gid j else s)

/-! ### Token frames (R297–R299) -/

/-- Tokens of a frame: number and row. -/
def tokenList (r : Nat) (p : Bytes) : List (Nat × Bytes) :=
  (List.range (p.length / (8 + r))).map (fun i => (beAt p (i * (8 + r)) 4, slice p (i * (8 + r) + 8) r))

/-- The tokens of a frame at or above next enter the ring, in order, as far as batches are free. -/
def State.takeTokens (s : State) (gid n m : Nat) (stamp : FT64) : List (Nat × Bytes) → Bool × State
  | [] => (true, s)
  | t :: r =>
    if t.1 < (((s.grp gid).bind (fun g => g.src n m)).getD {}).next then s.takeTokens gid n m stamp r
    else
      match s.takeToken gid n m t.1 stamp t.2 with
      | (false, s) => (false, s)
      | (true, s) => s.takeTokens gid n m stamp r

/-- A frame's tokens are taken in and acknowledged, or the frame waits for a free batch (R299 order 7 and 8, R300). -/
def State.tokensIn (s : State) (g : GIn) (e : Bytes) : Bool × State :=
  if !s.readable g then
    (true, (((s.logUe (((s.badWords (g.unit * 256) g.len).headD 0) * 32) 1).retire g.unit).gsend (s.answer e g stMemUncorrectable)).gdrop g)
  else
    match s.takeTokens g.gid g.h.step g.h.member g.stamp (tokenList (gCap e) g.payload) with
    | (true, s) => (true, (s.reack e g).gdrop g)
    | (false, s) => (false, s)

/-- Waiting token frames, in order, while batches are free. -/
def State.drainTokens (s : State) (gid : Nat) : List Nat → State
  | [] => s.modDisp gid (fun d => { d with waiting := [] })
  | id :: r =>
    match s.ginOf id gid, s.grp gid with
    | some g, some x =>
      match s.tokensIn g x.entry with
      | (true, s) => s.drainTokens gid r
      | (false, s) => s.modDisp gid (fun d => { d with waiting := id :: r })
    | _, _ => s.drainTokens gid r


/-- Every active source's count of cur_step has been taken in: the step closes (R301). -/
def State.closeStep (s : State) (gid : Nat) : State :=
  match s.grp gid with
  | none => s
  | some g =>
    let e := g.entry
    let n := gStep e
    let s := s.listErrors e
    let act := (s.actives e).map (·.1)
    if act.isEmpty || !act.all (fun m => match (g.disp.srcs.get {} m).count with | some c => decide (c ≤ (g.disp.srcs.get {} m).next) | none => false) then s
    else
      let s := match g.filling n with
        | some j => s.completeBatch gid j
        | none => s
      s.modGrp gid (fun g => { g with
        entry := gSet g.entry 44 4 ((n + 1) % 2 ^ 32)
        disp := { g.disp with
          closed := (g.disp.closed.filter (fun x => x.1 != n)) ++
            ((g.disp.srcs.filter (fun x => decide (x.1 < 4096))).map (fun x => (n, x.1, x.2)))
          srcs := (g.disp.srcs.filter (fun x => decide (4096 ≤ x.1))).map (fun x => (x.1 - 4096, x.2)) } })

/-- The steps that can close do; then waiting frames of the step after them may close it in their turn. -/
def State.closeSteps (s : State) (gid : Nat) : State := (s.closeStep gid).closeStep gid

/-- Waiting frames come in, and a step whose counts are reached closes (R300, R301). -/
def State.retryTokens (s : State) (gid : Nat) : State :=
  (s.drainTokens gid (((s.grp gid).map (fun g => g.disp.waiting)).getD [])).closeSteps gid

/-- The token number expected of a source: behind what was taken in, and behind its frames that wait for a batch. -/
def State.expectNext (s : State) (x : Grp) (n m : Nat) : Nat :=
  x.disp.waiting.foldl (fun v id => match s.ginOf id (gGid x.entry) with
    | some g => if g.h.step == n && g.h.member == m then (tokenList (gCap x.entry) g.payload).foldl (fun v t => max v (t.1 + 1)) v else v
    | none => v) ((x.src n m).getD {}).next

/-- TOKEN or TOKEN_END of a source, in decision order: the checks of R299. A repeat of tokens that still wait for a batch is dropped: they are
acknowledged as they enter. -/
def State.sourceFrame (s : State) (k op : Nat) : State :=
  match s.take k (fun g => g.h.opcode == op && s.turn [0x40, 0x41] g) with
  | (none, s) => s
  | (some g, s) =>
    match s.grp g.gid with
    | none => s.gdrop g
    | some x =>
      let e := x.entry
      let m := g.h.member
      let n := g.h.step
      if gKind e != 5 then s.gdrop g
      else if !gOwn e then (s.nackIn e g stNotOwner).gdrop g
      else if gCount e ≤ m then (s.count GRP_CTR_member_drops).gdrop g
      else if (s.memberEntry e m).isNone then (s.memberUe e m).gdrop g
      else if !mActive ((s.memberEntry e m).getD []) then (s.count GRP_CTR_member_drops).gdrop g
      else if g.h.epoch != gEpoch e then (s.nackIn e g stGroupEpoch).gdrop g
      else
        let s := s.renew g.gid m g.stamp
        let d := stepDiff n (gStep e)
        let t := x.src n m
        let toks := if op = 0x40 then tokenList (gCap e) g.payload else []
        let nx := s.expectNext x n m
        if (d != 0 && d != 1) || (t.getD {}).count.isSome then
          (if t.isSome && toks.all (fun y => decide (y.1 < (t.getD {}).next)) then s.reack e g
            else if t.isSome && toks.all (fun y => decide (y.1 < nx)) then s
            else s.nackIn e g stStepRange).gdrop g
        else if g.h.op != 0x5F || g.h.cls != 0 || (if op = 0x40 then g.h.fmt != gFmt e || g.payload.length % (8 + gCap e) != 0 || toks.isEmpty else g.h.fmt != 0) then
          (s.nackIn e g stCollectiveMismatch).gdrop g
        else
          let first := if op = 0x40 then (toks.head?.map (·.1)).getD 0 else beAt g.payload 0 4
          if nx < first then
            ((if s.nacked g then s else (s.count GRP_CTR_gap_nacks).raise (evTok GRP_TOK_INTR_STATUS_gap_ev)).nackIn e g stTokenGap nx).gdrop g
          else if op = 0x41 then
            let s := s.modSrc g.gid n m (fun t => { t with count := some first })
            ((s.reack e g).gdrop g).closeSteps g.gid
          else if x.disp.waiting.isEmpty then
            match s.tokensIn g e with
            | (true, s) => s.closeSteps g.gid
            | (false, s) => s.modDisp g.gid (fun d => { d with waiting := d.waiting ++ [g.frm] })
          else s.modDisp g.gid (fun d => { d with waiting := d.waiting ++ [g.frm] })

/-- The flush time of the filling batches (R301): those whose first token is old enough complete, the others are due later. With flush 0
none is. -/
def State.fireFlush (s : State) (gid : Nat) : State :=
  let s := s.unschedule (.flush gid)
  match s.grp gid with
  | none => s
  | some g =>
    let fill := List.filter (fun b : Nat × Batch => b.2.st == .filling) g.disp.batches
    let endOf := fun (b : Batch) => (b.toks.head?.map (·.stamp)).getD 0 + ns (tkFlush g.entry * 1000)
    if tkFlush g.entry = 0 then s
    else fill.foldl (fun s b => if atOrBefore (endOf b.2) s.now then s.completeBatch gid b.1 else s.schedule (endOf b.2) (.flush gid)) s

/-- A queued batch becomes READY once every earlier one is COMMITTED or FREE (R302, R303). -/
def State.batchReady (s : State) (gid : Nat) : State :=
  match s.grp gid with
  | none => s
  | some g =>
    let e := g.entry
    let live := List.filter (fun b : Nat × Batch => b.2.st != .free && b.2.st != .committed) g.disp.batches
    let oldest := live.foldl (fun (o : Option (Nat × Batch)) b => match o with
      | some x => if stepDiff b.2.seq x.2.seq < 0 then some b else o
      | none => some b) none
    match oldest with
    | some (j, b) =>
      if gOwn e && b.st == .queued then
        ((s.modBatch gid j (fun b => { b with st := .ready })).clearPips (gCh e) (gCore e) (2 ^ gRelPip e)).setPip (gCh e) (gCore e) (gDonePip e)
      else s
    | none => s

/-! ### Commit (R306, R307) -/

/-- Endpoint of expert `x` while it is active (R296). -/
def State.expert (s : State) (e : Bytes) (x : Nat) : Option Nat :=
  let a := tkXtab e + 8 * x
  if s.badWords a 8 == [] && bitOf (leNat (s.storeRead (a + 2) 1)) 0 then some (leNat (s.storeRead a 2)) else none

/-- The outcome of an assignment's checks: a slot, or why it is dropped; and whether the map fault is logged. -/
def State.checkAssign (s : State) (e : Bytes) (used : List Nat) (expert slot : Nat) : Except (Nat × Bool) Nat :=
  if slot = 0xFFFFFFFF then .error (stCapacityDrop, false)
  else if tkE e ≤ expert || tkE e * tkC e ≤ slot || slot / tkC e != expert then .error (stDispatchMap, true)
  else if used.contains slot then .error (stDispatchMap, true)
  else if (s.expert e expert).isNone then .error (stDispatchMap, false)
  else .ok slot

/-- A drop record: token number, rank, status, expert (R307). -/
def dropRec (num r status expert : Nat) : Bytes := beBytes 4 num ++ beBytes 1 r ++ beBytes 1 status ++ beBytes 2 (if 4096 ≤ expert then 0xFFFF else expert)

/-- Each source of `drops` is sent its records (R307). -/
def State.sendDrops (s : State) (e : Bytes) (n : Nat) (drops : List (Nat × Bytes)) : State :=
  ((drops.map (·.1)).eraseDups).foldl (fun s m =>
    let l := (drops.filter (fun x => x.1 == m)).map (·.2)
    match s.memberEntry e m with
    | some b => s.gsend (gframe e { opcode := 0x45, gid := gGid e, step := n, op := 0x5F } (beBytes 4 l.length ++ [0, 0, 0, 0] ++ l.flatten) [mId b])
    | none => s) s

/-- A map fault is logged (R306). -/
def State.mapFault (s : State) (gid j a : Nat) : State :=
  (((((s.setReg GRP_TOK_LOG_group_id gid).setReg GRP_TOK_LOG_batch j).setReg GRP_TOK_LOG_assign a).setReg GRP_TOK_LOG_status stDispatchMap).setW1c
    GRP_TOK_LOG_valid 1).raise (evTok GRP_TOK_INTR_STATUS_map_ev)

/-- What the walk over a batch's assignments gathers at commit. -/
structure CommitAcc where
  s : State
  used : List Nat := []
  drops : List (Nat × Bytes) := []
  toks : List Tok := []

/-- One assignment of a token at commit: its outcome joins the token. -/
def CommitAcc.assign (c : CommitAcc) (gid j : Nat) (e : Bytes) (i r : Nat) (t : Tok) : CommitAcc × Tok :=
  let a := i * tkK e + r
  let base := tkCombAt e j
  match c.s.slotRead (gCh e) (base + 256 + 8 * a) 4 with
  | (none, s) => ({ c with s := s }, { t with ue := true, asn := t.asn ++ [.dropped stMemUncorrectable] })
  | (some key, s) =>
    match s.slotRead (gCh e) (base + tkSlots e + 4 * a) 4 with
    | (none, s) => ({ c with s := s }, { t with ue := true, asn := t.asn ++ [.dropped stMemUncorrectable] })
    | (some sl, s) =>
      let s := if leNat key < tkE e then (s.badWords (tkXtab e + 8 * leNat key) 8).foldl (fun s w => s.logUe (w * 32) 1) s else s
      match s.checkAssign e c.used (leNat key) (leNat sl) with
      | .ok slot => ({ c with s := s, used := slot :: c.used }, { t with asn := t.asn ++ [.mapped slot] })
      | .error (st, log) =>
        let s := s.count (if st = stCapacityDrop then GRP_CTR_capacity_drops else GRP_CTR_map_drops)
        let s := if log then s.mapFault gid j a else s
        ({ c with s := s, drops := c.drops ++ [(t.src, dropRec t.num r st (leNat key))] }, { t with asn := t.asn ++ [.dropped st] })

/-- A token's assignments at commit. -/
def CommitAcc.token (gid j : Nat) (e : Bytes) (c : CommitAcc) (x : Tok × Nat) : CommitAcc :=
  let (c, t) := (List.range (tkK e)).foldl (fun (a : CommitAcc × Tok) r => a.1.assign gid j e x.2 r a.2) (c, x.1)
  { c with toks := c.toks ++ [t] }

/-! ### Combining (R309–R312) -/

/-- Flags of token work (R312). -/
def State.noteToken (s : State) (e : Bytes) (row i : Nat) (fl : List (Nat × Flags)) : State :=
  let hits := fl.filter (fun x => x.2 != 0)
  if hits.isEmpty then s
  else
    let s := s.countExc (gCh e) (hits.map (·.2))
    match List.find? (fun x : Nat × Flags => bitOf x.2 0) hits with
    | some (x, _) => s.logInv (gCh e) { stamp := s.chNow (gCh e), ctx := 0, instr := 0, rep := 0, unit := 7, row := row, col := bits x 0 13, k := i }
    | none => s

/-- A token changed. -/
def State.modTok (s : State) (gid j i : Nat) (f : Tok → Tok) : State := s.modBatch gid j (fun b => { b with toks := b.toks.modify i f })

/-- Words among `n` bytes of the frame's payload that are uncorrectable. -/
def State.rowUe (s : State) (g : GIn) (at_ n : Nat) : List Nat :=
  let o := ((s.frm g.frm).map (fun f => (parseFrame (s.frameBytes f)).l3 + 32)).getD 0
  s.badWords (g.unit * 256 + o + at_) n

/-- The row of assignment (i, r) is added into the token's accumulator (R311); one that cannot be read or added is not delivered (R312, R314). -/
def State.addRow (s : State) (gid j i r : Nat) (e : Bytes) (slot frm at_ : Nat) : State :=
  let done := fun (s : State) => s.modTok gid j i (fun t => { t with asn := t.asn.set r (.added slot) })
  let bad := fun (s : State) => s.modTok gid j i (fun t => { t with ue := true, asn := t.asn.set r (.failed slot) })
  match s.ginOf frm gid with
  | none => bad s
  | some g =>
    let acc := tkCombAt e j + tkAccs e + 4 * tkNo e * i
    match s.rowUe g (at_ * tkRo e) (tkRo e) with
    | w :: _ => bad ((s.logUe (w * 32) 1).retire g.unit)
    | [] =>
      match s.slotRead (gCh e) acc (4 * tkNo e) with
      | (none, s) => bad s
      | (some old, s) =>
        match s.slotRead (gCh e) (tkCombAt e j + tkWeights e + 4 * (i * tkK e + r)) 4 with
        | (none, s) => bad s
        | (some w, s) =>
          let row := g.payload.drop (at_ * tkRo e)
          let f := gOutFmt e
          let res := (List.range (tkNo e)).map (fun x => weighted f (leAt old (4 * x) 4) (leNat w) (element f row x))
          let s := (s.slotWrite (gCh e) acc (pack 1 (res.map (·.1)))).noteToken e r i (flagList res)
          done (s.modTok gid j i (fun t => { t with exc := res.foldl (fun a x => a ||| x.2) t.exc }))

/-- The next row of a token that may be added: in ordered mode only behind ranks that are added or dropped (R311). -/
def nextRow (ordered : Bool) : List Assign → Nat → Option (Nat × Nat × Nat × Nat)
  | [], _ => none
  | a :: l, r =>
    match a with
    | .row sl f x => some (r, sl, f, x)
    | .mapped _ => if ordered then none else nextRow ordered l (r + 1)
    | _ => nextRow ordered l (r + 1)

/-- A token's rows are added as far as they may be; `fuel` is the number of ranks. -/
def State.combineTok (s : State) (gid j i : Nat) (e : Bytes) : Nat → State
  | 0 => s
  | fuel + 1 =>
    match ((s.batch gid j).toks[i]?).bind (fun t => nextRow (gWpol e == 0) t.asn 0) with
    | none => s
    | some (r, sl, f, x) => (s.addRow gid j i r e sl f x).combineTok gid j i e fuel

/-- Frames of a batch that no assignment waits for are released. -/
def State.freeRows (s : State) (gid : Nat) (frm : Nat) : State :=
  let used := ((s.grp gid).map (fun g => g.disp.batches.any (fun b => b.2.toks.any (fun t =>
    t.asn.any (fun a => match a with | .row _ f _ => f == frm | _ => false))))).getD false
  if used then s else s.dropFrame frm (s.gHome gid)

/-- Every token of a batch combines what it can. -/
def State.combineBatch (s : State) (gid j : Nat) (e : Bytes) : State :=
  let frames := ((s.batch gid j).toks.flatMap (fun t => t.asn.filterMap (fun a => match a with | .row _ f _ => some f | _ => none))).eraseDups
  let s := (List.range (s.batch gid j).toks.length).foldl (fun s i => s.combineTok gid j i e (tkK e)) s
  frames.foldl (fun s f => s.freeRows gid f) s

/-- A token is complete: every assignment added or dropped (R311). -/
def Tok.complete (t : Tok) : Bool := t.asn.all (fun a => match a with | .added _ => true | .failed _ => true | .dropped _ => true | _ => false)

/-- The assignment that stands for a slot: token and rank. -/
def slotOwner (toks : List Tok) (slot : Nat) : Option (Nat × Nat) :=
  toks.zipIdx.findSome? (fun x => (x.1.asn.zipIdx.find? (fun a => match a.1 with | .mapped sl => sl == slot | .row sl _ _ => sl == slot | .added sl => sl == slot | .failed sl => sl == slot | .dropped _ => false)).map
    (fun a => (x.2, a.2)))

/-- A row of a frame is taken, or ignored (R309). -/
def State.takeRow (s : State) (gid j : Nat) (g : GIn) (q : Nat) : State :=
  let slot := g.h.chunk + q
  let b := s.batch gid j
  if b.taken.contains slot then s.count GRP_CTR_dup_rows
  else
    match slotOwner b.toks slot with
    | none => s
    | some (i, r) =>
      ((s.count GRP_CTR_result_rows).modBatch gid j (fun b => { b with taken := slot :: b.taken })).modTok gid j i (fun t =>
        { t with asn := t.asn.set r (.row slot g.frm q) })

/-- Endpoint IDs of the expert table by expert, where its words can be read. -/
def State.expertIds (s : State) (e : Bytes) : Tab Nat :=
  (List.range (tkE e)).filterMap (fun x =>
    if s.badWords (tkXtab e + 8 * x) 8 == [] then some (x, leNat (s.storeRead (tkXtab e + 8 * x) 2)) else none)

/-- NACK to an expert endpoint, or an ACK (R309; the limit of R274 is not stated for it): to the ID that the table gave at the last commit
(R296; DESIGN CHOICE: before a first commit, to the one that it gives now). -/
def State.answerExpert (s : State) (e : Bytes) (g : GIn) (status : Nat) : State :=
  let ids := ((s.grp g.gid).bind (fun x => x.disp.experts)).getD (s.expertIds e)
  s.gsend { s.answer e g status with dests := (ids.find? g.h.member).toList }

/-- Order 3 to 6 of R309 for a result frame. -/
def State.expertTake (s : State) (e : Bytes) (g : GIn) : State :=
  let j := g.h.part
  let b := s.batch g.gid j
  let m := g.payload.length / tkRo e
  let lo := g.h.member * tkC e
  if gSlots e ≤ j || (b.st != .free && b.step != g.h.step) || g.payload.length % tkRo e != 0 || m = 0 || g.h.chunk < lo || lo + tkC e < g.h.chunk + m then
    (s.answerExpert e g stDispatchMap).gdrop g
  else if b.st != .committed then s.modBatch g.gid j (fun b => { b with early := b.early ++ [g.frm] })
  else
    let late := match b.deadline with
      | some t => atOrBefore t g.stamp
      | none => false
    let owners := (List.range m).filterMap (fun q => slotOwner b.toks (g.h.chunk + q))
    let home := !owners.isEmpty && owners.all (fun o => (b.toks[o.1]?).any (·.home))
    if late || home then ((s.count GRP_CTR_late_results).answerExpert e g stResultLate).gdrop g
    else
      let s := (List.range m).foldl (fun s q => s.takeRow g.gid j g q) (s.combined (gCh e) g.payload.length)
      ((s.answerExpert e g stOk).combineBatch g.gid j e).freeRows g.gid g.frm

/-- EXPERT_RESULT, in decision order (R309, R315). -/
def State.expertResult (s : State) (k : Nat) : State :=
  match s.take k (fun g => g.h.opcode == 0x43 && s.turn [0x43] g) with
  | (none, s) => s
  | (some g, s) =>
    match s.grp g.gid with
    | none => s.gdrop g
    | some x =>
      let e := x.entry
      if gKind e != 5 then s.gdrop g
      else if !gOwn e then (s.answerExpert e g stNotOwner).gdrop g
      else if g.h.epoch != gEpoch e then (s.answerExpert e g stGroupEpoch).gdrop g
      else s.expertTake e g

/-- rel_pip is found set while a batch is READY: the batch commits (R303, R306, R307, R310). -/
def State.batchCommit (s : State) (gid : Nat) : State :=
  match s.grp gid with
  | none => s
  | some g =>
    let e := g.entry
    match List.find? (fun b : Nat × Batch => b.2.st == .ready) g.disp.batches with
    | none => s
    | some (j, b) =>
      if !gOwn e || !bitOf (s.reg (CH_PIP_pips (gCh e) (gCore e))) (gRelPip e) then s
      else
        let s := s.usePips (gCh e) (gCore e) (2 ^ gRelPip e) true
        let s := s.slotWrite (gCh e) (tkCombAt e j + tkAccs e) (List.replicate (4 * tkB e * tkNo e) 0)
        let c := b.toks.zipIdx.foldl (CommitAcc.token gid j e) { s := s }
        let s := c.s.count GRP_CTR_batches_committed
        let dl := if gWindow e = 0 then none else some (s.now + ns (gWindow e))
        let s := s.modDisp gid (fun d => { d with experts := some (s.expertIds e) })
        let s := s.modBatch gid j (fun b => { b with st := .committed, toks := c.toks, deadline := dl, early := [] })
        let s := match dl with
          | some t => s.schedule t (.deadline gid j)
          | none => s
        let s := s.sendDrops e b.step c.drops
        b.early.foldl (fun s id => match s.ginOf id gid with
          | some g => s.expertTake e g
          | none => s) s

/-- A result frame of the group whose ingress stamp precedes the deadline is still on its way to the engine, or a frame that may prove to be
one (R310). -/
def State.resultsDue (s : State) (gid : Nat) (t : FT64) : Bool := s.tokenDue gid [0x43] (fun u _ => precedes u t)

/-- The deadline of a batch stands in the schedule and has come. -/
def State.deadlineDue (s : State) (gid j : Nat) : Bool :=
  s.clk.sched.any (fun x => x.ev == .deadline gid j) && (s.batch gid j).deadline.any (fun t => atOrBefore t s.now)

/-- The deadline of a batch (R310): mapped assignments without a row are dropped. While results stamped before it are still on their
way, it waits for them: it is looked at again in the next TIME cycle. -/
def State.fireDeadline (s : State) (gid j : Nat) : State :=
  match s.grp gid, (s.batch gid j).deadline with
  | some g, some t =>
    let e := g.entry
    let b := s.batch gid j
    if b.st != .committed then s.unschedule (.deadline gid j)
    else if s.resultsDue gid t then (s.unschedule (.deadline gid j)).schedule (s.now + 1) (.deadline gid j)
    else
      let s := s.unschedule (.deadline gid j)
      let isMapped := fun (a : Assign) => match a with | .mapped _ => true | _ => false
      let drops := b.toks.flatMap (fun t => (t.asn.zipIdx.filter (fun a => isMapped a.1)).map (fun a =>
        (t.src, dropRec t.num a.2 stTimeout (match a.1 with | .mapped sl => sl / tkC e | _ => 0))))
      if drops.isEmpty then s
      else
        let s := s.modBatch gid j (fun b => { b with toks := b.toks.map (fun t => { t with asn := t.asn.map (fun a => if isMapped a then .dropped stTimeout else a) }) })
        let s := (s.count GRP_CTR_timeout_drops drops.length).raise (evTok GRP_TOK_INTR_STATUS_timeout_ev)
        (s.sendDrops e b.step drops).combineBatch gid j e
  | _, _ => s.unschedule (.deadline gid j)

/-! ### Going home (R313, R314) -/

/-- The token of a source and number in a step: batch and index. -/
def Grp.findTok (g : Grp) (n m num : Nat) : Option (Nat × Nat) :=
  g.disp.batches.findSome? (fun b : Nat × Batch =>
    if b.2.st == .committed && b.2.step == n then
      (b.2.toks.zipIdx.find? (fun t => t.1.src == m && t.1.num == num && !t.1.home && t.1.complete)).map (fun t => (b.1, t.2))
    else none)

/-- Complete tokens of a source from its home mark on, at most `fuel`. -/
def Grp.readyToks (g : Grp) (n m : Nat) : Nat → Nat → List (Nat × Nat)
  | 0, _ => []
  | fuel + 1, num =>
    match g.findTok n m num with
    | some p => p :: g.readyToks n m fuel (num + 1)
    | none => []

/-- Status of a token as its prefix shows it (R314). -/
def Tok.status (t : Tok) : Nat :=
  let has := fun (st : Nat) => t.asn.any (fun a => a == .dropped st)
  if t.ue then stMemUncorrectable else if has stTimeout then stTimeout else if has stDispatchMap then stDispatchMap
  else if has stCapacityDrop then stCapacityDrop else stOk

/-- Bit r set when rank r was added. -/
def Tok.mask (t : Tok) : Nat := t.asn.zipIdx.foldl (fun m a => match a.1 with | .added _ => m + 2 ^ a.2 | _ => m) 0

/-- A token's prefix and row (R311, R312, R314). -/
def State.tokenOut (s : State) (gid j i : Nat) (e : Bytes) (t : Tok) : Bytes × State :=
  let f := gOutFmt e
  let zero := List.replicate (tkRo e) (0 : Byte)
  let (row, exc, ue, s) : Bytes × Nat × Bool × State :=
    if t.ue then (zero, t.exc, true, s)
    else
      match s.slotRead (gCh e) (tkCombAt e j + tkAccs e + 4 * tkNo e * i) (4 * tkNo e) with
      | (none, s) => (zero, t.exc, true, s)
      | (some acc, s) =>
        let res := (List.range (tkNo e)).map (fun x => convert (decodeVal 1 (leAt acc (4 * x) 4)) f 0 0)
        (pack f (res.map (·.1)), res.foldl (fun a x => a ||| x.2) t.exc, false, s.noteToken e 31 i (flagList res))
  let s := s.modTok gid j i (fun t => { t with home := true })
  (beBytes 4 t.num ++ beBytes 1 t.mask ++ beBytes 1 ({ t with ue := ue } : Tok).status ++ beBytes 1 exc ++ [0] ++ row, s)

/-- Batches whose every token is home are free again; waiting tokens then come in (R302). -/
def State.freeBatches (s : State) (gid : Nat) : State :=
  match s.grp gid with
  | none => s
  | some g =>
    let fin := List.filter (fun b : Nat × Batch => b.2.st == .committed && b.2.toks.all (·.home)) g.disp.batches
    let s := fin.foldl (fun s b => (s.unschedule (.deadline gid b.1)).modBatch gid b.1 (fun b => { b with st := .free, toks := [], taken := [], deadline := none })) s
    if fin.isEmpty then s else s.retryTokens gid

/-- Complete tokens of a source in a step go home in one TOKEN_RESULT (R313, R314). -/
def State.goHome (s : State) (gid n m : Nat) : State :=
  match s.grp gid with
  | none => s
  | some g =>
    let e := g.entry
    match g.src n m with
    | none => s
    | some t =>
      let l := g.readyToks n m (max 1 ((65536 - 4) / (8 + tkRo e))) t.home
      if l.isEmpty then s
      else
        let (p, s) := l.foldl (fun (a : Bytes × State) x =>
          match (a.2.batch gid x.1).toks[x.2]? with
          | some t => let (b, s) := a.2.tokenOut gid x.1 x.2 e t; (a.1 ++ b, s)
          | none => a) (([], s) : Bytes × State)
        let s := (s.modSrc gid n m (fun t => { t with home := t.home + l.length })).count GRP_CTR_tokens_returned l.length
        let dst := match s.memberEntry e m with
          | some b => [mId b]
          | none => []
        let fr := gframe e { opcode := 0x44, gid := gid, step := n, chunk := t.home % 2 ^ 24, fmt := gOutFmt e, op := 0x5F } (p ++ beBytes 4 (crc32c p)) dst
        (s.mirror [homeRec gid m n (t.home + l.length)] [.send fr]).freeBatches gid

/-- Complete tokens of a source go home, step by step. -/
def State.tokenGoHome (s : State) (gid m : Nat) : State :=
  match s.grp gid with
  | none => s
  | some g =>
    if gKind g.entry != 5 then s
    else
      let n := gStep g.entry
      let steps := ((g.disp.closed.filter (fun x => x.2.1 == m)).map (·.1)) ++ [n, (n + 1) % 2 ^ 32]
      steps.foldl (fun s n => s.goHome gid n m) s

/-! ### The store is disabled (R94, R287) -/

/-- A chunk of a step holds the frame of an acknowledged ANCHOR_UP, which waits for the slot. -/
def State.anchorsHeld (s : State) (gid : Nat) (t : GStep) : Bool :=
  t.chunks.any (fun c => c.2.frames.any (fun id => (s.ginOf id gid).any (fun g => g.h.opcode == 2)))

/-- Group and step of every open step that holds one. -/
def State.anchorsLost (s : State) : List (Nat × Nat) :=
  s.groups.flatMap (fun g =>
    let n := gStep g.2.entry
    (if s.anchorsHeld g.1 g.2.cur then [(g.1, n)] else []) ++ (if s.anchorsHeld g.1 g.2.next then [(g.1, (n + 1) % 2 ^ 32)] else []))

/-- A step whose held frames are gone: what has not been added is to come again. -/
def GStep.framesGone (t : GStep) : GStep :=
  { t with chunks := t.chunks.mapVals (fun _ k => { k with have_ := k.have_.filter (·.added), frames := [] }) }

/-- A token with a row in a held frame that is gone. -/
def Tok.rowsGone (t : Tok) : Tok :=
  let isRow := fun (a : Assign) => match a with | .row _ _ _ => true | _ => false
  if t.asn.any isRow then { t with ue := true, asn := t.asn.map (fun a => match a with | .row sl _ _ => .failed sl | a => a) } else t

/-- A dispatch group whose held frames are gone: rows that were acknowledged are not delivered, as where they cannot be read (R312). -/
def Disp.framesGone (d : Disp) : Disp :=
  { d with waiting := [], batches := d.batches.mapVals (fun _ b => { b with early := [], toks := b.toks.map Tok.rowsGone }) }

/-- What the groups and a rehearsal hold of frames is gone with the store. -/
def State.framesGone (s : State) : State :=
  { s with
    groups := s.groups.mapVals (fun _ g => { g with prev := g.prev.framesGone, cur := g.cur.framesGone, next := g.next.framesGone, disp := g.disp.framesGone })
    mir := { s.mir with rehearsal := s.mir.rehearsal.map (fun (r : Rehearsal) => { r with frames := [] }) } }

/-- STORE_CTRL.enable written 0 (R94): an acknowledged contribution that is lost with its frame corrupts its step (R287). -/
def State.storeOff (s : State) (scrub : Bool) : State :=
  if !s.flag STORE_CTRL_enable then s.storeDisable scrub
  else s.anchorsLost.foldl (fun s x => s.corrupt x.1 x.2 stMemUncorrectable) (s.storeDisable scrub).framesGone

/-! ### The commands -/

def execTokenRx (k : Nat) (s : State) : Host.Outcome State Fault Refusal := s.does (fun s => s.sourceFrame k 0x40)
def execTokenEndRx (k : Nat) (s : State) : Host.Outcome State Fault Refusal := s.does (fun s => s.sourceFrame k 0x41)
def execBatchFlushTimeout (gid : Nat) (s : State) : Host.Outcome State Fault Refusal :=
  s.does (fun s => if s.dueEvent (.flush gid) then s.fireFlush gid else s)
def execBatchReady (gid : Nat) (s : State) : Host.Outcome State Fault Refusal := s.does (fun s => s.batchReady gid)
def execBatchCommit (gid : Nat) (s : State) : Host.Outcome State Fault Refusal := s.does (fun s => s.batchCommit gid)
def execExpertResultRx (k : Nat) (s : State) : Host.Outcome State Fault Refusal := s.does (fun s => s.expertResult k)
def execResultDeadline (gid batch : Nat) (s : State) : Host.Outcome State Fault Refusal :=
  s.does (fun s => if s.deadlineDue gid batch then s.fireDeadline gid batch else s)
def execTokenGoHome (gid src : Nat) (s : State) : Host.Outcome State Fault Refusal := s.does (fun s => s.tokenGoHome gid src)
def execStoreDisable (scrub : Bool) (s : State) : Host.Outcome State Fault Refusal := s.does (fun s => s.whenReady (fun s => s.storeOff scrub))

end Sys2Proof.Machine
end

