-- ==== Sys2Proof/Machine/Tables.lean ====
section
/-! DEFINITION. Updates of the forwarding tables and of the group table, step fences, and notices that move an endpoint
(R78–R80, R271, R291, R295, R327, R368, R374, R405, R408, R410, R411, R414, R420). -/

namespace Sys2Proof.Machine

/-! ### TABLE_WRITE records (R78, R80, R374) -/

/-- Record size of a table. -/
def recSize : Nat → Nat
  | 4 => 144
  | 5 => 400
  | _ => 32

/-- Capacity of a table (R78). -/
def tableCap : Nat → Nat
  | 0 => 65536
  | 1 => 262144
  | 2 => 65536
  | 3 => 16384
  | _ => 4096

/-- A record as it is applied: its key, and what it writes; `none` deletes. -/
structure TRec where
  key : Nat
  val : Option Bytes
  deriving DecidableEq, Repr

/-- Bytes from `i` on are zero, `n` of them. -/
def zeros (b : Bytes) (i n : Nat) : Bool := leAt b i n == 0

/-- An action word has no reserved code and no nonzero reserved field, and its target lies within the table it names (R78, R80). -/
def actionOk (a : Nat) (lpm : Bool) : Bool :=
  decide (bits a 0 3 < 5) && (bits a 0 3 != 1 || decide (bits a 8 16 < tableCap 3)) &&
    (!(bits a 0 3 == 2 || bits a 0 3 == 3) || decide (bits a 8 16 < tableCap 4)) && bits a 4 4 == 0 && bits a 24 8 == 0 && bits a 48 16 == 0 && (bits a 0 3 != 0 || bits a 8 16 == 0) &&
    (!lpm || (bitOf a 3 && bits a 32 16 == 0))

/-- A record of table `t`; `none` when R78 or R374 refuses it. -/
def parseRec (t : Nat) (b : Bytes) : Option TRec :=
  let op := byteAt b 0
  let done := fun (key : Nat) (a : Nat) (lpm : Bool) =>
    if op = 1 then some { key := key, val := none } else if actionOk a lpm then some { key := key, val := some (leBytes 8 a) } else none
  match t with
  | 0 =>
    if 1 < op || byteAt b 1 != 0 || 4096 ≤ leAt b 2 2 || !zeros b 4 4 || !zeros b 14 2 || !zeros b 24 8 then none
    else done (endpointKey (beAt b 8 6) (leAt b 2 2)) (leAt b 16 8) false
  | 1 =>
    let p := byteAt b 1
    if 1 < op || 32 < p || !zeros b 2 6 || !zeros b 12 4 || !zeros b 24 8 || beAt b 8 4 % 2 ^ (32 - p) != 0 then none
    else done (lpmKey 32 p (beAt b 8 4)) (leAt b 16 8) true
  | 2 =>
    let p := byteAt b 1
    if 1 < op || 128 < p || !zeros b 2 6 || beAt b 8 16 % 2 ^ (128 - p) != 0 then none
    else done (lpmKey 128 p (beAt b 8 16)) (leAt b 24 8) true
  | 3 =>
    let i := leAt b 0 4
    if 16384 ≤ i || !zeros b 4 4 || 191 < byteAt b 8 || 8 ≤ byteAt b 9 || bits (byteAt b 9) 1 2 == 3 || 4096 ≤ leAt b 10 2 || !zeros b 18 6 ||
      !zeros b 24 8 then none
    else some { key := i, val := some (slice b 8 16) }
  | _ =>
    let i := leAt b 0 4
    let n := byteAt b 8
    if 4096 ≤ i || !zeros b 4 4 || n < 1 || (if t = 4 then 64 else 192) < n || !zeros b 9 7 ||
      (List.range n).any (fun j => decide (2 ^ 14 ≤ leAt b (16 + 2 * j) 2)) then none
    else some { key := i, val := some (b.drop 8) }

/-- An entry of a table, as the bytes of its record. -/
def Tables.entry (T : Tables) (t k : Nat) : Option Bytes :=
  match t with
  | 0 => (T.endpoint.find? k).map (leBytes 8)
  | 1 => (T.v4.find? k).map (leBytes 8)
  | 2 => (T.v6.find? k).map (leBytes 8)
  | 3 => T.nexthop.find? k
  | 4 => T.ecmp.find? k
  | _ => T.repl.find? k

/-- Entries of a table. -/
def Tables.size (T : Tables) (t : Nat) : Nat :=
  match t with
  | 0 => T.endpoint.length
  | 1 => T.v4.length
  | 2 => T.v6.length
  | 3 => T.nexthop.length
  | 4 => T.ecmp.length
  | _ => T.repl.length

/-- A record is applied. -/
def Tables.putRec (T : Tables) (t : Nat) (r : TRec) : Tables :=
  let num := fun (m : Tab Nat) => match r.val with | some b => Tab.insert m r.key (leNat b) | none => m.erase r.key
  let str := fun (m : Tab Bytes) => match r.val with | some b => Tab.insert m r.key b | none => m.erase r.key
  match t with
  | 0 => { T with endpoint := num T.endpoint }
  | 1 => { T with v4 := num T.v4 }
  | 2 => { T with v6 := num T.v6 }
  | 3 => { T with nexthop := str T.nexthop }
  | 4 => { T with ecmp := str T.ecmp }
  | _ => { T with repl := str T.repl }

/-- Endpoint ID of an endpoint entry. -/
def endpointId (a : Nat) : Nat := bits a 32 16

/-- Endpoint IDs that two entries hold. -/
def Tables.sharedIds (T : Tables) : List Nat :=
  let ids := T.endpoint.map (fun e => endpointId e.2)
  ids.filter (fun i => decide (1 < ids.count i))

/-- Records of one apply in order, with the deletes of absent keys counted (R374). -/
def applyRecs (t : Nat) : List TRec → Tables → Nat → Tables × Nat
  | [], T, n => (T, n)
  | r :: rest, T, n => applyRecs t rest (T.putRec t r) (if r.val.isNone && (T.entry t r.key).isNone then n + 1 else n)

/-- One apply judged (R78): the tables after it and the absent deletes, or the index of the first offending record. -/
def Tables.apply (T : Tables) (t : Nat) (recs : List Bytes) : Except Nat (Tables × Nat) :=
  match (List.range recs.length).find? (fun i => (parseRec t (recs.getD i [])).isNone) with
  | some i => .error i
  | none =>
    let rs := recs.filterMap (parseRec t)
    let (T', absent) := applyRecs t rs T 0
    let bad := fun (p : TRec → Bool) => (List.range rs.length).find? (fun i => match rs[i]? with
      | some r => r.val.isSome && (T'.entry t r.key).isSome && p r
      | none => false)
    if tableCap t < T'.size t then .error ((bad (fun r => (T.entry t r.key).isNone)).getD 0)
    else if t = 0 && !T'.sharedIds.isEmpty then
      .error ((bad (fun r => T'.sharedIds.contains (endpointId ((T'.endpoint.find? r.key).getD 0)))).getD 0)
    else .ok (T', absent)

/-- The records in the bytes of an apply. -/
def splitRecs (size n : Nat) (b : Bytes) : List Bytes := (List.range n).map (fun i => slice b (size * i) size)

/-- Records of one TABLE record (R405): as many as a mirror frame holds. -/
def partRecs (t : Nat) : Nat := 9170 / recSize t

/-- The TABLE records of an apply (R405). -/
def tableParts (t no : Nat) (recs : List Bytes) : List Bytes :=
  let n := ceilDiv recs.length (partRecs t)
  (List.range n).map (fun i => mirRec 6 (leBytes 1 t ++ leBytes 1 (bit1 (i + 1 == n)) ++ [0, 0] ++ leBytes 4 no ++
    ((recs.drop (i * partRecs t)).take (partRecs t)).flatten))

/-- Tables after an apply that stands, at one apply stamp, mirrored to the twin; `acts` wait for its confirmation (R79, R405, R408). -/
def State.tablesApplied (s : State) (t : Nat) (T : Tables) (recs : List Bytes) (acts : FT64 → List Act) : State :=
  let (stamp, s) := s.applyStamp
  let no := s.mir.applyNo
  let s := { s with tables := T, mir := { s.mir with applyNo := (no + 1) % 2 ^ 32 } }
  s.mirror (tableParts t no recs) (acts stamp)

/-- An update by this device's host that the twin has still to confirm is remembered with what stood before it (R410). -/
def State.noteUpd (s : State) (u : Upd) : State :=
  if s.pod == podPaired then { s with mir := { s.mir with upds := s.mir.upds.filter (fun v => (s.desc v.d).isSome) ++ [u] } } else s

/-- The pod refuses updates of tables and groups: DETACHED, or the target of a copy (R403, R410). -/
def State.podRefuses (s : State) : Bool := s.pod == podDetached || (s.pod == podSync && !s.mir.source)

/-- A table's keys among all tables. -/
def tableKey (t k : Nat) : Nat := t * 2 ^ 160 + k

/-- TABLE_WRITE (R78, R79, R374, R377, R410). -/
def State.tableWrite (s : State) (d : Nat) (x : Desc) (data : HostData) : State :=
  let t := byteAt x.bytes 8
  let n := leAt x.bytes 12 4
  if s.podRefuses then s.completeSt d stPodState
  else if s.applyWaits then s
  else
    s.withHost d x (leAt x.bytes 16 8) (recSize t * n) data (fun b s =>
      let recs := splitRecs (recSize t) n b
      match s.tables.apply t recs with
      | .error i => s.complete d { status := stBadDescriptor, result := i }
      | .ok (T, absent) =>
        let keys := (recs.filterMap (parseRec t)).map (fun r => tableKey t r.key)
        let s := (s.noteUpd { d := d, seq := s.mir.txSeq, keys := keys, tables := some s.tables }).startDesc d
        s.tablesApplied t T recs (fun stamp => [.complete d { status := stOk, result := absent, detail := stamp.toNat }]))

/-! ### Group table entries (R270, R271, R294, R295, R327) -/

/-- Checks common to both layouts: the group id, the class, the list, the owner channel. -/
def State.groupCommon (s : State) (e : Bytes) : Bool :=
  e.length == 64 && gGid e != 0 && decide (gTc e ≤ 6) && decide (1 ≤ leAt e 8 2) && decide (leAt e 8 2 ≤ 2048) && decide (1 ≤ gSlots e) &&
    gList e % 32 == 0 && (s.rangeCheck (gList e) (8 * gCount e) [.program]).isNone && s.present (gCh e) != 0 && !(s.chan (gCh e)).blocked &&
    zeros e 38 2

/-- A reduction, gather, broadcast or sparse entry lies in its ranges (R270, R271, R327). -/
def State.reductionOk (s : State) (e : Bytes) : Bool :=
  let k := gKind e
  let red := gRed e
  s.groupCommon e && decide (k ≤ 4) && [0, 1, 2, 15].contains red && gOutFmt e == 0 && gFmt e != 15 &&
    decide (leAt e 10 2 ≤ 2047) && (decide (leAt e 14 2 ≤ 2047) || leAt e 14 2 == 0xFFF) &&
    (decide (gDonePip e ≤ 47) || gDonePip e == 63) && (if gGated e then decide (gRelPip e ≤ 47) else gRelPip e == 63) &&
    decide (256 ≤ gStepBytes e) && gStepBytes e % 256 == 0 && zeros e 25 3 && zeros e 52 12 &&
    decide (gChunks e ≤ 2 ^ 24 - 1) &&
    (if gCls e = 1 then red == 0 && anchorFmts.contains (gFmt e) else eagerFmts.contains (gFmt e)) &&
    (k != 4 || (gCls e == 0 && red == 0 && [1, 3, 4, 0xA].contains (gFmt e))) &&
    (if k = 2 || k = 3 then red == 15 else red != 15) &&
    decide (gBase e + gSlots e * gSlot e ≤ 0x6000000) &&
    (!s.flag SBK_POLICY_anchored_only || gCls e == 1 || k == 2 || k == 3)

/-- Two ranges [a, a + n) and [b, b + m) share a byte. -/
def overlap (a n b m : Nat) : Bool := decide (a < b + m) && decide (b < a + n)

/-- A dispatch entry lies in its ranges (R294, R295, R327). -/
def State.dispatchOk (s : State) (e : Bytes) : Bool :=
  let ring := gSlots e * tkB e * (gCap e + 16)
  let comb := gSlots e * tkZc e
  s.groupCommon e && gCls e == 0 && !gGated e && gOp e == 0x5F && [1, 2, 3, 4, 5, 6, 7, 8, 9, 0xC, 0xD].contains (gFmt e) &&
    anchorFmts.contains (gOutFmt e) && decide (1 ≤ byteAt e 10) && decide (byteAt e 10 ≤ 8) && gParent e == 0xFFFF && leAt e 14 2 == 0xFFF &&
    decide (gDonePip e ≤ 47) && decide (gRelPip e ≤ 47) && gDonePip e != gRelPip e && tkB e % 32 == 0 && decide (32 ≤ tkB e) &&
    decide (tkB e ≤ 4096) && decide (1 ≤ tkE e) && decide (tkE e ≤ 4096) && decide (1 ≤ tkC e) && decide (tkK e ≤ tkE e) &&
    decide (tkE e * tkC e ≤ 2 ^ 24) && tkXtab e % 32 == 0 && (s.rangeCheck (tkXtab e) (8 * tkE e) [.program]).isNone &&
    !overlap (gBase e) ring (tkComb e) comb && decide (gBase e + ring ≤ 0x6000000) && decide (tkComb e + comb ≤ 0x6000000) && zeros e 62 2 &&
    (!s.flag SBK_POLICY_anchored_only || gWpol e == 0)

/-- An entry with the fields that may change without a new epoch at zero, and cur_step with them, which the device maintains (R270, R271, R295). -/
def gFixed (e : Bytes) : Bytes :=
  let e := gSet e 40 8 0
  if gKind e = 5 then gSet (gSet e 2 1 (byteAt e 2 % 32)) 26 2 0
  else gSet (gSet e 2 1 (byteAt e 2 % 16)) 17 2 0

/-- An entry passes the checks of GROUP_UPDATE against the one that stands: one that ends a group too, which so needs a new epoch (DEDUCED:
R271 makes no exception for valid 0). -/
def State.entryOk (s : State) (old : Option Bytes) (e : Bytes) : Bool :=
  (if gKind e = 5 then s.dispatchOk e else s.reductionOk e) &&
    (match old with
     | some o => gEpoch o != gEpoch e || gFixed o == gFixed e
     | none => true)

/-- The first entry that is refused, judged in order against the entries that would stand (R271). -/
def State.groupRefused (s : State) : List Bytes → Nat → Tab Bytes → Option Nat
  | [], _, _ => none
  | e :: r, i, t =>
    if !s.entryOk (t.find? (gGid e)) e then some i
    else
      let t := if gValid e then Tab.insert t (gGid e) e else t.erase (gGid e)
      if 4096 < t.length then some i else State.groupRefused s r (i + 1) t

/-- What was scheduled by times of an entry that a new entry has changed under the same epoch is scheduled anew: the flush of filling batches
(R301), the window ends that have not passed (R277). `w` is the window there was. -/
def State.rearm (s : State) (gid w : Nat) : State :=
  match s.grp gid with
  | none => s
  | some g =>
    let e := g.entry
    let n := gStep e
    let win := fun (s : State) (n : Nat) (t : GStep) => match t.opened with
      | some o =>
        let passed := w != 0 && !s.clk.sched.any (fun x => x.ev == .windowEnd gid n)
        if passed || w = gWindow e then s
        else if gWindow e = 0 then s.unschedule (.windowEnd gid n)
        else (s.unschedule (.windowEnd gid n)).schedule (o + ns (gWindow e)) (.windowEnd gid n)
      | none => s
    let fill := List.filter (fun b : Nat × Batch => b.2.st == .filling) g.disp.batches
    if gKind e != 5 then win (win s n g.cur) ((n + 1) % 2 ^ 32) g.next
    else if tkFlush e = 0 then s.unschedule (.flush gid)
    else fill.foldl (fun s b => s.schedule ((b.2.toks.head?.map (·.stamp)).getD 0 + ns (tkFlush e * 1000)) (.flush gid)) (s.unschedule (.flush gid))

/-- One entry takes effect (R271, R291, R416–R418): a new epoch discards every step; leases, scores and the base start anew. -/
def State.applyEntry (s : State) (stamp : FT64) (e : Bytes) : State :=
  let gid := gGid e
  let old := s.grp gid
  if !gValid e then
    let s := s.discardGroup gid
    { s with groups := s.groups.erase gid }
  else
    let ms := (s.actives e).map (·.1)
    let fresh := fun (g : Grp) => { g with base := ms.length, lease := ms.foldl (fun t m => Tab.insert t m stamp) [], score := [], evicted := [] }
    match old with
    | none => { s with groups := s.groups.insert gid (fresh { entry := e }) }
    | some o =>
      if gEpoch o.entry = gEpoch e then
        (s.modGrp gid (fun g => fresh { g with entry := gSet e 44 4 (gStep g.entry) })).rearm gid (gWindow o.entry)
      else
        let s := (s.discardGroup gid).raise (evGrp GRP_INTR_STATUS_epoch_ev)
        s.modGrp gid (fun g => fresh { g with entry := e, taken := none })

/-- The notice of a handover: this device has become the owner of a group that its twin owned (R410, R414). -/
def State.handover (s : State) (old : Option Grp) (gid : Nat) : List Act :=
  match old, s.grp gid with
  | some o, some g =>
    if s.pod == podPaired && !gOwn o.entry && gOwn g.entry then
      noticeActs g.entry stOwnerMoved 0xFFF ((s.actives g.entry).map (fun m => mId m.2)) true
    else []
  | _, _ => []

/-- The GROUP record of a group as it stands, or of its removal. -/
def State.groupNow (s : State) (gid : Nat) : Bytes :=
  match s.grp gid with
  | some g => groupRec g
  | none => groupRec { entry := leBytes 2 gid ++ List.replicate 62 0 }

/-- A frame of the group that is decided has not been taken by its engine yet: its tail is to come, or it waits. -/
def State.undelivered (s : State) (gid : Nat) : Bool :=
  s.inbox.any (fun f => f.gid == gid) || s.links.any (fun l => match l.2.rx with
    | some r => (match r.fate with | .group _ g => g == gid | .token _ g => g == gid | _ => false)
    | none => false)

/-- GROUP_UPDATE (R271, R295, R377, R408, R410). It waits while a frame of one of its groups that is decided has still to be taken
by its engine: such a frame meets the old entry. -/
def State.groupUpdate (s0 : State) (d : Nat) (x : Desc) (data : HostData) : State :=
  let n := leAt x.bytes 16 2
  if s0.podRefuses then s0.completeSt d stPodState
  else if s0.applyWaits then s0
  else
    s0.withHost d x (leAt x.bytes 8 8) (64 * n) data (fun b s =>
      let es := splitRecs 64 n b
      if es.any (fun e => s0.undelivered (gGid e)) then s0 else
      match s.groupRefused es 0 (s.groups.map (fun g => (g.1, g.2.entry))) with
      | some i => s.complete d { status := stBadDescriptor, result := i }
      | none =>
        let gids := (es.map gGid).eraseDups
        let olds := gids.map (fun g => (g, s.grp g))
        let (stamp, s) := s.applyStamp
        let s := (s.noteUpd { d := d, seq := s.mir.txSeq, keys := gids, at_ := some stamp, groups := olds }).startDesc d
        let s := es.foldl (fun s e => s.applyEntry stamp e) s
        s.mirror (gids.map s.groupNow)
          (.complete d { status := stOk, detail := stamp.toNat } :: olds.flatMap (fun o => s.handover o.2 o.1)))

/-! ### Step fences (R375, R408, R420) -/

/-- FENCE of mode 2. -/
def State.stepFence (s : State) (d : Nat) (x : Desc) : State :=
  let gid := leAt x.bytes 10 2
  let step := leAt x.bytes 12 4
  match s.grp gid with
  | none => s.completeSt d stBadDescriptor
  | some g =>
    let later := decide (0 < stepDiff step (gFence g.entry))
    if later && decide (0 ≤ stepDiff step (gStep g.entry)) then s.completeSt d stStepRange
    else
      let s := (s.noteUpd { d := d, seq := s.mir.txSeq, keys := [gid], groups := [(gid, some g)] }).startDesc d
      let s := (s.modGrp gid (fun g => { g with sfm := bitOf (byteAt x.bytes 9) 0, entry := if later then gSet g.entry 48 4 step else g.entry })).fenceEase gid
      s.mirror [s.groupNow gid] [.complete d { status := stOk }]

/-! ### Notices (R411, R414) -/

/-- A record of the endpoint table: op, key, action word. -/
def endpointRec (op key a : Nat) : Bytes :=
  leBytes 2 op ++ leBytes 2 (key % 4096) ++ leBytes 4 0 ++ beBytes 6 (key / 4096) ++ [0, 0] ++ leBytes 8 a ++ leBytes 8 0

/-- The endpoint entry of an ID moves to another MAC and VLAN ID, in one apply. -/
def State.moveEndpoint (s : State) (id key : Nat) : State :=
  match s.endpointOf id with
  | none => s
  | some k =>
    let a := (s.tables.endpoint.find? k).getD 0
    let recs := [endpointRec 1 k 0, endpointRec 0 key a]
    match s.tables.apply 0 recs with
    | .ok (T, _) => s.tablesApplied 0 T recs (fun _ => [])
    | .error _ => s

/-- Everything of a group's open steps that was sent up is sent again (R411). -/
def State.resendOpen (s : State) (gid : Nat) : State :=
  match s.grp gid with
  | none => s
  | some g =>
    let e := g.entry
    let again := fun (s : State) (t : GStep) => t.chunks.foldl (fun s c => c.2.up.foldl (fun s u =>
      s.gsend (gframe e { u.1 with resend := true } u.2 [gParent e])) s) s
    if gRoot e || !gOwn e then s else again (again s g.cur) g.next

/-- A notice is consumed before the checks of R274. -/
def State.noticeRx (s : State) (k : Nat) : State :=
  match s.take k (fun g => g.h.opcode == 7 && byteAt g.payload 1 == 0) with
  | (none, s) => s
  | (some g, s) =>
    match s.grp g.gid with
    | none => s.gdrop g
    | some x =>
      if !s.readable g then s.unreadable x.entry g
      else
        let e := x.entry
        let vid := ((s.frm g.frm).map (fun f => (parseFrame (s.frameBytes f)).vid)).getD 0
        let up := g.h.member == 0xFFF
        let id := if up then (if gRoot e then none else some (gParent e))
          else if g.h.member < gCount e then (s.memberEntry e g.h.member).map mId else none
        let s := s.gdrop g
        match id with
        | none => s
        | some id =>
          let s := s.moveEndpoint id (endpointKey g.smac vid)
          if up then s.resendOpen g.gid else s

/-! ### The commands -/

def execTableWrite (d : Nat) (data : HostData) (s : State) : Host.Outcome State Fault Refusal :=
  s.does (fun s => s.runDesc d 4 none (fun x s => s.tableWrite d x data))
def execGroupUpdate (d : Nat) (data : HostData) (s : State) : Host.Outcome State Fault Refusal :=
  s.does (fun s => s.runDesc d 3 none (fun x s => s.groupUpdate d x data))
def execStepFence (d : Nat) (s : State) : Host.Outcome State Fault Refusal :=
  s.does (fun s => s.runDesc d 6 (some 2) (fun x s => s.stepFence d x))
def execNoticeRx (k : Nat) (s : State) : Host.Outcome State Fault Refusal := s.does (fun s => s.noticeRx k)

end Sys2Proof.Machine
end

