-- ==== Sys2Proof/Machine/Pods.lean ====
section
/-! DEFINITION. Pods: the pod states, joining, mirror frames and their records, twin loss and takeover, leases, out-of-band heartbeats
(R402–R429). -/

namespace Sys2Proof.Machine

/-! ### Ownership and pod states (R402, R410, R412) -/

/-- Groups this device owns. -/
def State.owned (s : State) : Nat := (s.groups.filter (fun g => gOwn g.2.entry)).length

/-- Own becomes 0 for every group, which firmware writes into each entry that had 1 (R329), and group frames that have not left go no more
(R412). -/
def State.dropOwn (s : State) : State :=
  let had := (s.groups.filter (fun g => gOwn g.2.entry)).map (·.1)
  let s := ({ s with groups := s.groups.mapVals (fun _ g => { g with entry := gSetOwn g.entry false }), grpTx := [] }).dropGroupCopies (fun _ _ => true)
  had.foldl (fun s gid => s.recordFw 0 gid 0 (((s.grp gid).map (·.entry)).getD [])) s

def State.setPod (s : State) (n : Nat) : State := s.setReg MIR_STATUS_state n

/-- Time spent waiting for room is counted up to now (R407). -/
def State.countWait (s : State) (since : FT64) : State := s.count MIR_CTR_confirm_wait_ns (s.since since)

/-- Nothing waits for the twin any more: what waited is done. -/
def State.freeActs (s : State) : State :=
  let l := s.mir.waits.flatMap (·.2) ++ s.mir.held.flatMap (·.acts)
  let s := match s.mir.held with | h :: _ => s.countWait h.since | [] => s
  (({ s with mir := { s.mir with waits := [], held := [] } }).acts l).stepsEnd

/-- The pairing is over: what waited is done, and both series of records start anew when a pairing begins again. -/
def State.unpair (s : State) : State :=
  let s := s.freeActs.mirFree s.freeActs.mir.unconfirmed
  { s with mir := { s.mir with
      txSeq := 0, unconfirmed := [], rxNext := 0, ahead := [], inRecs := s.mir.inRecs.filter (fun r => r.kind == 1 || r.kind == 9)
      parts := [], upds := [], source := false, target := false, syncGot := false, syncEnd := none, joinAt := none, rejoin := false } }

/-- A refused or failed join (R403). -/
def State.joinFail (s : State) (code : Nat) : State :=
  let s := (s.setReg MIR_STATUS_join_err_code code).raise (evMir MIR_INTR_STATUS_join_err_ev)
  { s with mir := { s.mir with joinAt := none, rejoin := false } }

/-- The copy has failed (R402, R427): a source goes back to the state it came from, a target to SOLO. -/
def State.syncLost (s : State) : State :=
  if s.mir.source then
    let back := s.mir.before
    (s.unpair).setPod back
  else ((s.unpair).setPod podSolo).joinFail 5

/-- DETACHED is entered: nothing is mirrored any more, so nothing waits (R402, R408). -/
def State.detach (s : State) : State :=
  if s.pod == podDetached then s
  else
    let s := (s.setPod podDetached).freeActs
    let s := { s with mir := { s.mir with upds := [], hbSeen := false } }
    s.alarm MIR_INTR_STATUS_detach_ev stPodState 0 0xFFF

/-- The device acts as a fenced twin (R412): it owns nothing, sends no group frame and is SOLO. -/
def State.selfFence (s : State) : State :=
  let s := (s.dropOwn.setReg MIR_STATUS_self_fenced 1).emit (.pin "MIRROR_ALIVE_OUT" false)
  (s.setPod podSolo).unpair

/-! ### The copy (R403, R405, R408) -/

/-- A record of a table as a host would write it (R374). -/
def tableRec (t k : Nat) (v : Bytes) : Bytes :=
  match t with
  | 0 => [0, 0] ++ leBytes 2 (k % 4096) ++ leBytes 4 0 ++ beBytes 6 (k / 4096) ++ [0, 0] ++ v ++ leBytes 8 0
  | 1 => [0, BitVec.ofNat 8 (k / 2 ^ 32)] ++ leBytes 6 0 ++ beBytes 4 (k % 2 ^ 32) ++ leBytes 4 0 ++ v ++ leBytes 8 0
  | 2 => [0, BitVec.ofNat 8 (k / 2 ^ 128)] ++ leBytes 6 0 ++ beBytes 16 (k % 2 ^ 128) ++ v
  | 3 => leBytes 4 k ++ leBytes 4 0 ++ v ++ leBytes 8 0
  | _ => leBytes 4 k ++ leBytes 4 0 ++ v

/-- Records of a whole table. -/
def Tables.recs (T : Tables) (t : Nat) : List Bytes :=
  match t with
  | 0 => T.endpoint.map (fun e => tableRec 0 e.1 (leBytes 8 e.2))
  | 1 => T.v4.map (fun e => tableRec 1 e.1 (leBytes 8 e.2))
  | 2 => T.v6.map (fun e => tableRec 2 e.1 (leBytes 8 e.2))
  | 3 => T.nexthop.map (fun e => tableRec 3 e.1 e.2)
  | 4 => T.ecmp.map (fun e => tableRec 4 e.1 e.2)
  | _ => T.repl.map (fun e => tableRec 5 e.1 e.2)

def regRec (port off v : Nat) : Bytes := mirRec 7 (leBytes 1 port ++ [0, 0, 0] ++ leBytes 4 off ++ leBytes 8 v)

/-- A PORT_ offset whose register is mirrored: PORT_POL_RATE, PORT_POL_BURST, PORT_SHP_CFG (R408). -/
def mirroredReg (o : Nat) : Bool :=
  (decide (0x2000 ≤ o) && decide (o < 0x3000) && (o % 0x40 == 0 || o % 0x40 == 8)) || (decide (0x3000 ≤ o) && decide (o < 0x3800) && o % 0x20 == 0)

/-- Port and offset in its block, of an offset of BAR0 in a mirrored register. -/
def mirroredAt (off : Nat) : Option (Nat × Nat) :=
  if 0x400000 ≤ off ∧ off < 0x700000 ∧ mirroredReg ((off - 0x400000) % 0x20000) then some ((off - 0x400000) / 0x20000, (off - 0x400000) % 0x20000) else none

/-- Offsets in a port's block of its policer and shaper registers (R408). -/
def mirroredOffsets : List Nat :=
  (List.range 8).flatMap (fun l => (List.range 7).flatMap (fun c => [0x2000 + 0x200 * l + 0x40 * c, 0x2008 + 0x200 * l + 0x40 * c])) ++
    (List.range 8).flatMap (fun l => (List.range 8).map (fun c => 0x3000 + 0x100 * l + 0x20 * c))

/-- REG records of every mirrored register, whatever it holds. -/
def State.regRecs (s : State) : List Bytes :=
  (List.range 24).flatMap (fun p => mirroredOffsets.filterMap (fun o =>
    (regAt regTable (0x400000 + 0x20000 * p + o)).map (fun d => regRec p o (readFields s.regs (0x400000 + 0x20000 * p + o) d))))

def State.sbkRec (s : State) : Bytes := mirRec 8 (leBytes 8 (s.reg SBK_WR_PTR_wr) ++ leBytes 8 (s.reg SBK_SEQ_seq))

def memberRec (gid m fl : Nat) (stamp : FT64) : Bytes := mirRec 3 (leBytes 2 gid ++ leBytes 2 m ++ leBytes 1 fl ++ [0, 0, 0] ++ leBytes 8 stamp.toNat)

/-- What the twin holds of one group (R408). -/
def State.groupCopy (s : State) (gid : Nat) (g : Grp) : List Bytes :=
  let e := g.entry
  let n := gStep e
  let step := fun (k : Nat) (t : GStep) => t.chunks.flatMap (fun c =>
    (c.2.have_.map (fun x => cvecRec gid k c.1 x.part x.member 0)) ++ (if c.2.st == .done then [cvecRec gid k c.1 0 0xFFF 1] else []))
  groupRec g ::
    (g.evicted.filterMap (fun x => (s.memberEntry e x.1).map (fun b => memberRec gid x.1 (byteAt b 2) x.2)) ++
      step n g.cur ++ step ((n + 1) % 2 ^ 32) g.next ++
      g.disp.srcs.map (fun x => homeRec gid (x.1 % 4096) ((n + x.1 / 4096) % 2 ^ 32) x.2.home))

/-- The records of a copy: the groups, and with `all` the tables and registers too. -/
def State.copyRecs (s : State) (own all : Bool) : List Bytes :=
  (s.groups.filter (fun g => !own || gOwn g.2.entry)).flatMap (fun g => s.groupCopy g.1 g.2) ++
    (if all then (List.range 6).flatMap (fun t => tableParts t (s.mir.applyNo + t) (s.tables.recs t)) ++ s.regRecs else []) ++ [s.sbkRec]

/-- The source sends its copy and SYNC_END. -/
def State.startCopy (s : State) (own all : Bool) : State :=
  let l := s.copyRecs own all
  let s := l.foldl (fun s r => s.mirror [r] []) s
  let s := if all then { s with mir := { s.mir with applyNo := (s.mir.applyNo + 6) % 2 ^ 32 } } else s
  let s := s.mirror [mirRec 0x0A []] []
  { s with mir := { s.mir with syncEnd := some ((s.mir.txSeq + (s.mir.held.map (fun h => h.recs.length)).sum) % 2 ^ 32) } }

/-- SYNC is entered. -/
def State.enterSync (s : State) (src tgt : Bool) : State :=
  let old := s.pod
  let s := { s with mir := { s.mir with before := old, source := src, target := tgt, syncGot := false, syncEnd := none, joinAt := none, hbAt := s.now, hbTx := s.now } }
  let s := s.setPod podSync
  if s.flag MIR_CFG_alive_en then s.setReg MIR_STATUS_alive_in 1 else s

/-- The copy is complete when what this device sends is confirmed and what it receives has ended (R402). -/
def State.finishSync (s : State) : State :=
  if s.pod == podSync && (!s.mir.source || s.mir.syncEnd.isNone) && (!s.mir.target || s.mir.syncGot) then
    ({ s.setPod podPaired with mir := { s.mir with source := false, target := false, syncGot := false } }).raise (evMir MIR_INTR_STATUS_paired_ev)
  else s

/-- Records that a failed link carried are sent again on another (R406). -/
def State.resendRecs (s : State) (lost : MirRec → Bool) : State :=
  match s.mirUp with
  | [] => s
  | m :: _ =>
    let rs := s.mir.unconfirmed.filter lost
    let s := { s with mir := { s.mir with unconfirmed := s.mir.unconfirmed.map (fun r => if lost r then { r with link := some m } else r) } }
    (s.count MIR_CTR_records_resent rs.length).mirSend m rs

/-! ### Joining (R403) -/

def State.joinRec (s : State) : Bytes :=
  mirRec 9 (leBytes 2 (s.reg MIR_CFG_pod_id) ++ leBytes 1 (s.reg MIR_CFG_role) ++ [0] ++ leBytes 8 (s.reg (HUB_BITID_BUNDLE_digest 0)) ++
    leBytes 2 s.groups.length ++ [0, 0])

def State.sendJoin (s : State) : State := s.mirUp.foldl (fun s m => s.mirOut m 0 s.mir.txSeq s.joinRec) s

/-- A join is under way in SOLO. -/
def State.joining (s : State) : Bool := s.pod == podSolo && s.mir.joinAt.isSome

/-- join written 1: SOLO alone can join, and not after a device-fatal error, whose self-fencing lasts until the reset (R435). -/
def State.mirJoin (s : State) : State :=
  if s.pod != podSolo || s.sys.fatal then s
  else
    let s := if s.flag MIR_STATUS_self_fenced then (s.setReg MIR_STATUS_self_fenced 0).emit (.pin "MIRROR_ALIVE_OUT" true) else s
    ({ s with mir := { s.mir with joinAt := some s.now } }).sendJoin

/-- leave written 1 (R402). -/
def State.mirLeave (s : State) : State := (s.setPod podSolo).unpair

def State.joinTimer (s : State) : State := if s.joining then s.sendJoin else s

def State.joinTimeout (s : State) : State :=
  match s.mir.joinAt with
  | some t => if s.pod == podSolo && s.elapsed t 10000000 then s.joinFail 5 else s
  | none => s

/-- The twin is in SYNC as this device's target: the copy begins (R402). -/
def State.twinSyncs (s : State) (r : MirIn) : State :=
  if r.state == podSync && r.pod == s.reg MIR_CFG_pod_id && r.role != s.reg MIR_CFG_role &&
      (s.pod == podSurvivor || (s.joining && s.reg MIR_CFG_role == 0)) then
    ((s.unpair).enterSync true false).startCopy false true
  else s

/-- A JOIN record. A device in SURVIVOR answers it; one that joins judges it when it is the target (DEDUCED: the join that ends a rehearsed
twin loss is not refused for the entries of this device's own table, none of which it owns, R424). -/
def State.joinRx (s : State) (m : Nat) : State :=
  match s.mir.inRecs.find? (fun r => r.kind == 9 && r.link == m) with
  | none => s
  | some r =>
    let s := { s with mir := { s.mir with inRecs := s.mir.inRecs.erase r } }
    if s.pod == podSurvivor then s.sendJoin.twinSyncs r
    else if s.pod == podSync && s.mir.target then s.sendJoin
    else if !s.joining then s
    else
      let role := byteAt r.body 2
      let same := role == s.reg MIR_CFG_role
      if !(same || r.state == podSurvivor || s.reg MIR_CFG_role == 1) then s.twinSyncs r
      else if leAt r.body 0 2 != s.reg MIR_CFG_pod_id then s.joinFail 1
      else if same then s.joinFail 2
      else if !s.groups.isEmpty && !s.mir.rejoin then s.joinFail 3
      else if leAt r.body 4 8 != s.reg (HUB_BITID_BUNDLE_digest 0) then s.joinFail 4
      else ((s.unpair).enterSync false true).sendJoin

/-! ### Mirror frames (R404, R406, R407) -/

/-- The records of a mirror frame: type and body. -/
def parseMir : Nat → Bytes → Option (List (Nat × Bytes))
  | 0, _ => some []
  | n + 1, b =>
    let len := 4 * beAt b 2 2
    if b.length < 4 + len || byteAt b 1 != 0 then none
    else (parseMir n (b.drop (4 + len))).map (fun l => (byteAt b 0, slice b 4 len) :: l)

/-- Records held for room are sent while there is room; the wait is counted, from the first one's beginning. -/
def State.roomFor : List MirHeld → Bool → State → State
  | [], _, s => { s with mir := { s.mir with held := [] } }
  | h :: t, first, s =>
    if s.mirRoom < h.recs.length then
      let k := s.mirRoom
      let s := if k = 0 then s else s.mirPost (h.recs.take k) []
      { s with mir := { s.mir with held := { h with recs := h.recs.drop k, since := if first then h.since else s.now } :: t } }
    else State.roomFor t false ((if first then s.countWait h.since else s).mirPost h.recs h.acts)

/-- The twin confirms every record before sequence `c` (R406, R408). -/
def State.confirmed (s : State) (c : Nat) : State :=
  let n := s.mir.unconfirmed.length
  let base := (2 ^ 32 + s.mir.txSeq - n % 2 ^ 32) % 2 ^ 32
  let d := (2 ^ 32 + c % 2 ^ 32 - base) % 2 ^ 32
  if d = 0 ∨ n < d then s
  else
    let covers := fun (e : Nat) => decide ((2 ^ 32 + s.mir.txSeq - c % 2 ^ 32) % 2 ^ 32 ≤ (2 ^ 32 + s.mir.txSeq - e) % 2 ^ 32)
    let done := s.mir.waits.filter (fun w => covers w.1)
    let ended := match s.mir.syncEnd with | some q => covers q && s.mir.held.isEmpty | none => true
    let s := s.mirFree (s.mir.unconfirmed.take d)
    let s := { s with mir := { s.mir with
      unconfirmed := s.mir.unconfirmed.drop d
      waits := s.mir.waits.filter (fun w => !covers w.1)
      syncEnd := if ended then none else s.mir.syncEnd } }
    let s := s.acts (done.flatMap (·.2))
    let s := State.roomFor s.mir.held true s
    s.stepsEnd.finishSync

/-- A sequenced record takes its place: in turn, ahead of its turn, or a duplicate (R406). -/
def State.seqRec (s : State) (q : Nat) (r : MirIn) : State :=
  let d := (2 ^ 32 + q - s.mir.rxNext) % 2 ^ 32
  if d = 0 then
    { s.count MIR_CTR_records_rx with mir := { s.mir with rxNext := (s.mir.rxNext + 1) % 2 ^ 32, inRecs := s.mir.inRecs ++ [r] } }
  else if d < 2 ^ 31 then { s with mir := { s.mir with ahead := s.mir.ahead.insert q r } }
  else s

/-- Records that were ahead follow once their turn has come. -/
def State.pullAhead : Nat → State → State
  | 0, s => s
  | n + 1, s =>
    match s.mir.ahead.find? s.mir.rxNext with
    | none => s
    | some r =>
      let q := s.mir.rxNext
      State.pullAhead n (({ s with mir := { s.mir with ahead := s.mir.ahead.erase q } }).seqRec q r)

/-- UP state of a mirror port. Coming up, it starts retry under a new session and tells the peer (R62, R72; DESIGN CHOICE: the spec says that
retry is always active there, not how its sessions are exchanged); going down, its link loses what it held. -/
def State.mirPort (s : State) (m : Nat) (up : Bool) : State :=
  let f := if m = 0 then MIR_STATUS_m0_up else MIR_STATUS_m1_up
  if s.flag f = up then s
  else
    let s := (s.setReg f (bit1 up)).raise (evMir MIR_INTR_STATUS_link_ev)
    if up then
      ((s.modLink (192 + m) (fun l => { l with ownSess := (l.ownSess + 1) % 256, peerInit := none, sentInit := none })).setLinkSt (192 + m) .up).sendLlrInit
        (192 + m)
    else s.linkDown (192 + m) .down

/-- DETACHED ends once a mirror link is UP and a heartbeat has come (R402): each twin is the source for the groups it owns. -/
def State.rejoined (s : State) : State :=
  if s.pod == podDetached && s.mir.hbSeen && !s.mirUp.isEmpty then
    ((s.enterSync true true).resendRecs (fun _ => true)).startCopy true (s.reg MIR_CFG_role == 0)
  else s

def State.mirEnabled (s : State) (m : Nat) : Bool := s.flag (if m = 0 then MIR_PORT_CFG_m0_en else MIR_PORT_CFG_m1_en)

/-- The mirror ports have light: OTM's lasers are in range and its transmitters are on (R48, R435). -/
def State.mirLit (s : State) : Bool := !s.hw.dark.contains 8 && !s.sys.txDark

/-- A good mirror frame that retry has accepted, with its ingress stamp and arrival number (R404, R406). -/
def State.mirrorFrame (s : State) (m : Nat) (r : Rx) (b : Bytes) : State :=
      let state := byteAt b 15
      let count := beAt b 16 2
      let pod := beAt b 26 2
      match parseMir (max count 1) (b.drop 30) with
      | none => s.count MIR_CTR_mir_discards
      | some l =>
        let kinds := l.map (·.1)
        let join := kinds == [9] && count == 0
        let fits := if count = 0 then kinds == [1] || kinds == [9] else kinds.all (fun k => (decide (2 ≤ k) && decide (k ≤ 8)) || k == 10)
        if beAt b 0 6 != 0x0180C200000E || beAt b 6 6 != 0 || beAt b 12 2 != 0x88B6 || 9216 < b.length + 4 || byteAt b 14 != 1 || 16 ≤ state ||
            beAt b 28 2 != 0 || !fits || (pod != s.reg MIR_CFG_pod_id && !join) then s.count MIR_CTR_mir_discards
        else
          let mk := fun (x : Nat × Bytes) => ({ kind := x.1, body := x.2, state := state % 8, role := state / 8, pod := pod, link := m, stamp := r.stamp,
                                                arr := r.arr } : MirIn)
          let paired := s.pod == podSync || s.pod == podPaired || s.pod == podDetached
          let s := if paired && !join then s.confirmed (beAt b 22 4) else s
          if count = 0 then
            let hb := kinds == [1]
            { s with mir := { s.mir with inRecs := s.mir.inRecs ++ l.map mk, hbAt := if hb then s.now else s.mir.hbAt } }
          else if paired then
            let first := beAt b 18 4
            let s := l.zipIdx.foldl (fun s x => s.seqRec ((first + x.2) % 2 ^ 32) (mk x.1)) s
            State.pullAhead s.mir.ahead.length s
          else s

/-- A frame arrives on a mirror port (R45, R47, R57, R59, R72, R404): with its preamble, whole, so that its ingress stamp is the time of the
command (DESIGN CHOICE). Retry judges its tag and its tail; the retry frames of R64 are the port's own, any other frame is the engine's. -/
def State.mirrorFrameRx (s : State) (m : Nat) (pre b : Bytes) (good : Bool) : State :=
  let src := 192 + m
  if !s.mirEnabled m || !s.mirLit then s
  else
    let s := (s.mirPort m true).rejoined
    let (n, s) := s.arrival src
    let (seqd, ok, s) := s.tagIn src pre
    let r : Rx := { stamp := s.planeNow src, arr := n, sequenced := seqd, accept := ok }
    let s := ((s.traffic 0 (unitsAt 0 b.length)).count (MIR_CTR_rx_frames m)).count (MIR_CTR_rx_bytes m) (b.length + 4)
    if !ok then s
    else
      let s := s.llrTail src r (if good then .good else .bad)
      if !good then s.count (MIR_CTR_rx_fcs_err m)
      else if s.isLinkCtl src b && decide ((echOf b).opcode < 0x78) then s.tailCtl src r b
      else s.mirrorFrame m r b

/-! ### Records (R404, R405, R408, R410) -/

/-- A sequenced record. -/
def MirIn.seqd (r : MirIn) : Bool := r.kind != 1 && r.kind != 9

/-- Unconfirmed updates of this device's host that name one of some keys: of groups, or of tables. -/
def State.clash (s : State) (tab : Bool) (keys : List Nat) : List Upd :=
  s.mir.upds.filter (fun u => (s.desc u.d).isSome && u.tables.isSome == tab && u.keys.any keys.contains)

/-- Tables with one key as it stood. -/
def Tables.restore (T old : Tables) (k : Nat) : Tables :=
  let t := k / 2 ^ 160
  T.putRec t { key := k % 2 ^ 160, val := old.entry t (k % 2 ^ 160) }

/-- A group as it stood before an update that has lost (R410): one that the update gave no new epoch keeps what its steps have done since, and
the leases renewed since; of another the steps are gone (R291). -/
def Grp.before (o g : Grp) (at_ : Option FT64) : Grp :=
  if gEpoch o.entry = gEpoch g.entry then
    { g with
      entry := gSet o.entry 44 4 (gStep g.entry), sfm := o.sfm, base := o.base, evicted := o.evicted, score := if at_.isSome then o.score else g.score,
      lease := match at_ with
        | some t => o.lease.mapVals (fun m v => if (g.lease.find? m).any (precedes t) then g.lease.get v m else v)
        | none => g.lease }
  else { o with prev := {}, cur := {}, next := {}, disp := {} }

/-- An update loses to role 0's (R410): what stood before stands again but where a later update has changed it, and the descriptor
completes with ST_POD_CONFLICT. -/
def State.loseUpd (s : State) (u : Upd) : State :=
  let later := s.mir.upds.filter (fun v => decide (u.d < v.d) && (s.desc v.d).isSome && v.tables.isSome == u.tables.isSome)
  let mine := u.keys.filter (fun k => !later.any (fun v => v.keys.contains k))
  let s := match u.tables with
    | some T => { s with tables := mine.foldl (fun t k => t.restore T k) s.tables }
    | none => s
  let s := (u.groups.filter (fun g => mine.contains g.1)).foldl (fun s g =>
    let s := s.withdraw g.1 (fun x => x.head.opcode == 7 && byteAt x.payload 1 == 0)
    match g.2, s.grp g.1 with
    | none, _ => let s := s.discardGroup g.1; { s with groups := s.groups.erase g.1 }
    | some o, some n =>
      if gEpoch o.entry = gEpoch n.entry then
        (s.modGrp g.1 (fun n => o.before n u.at_)).rearm g.1 (gWindow n.entry)
      else (s.discardGroup g.1).modGrp g.1 (fun n => o.before n u.at_)
    | some o, none => { s with groups := s.groups.insert g.1 { o with prev := {}, cur := {}, next := {}, disp := {} } }) s
  let keep := fun (a : Act) => match a with | .complete d _ => d != u.d | _ => true
  let s := { s with mir := { s.mir with
    upds := s.mir.upds.filter (fun v => v.d != u.d)
    waits := s.mir.waits.map (fun w : Nat × List Act => (w.1, w.2.filter keep))
    held := s.mir.held.map (fun h : MirHeld => { h with acts := h.acts.filter keep }) } }
  s.completeSt u.d stPodConflict

/-- An update of the twin meets this device's unconfirmed ones: `none` when role 0's own stands, else the state without the losers. -/
def State.settle (s : State) (tab : Bool) (keys : List Nat) : Option State :=
  match s.clash tab keys with
  | [] => some s
  | l => if s.reg MIR_CFG_role = 0 then none else some (l.reverse.foldl State.loseUpd s)

/-- The entry of a GROUP record, as it stands on this device: the owner keeps its own cur_step under one epoch. -/
def groupMerge (old e : Bytes) : Bytes :=
  if gEpoch old = gEpoch e ∧ gOwn old ∧ gOwn e then gSet e 44 4 (gStep old) else e

/-- A GROUP record reports a GROUP_UPDATE of the twin's host, from which leases, scores, evictions and the base start anew (R416–R418), and not
a FENCE, a retraction or an eviction: it changes more than these do (DEDUCED: a record does not say what made it. A FENCE changes fence_step or
the mode alone; the others advance the epoch by one, a retraction with cur_step behind the fence, an eviction behind its MEMBER record). -/
def Grp.hostUpdated (o : Grp) (e : Bytes) (sfm : Bool) (base : Nat) : Bool :=
  let rest := fun (b : Bytes) => gSet (gSet (gSet b 6 2 0) 44 4 0) 48 4 0
  let fence := gEpoch o.entry == gEpoch e && (gFence o.entry != gFence e || o.sfm != sfm)
  let moved := gEpoch e == (gEpoch o.entry + 1) % 2 ^ 16 && (o.evicting || gStep e == (gFence e + 1) % 2 ^ 32)
  !(rest o.entry == rest e && o.base == base && (fence || moved))

/-- A GROUP record: the twin's entry, with own inverted already (R404); firmware writes it, so that it is recorded (R329). -/
def State.groupRecord (s : State) (b : Bytes) : State :=
  let e := b.take 64
  let gid := gGid e
  match s.settle false [gid] with
  | none => s
  | some s =>
    let sfm := bitOf (byteAt b 64) 0
    let base := leAt b 66 2
    if !gValid e then ({ s.discardGroup gid with groups := (s.discardGroup gid).groups.erase gid }).recordFw 0 gid 0 e
    else
      match s.grp gid with
      | none =>
        let ms := (s.actives e).map (·.1)
        ({ s with groups := s.groups.insert gid { entry := e, sfm := sfm, base := base, lease := ms.foldl (fun t m => Tab.insert t m s.now) [] } }).recordFw
          0 gid 0 e
      | some o =>
        let fromHost := o.hostUpdated e sfm base
        let moved := !gOwn o.entry && gOwn e
        let ms := (s.actives e).map (·.1)
        let s := if gEpoch o.entry = gEpoch e then s else (s.discardGroup gid).raise (evGrp GRP_INTR_STATUS_epoch_ev)
        let s := s.modGrp gid (fun g => { g with
          entry := groupMerge o.entry e, sfm := sfm, base := base, evicted := if fromHost then [] else g.evicted,
          score := if fromHost then [] else g.score, lease := if fromHost then ms.foldl (fun t m => Tab.insert t m s.now) [] else g.lease,
          evicting := false })
        let s := (if gEpoch o.entry = gEpoch e then s.rearm gid (gWindow o.entry) else s).fenceEase gid
        let s := s.recordFw 0 gid 0 (groupMerge o.entry e)
        if moved && s.pod == podPaired then
          s.acts (noticeActs (groupMerge o.entry e) stOwnerMoved 0xFFF ((s.actives e).map (fun m => mId m.2)) true)
        else s

/-- A MEMBER record: the flags of an evicted member. -/
def State.memberRecord (s : State) (b : Bytes) : State :=
  let gid := leAt b 0 2
  let m := leAt b 2 2
  match s.grp gid with
  | none => s
  | some g =>
    let a := gList g.entry + 8 * m + 2
    ((s.listWrite a (slice b 4 1)).recordFw 1 gid a (slice b 4 1)).modGrp gid (fun g => { g with
      evicted := g.evicted ++ [(m, s.now)], evicting := s.pod == podPaired })

/-- cur_step of a group the twin owns follows its records. -/
def Grp.follow (g : Grp) (n : Nat) : Grp :=
  if 0 < stepDiff n (gStep g.entry) then
    { g with
      entry := gSet g.entry 44 4 n, twinReleased := g.twinReleased.filter (fun r => decide (0 ≤ stepDiff r.1 n)),
      twinAcked := g.twinAcked.filter (fun r => decide (0 ≤ stepDiff r.1 n)), twinHome := g.twinHome.filter (fun r => decide (0 ≤ stepDiff r.1 n)) }
  else g

/-- A CVEC record: an acknowledged contribution, or a released result; the release of STEP_DONE passes the step. -/
def State.cvecRecord (s : State) (b : Bytes) : State :=
  let gid := leAt b 0 2
  let n := leAt b 2 4
  let c := leAt b 6 3
  s.modGrp gid (fun g =>
    if gOwn g.entry then g
    else if byteAt b 12 = 0 then { g with twinAcked := g.twinAcked ++ [(n, c, byteAt b 9, leAt b 10 2)] }
    else if gChunks g.entry ≤ c then g.follow ((n + 1) % 2 ^ 32)
    else { g with twinReleased := g.twinReleased ++ [(n, c)] })

/-- A HOME record: a source's home mark. Cur_step of a dispatch group, whose end no record reports, follows it: a mark of step n says that n is an
open step, or is closed (DEDUCED: R408 has no record of a dispatch group's cur_step). -/
def State.homeRecord (s : State) (b : Bytes) : State :=
  let src := leAt b 2 2
  let n := leAt b 4 4
  s.modGrp (leAt b 0 2) (fun g =>
    if gOwn g.entry then g
    else
      let g := g.follow ((n + 2 ^ 32 - 1) % 2 ^ 32)
      { g with twinHome := g.twinHome.filter (fun r => !(r.1 == n && r.2.1 == src)) ++ [(n, src, leAt b 8 4)] })

/-- A TABLE record: a part is held; with the last part the whole apply is applied at one stamp (R405). -/
def State.tableRecord (s : State) (b : Bytes) : State :=
  let parts := s.mir.parts ++ [b]
  if !bitOf (byteAt b 1) 0 then { s with mir := { s.mir with parts := parts } }
  else
    let s := { s with mir := { s.mir with parts := [] } }
    let t := byteAt b 0
    let body := parts.flatMap (fun p => p.drop 8)
    let recs := splitRecs (recSize t) (body.length / recSize t) body
    let keys := (recs.filterMap (parseRec t)).map (fun r => tableKey t r.key)
    match s.settle true keys with
    | none => s
    | some s =>
      match s.tables.apply t recs with
      | .ok (T, _) => let (_, s) := s.applyStamp; { s with tables := T }
      | .error _ => s

/-- A register takes a whole value, as a write of it would (R8). -/
def State.putReg (s : State) (off v : Nat) : State :=
  match regAt regTable off with
  | some d => { s with regs := writeFields (fun f => s.latchNow.bits.get 0 f.key) s.regs off v d }
  | none => s

/-- A write of a policer or shaper register takes effect here, without mirroring. -/
def State.writeMirrored (s : State) (p o v : Nat) : State :=
  if o < 0x3000 ∧ o % 0x40 = 0 then s.policerWrite (8 * p + (o - 0x2000) / 0x200) ((o - 0x2000) % 0x200 / 0x40) v
  else
    let s := s.putReg (0x400000 + 0x20000 * p + o) v
    if 0x3000 ≤ o then s.shpWritten (8 * p + (o - 0x3000) / 0x100) (o % 0x100 / 0x20) else s

/-- A REG record. -/
def State.regRecord (s : State) (b : Bytes) : State :=
  let p := byteAt b 0
  let o := leAt b 4 4
  if p < 24 ∧ mirroredReg o then s.writeMirrored p o (leAt b 8 8) else s

/-- A record of which only the newest counts (R407): one that waits for room is replaced. -/
def State.mirrorLatest (s : State) (r : Bytes) (same : Bytes → Bool) : State :=
  if s.mir.held.any (fun h => h.recs.any same) then
    { s with mir := { s.mir with held := s.mir.held.map (fun h => { h with recs := h.recs.map (fun x => if same x then r else x) }) } }
  else s.mirror [r] []

/-- A host write of a policer or shaper register: it takes effect, and the twin is told (R408). -/
def State.hostMirrored (s : State) (p o v : Nat) : State :=
  (s.writeMirrored p o v).mirrorLatest (regRec p o v) (fun x => byteAt x 0 == 7 && byteAt x 4 == p && leAt x 8 4 == o)

/-- One sequenced record is applied. -/
def State.applyMir (s : State) (r : MirIn) : State :=
  match r.kind with
  | 2 => s.groupRecord r.body
  | 3 => s.memberRecord r.body
  | 4 => s.cvecRecord r.body
  | 5 => s.homeRecord r.body
  | 6 => s.tableRecord r.body
  | 7 => s.regRecord r.body
  | 8 => { s with mir := { s.mir with twinSbk := (leAt r.body 0 8, leAt r.body 8 8) } }
  | _ => ({ s with mir := { s.mir with syncGot := true } }).finishSync

/-- The next record in sequence, when it is of this type (R406). -/
def State.mirTake (s : State) (kind : Nat) : State :=
  match s.mir.inRecs.find? MirIn.seqd with
  | some r => if r.kind = kind then ({ s with mir := { s.mir with inRecs := s.mir.inRecs.erase r } }).applyMir r else s
  | none => s

/-- Every record that has been received is applied. -/
def State.drainIn (s : State) : State :=
  let l := s.mir.inRecs.filter MirIn.seqd
  l.foldl State.applyMir { s with mir := { s.mir with inRecs := s.mir.inRecs.filter (fun r => !r.seqd) } }

/-! ### Takeover (R413, R414, R427) -/

/-- The steps of a dispatch group start from the mirrored home marks (R414). -/
def dispFrom (n : Nat) (l : List (Nat × Nat × Nat)) : Tab TokSrc :=
  l.foldl (fun t r =>
    let d := stepDiff r.1 n
    if d = 0 ∨ d = 1 then Tab.insert t (4096 * d.toNat + r.2.1) { next := r.2.2, home := r.2.2 } else t) []

/-- A group is taken from the lost twin; whether it retracted. -/
def State.takeGroup (s : State) (gid : Nat) : Bool × State :=
  match s.grp gid with
  | none => (false, s)
  | some g =>
    let e := gSetOwn g.entry true
    let act := s.actives e
    let s := s.modGrp gid (fun g => { g with
      entry := e, taken := some (gStep e), prev := {}, cur := {}, next := {}, score := [], lease := act.foldl (fun t m => Tab.insert t m.1 s.now) [],
      disp := { srcs := dispFrom (gStep e) g.twinHome } })
    let s := s.recordFw 0 gid 0 e
    let open_ := (g.twinReleased.map (·.1)).filter (fun n => let d := stepDiff n (gStep e); d == 0 || d == 1)
    match open_ with
    | n :: rest =>
      if gRoot e && (gKind e == 4 || (decide (gKind e ≤ 1) && gCls e == 0)) then
        let s := s.retract gid (rest.foldl (fun a b => if stepDiff b a < 0 then b else a) n) stTwinLost
        (true, s.recordFw 0 gid 0 (((s.grp gid).map (·.entry)).getD []))
      else (false, s.acts (noticeActs e stOwnerMoved 0xFFF (act.map (fun m => mId m.2)) true))
    | [] => (false, s.acts (noticeActs e stOwnerMoved 0xFFF (act.map (fun m => mId m.2)) true))

/-- Groups whose handover the twin has not confirmed: the handover is void. -/
def State.voidMoves (s : State) : List Nat :=
  (s.mir.upds.filter (fun u => (s.desc u.d).isSome)).flatMap (fun u => (u.groups.filter (fun g =>
    match g.2, s.grp g.1 with
    | some o, some n => gOwn o.entry != gOwn n.entry
    | _, _ => false)).map (·.1))

/-- The twin is declared lost (R412): this device becomes the survivor and takes every group. -/
def State.takeover (s : State) : State :=
  let s := if s.mir.rehearsal.isSome then s.endRehearsal stRehearseCancelled else s
  let s := s.drainIn
  let void := s.voidMoves
  let s := void.foldl (fun s g => s.withdraw g (fun x => x.head.opcode == 7)) s
  let s := (s.setPod podSurvivor).unpair
  let gids := (s.groups.filter (fun g => !gOwn g.2.entry || void.contains g.1)).map (·.1)
  let (back, s) := gids.foldl (fun (a : Nat × State) gid => let (r, s) := a.2.takeGroup gid; (a.1 + bit1 r, s)) (0, s)
  let s := ((s.setReg MIR_TAKEOVER_LOG_taken gids.length).setReg MIR_TAKEOVER_LOG_retracted back).setW1c MIR_TAKEOVER_LOG_valid 1
  (s.setReg MIR_TAKEOVER_STAMP_stamp s.now.toNat).stamped.alarm MIR_INTR_STATUS_takeover_ev stTwinLost 0 0xFFF

/-- No HB has arrived on either mirror port for hb_timeout. -/
def State.hbMissing (s : State) : Bool := s.elapsed s.mir.hbAt (s.reg MIR_HB_CFG_hb_timeout * 1000)

/-- No out-of-band heartbeat has come for oob_timeout. -/
def State.oobMissing (s : State) : Bool := s.elapsed s.mir.oobAt (s.reg MIR_HB_CFG_oob_timeout * 1000)

/-- The twin counts as lost (R412). -/
def State.twinLost (s : State) : Bool :=
  s.hbMissing && (if s.flag MIR_CFG_alive_en then !s.flag MIR_STATUS_alive_in
    else if s.flag MIR_CFG_oob_hb_en then s.oobMissing
    else s.reg MIR_CFG_role == 1)

/-- The device mirrors with a twin, or is apart from one that lives. -/
def State.withTwin (s : State) : Bool := s.pod == podPaired || s.pod == podDetached

/-- Heartbeats have been missing for hb_timeout (R412, R425, R427). -/
def State.hbTimeout (s : State) : State :=
  if !s.hbMissing then s
  else if s.pod == podSync then (s.count MIR_CTR_hb_missed).syncLost
  else if s.withTwin then
    let s := s.count MIR_CTR_hb_missed
    if s.twinLost then s.takeover else s.detach
  else
    match s.mir.rehearsal with
    | some r => if s.pod == podSolo && r.kind == 3 && r.injected.isSome then s.endRehearsal stRehearseCancelled else s
    | none => s

/-- MIRROR_ALIVE_IN has had no edge for 2 µs (R412). -/
def State.aliveSilent (s : State) : State :=
  if !s.flag MIR_CFG_alive_en then s
  else
    let s := s.setReg MIR_STATUS_alive_in 0
    if s.withTwin && s.twinLost then s.takeover
    else if !s.hbMissing then s.raise (evMir MIR_INTR_STATUS_alive_ev) else s

/-! ### Heartbeats (R404, R406, R412, R426) -/

def State.hbRec (s : State) : Bytes :=
  mirRec 1 (leBytes 8 s.now.toNat ++ [BitVec.ofNat 8 (s.reg TIME_STATUS_state), 0] ++ leBytes 2 s.owned)

/-- An HB on each UP mirror port, every hb_interval, while the device is in a pod. -/
def State.hbTxTimer (s : State) : State :=
  if s.pod == podSolo then s
  else
    let s := { s with mir := { s.mir with hbTx := s.now } }
    s.mirUp.foldl (fun s m => s.mirOut m 0 s.mir.txSeq s.hbRec) s

/-- A heartbeat that reports SURVIVOR: own 0 everywhere, then SYNC as its target (R402, R412). -/
def State.yieldTo (s : State) : State := ((s.dropOwn).unpair).enterSync false true

/-- An HB record. The twin's mirror engine, which sends it, toggles MIRROR_ALIVE_IN as well (R412; DESIGN CHOICE: no row reports an edge of the
wire, so that the wire counts as toggling from the next heartbeat until ALIVE_IN_SILENT comes again). -/
def State.hbRx (s : State) : State :=
  match s.mir.inRecs.find? (fun r => r.kind == 1) with
  | none => s
  | some r =>
    let s := { s with mir := { s.mir with inRecs := s.mir.inRecs.erase r, hbSeen := true } }
    let s := if s.flag MIR_CFG_alive_en then s.setReg MIR_STATUS_alive_in 1 else s
    let s := s.setReg MIR_TWIN_OFFSET_offset (BitVec.ofNat 64 (leAt r.body 0 8) - r.stamp).toNat
    if r.state = podSurvivor && s.withTwin then s.yieldTo
    else if s.pod == podDetached then s.rejoined
    else
      let s := s.twinSyncs r
      if s.pod == podSync && r.state == podPaired then ({ s with mir := { s.mir with syncGot := true } }).finishSync else s

/-- The own mirror engine has sent no HB for hb_timeout / 2 (R412). -/
def State.fenceSelf (s : State) : State :=
  if s.pod != podSolo && s.elapsed s.mir.hbTx (s.reg MIR_HB_CFG_hb_timeout * 500) then s.selfFence else s

/-- Every 10 µs while recording (R335, R408). -/
def State.sbkMirror (s : State) : State :=
  if s.reg SBK_STATUS_state = 1 then s.mirrorLatest s.sbkRec (fun x => byteAt x 0 == 8) else s

/-- A mirror link goes down (R402, R403, R406, R427). -/
def State.mirrorDown (s : State) (m : Nat) : State :=
  let s := s.mirPort m false
  if s.mirUp.isEmpty then
    if s.pod == podPaired then s.detach else if s.pod == podSync then s.syncLost else s
  else s.resendRecs (fun r => r.link == some m)

/-- A mirror port whose retries are used up has gone down (R61, R72): its mirror link is down. -/
def State.mirRetried (s : State) : State :=
  s.mirUp.foldl (fun s m => if s.isUp (192 + m) then s else s.mirrorDown m) s

/-- A write to MIR_PORT_CFG; an enabled mirror port comes up when its lasers have light, a disabled one goes down. -/
def State.mirPortCfg (s : State) (v : Nat) : State :=
  (List.range 2).foldl (fun s m =>
    let en := bitOf v m
    let s := s.setReg (if m = 0 then MIR_PORT_CFG_m0_en else MIR_PORT_CFG_m1_en) (bit1 en)
    if en then (if s.mirLit then (s.mirPort m true).rejoined else s)
    else if s.mirUp.contains m then s.mirrorDown m else s) s

/-- A laser input of a tile is out of range (R48): its logical ports go down; OTM carries the mirror ports. -/
def State.tileDark (s : State) (t : Nat) : State :=
  let s := s.laserLoss t
  if t = 8 then s.mirUp.foldl State.mirrorDown s else s

/-- A tile's laser inputs are back in range. -/
def State.tileLit (s : State) (t : Nat) : State :=
  let s := s.laserRestore t
  if t = 8 && s.mirLit then (List.range 2).foldl (fun s m => if s.mirEnabled m then (s.mirPort m true).rejoined else s) s else s

/-! ### Out of band (R426, R429) -/

/-- The active port is the lower-numbered one that is up. -/
def State.oobActive (s : State) : State :=
  let up := s.reg MIR_OOB_CFG_up
  if bitOf up 0 then s.setReg MIR_OOB_CFG_active 0 else if bitOf up 1 then s.setReg MIR_OOB_CFG_active 1 else s

/-- A write to MIR_OOB_CFG: a port whose en bit is cleared goes down at once. -/
def State.oobCfg (s : State) (v : Nat) : State :=
  (((s.setReg MIR_OOB_CFG_en (bits v 0 2)).setReg MIR_OOB_CFG_fec_en (bits v 2 1)).setReg MIR_OOB_CFG_up (s.reg MIR_OOB_CFG_up &&& bits v 0 2)).oobActive

def State.oobUp (s : State) (k : Nat) : State :=
  if bitOf (s.reg MIR_OOB_CFG_en) k then (s.setReg MIR_OOB_CFG_up (setBit (s.reg MIR_OOB_CFG_up) k)).oobActive else s

def State.oobDown (s : State) (k : Nat) : State := (s.setReg MIR_OOB_CFG_up (clearBit (s.reg MIR_OOB_CFG_up) k)).oobActive

/-- Every 100 µs while oob_hb_en is 1; a self-fenced device has stopped. -/
def State.oobTimer (s : State) : State :=
  if s.flag MIR_CFG_oob_hb_en && !s.flag MIR_STATUS_self_fenced then s.oobOut (s.reg MIR_OOB_TWIN_MAC_mac) s.hbRec else s

/-- An HB of the twin out of band. -/
def State.oobRx (s : State) (b : Bytes) : State :=
  let ok := s.reg MIR_OOB_CFG_up != 0 && beAt b 0 6 == s.reg MIR_OOB_MAC_mac && beAt b 12 2 == 0x88B6 && byteAt b 14 == 1 && beAt b 16 2 == 0 &&
    beAt b 26 2 == s.reg MIR_CFG_pod_id && byteAt b 30 == 1
  if !ok then s
  else
    let s := ({ s with mir := { s.mir with oobAt := s.now } }).setReg MIR_STATUS_oob_hb 1
    if byteAt b 15 % 8 = podSurvivor && s.withTwin then s.yieldTo else s

def State.oobTimeout (s : State) : State :=
  if !s.oobMissing then s
  else
    let s := s.setReg MIR_STATUS_oob_hb 0
    if s.withTwin && s.flag MIR_CFG_oob_hb_en && s.twinLost then s.takeover else s

/-! ### Leases (R415, R416, R418) -/

/-- A member's lease has ended: the detector evicts it, or raises its alarm, once. -/
def State.leaseExpire (s : State) (gid m : Nat) : State :=
  match s.grp gid with
  | none => s
  | some g =>
    if gOwn g.entry && s.detActs && (s.actives g.entry).any (fun x => x.1 == m) && s.leaseOver g m then
      s.leaseEvict gid m
    else s

/-! ### Rehearsals (R423–R425) -/

/-- This device forms the result of a chunk of the group (R287): of a reduction the owner at the root does, of an all-gather or broadcast the owner
that may accept the contribution. -/
def formsResult (e : Bytes) (c : Nat) : Bool :=
  gOwn e && decide (gKind e ≤ 4) && decide (c < gChunks e) && (gRoot e || gKind e == 2 || (gKind e == 3 && gRootMember e != 0xFFF))

/-- REHEARSE is refused (R425). -/
def State.rehearseDenied (s : State) (x : Desc) : Bool :=
  let b := x.bytes
  let kind := byteAt b 8
  let at_ : FT64 := BitVec.ofNat 64 (leAt b 16 8)
  let g := (s.grp (leAt b 10 2)).map (·.entry)
  let m := leAt b 14 2
  !bitOf (s.reg MIR_REHEARSE_CFG_allow) kind || precedes at_ (x.stamp + ns 1000000) || precedes (x.stamp + ns 3600000000000) at_ ||
    s.mir.rehearsal.isSome ||
    (match s.mir.lastInject with | some t => !s.elapsed t (s.reg MIR_REHEARSE_CFG_min_gap * 1000000000) | none => false) ||
    (match kind with
     | 1 => !(match g with | some e => (s.actives e).any (fun y => y.1 == m) | none => false)
     | 2 => !((s.grp (leAt b 10 2)).any (fun g => g.sfm && formsResult g.entry (leAt b 32 3)))
     | 3 => s.pod != podPaired
     | _ => false)

/-- REHEARSE is taken: the fault is scheduled. -/
def State.rehearse (s : State) (d : Nat) (x : Desc) : State :=
  if s.rehearseDenied x then s.completeSt d stRehearseDenied
  else
    let b := x.bytes
    let r : Rehearsal :=
      { d := d, kind := byteAt b 8, gid := leAt b 10 2, port := byteAt b 12, member := leAt b 14 2, at_ := BitVec.ofNat 64 (leAt b 16 8),
        duration := leAt b 24 4, step := leAt b 28 4, chunk := leAt b 32 3 }
    (({ s with mir := { s.mir with rehearsal := some r } }).startDesc d).schedule r.at_ .rehearse

/-- The rehearsed fault is injected (R424); a chunk whose result has left already cannot be corrupted any more. -/
def State.fireRehearse (s : State) : State :=
  let s := s.unschedule .rehearse
  match s.mir.rehearsal with
  | none => s
  | some r =>
    let late := r.kind == 2 && (s.grp r.gid).any (fun g => decide (stepDiff r.step (gStep g.entry) < 0) || (g.chunk r.step r.chunk).st == .done)
    if late then s.endRehearsal stRehearseCancelled else
    let n := if r.kind = 3 then s.owned else 0
    let s := { s with mir := { s.mir with rehearsal := some { r with injected := some s.now, count := n }, lastInject := some s.now } }
    let s := (s.count MIR_CTR_rehearsals).raise (evMir MIR_INTR_STATUS_rehearse_ev)
    let s := if r.kind = 2 then s else s.schedule (s.now + ns (r.duration * 1000)) .rehearseEnd
    match r.kind with
    | 0 =>
      if (s.link r.port).st == .disabled || (s.link r.port).st == .down then s
      else ((s.linkDown r.port .down).modLink r.port (fun l => { l with signal := false, lock := false })).portFlags (r.port / 8)
    | 3 => s.selfFence
    | _ => s

/-- The rehearsed fault ends: a dropped link may come up again, a stalled member's frames arrive, a fenced device joins as target. -/
def State.fireRehearseEnd (s : State) : State :=
  let s := s.unschedule .rehearseEnd
  match s.mir.rehearsal with
  | none => s
  | some r =>
    let s := s.endRehearsal 0
    if r.kind = 3 then let s := s.mirJoin; { s with mir := { s.mir with rejoin := s.mir.joinAt.isSome } } else s

/-! ### The commands -/

/-- Every MIR_ counter is zero (R73); waits that go on count from now. -/
def State.mirCtrClear (s : State) : State :=
  let s := s.clearCounters (keyIn 0x1400100 0x1400300)
  { s with
    mir := { s.mir with held := match s.mir.held with | h :: t => { h with since := s.now } :: t | [] => [] }
    groups := s.groups.mapVals (fun _ g => { g with cur := { g.cur with fenceHeld := g.cur.fenceHeld.map (fun _ => s.now) } }) }

def execMirJoin (s : State) : Host.Outcome State Fault Refusal := s.does (fun s => s.whenReady State.mirJoin)
def execMirLeave (s : State) : Host.Outcome State Fault Refusal := s.does (fun s => s.whenReady State.mirLeave)
def execJoinTimer (s : State) : Host.Outcome State Fault Refusal := s.does State.joinTimer
def execJoinTimeout (s : State) : Host.Outcome State Fault Refusal := s.does State.joinTimeout
def execJoinRx (m : Mlink) (s : State) : Host.Outcome State Fault Refusal := s.does (fun s => s.joinRx m.val)
def execMirrorFrameRx (m : Mlink) (f : WireFrame) (good : Bool) (s : State) : Host.Outcome State Fault Refusal :=
  s.does (fun s => s.mirrorFrameRx m.val f.pre f.bytes good)
def execLlrNackRx (p : LlrPort) (l : Lp) (s : State) : Host.Outcome State Fault Refusal :=
  s.does (fun s => (s.llrNackRx (srcOf p l)).mirRetried)
def execLlrRetryTimeout (p : LlrPort) (l : Lp) (s : State) : Host.Outcome State Fault Refusal :=
  s.does (fun s => (s.llrRetryTimeout (srcOf p l)).mirRetried)
def execHbRx (s : State) : Host.Outcome State Fault Refusal := s.does State.hbRx
def execGroupRecordRx (s : State) : Host.Outcome State Fault Refusal := s.does (fun s => s.mirTake 2)
def execMemberRecordRx (s : State) : Host.Outcome State Fault Refusal := s.does (fun s => s.mirTake 3)
def execCvecRecordRx (s : State) : Host.Outcome State Fault Refusal := s.does (fun s => s.mirTake 4)
def execHomeRecordRx (s : State) : Host.Outcome State Fault Refusal := s.does (fun s => s.mirTake 5)
def execTableRecordRx (s : State) : Host.Outcome State Fault Refusal := s.does (fun s => s.mirTake 6)
def execRegRecordRx (s : State) : Host.Outcome State Fault Refusal := s.does (fun s => s.mirTake 7)
def execSbkRecordRx (s : State) : Host.Outcome State Fault Refusal := s.does (fun s => s.mirTake 8)
def execSyncEndRx (s : State) : Host.Outcome State Fault Refusal := s.does (fun s => s.mirTake 10)
def execHbTxTimer (s : State) : Host.Outcome State Fault Refusal := s.does State.hbTxTimer
def execSbkMirrorTimer (s : State) : Host.Outcome State Fault Refusal := s.does State.sbkMirror
def execMirrorLinkDown (m : Mlink) (s : State) : Host.Outcome State Fault Refusal := s.does (fun s => s.mirrorDown m.val)
def execTwinHbTimeout (s : State) : Host.Outcome State Fault Refusal := s.does State.hbTimeout
def execAliveInSilent (s : State) : Host.Outcome State Fault Refusal := s.does State.aliveSilent
def execOobHbTimer (s : State) : Host.Outcome State Fault Refusal := s.does State.oobTimer
def execOobHbRx (bytes : Bytes) (s : State) : Host.Outcome State Fault Refusal := s.does (fun s => s.oobRx bytes)
def execOobHbTimeout (s : State) : Host.Outcome State Fault Refusal := s.does State.oobTimeout
def execSelfFence (s : State) : Host.Outcome State Fault Refusal := s.does State.fenceSelf
def execOobLinkLoss (k : Mlink) (s : State) : Host.Outcome State Fault Refusal := s.does (fun s => s.oobDown k.val)
def execOobLinkUp (k : Mlink) (s : State) : Host.Outcome State Fault Refusal := s.does (fun s => s.oobUp k.val)
def execLeaseExpire (gid member : Nat) (s : State) : Host.Outcome State Fault Refusal := s.does (fun s => s.leaseExpire gid member)
def execRehearseLinkDrop (d : Nat) (s : State) : Host.Outcome State Fault Refusal :=
  s.does (fun s => s.runDesc d 9 (some 0) (fun x s => s.rehearse d x))
def execRehearseMemberStall (d : Nat) (s : State) : Host.Outcome State Fault Refusal :=
  s.does (fun s => s.runDesc d 9 (some 1) (fun x s => s.rehearse d x))
def execRehearseChunkCorrupt (d : Nat) (s : State) : Host.Outcome State Fault Refusal :=
  s.does (fun s => s.runDesc d 9 (some 2) (fun x s => s.rehearse d x))
def execRehearseTwinLoss (d : Nat) (s : State) : Host.Outcome State Fault Refusal :=
  s.does (fun s => s.runDesc d 9 (some 3) (fun x s => s.rehearse d x))
def execRehearseInject (s : State) : Host.Outcome State Fault Refusal :=
  s.does (fun s => if s.dueEvent .rehearse && !s.replaying then s.fireRehearse else s)
def execRehearseEnd (s : State) : Host.Outcome State Fault Refusal :=
  s.does (fun s => if s.dueEvent .rehearseEnd && !s.replaying then s.fireRehearseEnd else s)
def execMirCounterClear (s : State) : Host.Outcome State Fault Refusal := s.does (fun s => s.whenReady State.mirCtrClear)
def execMirPortCfgWrite (v : Nat) (s : State) : Host.Outcome State Fault Refusal := s.does (fun s => s.whenReady (fun s => s.mirPortCfg v))
def execMirOobCfgWrite (v : Nat) (s : State) : Host.Outcome State Fault Refusal := s.does (fun s => s.whenReady (fun s => s.oobCfg v))

def execLaserLoss (t : Tile) (s : State) : Host.Outcome State Fault Refusal := s.does (fun s => s.tileDark t.val)
def execLaserRestore (t : Tile) (s : State) : Host.Outcome State Fault Refusal := s.does (fun s => s.tileLit t.val)

/-- A write to PORT_POL_RATE (R124, R408). -/
def execPolicerRateWrite (p : Port) (l : Lp) (c : Fin 7) (v : Nat) (s : State) : Host.Outcome State Fault Refusal :=
  s.does (fun s => s.whenReady (fun s => s.hostMirrored p.val (0x2000 + 0x200 * l.val + 0x40 * c.val) v))

end Sys2Proof.Machine
end

