-- ==== Sys2Proof/Machine/Schedule.lean ====
section
/-! DEFINITION. Scheduled events as they fire, and device time as it passes (R31, R43, R46, R47). -/

namespace Sys2Proof.Machine

/-- A reinserted laser module leaves its reset (R452). -/
def State.fireLaserRun (s : State) (k : Nat) : State :=
  let s := s.unschedule (.laserRun k)
  if s.sys.lasers.contains k && s.flag HUB_STATUS_ready then
    (s.setReg HUB_BOARD_STATUS_ls_run (setBit (s.reg HUB_BOARD_STATUS_ls_run) k)).emit (.pin "LS_RST_N" true)
  else s

/-- A rehearsal is held while a replay runs (R338): what comes due of it happens as the replay ends. -/
def State.holdRehearse (s : State) (ev : Timed) : State :=
  let s := s.unschedule ev
  { s with mir := { s.mir with rehearsal := s.mir.rehearsal.map (fun (r : Rehearsal) => { r with late := some ev }) } }

/-- An event fires. -/
def State.fire (s : State) (ev : Timed) : State :=
  match ev with
  | .gateApply p => s.fireGateApply p
  | .gateChange p => s.fireGate p
  | .shaper src c => s.fireShaper src c
  | .windowEnd gid step => s.fireWindow gid step
  | .deadline gid batch => s.fireDeadline gid batch
  | .flush gid => s.fireFlush gid
  | .rehearse => if s.replaying then s.holdRehearse .rehearse else s.fireRehearse
  | .rehearseEnd => if s.replaying then s.holdRehearse .rehearseEnd else s.fireRehearseEnd
  | .laserRun k => s.fireLaserRun k
  | .resetDone => s.setReg HUB_RESET_STATUS_busy 0

/-- The first scheduled event is taken out of the list and fires. -/
def State.fireFirst (s : State) (e : Sched) (rest : List Sched) : State := ({ s with clk := { s.clk with sched := rest } }).fire e.ev

/-- Leases that have ended: when, and whose (R416). -/
def State.leaseEnds (s : State) : List (FT64 × Nat × Nat) :=
  let l := s.groups.flatMap (fun g => g.2.lease.map (fun l => (l.2 + ns (s.reg MIR_DET_CFG_lease * 1000), g.1, l.1)))
  sortBy (fun a b => atOrBefore a.1 b.1) (l.filter (fun x => atOrBefore x.1 s.now))

/-- Scheduled events whose time has come and the ended leases `l` take effect in order of time (R43), at most `n` of them; of an event and a
lease end of one time the event comes first (DESIGN CHOICE: lease ends have no arrival number). -/
def State.fireDue : Nat → List (FT64 × Nat × Nat) → State → State
  | 0, _, s => s
  | n + 1, l, s =>
    let due := match s.clk.sched with
      | e :: rest => if atOrBefore e.at_ s.now then some (e, rest) else none
      | [] => none
    match due, l with
    | none, [] => s
    | some (e, rest), [] => State.fireDue n [] (s.fireFirst e rest)
    | none, x :: l => State.fireDue n l (s.leaseExpire x.2.1 x.2.2)
    | some (e, rest), x :: l' =>
      if precedes x.1 e.at_ then State.fireDue n l' (s.leaseExpire x.2.1 x.2.2) else State.fireDue n l (s.fireFirst e rest)

/-- Accumulator units of one TIME cycle (R31). -/
def State.perCycle (s : State) : Nat := (2 ^ 40 + s.regInt TIME_RATE_rate).toNat

/-- `n` TIME cycles pass, with nothing that is due (R31). -/
def State.tick (s : State) (n : Nat) : State :=
  { s with clk := { s.clk with acc := s.clk.acc + BitVec.ofNat 96 (n * s.perCycle), cyc := s.clk.cyc + n } }

/-- TIME cycles until device time is at or after `t` (R46). -/
def State.cyclesTo (s : State) (t : FT64) : Nat :=
  let d := ftDiff s.now t
  if d ≤ 0 then 0 else ceilDiv (d.toNat * 2 ^ 32 - s.clk.acc.toNat % 2 ^ 32) (max 1 s.perCycle)

/-- TIME cycles until the next thing that happens by itself, and what that is: a pip that arrives (R163), or a scheduled event (R46). -/
def State.upcoming (s : State) : Option (Nat × (State → State)) :=
  let pip := match s.clk.pips with
    | p :: rest => some (ceilDiv (p.seq * 4) 5 - s.clk.cyc, fun (s : State) =>
        ({ s with clk := { s.clk with pips := rest } }).setPipIn p.ch p.core p.pip p.seq)
    | [] => none
  let ev := match s.clk.sched with
    | e :: rest => some (s.cyclesTo e.at_, fun (s : State) => s.fireFirst e rest)
    | [] => none
  match pip, ev with
  | some a, some b => some (if a.1 ≤ b.1 then a else b)
  | some a, none => some a
  | none, b => b

/-- `left` TIME cycles pass; what happens by itself happens in the first cycle at or after its time (R46, R163). Every round but the last is one
such event. -/
def State.advance : Nat → Nat → State → State
  | 0, left, s => s.tick left
  | n + 1, left, s =>
    match s.upcoming with
    | none => s.tick left
    | some (k, f) => if left < k then s.tick left else State.advance n (left - k) (f (s.tick k))

/-- Device time moves at once by `off` FT64 units (R42, R43): forward, what lies between fires in this cycle; backward, the gates hold
their state, and a tc7 limiter that is eligible stays so. -/
def State.jump (s : State) (off : Int) : State :=
  let before := s
  let s := { s with clk := { s.clk with acc := s.clk.acc + BitVec.ofInt 96 (off * 2 ^ 32) } }
  if 0 ≤ off then State.fireDue (4 * s.clk.sched.length + s.leaseEnds.length + 1024) s.leaseEnds s
  else
    let s := (List.range 24).foldl (fun s p => if s.reg (PORT_GATE_CTRL_oper_len p) = 0 then s else s.modPort p (fun q => { q with gateHeld := true })) s
    (List.range 192).foldl (fun s src => s.modEg src (fun g => { g with held7 := g.held7 || atOrBefore g.e7 before.now })) s

/-- How many events `advance` allows for: in each cycle as many as stand in the schedule, and 1,024 that they bring. -/
def State.rounds (s : State) (cycles : Nat) : Nat := (cycles + 1) * (s.clk.sched.length + s.clk.pips.length + 1024)

/-- TIME cycles pass, and scheduled events fire (R46). -/
def execScheduledEventFire (cycles : Nat) (s : State) : Host.Outcome State Fault Refusal :=
  s.does (fun s => State.advance (s.rounds cycles) cycles s)

end Sys2Proof.Machine
end

