-- ==== Sys2Proof/Machine/Seedbank.lean ====
section
/-! DEFINITION. Seedbank: seeds and policy, the recording ring, replay (R326, R327, R330–R340). -/

namespace Sys2Proof.Machine

/-! ### Status codes (R341) -/

def stReplayGap : Nat := 0x78
def stReplayCorrupt : Nat := 0x79
def stSbkState : Nat := 0x7A
def stReplayIncomplete : Nat := 0x7B
def stReplayIdentity : Nat := 0x7C

/-! ### Seeds and policy (R326, R327, R338) -/

/-- A host write to a seed slot: recorded, and ignored while a replay runs. It takes an arrival number of source 194, and what stood before is kept
while descriptors rung for earlier have still to be fetched (R340). -/
def State.seedWrite (s : State) (n v : Nat) : State :=
  if s.replaying then s
  else
    let (a, s) := s.arrival 194
    let s := if s.recording then s.record { kind := 5, src := 194, stamp := s.now, arr := a, payload := leBytes 8 n ++ leBytes 8 v } else s
    let wait := s.host.sqs.any (fun q => !q.2.isEmpty)
    let w : SeedWrite := { slot := n, stamp := s.now, arr := a, old := s.reg (SBK_SEED_seed n) }
    ({ s with host := { s.host with seeds := if wait then s.host.seeds ++ [w] else [] } }).setReg (SBK_SEED_seed n) v

/-- An entry that anchored_only refuses (R327): EAGER in a reduction or sparse all-reduce, arrival order in a dispatch group. -/
def refusedByAnchored (e : Bytes) : Bool :=
  match gKind e with
  | 2 => false
  | 3 => false
  | 5 => gWpol e == 1
  | _ => gCls e == 0

/-- A write to SBK_POLICY (R327). -/
def State.policyWrite (s : State) (v : Nat) : State :=
  if s.replaying || List.any s.ctxs (fun k : Nat × Ctx => k.2.st != .idle) ||
      (bitOf v 1 && List.any s.groups (fun g : Nat × Grp => refusedByAnchored g.2.entry)) then s
  else (s.setReg SBK_POLICY_sr_rne (bits v 0 1)).setReg SBK_POLICY_anchored_only (bits v 1 1)

/-! ### The ring (R331, R332) -/

/-- Bytes of the ring that SBK_CFG.target selects; 0 when it does not exist (R336). -/
def State.ringSize (s : State) : Nat :=
  if s.flag SBK_CFG_target then s.reg SBK_HOST_SIZE_size / 32 * 32 else s.reg STORE_REGION_CFG_sbk_size * gib

/-- Bytes go into the ring at an offset (R332). -/
def State.ringWrite (s : State) (off : Nat) (b : Bytes) : State :=
  if s.flag SBK_CFG_target then s.emit (.hostWrite (s.reg SBK_HOST_BASE_base + off) b) else
    (s.storeWrite (s.sbkBase + off) b).hubAccess (s.sbkBase + off) b.length

/-- A record as it stands in the ring (R331). -/
def ringRecord (kind flags src : Nat) (stamp : FT64) (arr seq units : Nat) (payload : Bytes) : Bytes :=
  let h := leBytes 1 kind ++ leBytes 1 flags ++ leBytes 2 units ++ leBytes 2 src ++ [0, 0] ++ leBytes 8 stamp.toNat ++ leBytes 4 arr ++
    leBytes 4 seq ++ leBytes 4 payload.length
  padTo (32 * units) (h ++ leBytes 4 (crc32c (h ++ payload)) ++ payload)

/-- Bytes that records of these lengths take up from offset `off` on, with the PAD records before those that would straddle the end;
`none` when one is longer than the ring. -/
def ringNeed (size : Nat) : Nat → List Nat → Option Nat
  | _, [] => some 0
  | off, n :: r =>
    if size < n then none
    else
      let pad := if size < off + n then size - off else 0
      let next := (off + pad + n) % size
      (ringNeed size next r).map (· + pad + n)

/-- Records of these lengths find space (R332): any with wrap; without it what lies before SBK_RD_PTR, which is never caught up. -/
def State.ringRoom (s : State) (ns : List Nat) : Bool :=
  let size := s.ringSize
  match ringNeed size (s.reg SBK_WR_PTR_wr) ns with
  | none => false
  | some need =>
    if s.flag SBK_CFG_wrap then decide (need ≤ size)
    else
      let free := (size + s.reg SBK_RD_PTR_rd % size - s.reg SBK_WR_PTR_wr % size) % size
      decide (need < (if free = 0 then size else free))

/-- One record is written at SBK_WR_PTR, after a PAD record where it would not fit before the end (R331, R332). The seq and arrival fields
of a PAD record are free values. -/
def State.ringPut (s : State) (kind flags src : Nat) (stamp : FT64) (arr : Nat) (payload : Bytes) : State :=
  let size := s.ringSize
  let n := recBytes payload.length
  let off := s.reg SBK_WR_PTR_wr
  let s :=
    if size < off + n then
      let (a, s) := s.draw
      let (q, s) := s.draw
      ((s.ringWrite off (ringRecord 0 0 195 stamp (Config.freeNat a % 2 ^ 32) (Config.freeNat q % 2 ^ 32) ((size - off) / 32) [])).count
        SBK_CTR_bytes_written (size - off)).setReg SBK_WR_PTR_wr 0
    else s
  let off := s.reg SBK_WR_PTR_wr
  let s := s.ringWrite off (ringRecord kind flags src stamp arr (s.reg SBK_SEQ_seq) (n / 32) payload)
  let s := ((s.setReg SBK_WR_PTR_wr ((off + n) % size)).setReg SBK_SEQ_seq (s.reg SBK_SEQ_seq + 1)).count SBK_CTR_bytes_written n
  { (s.count SBK_CTR_records_written) with sbk := { s.sbk with written := s.sbk.written + 1 } }

/-- The GAP record that precedes the next record once some were lost (R334). -/
def State.putGap (s : State) (stamp : FT64) : State :=
  if s.sbk.lost = 0 then s
  else
    let (n, s) := s.arrival 195
    let s := s.ringPut 7 0 195 stamp n (leBytes 8 (s.sbk.lost % 2 ^ 32) ++ leBytes 8 s.sbk.lostAt)
    let s := (s.count SBK_CTR_gap_records).raise (evSbk SBK_STATUS_gap_ev)
    { s with sbk := { s.sbk with lost := 0, lostAt := 0 } }

/-- Payload of a STOP record: records written and lost in this recording. -/
def Sbk.stopPayload (k : Sbk) : Bytes := leBytes 8 (k.written % 2 ^ 32) ++ leBytes 8 k.lostAll

/-- The recording has ended: its completion reports the seq of STOP and SBK_WR_PTR (R336). -/
def State.recordingDone (s : State) (seq : Nat) : State :=
  let s := match s.sbk.stop with
    | some d => s.complete d { status := stOk, result := seq, detail := s.reg SBK_WR_PTR_wr }
    | none => s
  let s := { s with sbk := { s.sbk with stop := none, staged := [] } }
  (s.setReg SBK_STATUS_state 0).raise (evSbk SBK_STATUS_done_ev)

/-- Seedbank writes the first staged record, 4 µs after its stamp and once it is whole (R330, R332, R334). A STOP record waits for space;
any other that finds none is lost. -/
def State.sbkWrite (s : State) : State :=
  match s.sbk.staged with
  | [] => s
  | r :: rest =>
    if s.reg SBK_STATUS_state != 1 || !r.whole || !s.elapsed r.stamp 4000 then s
    else
      let ns := (if s.sbk.lost = 0 then [] else [64]) ++ [recBytes r.payload.length]
      if s.ringRoom ns then
        let s := ({ s with sbk := { s.sbk with staged := rest } }).putGap r.stamp
        let seq := s.reg SBK_SEQ_seq
        let s := s.ringPut r.kind r.flags r.src r.stamp r.arr (if r.kind == 10 then s.sbk.stopPayload else r.payload)
        if r.kind == 10 then s.recordingDone seq else s
      else
        let s := if s.flag SBK_CFG_wrap then s else s.raise (evSbk SBK_STATUS_full_ev)
        if r.kind == 10 then s else ({ s with sbk := { s.sbk with staged := rest } }).recordLost r.stamp

/-! ### RECORD_CTRL of a recording (R336) -/

/-- RECORD_START: the START record, then what R329 records. -/
def State.recordStart (s : State) (d : Nat) : State :=
  if s.reg SBK_STATUS_state != 0 || s.ringSize = 0 then s.completeSt d stSbkState
  else
    let s := { (s.setReg SBK_STATUS_state 1) with sbk := {} }
    let cfg := s.reg SBK_CFG_target + 2 * s.reg SBK_CFG_wrap + 4 * s.reg SBK_CFG_desc_en + 8 * s.reg SBK_CFG_host_data + 16 * s.reg SBK_CFG_snap +
      256 * s.reg SBK_CFG_tc_mask
    (s.recordNow 9 195 (leBytes 8 s.bitid ++ leBytes 8 s.bitTag ++ leBytes 4 cfg ++ leBytes 4 (s.reg SBK_PORT_MASK_ports))).completeSt d stOk

/-- RECORD_STOP: a STOP record is staged, whatever staging holds, and nothing more is recorded. -/
def State.recordStop (s : State) (d : Nat) : State :=
  if !s.recording then s.completeSt d stSbkState
  else
    let (n, s) := s.arrival 195
    let r : SbkRec := { kind := 10, src := 195, stamp := s.now, arr := n, payload := List.replicate 16 0 }
    ({ s with sbk := { s.sbk with stop := some d, staged := insertRec r s.sbk.staged } }).startDesc d

/-- MARK. -/
def State.recordMark (s : State) (d : Nat) (x : Desc) : State :=
  if !s.recording then s.completeSt d stSbkState else (s.recordNow 8 194 (slice x.bytes 16 8)).completeSt d stOk

/-! ### Replay (R337–R339) -/

/-- A record read from the ring: its length there and its fields. -/
structure RingRec where
  bytes : Nat
  kind : Nat
  flags : Nat
  src : Nat
  stamp : FT64
  arr : Nat
  seq : Nat
  payload : Bytes
  deriving DecidableEq, Repr

/-- Bytes of the ring from `off` on; `none` when one cannot be read, with the store word that failed. -/
def State.ringRead (s : State) (host : Bytes) (off n : Nat) : Except (Option Nat) Bytes :=
  if s.ringSize < off + n then .error none
  else if s.flag SBK_CFG_target then .ok ((padTo (off + n) host).drop off |>.take n)
  else match (s.badWords (s.sbkBase + off) n).head? with
    | some w => .error (some w)
    | none => .ok (s.storeRead (s.sbkBase + off) n)

/-- The record at `off`: its header's lengths agree and its crc is good (R331, R339). -/
def State.ringRec (s : State) (host : Bytes) (off : Nat) : Except (Option Nat) RingRec :=
  match s.ringRead host off 32 with
  | .error w => .error w
  | .ok h =>
    let len := leAt h 24 4
    let n := 32 * leAt h 2 2
    if n < 32 + len then .error none
    else match s.ringRead host (off + 32) len with
      | .error w => .error w
      | .ok p =>
        if leAt h 28 4 != crc32c (h.take 28 ++ p) || s.ringSize < off + n then .error none
        else .ok { bytes := n, kind := byteAt h 0, flags := byteAt h 1, src := leAt h 4 2, stamp := BitVec.ofNat 64 (leAt h 8 8),
                   arr := leAt h 16 4, seq := leAt h 20 4, payload := p }

/-- A word of the ring that cannot be read is logged (R114, R115). -/
def State.ringUe (s : State) (w : Option Nat) : State :=
  match w with
  | some w => s.logUe (w * 32) 4
  | none => s

/-- A rehearsal that a replay has held goes on (R338). -/
def State.resumeRehearsal (s : State) : State :=
  match s.mir.rehearsal with
  | some r => match r.late with
    | some ev => ({ s with mir := { s.mir with rehearsal := some { r with late := none } } }).schedule s.now ev
    | none => s
  | none => s

/-- The replay ends (R339): the discipline takes up its source again, and a held rehearsal goes on. -/
def State.replayEnd (s : State) (status : Nat) : State :=
  match s.sbk.replay with
  | none => s
  | some r =>
    let s := ({ (s.setReg SBK_STATUS_state 0) with sbk := { s.sbk with replay := none } }).resumeRehearsal
    let s := s.raise (evSbk SBK_STATUS_done_ev)
    let s := if status == stReplayCorrupt then s.raise (evSbk SBK_STATUS_corrupt_ev) else s
    let s := { s with clk := { s.clk with lastMeas := s.now, missed := 0, lost := false, stepBarred := false, okRun := 0, badRun := 0 } }
    s.complete r.d { status := status, result := r.last.1, detail := r.last.2 }

/-- Past `n` bytes from `pos` lies the end offset of the replay (0: none). -/
def endsWithin (size pos n end_ : Nat) : Bool := end_ != 0 && decide ((end_ + size - pos - 1) % size < n)

/-- The record that sets device time (R337): the first after START that is no PAD. -/
def State.firstRec (s : State) (host : Bytes) (off : Nat) : Option RingRec :=
  match s.ringRec host off with
  | .error _ => none
  | .ok r =>
    if r.kind != 0 then some r
    else match s.ringRec host ((off + r.bytes) % s.ringSize) with
      | .error _ => none
      | .ok q => some q

/-- Device time for the replay: `lead` µs before the first stamp, outside the discipline, which is FREE (R337). A source that was chosen and not
yet measured stays so (R339). -/
def State.replayTime (s : State) (stamp : FT64) : State :=
  let s := s.enter dFree
  s.jump (ftDiff s.now (stamp - ns (s.reg SBK_REPLAY_CFG_lead * 1000)))

/-- REPLAY_START (R336, R337): START is read at the start offset. -/
def State.replayStart (s : State) (d : Nat) (x : Desc) (host : Bytes) : State :=
  let size := s.ringSize
  if s.reg SBK_STATUS_state != 0 || size = 0 then s.completeSt d stSbkState
  else
    let pos := leAt x.bytes 16 8
    match s.ringRec host pos with
    | .error w => (s.ringUe w).completeSt d stReplayCorrupt
    | .ok r =>
      if r.kind != 9 then s.completeSt d stReplayCorrupt
      else if leAt r.payload 8 8 != s.bitTag then s.completeSt d stReplayIdentity
      else
        let cfg := leAt r.payload 16 4
        let p : Replay :=
          { d := d, pos := (pos + r.bytes) % size, end_ := leAt x.bytes 24 8, seq := (r.seq + 1) % 2 ^ 32,
            ring := if s.flag SBK_CFG_target then host else [], hostRec := bitOf cfg 2 && bitOf cfg 3, last := (r.seq, r.stamp.toNat) }
        let s := { ((s.startDesc d).setReg SBK_STATUS_state 2) with sbk := { replay := some p } }
        let s := s.setReg SBK_REPLAY_POS_stamp r.stamp.toNat
        let s := match s.firstRec host p.pos with
          | some q => s.replayTime q.stamp
          | none => s.enter dFree
        if endsWithin size pos r.bytes p.end_ then s.replayEnd stOk else s

/-- A recorded frame arrives at its logical port's decision point, and its tail after it (R337). What the link receives meanwhile is kept. -/
def State.presentFrame (s : State) (r : RingRec) : State :=
  let p := r.src / 8
  let l := r.src % 8
  let live := (s.link r.src).rx
  let lost := (s.link r.src).lostAt
  let body := r.payload.take (r.payload.length - 4)
  let whole := decide (r.payload.length ≤ 256)
  let fcs : Fcs := if bits r.flags 0 2 = 0 then .good else if bits r.flags 0 2 = 1 then .bad else .abort
  let s := s.modLink r.src (fun k => { k with rx := some { stamp := r.stamp, arr := r.arr }, lostAt := none })
  let s := s.judgeFrame p l body whole false
  let s := s.rxTail p l (body.drop 256) fcs
  s.modLink r.src (fun k => { k with rx := live, lostAt := lost })

/-- A firmware write is made again (R337): a group entry with a new epoch discards what the group holds, as the write did (R418); one that is not
valid ends its group. -/
def State.presentFw (s : State) (p : Bytes) : State :=
  let gid := leAt p 2 2
  let b := p.drop 16
  if byteAt p 0 = 0 then
    match s.groups.find? gid with
    | none => if gValid b then { s with groups := s.groups.insert gid { entry := b } } else s
    | some g =>
      if !gValid b then { s.discardGroup gid with groups := (s.discardGroup gid).groups.erase gid } else
      let s := if gEpoch g.entry = gEpoch b then s else (s.discardGroup gid).raise (evGrp GRP_INTR_STATUS_epoch_ev)
      s.modGrp gid (fun g => { g with entry := b })
  else s.listWrite (leAt p 8 6) b

/-- A TIME record (R337): a step at its offset, the rate, nothing. -/
def State.presentTime (s : State) (p : Bytes) : State :=
  let v := signed 64 (leAt p 8 8)
  match byteAt p 0 with
  | 0 => ((s.countSat TIME_COUNTS_step_count).raise (evTime TIME_STATUS_step_ev)).jump v
  | 1 => s.setRegInt TIME_RATE_rate (rateLimit v)
  | _ => s

/-- What a record is presented as (R337). -/
def State.presentRec (s : State) (r : RingRec) : State :=
  let p := r.payload
  match r.kind with
  | 1 => s.presentFrame r
  | 2 => s.intake { sq := leAt p 0 2, bytes := (padTo 72 p).drop 8 |>.take 64, stamp := r.stamp, arr := r.arr, cq := s.reg SBK_REPLAY_CFG_cq, replayed := true }
  | 3 => { s with sbk := { s.sbk with replay := s.sbk.replay.map (fun q => { q with hostData := q.hostData ++ [(leAt p 0 8, p.drop 8)] }) } }
  | 4 => s.presentTime p
  | 5 => s.setReg (SBK_SEED_seed (byteAt p 0 % 16)) (leAt p 8 8)
  | 6 => s.presentFw p
  | _ => s

/-- The replay moves past a record; any but PAD has taken its seq and is the last presented (R331, R339). -/
def State.replayPast (s : State) (r : RingRec) : State :=
  let size := s.ringSize
  let s := { s with sbk := { s.sbk with replay := s.sbk.replay.map (fun q =>
    { q with
      pos := (q.pos + r.bytes) % size
      seq := if r.kind == 0 then q.seq else (q.seq + 1) % 2 ^ 32
      last := if r.kind == 0 then q.last else (r.seq, r.stamp.toNat) }) } }
  if r.kind == 0 then s else (s.setReg SBK_REPLAY_POS_stamp r.stamp.toNat).count SBK_CTR_records_replayed

/-- The next record of the replay, once device time has reached its stamp (R46, R337, R339). -/
def State.replayNext (s : State) : State :=
  match s.sbk.replay with
  | none => s
  | some q =>
    match s.ringRec q.ring q.pos with
    | .error w => (s.ringUe w).replayEnd stReplayCorrupt
    | .ok r =>
      if r.kind != 0 && r.seq != q.seq then s.replayEnd stReplayCorrupt
      else if !atOrBefore r.stamp s.now then s
      else if r.kind == 7 then s.replayEnd stReplayGap
      else if r.kind == 1 && bitOf r.flags 2 then s.replayEnd stReplayIncomplete
      else
        let s := (s.replayPast r).presentRec r
        if r.kind == 10 || endsWithin s.ringSize q.pos r.bytes q.end_ then s.replayEnd stOk else s

/-- REPLAY_STOP (R336, R339). -/
def State.replayStop (s : State) (d : Nat) : State :=
  if !s.replaying then s.completeSt d stSbkState else (s.replayEnd stOk).completeSt d stOk

/-- SBK_CTR_CLEAR (R73). -/
def State.sbkCtrClear (s : State) : State := s.clearCounters (keyIn 0x1500200 0x1500238)

/-! ### The commands -/

def execSeedWrite (n : Fin 16) (v : Nat) (s : State) : Host.Outcome State Fault Refusal := s.does (fun s => s.whenReady (fun s => s.seedWrite n.val v))
def execSbkPolicyWrite (v : Nat) (s : State) : Host.Outcome State Fault Refusal := s.does (fun s => s.whenReady (fun s => s.policyWrite v))
def execRecordStart (d : Nat) (s : State) : Host.Outcome State Fault Refusal := s.does (fun s => s.runDesc d 8 (some 0) (fun _ s => s.recordStart d))
def execRecordStop (d : Nat) (s : State) : Host.Outcome State Fault Refusal := s.does (fun s => s.runDesc d 8 (some 1) (fun _ s => s.recordStop d))
def execRecordMark (d : Nat) (s : State) : Host.Outcome State Fault Refusal := s.does (fun s => s.runDesc d 8 (some 2) (fun x s => s.recordMark d x))
def execReplayStart (d : Nat) (ring : Bytes) (s : State) : Host.Outcome State Fault Refusal :=
  s.does (fun s => s.runDesc d 8 (some 3) (fun x s => s.replayStart d x ring))
def execReplayStop (d : Nat) (s : State) : Host.Outcome State Fault Refusal := s.does (fun s => s.runDesc d 8 (some 4) (fun _ s => s.replayStop d))
def execSbkRecordWrite (s : State) : Host.Outcome State Fault Refusal := s.does State.sbkWrite
def execReplayPresent (s : State) : Host.Outcome State Fault Refusal := s.does State.replayNext
def execSbkCounterClear (s : State) : Host.Outcome State Fault Refusal := s.does (fun s => s.whenReady State.sbkCtrClear)
def execSbkRdPtrWrite (v : Nat) (s : State) : Host.Outcome State Fault Refusal :=
  s.does (fun s => s.whenReady (fun s => s.setReg SBK_RD_PTR_rd v))

end Sys2Proof.Machine
end

