-- ==== Sys2Proof/Machine/Faulty.lean ====
section
/-! DEFINITION. The reread of an uncorrectable store word, and what a second failure does to its requester (R103, R114, R115). -/

namespace Sys2Proof.Machine

/-- A frame's bytes in its buffer hold the address. -/
def Frm.covers (f : Frm) (a : Nat) : Bool := decide (f.unit * 256 ≤ a) && decide (a < f.unit * 256 + (f.len - f.rest.length))

/-- The copy's frame holds the address. -/
def State.copyCovers (s : State) (a : Nat) (c : Copy) : Bool := (s.frm c.frm).any (fun f => f.covers a)

/-- The buffer that an address lies in, if any, is retired (R115). -/
def State.retireAt (s : State) (a : Nat) : State := match s.bufferAt a with | some u => s.retire u | none => s

/-- An egress copy meets the word (R115): one that has begun ends with the abort code there, one that has not is discarded. -/
def State.ueEgress (s : State) (src a : Nat) : State :=
  let s := (s.logUe a 0).retireAt a
  let cut := fun (t : Tx) => match s.frm t.copy.frm with
    | some f => { t with abort := true, stopAt := some (s.copyAt t.copy (a - f.unit * 256)) }
    | none => t
  match (s.link src).eg.tx.filter (fun t => s.copyCovers a t.copy) with
  | some t => s.modEg src (fun e => { e with tx := some (cut t) })
  | none =>
    let qs := (List.range 8).flatMap (fun c => ((s.link src).eg.queue c).map (fun x => (c, x)))
    match List.find? (fun x : Nat × Copy => s.copyCovers a x.2) qs with
    | some (c, x) => (s.countStoreDrop ((s.frm x.frm).any (·.lossless))).dropQueued src c x
    | none => s

/-- The combine engine meets the word in waiting frame `k` (R115, R287): the sender is told. A frame of expert results stays: the token of the row
that the word is in fails as the row is added (R312). -/
def State.ueCombine (s : State) (k a : Nat) : State :=
  let token := (s.inbox[k]?).any (·.token)
  let rows := (s.inbox[k]?).any (fun x => (s.ginOf x.frm x.gid).any (fun g => g.h.opcode == 0x43))
  if rows then (s.logUe a 1).retireAt a else
  match s.take k (fun g => (s.frm g.frm).any (fun f => f.covers a)) with
  | (none, s) => (s.logUe a 1).retireAt a
  | (some g, s) =>
    match s.grp g.gid with
    | none => s
    | some x => if token then (((s.logUe a 1).retire g.unit).gsend (s.answer x.entry g stMemUncorrectable)).gdrop g else s.unreadable x.entry g

/-- A sparse mma that meets a word in its descriptor, map or blocks reports it as check 7 of R259, with the tile that reads it (R261). A word of
its A block fails no check of R259. -/
def State.ueSparse (s : State) (cx : Nat) (e : Entry) : State :=
  if iOp e.word != 0x10 || bits e.word 122 2 == 0 then s
  else
    let log := fun (d : Bytes) (x : SparseFail) => if x.status = stMemUncorrectable then s.logSparse cx d x else s
    match (s.sparseDesc cx (s.ctx cx) e).1 with
    | .error (st, d) => log d { status := st }
    | .ok d =>
      match (s.sparseTiles cx (s.ctx cx) e (tilesOf (gmaskOf e.word)).length d).1 with
      | .error x => log d x
      | .ok _ => s

/-- A program's queue meets the word (R115, R168): the fault is at the head entry, whose completed repeats keep their flags (R229). -/
def State.ueChannel (s : State) (cx q a : Nat) : State :=
  let s := (s.logUe a 2).retireAt a
  match (s.ctx cx).queue q with
  | e :: _ => if (s.ctx cx).running then ((if q = 0 then s.ueSparse cx e else s).failEntry cx q stMemUncorrectable e) else s
  | [] => s

/-- A free ring fetch meets the word (R103, R115): the entry at the head of the ring that holds it is discarded, and its buffer stays out of
use. -/
def State.ueRing (s : State) (a : Nat) : State :=
  let s := s.logUe a 5
  match (List.range 6).find? (fun k => s.flag STORE_STATUS_ready && decide (s.reg (POOL_RING_BASE_base k) ≤ a) &&
      decide (a < s.reg (POOL_RING_BASE_base k) + 8 * s.reg (POOL_CFG_count k))) with
  | none => s
  | some k =>
    match segTake (poolUnits k) (s.pool k).ring 0 with
    | none => s
    | some ((u, _), rest) =>
      let s := s.setPool k { s.pool k with ring := rest }
      let s := ({ s with store := { s.store with lost := s.store.lost ++ [u] } }).count STORE_CTR_ring_entry_errors
      (s.setReg (POOL_LOW_WATER_low k) (min (s.reg (POOL_LOW_WATER_low k)) (s.pool k).free)).raise (evStore STORE_INTR_STATUS_ring_ev)

/-- The second read of a word, 100 ns after the first failed (R114, R115). -/
def State.retryRead (s : State) (addr : Nat) (req : EccReq) (clean : Bool) : State :=
  let a := addr / 32 * 32
  if storeEnd ≤ addr then s
  else if clean then ((s.count STORE_CTR_ce_count).raise (evStore STORE_INTR_STATUS_ce_ev)).rasCorrected
  else
    let s := s.markUe a
    match req with
    | .egress src => s.ueEgress src a
    | .combine k => s.ueCombine k a
    | .channel cx q => s.ueChannel cx.val q.val a
    | .host d => ((s.logUe a 3).retireAt a).complete d { status := stMemUncorrectable, detail := a }
    | .seedbank => (s.logUe a 4).replayEnd stReplayCorrupt
    | .ringFetch => s.ueRing a

def execEccRetryRead (addr : Nat) (req : EccReq) (clean : Bool) (s : State) : Host.Outcome State Fault Refusal :=
  s.does (fun s => s.retryRead addr req clean)

end Sys2Proof.Machine
end

