-- ==== Sys2Proof/Machine/SortFilter.lean ====
section
/-! DEFINITION. The sort/filter engine: srt, tpk, flt and hst (R197–R200). -/

namespace Sys2Proof.Machine

/-- Records of 8 bytes. -/
def records (n : Nat) (b : Bytes) : List Bytes := (List.range n).map (fun j => slice b (8 * j) 8)

/-- A 32-bit key as an integer in its order: u32, i32, or fp32 under totalOrder (R197). -/
def keyVal (kt v : Nat) : Int :=
  match kt with
  | 0 => v
  | 1 => signed 32 v
  | _ => if v < 2 ^ 31 then v else -(((v - 2 ^ 31 : Nat) : Int)) - 1

def recKey (kt : Nat) (r : Bytes) : Int := keyVal kt (leAt r 0 4)

/-- One repeat of srt. -/
def State.srtBody (cx : Nat) (k : Ctx) (e : Entry) (s : State) : Except Nat (Option Rep) × State :=
  let w := e.word
  let n := 2 ^ bits w 104 4
  let kt := bits w 108 2
  let ua : Use := { loc := locOf w (slotA w) e.a e.xa e.i 0, n := 8 * n }
  let ud : Use := { loc := locOf w (slotD w) e.d e.xd e.i 0, n := 8 * n }
  s.transfer cx k .error [ua] [ud] (fun bs =>
    let le := fun (x y : Bytes) => if bitOf w 110 then decide (recKey kt y ≤ recKey kt x) else decide (recKey kt x ≤ recKey kt y)
    .ok ([(sortBy le (records n (bs.headD []))).flatten], [], e))

/-- `a` ranks above `b` in top-k selection: larger value, NaN below every number, −0 equal to +0 (R198). -/
def ranksAbove (a b : FVal) : Bool := if a.isNan then false else if b.isNan then true else b.lt a

/-- One repeat of tpk. -/
def State.tpkBody (cx : Nat) (k : Ctx) (e : Entry) (s : State) : Except Nat (Option Rep) × State :=
  let w := e.word
  let fa := iFa w
  let kk := bits w 104 3 + 1
  let n := bits w 107 12 + 1
  let vo := bitOf w 119
  let ua : Use := { loc := locOf w (slotA w) e.a e.xa e.i 0, n := elemBytes fa n }
  let ub : Use := { loc := locOf w (slotB w) e.b e.xb e.i 0, n := 4 * kk, align := 4 }
  let ud : Use := { loc := locOf w (slotD w) e.d e.xd e.i 0, n := 8 * kk }
  s.transfer cx k .error [ua] (if vo then [ud, ub] else [ud]) (fun bs =>
    let vals := elements fa n (bs.headD [])
    let at_ := fun (i : Nat) => decodeVal fa (vals.getD i 0)
    let le := fun (i j : Nat) => ranksAbove (at_ i) (at_ j) || (!ranksAbove (at_ j) (at_ i) && decide (i ≤ j))
    let best := (sortBy le (List.range n)).take kk
    .ok ([best.flatMap (fun i => leBytes 4 i ++ leBytes 4 e.i), best.flatMap (fun i => leBytes 4 (convert (at_ i) 1 0 0).1)], [], e))

/-- The test of flt (R199): fp32 keys compare under IEEE 754, and with a NaN only ne holds. -/
def fltTest (kt rel x y : Nat) : Bool :=
  let (lt, eq, un) :=
    if kt = 2 then
      let a := decodeVal 1 x
      let b := decodeVal 1 y
      (a.lt b, a.eqv b, a.isNan || b.isNan)
    else (decide (keyVal kt x < keyVal kt y), keyVal kt x == keyVal kt y, false)
  match rel with
  | 0 => eq
  | 1 => !eq
  | 2 => lt
  | 3 => !un && !lt
  | 4 => !un && (lt || eq)
  | _ => !un && !lt && !eq

/-- One repeat of flt: survivors follow those of the earlier repeats. -/
def State.fltBody (cx : Nat) (k : Ctx) (e : Entry) (s : State) : Except Nat (Option Rep) × State :=
  let w := e.word
  let ch := chOf cx
  let n := 2 ^ bits w 116 4
  let kt := bits w 107 2
  let ua : Use := { loc := locOf w (slotA w) e.a e.xa e.i 0, n := 8 * n }
  let base := locOf w (slotD w) e.d e.xd 0 0
  match s.useChecks k [ua, { loc := base, n := 0 }] with
  | some st => (.error st, s)
  | none =>
    match s.useRead ch k .error ua with
    | (.error st, s) => (.error st, s)
    | (.ok b, s) =>
      let out := (records n b).filter (fun r => fltTest kt (bits w 104 3) (leAt r 0 4) e.m1)
      let ud : Use := { loc := { base with addr := base.addr + 8 * e.acc }, n := 8 * out.length, align := 1 }
      match s.useRange k ud with
      | some st => (.error st, s)
      | none =>
        match s.useWrite ch k ud out.flatten with
        | (some st, s) => (.error st, s)
        | (none, s) => (.ok (some { e := { e with acc := e.acc + out.length } }), s)

/-- The count that flt, gat or sct writes to cN at its completion (R149, R199, R202). -/
def State.writeCount (s : State) (cx lo : Nat) (e : Entry) : State := s.engineReg cx 1 (bits e.word lo 3) e.acc

/-- Records counted one by one: the counters after, and each record's slot (R200); `none` when a bin is out of range. -/
def histogram (bins cap : Nat) : List Nat → List Nat → Option (List Nat × List Nat)
  | [], ctr => some (ctr, [])
  | b :: r, ctr =>
    if bins ≤ b then none
    else
      let rank := ctr.getD b 0
      (histogram bins cap r (ctr.set b ((rank + 1) % 2 ^ 32))).map (fun x =>
        (x.1, (if rank < cap then (b * cap + rank) % 2 ^ 32 else 0xFFFFFFFF) :: x.2))

/-- One repeat of hst. -/
def State.hstBody (cx : Nat) (k : Ctx) (e : Entry) (s : State) : Except Nat (Option Rep) × State :=
  let w := e.word
  let bins := bits w 104 12 + 1
  let n := 2 ^ bits w 116 4
  let cap := bitOf w 121
  let ua : Use := { loc := locOf w (slotA w) e.a e.xa e.i 0, n := 8 * n }
  let ub : Use := { loc := locOf w (slotB w) e.b e.xb e.i 0, n := 4 * n, align := 4 }
  let ud : Use := { loc := locOf w (slotD w) e.d e.xd e.i 0, n := 4 * bins }
  s.transfer cx k .error [ua, ud] (if cap then [ud, ub] else [ud]) (fun bs =>
    let keys := (List.range n).map (fun j => leAt (bs.getD 0 []) (8 * j + 4 * bits w 120 1) 4)
    let ctr := (List.range bins).map (fun b => leAt (bs.getD 1 []) (4 * b) 4)
    match histogram bins e.m1 keys ctr with
    | none => .error stIndexRange
    | some (c, slots) => .ok ([c.flatMap (leBytes 4), slots.flatMap (leBytes 4)], [], e))

/-! ### The commands -/

def execSrt (cx : Cx) (s : State) : Host.Outcome State Fault Refusal :=
  s.runs (fun s => s.runRepeat cx.val 2 0x30 (State.srtBody cx.val) (fun _ s => s))
def execTpk (cx : Cx) (s : State) : Host.Outcome State Fault Refusal :=
  s.runs (fun s => s.runRepeat cx.val 2 0x31 (State.tpkBody cx.val) (fun _ s => s))
def execFlt (cx : Cx) (s : State) : Host.Outcome State Fault Refusal :=
  s.runs (fun s => s.runRepeat cx.val 2 0x32 (State.fltBody cx.val) (fun e s => s.writeCount cx.val 113 e))
def execHst (cx : Cx) (s : State) : Host.Outcome State Fault Refusal :=
  s.runs (fun s => s.runRepeat cx.val 2 0x33 (State.hstBody cx.val) (fun _ s => s))

end Sys2Proof.Machine
end

