-- ==== Sys2Proof/Machine/Move.lean ====
section
/-! DEFINITION. The mover and the packet unit: mov, gat, sct, psend, precv and pfree (R201–R206). -/

namespace Sys2Proof.Machine

/-- Bytes that mov, gat and sct move in a repeat. -/
def moveLen (w : Nat) : Nat := 32 * (bits w 104 12 + 1)

/-- Alignment of an operand: 32 for store and scratch, 256 for a buffer of mov, none for the host window (R152, R190). -/
def moveAlign (space : Nat) : Nat := match space with | 2 => 1 | 3 => 256 | _ => 32

/-- One repeat of mov. -/
def State.movBody (cx : Nat) (host : HostData) (k : Ctx) (e : Entry) (s : State) : Except Nat (Option Rep) × State :=
  let w := e.word
  let boff := 256 * bits w 116 12
  let use := fun (t r x : Nat) =>
    ({ loc := locOf w t r x e.i (if slSpace t = 3 then boff else 0), n := moveLen w, align := moveAlign (slSpace t) } : Use)
  s.transfer cx k host [use (slotA w) e.a e.xa] [use (slotD w) e.d e.xd] (fun bs => .ok ([bs.headD []], [], e))

/-- One repeat of gat or sct: the index is read, bounded, and then the indexed operand checked (R202). -/
def State.indexBody (cx : Nat) (gather : Bool) (host : HostData) (k : Ctx) (e : Entry) (s : State) : Except Nat (Option Rep) × State :=
  let w := e.word
  let n := moveLen w
  let ub : Use := { loc := locOf w (slotB w) e.b e.xb e.i 0, n := 4, align := 4 }
  let use := fun (t r x i : Nat) => ({ loc := locOf w t r x i 0, n := n, align := moveAlign (slSpace t) } : Use)
  let plain := if gather then use (slotD w) e.d e.xd e.i else use (slotA w) e.a e.xa e.i
  match s.useChecks k [ub, plain] with
  | some st => (.error st, s)
  | none =>
    match s.useRead (chOf cx) k .error ub with
    | (.error st, s) => (.error st, s)
    | (.ok b, s) =>
      let v := leNat b
      if e.m1 ≤ v then
        (if bitOf w 120 then (.ok (some { e := { e with acc := e.acc + 1 } }), s) else (.error stIndexRange, s))
      else
        let indexed := if gather then use (slotA w) e.a e.xa v else use (slotD w) e.d e.xd v
        s.transfer cx k host [if gather then indexed else plain] [if gather then plain else indexed] (fun bs => .ok ([bs.headD []], [], e))

/-- What gat and sct leave at their completion. -/
def State.indexFin (cx : Nat) (e : Entry) (s : State) : State := if bitOf e.word 120 then s.writeCount cx 121 e else s

/-- One repeat of psend (R205). -/
def State.psendBody (cx : Nat) (k : Ctx) (e : Entry) (s : State) : Except Nat (Option Rep) × State :=
  let w := e.word
  let ch := chOf cx
  let hl := bits w 117 6
  let ua : Use := { loc := locOf w (slotA w) e.a e.xa e.i 0, n := hl, align := 1 }
  let ub : Use := { loc := locOf w (slotB w) e.b e.xb e.i 0, n := e.m1, align := if slSpace (slotB w) = 3 then 1 else 32 }
  match s.useChecks k [ua, ub] with
  | some st => (.error st, s)
  | none =>
    let len := hl + e.m1
    if len < 60 || 65596 < len then (.error stFrameLength, s)
    else if bitOf w 107 && 191 < e.m2 then (.error stIndexRange, s)
    else
      match s.readAll ch k .error [ua, ub] with
      | (.error st, s) => (.error st, s)
      | (.ok bs, s) =>
        match s.originate ch (ownerOf cx) bs.flatten (bits w 104 3) false (bitOf w 116) (if bitOf w 107 then some e.m2 else none) with
        | (.refused, s) => (.error stPoolExhausted, s)
        | (_, s) => (.ok (some { e := e }), s)

/-- The receive record of R204. -/
def rxRecord (handle : Nat) (f : Frm) (tag : Nat) (cut held : Bool) : Bytes :=
  leBytes 8 handle ++ leBytes 8 f.stamp.toNat ++ leBytes 4 f.len ++ leBytes 1 f.src ++ leBytes 1 tag ++ leBytes 1 f.cls ++
    leBytes 1 (bit1 cut + 2 * bit1 held) ++ leBytes 4 f.arr ++ leBytes 4 0

/-- One repeat of precv (R204): it waits while the FIFO is empty. -/
def State.precvBody (cx : Nat) (k : Ctx) (e : Entry) (s : State) : Except Nat (Option Rep) × State :=
  let w := e.word
  let ch := chOf cx
  let hold := bitOf w 104
  match k.fifo with
  | [] => (.ok none, s)
  | x :: rest =>
    match s.frm x.frm with
    | none => (.ok none, s.modCtx cx (fun k => { k with fifo := rest }))
    | some f =>
      let take := min f.len (32 * (bits w 111 12 + 1))
      let ur : Use := { loc := locOf w (slotD w) e.d e.xd e.i 0, n := 32 }
      let la := locOf w (slotA w) e.a e.xa e.i 0
      let u0 : Use := { loc := la, n := 0, align := if la.space = 3 then 1 else 32 }
      let ua : Use := { loc := { la with addr := la.addr + bits w 123 5 }, n := take, align := 1 }
      match s.useChecks k (if hold then [ur] else [u0, ua, ur]) with
      | some st => (.error st, s)
      | none =>
        if hold then
          let h := s.handle f.unit
          match s.useWrite ch k ur (rxRecord h f x.tag false true) with
          | (some st, s) => (.error st, s)
          | (none, s) =>
            let s := { s with frames := s.frames.erase x.frm }
            (.ok (some { e := { e with acc := h } }), s.modCtx cx (fun k => { k with fifo := rest, held := k.held ++ [f.unit] }))
        else
          match s.frameUe { f with len := min f.len take } with
          | some wd => (.error stMemUncorrectable, (s.logUe (wd * 32) 2).retire f.unit)
          | none =>
            let b := (s.frameBytes f).take take
            match s.useWrite ch k ua b with
            | (some st, s) => (.error st, s)
            | (none, s) =>
              match s.useWrite ch k ur (rxRecord 0 f x.tag (decide (take < f.len)) false) with
              | (some st, s) => (.error st, s)
              | (none, s) => (.ok (some { e := e }), (s.modCtx cx (fun k => { k with fifo := rest })).dropFrame x.frm (s.home ch))

/-- The handle of the last held frame goes to aN and xN (R182, R204). -/
def State.precvFin (cx : Nat) (e : Entry) (s : State) : State :=
  if bitOf e.word 104 then (s.engineReg cx 0 (slReg (slotA e.word)) (e.acc % 2 ^ 48)).engineReg cx 2 (slReg (slotA e.word)) (e.acc / 2 ^ 48)
  else s

/-- One repeat of pfree (R206): a release that R104 or R105 refuses faults. -/
def State.pfreeBody (cx : Nat) (k : Ctx) (e : Entry) (s : State) : Except Nat (Option Rep) × State :=
  let unit := ((locOf e.word (slotA e.word) e.a e.xa e.i 0).handle.bind s.handleUnit).filter k.held.contains
  match unit with
  | none => (.error 0x22, s.count STORE_CTR_release_errors)
  | some u => (.ok (some { e := e }), (s.modCtx cx (fun k => { k with held := k.held.erase u })).release u (s.home (chOf cx)))

/-! ### The commands -/

def execMov (cx : Cx) (host : HostData) (s : State) : Host.Outcome State Fault Refusal :=
  s.runs (fun s => s.runRepeat cx.val 3 0x40 (State.movBody cx.val host) (fun _ s => s))
def execGat (cx : Cx) (host : HostData) (s : State) : Host.Outcome State Fault Refusal :=
  s.runs (fun s => s.runRepeat cx.val 3 0x41 (State.indexBody cx.val true host) (State.indexFin cx.val))
def execSct (cx : Cx) (host : HostData) (s : State) : Host.Outcome State Fault Refusal :=
  s.runs (fun s => s.runRepeat cx.val 3 0x42 (State.indexBody cx.val false host) (State.indexFin cx.val))
def execPsend (cx : Cx) (s : State) : Host.Outcome State Fault Refusal :=
  s.runs (fun s => s.runRepeat cx.val 4 0x50 (State.psendBody cx.val) (fun _ s => s))
def execPrecv (cx : Cx) (s : State) : Host.Outcome State Fault Refusal :=
  s.runs (fun s => s.runRepeat cx.val 4 0x51 (State.precvBody cx.val) (State.precvFin cx.val))
def execPfree (cx : Cx) (s : State) : Host.Outcome State Fault Refusal :=
  s.runs (fun s => s.runRepeat cx.val 4 0x52 (State.pfreeBody cx.val) (fun _ s => s))

end Sys2Proof.Machine
end

