-- ==== Sys2Proof/Machine/Power.lean ====
section
/-! DEFINITION. Power, droop, thermal limits, start ramps and spare tiles (chapter 15; R171–R176). Power is in units of 10^-10 W: the
energy of a 10 µs interval in fJ. -/

namespace Sys2Proof.Machine

/-! ### Cycles and units -/

/-- One watt over an interval, in fJ. -/
def watt : Nat := 10000000000


/-- Bits of the greatest `r` whose 25th power is at most `n`. -/
def root25 (n : Nat) : Nat → Nat → Nat
  | 0, a => a
  | k + 1, a => if (a + 2 ^ k) ^ 25 ≤ n then root25 n k (a + 2 ^ k) else root25 n k a

/-- `base × 2^((tj − 85) / 25)`, rounded down (R342). -/
def staticPower (base : Nat) (tj : Nat) : Nat := root25 (base ^ 25 * 2 ^ tj / 2 ^ 85) 64 0

/-! ### The energy model (R342, R343) -/

/-- Energy of counted events under the calibration of `r`. -/
def eventEnergy (r : Regs) (counts : List Nat) : Nat := (counts.zipIdx.take 11).foldl (fun a c => a + c.1 * r.get (PWR_EV_E_energy c.2)) 0

/-- Events of the interval by a channel's engine (R342). -/
def State.eventsOf (s : State) (ch engine cls : Nat) : Nat := (s.chan ch).events.get 0 (16 * engine + cls)

/-- Events of a class that the work of every channel has counted. -/
def State.classCount (s : State) (cls : Nat) : Nat :=
  (List.range 8).foldl (fun a ch => (List.range 8).foldl (fun a x => a + s.eventsOf ch x cls) a) 0

/-- Events of each class in the interval: those counted, and `more`. -/
def State.counted (s : State) (more : List Nat) : List Nat :=
  (List.range 11).map (fun i => s.classCount i + more.getD i 0 + (if i = 9 then s.pmc.units else if i = 10 then s.pmc.links else 0))

/-- Events of classes 0–5, and the scratch traffic of M and V work (R347). -/
def State.throttleable (s : State) : List Nat :=
  (List.range 11).map (fun i =>
    if i ≤ 5 then s.classCount i
    else if i = 8 then (List.range 8).foldl (fun a ch => a + s.eventsOf ch 0 8 + s.eventsOf ch 1 8) 0
    else 0)

/-- Energy of an engine of a channel in the interval (R350): its events of classes 0–8. The spec does not say whether its store accesses count
as the engine's; the model leaves them to the store (DESIGN CHOICE). -/
def State.engineEnergy (s : State) (r : Regs) (ch x : Nat) : Nat := eventEnergy r ((List.range 9).map (s.eventsOf ch x))

/-- Power of enabled ports. -/
def State.portPower (s : State) (r : Regs) : Nat :=
  let e := r.get PWR_PORT_E_port * (watt / 100)
  let ports := ((List.range 24).filter (fun p => s.flag (PORT_CFG_enable p))).length
  let mir := s.reg MIR_PORT_CFG_m0_en + s.reg MIR_PORT_CFG_m1_en
  e * ports + e * mir / 2

/-- Model power of an interval whose Tj was `tj`. -/
def State.modelPower (s : State) (r : Regs) (tj : Nat) (counts : List Nat) : Nat :=
  (eventEnergy r counts + staticPower (r.get PWR_STATIC_s85 * (watt / 10)) tj + s.portPower r) * r.get PWR_CAL_GAIN_gain / 4096

/-! ### Hints (R189, R350) -/

/-- The reserve of one hint at an interval boundary: fields of the instruction, the stamp of its issue. `r` is the calibration of the interval
that ended; pre and PWR_FULL hold from the interval that starts (R343). -/
def State.hintReserve (s : State) (r : Regs) (ch w : Nat) (h : FT64) : Nat :=
  let us := fun (n : Nat) => ns (n * 1000)
  let start := h + us (bits w 16 16) - us (s.reg PWR_HINT_CFG_pre)
  let live := atOrBefore start s.now && (bits w 32 16 == 0 || precedes s.now (h + us (bits w 16 16) + us (bits w 32 16)))
  if !live then 0
  else
    ((List.range 4).filter (fun x => bitOf (bits w 8 4) x)).foldl (fun a x =>
      let full := s.reg (PWR_FULL_full x) * (watt / 100) * (10 - s.reg PWR_STATUS_level) / 10
      a + (bits w 12 4 * full / 15 - s.engineEnergy r ch x * r.get PWR_CAL_GAIN_gain / 4096)) 0

/-- The reserve of every hint in force. -/
def State.reserve (s : State) (r : Regs) : Nat :=
  if !s.flag PWR_CTRL_hint_en then 0
  else (List.range 8).foldl (fun a ch => (s.chan ch).hints.foldl (fun a h => a + s.hintReserve r ch h.2.1 h.2.2) a) 0

/-! ### The ledger and the target (R344–R346) -/

/-- Energy enters the bin of the interval that ended; the bin is complete when the new interval `k` lies in a later one (R344, R346). -/
def State.ledger (s : State) (k p : Nat) : State :=
  let b := s.pmc.binNo.getD ((k - 1) / 100)
  let s := { s with pmc := { s.pmc with cur := s.pmc.cur + p, total := s.pmc.total + p, binNo := some (k / 100) } }
  let s := s.setReg PWR_ENERGY_energy (s.pmc.total / 1000000000)
  if b < k / 100 then
    let gap := min 30000 (k / 100 - b - 1)
    let s := if s.pmc.unmet then (s.count PWR_CTR_unmet_intervals).raise (evPwr PWR_INTR_STATUS_unmet_ev) else s
    { s with pmc := { s.pmc with bins := (List.replicate gap 0 ++ s.pmc.cur :: s.pmc.bins).take 30000, cur := 0, unmet := false } }
  else s

/-- The excursion rule (R345), judged with the limits of the interval that ended: a run that stands at exc_ms or beyond it reaches its limit once. -/
def State.excursion (s : State) (r : Regs) (p : Nat) : State :=
  if r.get PWR_LIMIT_cap * watt < p then
    let run := s.pmc.run + 1
    let s := { s with pmc := { s.pmc with run := run, calm := 0 } }
    let s := s.setReg PWR_STATUS_exc_active 1
    let s := if run = 1 then s.count PWR_CTR_excursions else s
    if 100 * r.get PWR_LIMIT_exc_ms ≤ run && !s.pmc.hit then
      ((({ s with pmc := { s.pmc with hit := true } }).setReg PWR_STATUS_exc_blocked 1).count PWR_CTR_exc_limit_hits).raise
        (evPwr PWR_INTR_STATUS_exc_limit_ev)
    else s
  else
    let calm := s.pmc.calm + 1
    let s := { s with pmc := { s.pmc with run := 0, hit := false, calm := calm } }
    let s := s.setReg PWR_STATUS_exc_active 0
    if 100 * r.get PWR_LIMIT_exc_gap ≤ calm then s.setReg PWR_STATUS_exc_blocked 0 else s

/-- T of the interval `k` that starts under the limits of `r` (R344). -/
def State.target (s : State) (r : Regs) (k : Nat) : Int :=
  let w := r.get PWR_LIMIT_window
  let cap := r.get PWR_LIMIT_cap
  let spent := (s.pmc.bins.take (w - 1)).foldl (· + ·) 0 + s.pmc.cur
  let b : Int := ((cap * w * 100 * watt : Nat) : Int) - (spent : Nat)
  let tWin := b / ((100 - k % 100 : Nat) : Int)
  min tWin (((if s.flag PWR_STATUS_exc_blocked then cap else r.get PWR_LIMIT_exc) * watt : Nat) : Int)

/-! ### The actuator and the levels (R347–R349, R352, R354) -/

/-- The bubble count after an interval of power `p'` under target `t`, with throttleable power `m` (R347). -/
def bubbles (d : Nat) (p' : Nat) (t : Int) (m : Nat) : Nat :=
  if t < (p' : Int) then min 60 (d + ceilDiv (64 * ((p' : Int) - t).toNat) m)
  else d - 32 * (t - (p' : Int)).toNat / m

/-- The power level after an interval (R348). -/
def State.powerLevel (s : State) (p' : Nat) (t : Int) : State :=
  let d := s.reg PWR_STATUS_d
  let lvl := s.reg PWR_STATUS_power_level
  let top := if d = 60 && decide (t < (p' : Int)) then s.pmc.top + 1 else 0
  let low := if d = 0 && decide ((p' : Int) ≤ t - (50 * watt : Nat)) then s.pmc.low + 1 else 0
  if 10 ≤ top then ({ s with pmc := { s.pmc with top := 0, low := 0 } }).setReg PWR_STATUS_power_level (min 5 (lvl + 1))
  else if 10000 ≤ low then ({ s with pmc := { s.pmc with top := 0, low := 0 } }).setReg PWR_STATUS_power_level (lvl - 1)
  else { s with pmc := { s.pmc with top := top, low := low } }

/-- The thermal level at a reading of the interval that starts at `t` (R354). -/
def State.thermLevel (s : State) (t : FT64) (tj : Int) : State :=
  let thr : Int := s.reg PWR_THERM_CFG_throttle_t
  let cur := s.pmc.therm.length
  let want := if thr ≤ tj then min 5 (((tj - thr) / 2).toNat + 1) else 0
  let s := s.count PWR_CTR_throttle_us (s.throttledFor t)
  let s := { s with pmc := { s.pmc with thermAt := t } }
  let s :=
    if cur < want then
      ({ s with pmc := { s.pmc with therm := s.pmc.therm ++ List.replicate (want - cur) tj } }).raise (evPwr PWR_INTR_STATUS_throttle_ev)
    else if want < cur && decide (tj ≤ s.pmc.therm.getLastD 0 - 3) then { s with pmc := { s.pmc with therm := s.pmc.therm.dropLast } }
    else s
  s.setReg PWR_STATUS_therm_level s.pmc.therm.length

/-- A droop detector has tripped within the preceding 10 µs (R352). -/
def State.recentTrip (s : State) : Bool := s.pmc.trip.any (fun e => decide (s.clk.cyc < e.2.1 + 10000))

/-- The level in force is requested at an interval boundary, or the change is deferred (R348, R349, R352). -/
def State.requestLevel (s : State) : State :=
  let want := max (max (s.reg PWR_STATUS_power_level) (s.reg PWR_STATUS_therm_level)) (min 5 (s.reg PWR_FREQ_CFG_floor_level))
  if want = s.reg PWR_STATUS_level then ({ s with pmc := { s.pmc with req := none, deferred := false } }).setReg PWR_STATUS_freq_pending 0
  else
    let s := s.setReg PWR_STATUS_freq_pending 1
    if s.recentTrip then
      let s := if s.pmc.deferred then s else s.count PWR_CTR_freq_deferred
      { s with pmc := { s.pmc with req := some want, reqAt := s.clk.cyc, deferred := true } }
    else { s with pmc := { s.pmc with req := some want, reqAt := s.clk.cyc, deferred := false } }

/-- Bubble cycles are counted up to now. -/
def State.countBubbles (s : State) : State :=
  let n := s.bubbling
  ({ s with pmc := { s.pmc with
    bubble := n % 64, coreWas := (List.range 4).foldl (fun t d => t.put 0 d (s.coreNow d)) [] } }).count PWR_CTR_bubble_cycles (n / 64)

/-- A new bubble count, from the first window of 64 CORE cycles of each die on that begins after now (R347). -/
def State.setBubbles (s : State) (d : Nat) : State :=
  ({ s with pmc := { s.pmc with
    dWas := s.reg PWR_STATUS_d, dFrom := (List.range 4).foldl (fun t c => t.put 0 c ((s.coreNow c / 64 + 1) * 64)) [] } }).setReg PWR_STATUS_d d

/-- A stack's temperature decides its refresh rate; its first reading of 85 °C or more is reported, and PWR_TJ shows the hottest (R355). -/
def State.hbmReading (s : State) (stack temp : Nat) : State :=
  let was := s.pmc.hot.contains stack
  let s := { s with pmc := { s.pmc with
    hbm := s.pmc.hbm.put 0 stack temp
    hot := if 85 ≤ temp then (if was then s.pmc.hot else s.pmc.hot ++ [stack]) else s.pmc.hot.filter (· != stack) } }
  let s := if 85 ≤ temp && !was then s.raise (evPwr PWR_INTR_STATUS_hbm_hot_ev) else s
  s.setReg PWR_TJ_hbm_max (s.pmc.hbm.foldl (fun a e => max a e.2) 0)

/-- The highest of the sensors' readings, with the die that gives it (DESIGN CHOICE: of equal ones the first of the sample's). -/
def hottest : List (Nat × Int) → Nat × Int
  | [] => (0, 0)
  | x :: l => l.foldl (fun a b => if a.2 < b.2 then b else a) x

/-- PWR_TJ takes the readings of the sensors (R354). -/
def State.readTj (s : State) (act : PmcSample) : State :=
  let (die, t) := hottest act.sensors
  let tj := t.toNat
  ((s.setReg PWR_TJ_tj_max tj).setReg PWR_TJ_die die).setReg PWR_TJ_tj_peak (max tj (s.reg PWR_TJ_tj_peak))

/-- The registers of the PWR_ block. -/
def State.pwrRegs (s : State) : Regs := s.regs.filter (fun e => decide (0x200000 ≤ e.1 / 64) && decide (e.1 / 64 < 0x300000))

/-- An entry of PWR_LIMIT. -/
def isLimit (e : Nat × Nat) : Bool := e.1 / 64 == PWR_LIMIT_cap.off

/-- The PWR_ registers that hold from this boundary on: a PWR_LIMIT written in this very cycle waits for the next one (R357). -/
def State.pwrBoundary (s : State) : Regs :=
  match s.pmc.before with
  | some (c, old) => if c = s.clk.cyc then old.foldl (fun r e => Tab.insert r e.1 e.2) (s.pwrRegs.filter (fun e => !isLimit e)) else s.pwrRegs
  | none => s.pwrRegs

/-- The events of an interval have been judged. -/
def State.clearEvents (s : State) : State :=
  (List.range 8).foldl (fun s ch => s.modChan ch (fun c => { c with events := [] })) { s with pmc := { s.pmc with units := 0, links := 0 } }

/-- An interval boundary (R342–R350, R354, R355). The PMC's firmware runs from ready on (R389, R390) and judges each interval once; the sensors are
read before that too. -/
def State.pmcInterval (s : State) (act : PmcSample) : State :=
  let k := s.now.toNat / 2560000
  if !s.flag HUB_STATUS_ready then s.readTj act
  else if s.pmc.lastK == some k then s
  else
    let next := s.pwrBoundary
    let r := if s.pmc.lastK.isNone then next else s.pmc.eff
    let p := s.modelPower r (s.reg PWR_TJ_tj_max) (s.counted act.counts)
    let pmv := eventEnergy r s.throttleable * r.get PWR_CAL_GAIN_gain / 4096
    let missed := decide (s.pmc.target < (p : Int)) && s.reg PWR_STATUS_d == 60 && s.reg PWR_STATUS_level == 5
    let s := { s with pmc := { s.pmc with unmet := missed && (s.pmc.unmet || (k - 1) % 100 == 0) } }
    let s := (s.countBubbles.ledger k p).excursion r p
    let t := s.target next k
    let p' := p + s.reserve r
    let s := s.clearEvents.powerLevel p' t
    let s := s.setBubbles (bubbles (s.reg PWR_STATUS_d) p' t (max pmv (64 * watt)))
    let s := (s.thermLevel (BitVec.ofNat 64 (k * 2560000)) (hottest act.sensors).2).requestLevel
    let w := max 1 (next.get PWR_LIMIT_window)
    let avg := (s.pmc.bins.take w).foldl (· + ·) 0 / (w * 1000000000)
    let s := (s.setReg PWR_NOW_p_now (p / 10000000)).setReg PWR_NOW_p_avg avg
    let s := (s.setReg PWR_TARGET_target (t.toNat / 10000000)).setReg PWR_TARGET_p_mv (pmv / 10000000)
    let s := ((act.hbm.zipIdx.take 24).foldl (fun s x => s.hbmReading x.2 x.1) s).readTj act
    { s with pmc := { s.pmc with lastK := some k, target := t, eff := next } }

/-- A requested level takes effect through the divider, in a later cycle than the request (R349). -/
def State.levelChange (s : State) : State :=
  match s.pmc.req with
  | none => s
  | some l =>
    if s.pmc.deferred || s.pmc.reqAt == s.clk.cyc then s
    else
      let s := ({ s.syncCore with pmc := { s.pmc with req := none } }).setReg PWR_STATUS_freq_pending 0
      ((s.setReg PWR_STATUS_level l).count PWR_CTR_freq_changes).raise (evPwr PWR_INTR_STATUS_level_ev)

/-! ### Droop (R351) -/

/-- A level requested in this very cycle is put off by a droop trip (R352, R357). -/
def State.deferLevel (s : State) : State :=
  if s.pmc.req.isSome && !s.pmc.deferred && s.pmc.reqAt == s.clk.cyc then
    ({ s with pmc := { s.pmc with deferred := true } }).count PWR_CTR_freq_deferred
  else s

/-- The supply at a channel's detector stands `depth` mV below nominal: beyond the threshold the detector trips, and its die is stretched. -/
def State.droopTrip (s : State) (ch depth : Nat) : State :=
  if depth ≤ s.reg PWR_DROOP_CFG_thresh then s
  else
    let cd := ch / 2
    let s := ((s.count PWR_CTR_droop_events).raise (evPwr PWR_INTR_STATUS_droop_ev)).deferLevel.syncCore
    let now := s.coreNow cd
    let st := if (s.pmc.stretch.find? cd).isSome then s.pmc.stretch else Tab.insert s.pmc.stretch cd now
    ({ s with pmc := { s.pmc with trip := Tab.insert s.pmc.trip cd (s.clk.cyc, now), stretch := st } }).setReg PWR_STATUS_droop_active 1

/-- The stretch of a die ends once no detector of it has tripped for min_stretch of its doubled CORE cycles. -/
def State.droopEnd (s : State) (cd : Nat) : State :=
  match s.pmc.stretch.find? cd with
  | none => s
  | some t =>
    if s.coreNow cd - (s.pmc.trip.get (0, 0) cd).2 < s.reg PWR_DROOP_CFG_min_stretch then s
    else
      let s := (s.count PWR_CTR_stretch_cycles (s.coreNow cd - t)).syncCore
      let s := { s with pmc := { s.pmc with stretch := s.pmc.stretch.erase cd } }
      s.setReg PWR_STATUS_droop_active (bit1 (!s.pmc.stretch.isEmpty))

/-! ### Thermal trip and refresh (R355, R356) -/

/-- A sensor trips at 115 °C or above: clocks stop, stacks refresh themselves, transmitters are dark, THERM_TRIP_N is low. A trip while PWRGOOD
is low leaves the device powered down (R454). -/
def State.thermalTrip (s : State) (die temp : Nat) : State :=
  if temp < 115 || s.sys.tripLow then s
  else
    let p := if s.sys.power == .down then .down else .tripped
    let s := { s with sys := { s.sys with power := p, tripLow := true, txDark := true, selfRefresh := true } }
    let s := ((s.setReg PWR_TRIP_LOG_die die).setReg PWR_TRIP_LOG_temp temp).setW1c PWR_TRIP_LOG_valid 1
    s.emit (.pin "THERM_TRIP_N" false)

/-! ### Register writes (R345, R353) -/

/-- PWR_LIMIT: what would raise a limit above its value is clamped (R345). The spec gives no outcome for a window, a cap, an exc or a time below its
range: the model takes it as written (DESIGN CHOICE). -/
def State.limitWrite (s : State) (v : Nat) : State :=
  let first := s.pmc.before.all (fun b => b.1 != s.clk.cyc)
  let s := if first then { s with pmc := { s.pmc with before := some (s.clk.cyc, s.pwrRegs.filter isLimit) } } else s
  let s := (s.setReg PWR_LIMIT_cap (min 1100 (bits v 0 11))).setReg PWR_LIMIT_exc (min 1400 (bits v 11 11))
  ((s.setReg PWR_LIMIT_window (bits v 32 15)).setReg PWR_LIMIT_exc_ms (min 20 (bits v 48 8))).setReg PWR_LIMIT_exc_gap (bits v 56 8)

/-- The channel at a ramp position of PWR_PHASE. -/
def phaseAt (order i : Nat) : Nat := bits order (3 * i) 3

/-- PWR_PHASE: only a permutation is taken (R353). -/
def State.phaseWrite (s : State) (v : Nat) : State :=
  if (List.range 8).all (fun c => (List.range 8).any (fun i => phaseAt v i == c)) then s.setReg PWR_PHASE_order v else s

/-- A calibration register is written; the PMC uses it from the next interval on (R343). -/
def State.calWrite (s : State) (off v : Nat) : State :=
  if off = 0x20005C || (decide (0x200100 ≤ off) && decide (off < 0x200160)) then
    match regAt regTable off with
    | some d => { s with regs := writeFields (fun f => s.latchNow.bits.get 0 f.key) s.regs off v d }
    | none => s
  else s

/-- The power counters are zero, and the peak restarts (R73). -/
def State.pwrCtrClear (s : State) : State :=
  let s := { s with pmc := { s.pmc with
    stretch := s.pmc.stretch.map (fun e : Nat × Nat => (e.1, s.coreNow e.1)), bubble := 0,
    coreWas := (List.range 4).foldl (fun t d => t.put 0 d (s.coreNow d)) [], thermAt := s.now } }
  (s.clearCounters (keyIn 0x200200 0x200250)).setReg PWR_TJ_tj_peak (s.reg PWR_TJ_tj_max)

/-! ### Start ramps (R171–R173, R353) -/

/-- No tile of the channel has worked in the last 64 CORE cycles (R172), and none is about to. -/
def State.quietCh (s : State) (ch : Nat) : Bool :=
  (s.chan ch).tileAt.all (fun e => s.tileIdle ch e.1) && (s.chan ch).admitted.isEmpty && !s.flag (CH_STATUS_ramp_active ch)

/-- Tile groups of the M repeat that a context begins next. -/
def State.nextTiles (s : State) (cx : Nat) : Nat :=
  match ((s.ctx cx).queue 0).head? with
  | some e => if s.hasWork 0 cx && decide (1 ≤ repeats e.word e.cnt) && decide (repeats e.word e.cnt ≤ 65536) then gmaskOf e.word else 0
  | none => 0

/-- Tile starts that wait, in order of tile group and tile: idle tiles of the repeats at the heads of the M queues (R171). -/
def State.startsWanted (s : State) (ch : Nat) : List Nat :=
  (tilesOf ((List.range 32).foldl (fun m c => m ||| s.nextTiles (32 * ch + c)) 0)).filter (fun t =>
    s.tileIdle ch t && !(s.chan ch).admitted.contains t)

/-- Waiting tile starts are admitted, at most 16 in the window of 8 CORE cycles that the channel is in; cycles in which one waits are counted
(R171). A quiet channel asks for a ramp first (R172). -/
def State.tileStarts (s : State) (ch : Nat) : State :=
  let c := s.chan ch
  let all := s.startsWanted ch
  let now := s.coreNow (ch / 2)
  if all.isEmpty then (s.modChan ch (fun c => { c with stallAt := none })).setReg (CH_STATUS_ramp_active ch) 0
  else if s.quietCh ch then s.modChan ch (fun c => { c with rampWanted := some (c.rampWanted.getD s.clk.cyc) })
  else
    let used := if c.window.1 = now / 8 then c.window.2 else 0
    let go := all.take (16 - used)
    let left := !(all.drop (16 - used)).isEmpty
    let s := match c.stallAt with | some t => s.count (CH_CTR_ramp_stall_cycles ch) (now - t) | none => s
    let s := s.modChan ch (fun c => { c with
      admitted := c.admitted ++ go, window := (now / 8, used + go.length), stallAt := if left then some now else none })
    if left then s else s.setReg (CH_STATUS_ramp_active ch) 0

/-- The channel whose ramp opens next: the earliest request, and among requests of one cycle the phase order (R172, R353). -/
def State.nextRamp (s : State) : Option Nat :=
  let order := s.reg PWR_PHASE_order
  let asked := (List.range 8).filterMap (fun i => (s.chan (phaseAt order i)).rampWanted.map (fun t => (t, phaseAt order i)))
  (asked.foldl (fun (b : Option (Nat × Nat)) x => match b with
    | some y => if x.1 < y.1 then some x else some y
    | none => some x) none).map (·.2)

/-- A ramp opens, no sooner than 129 CORE cycles of the level in force after the last one of any channel (R172, R353). -/
def State.rampOpen (s : State) (ch : Nat) : State :=
  let free := match s.pmc.ramp with | some t => decide (129 ≤ s.coreNow 4 - t) | none => true
  if s.nextRamp != some ch || !free then s
  else
    let s := { s with pmc := { s.pmc with ramp := some (s.coreNow 4) } }
    (s.modChan ch (fun c => { c with rampWanted := none })).setReg (CH_STATUS_ramp_active ch) 1

/-! ### Spare tiles (R174–R176) -/

/-- A bit of HUB_CAPS_PRESENT or HUB_CAPS_SPARE falls. -/
def State.dropCap (s : State) (f : Nat → Nat → Fld) (ch g : Nat) : State :=
  let r := f (ch / 4) (ch % 4)
  s.setReg r (clearBit (s.reg r) g)

/-- A pending remap takes effect once no program holds the group (R174). -/
def State.spareRemap (s : State) (ch g : Nat) : State :=
  if s.reg (CH_SPARE_STATUS_group ch g) != 2 || bitOf (s.reg (CH_TILE_HOLD_held ch)) g then s
  else ((s.setReg (CH_SPARE_STATUS_group ch g) 1).dropCap HUB_CAPS_SPARE_ch ch g).raise (evCh ch (CH_INTR_STATUS_remap_ev ch))

/-- A failed tile of a group: a remap is asked for while the group has its spare, else the group is absent (R174). -/
def State.groupFails (s : State) (ch g : Nat) : State :=
  if s.reg (CH_SPARE_STATUS_group ch g) = 0 && bitOf (s.reg (HUB_CAPS_SPARE_ch (ch / 4) (ch % 4))) g then s.setReg (CH_SPARE_STATUS_group ch g) 2
  else (s.setReg (CH_SPARE_STATUS_group ch g) 3).dropCap HUB_CAPS_PRESENT_ch ch g

/-- A tile fails: an M entry that uses it faults with ST_TILE_FAULT (R176). -/
def State.tileFail (s : State) (ch g : Nat) : State :=
  let s := (List.range 32).foldl (fun s c =>
    let cx := 32 * ch + c
    match ((s.ctx cx).queue 0).head? with
    | some e =>
      if (s.ctx cx).running && isEngine (iOp e.word) && bitOf (hTiles (s.ctx cx).header) g && bitOf (gmaskOf e.word) g then
        s.failEntry cx 0 stTileFault e
      else s
    | none => s) s
  s.groupFails ch g

/-! ### The commands -/

/-- The sensors are read in the THERM domain, so that PWR_TJ follows them while a reset is held or after a trip (R354, R460). -/
def execPmcInterval (act : PmcSample) (s : State) : Host.Outcome State Fault Refusal :=
  .next (if s.live then s.pmcInterval act else if s.sys.power == .down then s else s.readTj act)
def execCoreLevelChange (s : State) : Host.Outcome State Fault Refusal := s.does State.levelChange
def execDroopTrip (d : Droop) (s : State) : Host.Outcome State Fault Refusal := s.does (fun s => s.droopTrip d.ch.val d.depth)
def execDroopStretchEnd (cd : Fin 4) (s : State) : Host.Outcome State Fault Refusal := s.does (fun s => s.droopEnd cd.val)
/-- The comparators run in the THERM domain on VDD_AON, which neither a held reset nor a low PWRGOOD stops (R356, R453, R454). -/
def execThermalTrip (die temp : Nat) (s : State) : Host.Outcome State Fault Refusal := .next (s.thermalTrip die temp)
def execHbmHotRefresh (stack : Fin 24) (temp : Nat) (s : State) : Host.Outcome State Fault Refusal := s.does (fun s => s.hbmReading stack.val temp)
def execPwrLimitWrite (v : Nat) (s : State) : Host.Outcome State Fault Refusal :=
  s.does (fun s => s.whenReady (fun s => s.limitWrite v))
def execPwrPhaseWrite (v : Nat) (s : State) : Host.Outcome State Fault Refusal :=
  s.does (fun s => s.whenReady (fun s => s.phaseWrite v))
def execPwrCalWrite (off v : Nat) (s : State) : Host.Outcome State Fault Refusal :=
  s.does (fun s => s.whenReady (fun s => s.calWrite off v))
def execPwrCounterClear (s : State) : Host.Outcome State Fault Refusal :=
  s.does (fun s => s.whenReady (fun s => s.pwrCtrClear))
def execRampOpen (ch : Ch) (s : State) : Host.Outcome State Fault Refusal := s.runs (fun s => s.rampOpen ch.val)
/-- A channel is half of a compute die. -/
def execTileStartAdmit (die : Fin 4) (half : Fin 2) (s : State) : Host.Outcome State Fault Refusal :=
  s.runs (fun s => s.tileStarts (2 * die.val + half.val))
def execSpareRemapApply (ch : Ch) (g : Fin 16) (s : State) : Host.Outcome State Fault Refusal := s.does (fun s => s.spareRemap ch.val g.val)
def execTileFail (ch : Ch) (g : Fin 16) (s : State) : Host.Outcome State Fault Refusal := s.does (fun s => s.tileFail ch.val g.val)

end Sys2Proof.Machine
end

