-- ==== Sys2Proof/Machine/Security.lean ====
section
/-! DEFINITION. The bundle, the fuses, attestation and Nutcracker (chapter 17). The algorithms that the spec names and does not define,
ML-DSA-87, X.509 and the key exchange, are the free functions of Config. -/

namespace Sys2Proof.Machine

def stBundleFormat : Nat := 0x50
def stBundleOrder : Nat := 0x51
def stBundleRollback : Nat := 0x52
def stKeyRevoked : Nat := 0x53
def stBundleState : Nat := 0x54
def stBundleTarget : Nat := 0x55
def stDebugLockout : Nat := 0x56

/-! ### The bundle (R384–R386) -/

def bSections (b : Bytes) : Nat := leAt b 6 2
def bTotal (b : Bytes) : Nat := leAt b 8 8
def bSigOff (b : Bytes) : Nat := leAt b 16 8
def bSvn (b : Bytes) : Nat := leAt b 24 4
def bTable (b : Bytes) : Nat := leAt b 32 4
def bChainOff (b : Bytes) : Nat := leAt b 36 4
def bChainLen (b : Bytes) : Nat := leAt b 40 4

/-- A section: kind, unit, offset, length, destination. -/
structure Section where
  kind : Nat
  unit : Nat
  off : Nat
  len : Nat
  dest : Nat
  deriving DecidableEq, Repr

/-- Entry `i` of the section table. -/
def sectionAt (b : Bytes) (i : Nat) : Section :=
  let o := bTable b + 32 * i
  { kind := byteAt b o, unit := byteAt b (o + 1), off := leAt b (o + 8) 8, len := leAt b (o + 16) 8, dest := leAt b (o + 24) 6 }

def sectionsOf (b : Bytes) : List Section := (List.range (bSections b)).map (sectionAt b)

/-- The header's own rules (R384). -/
def headOk (b : Bytes) : Bool :=
  decide (256 ≤ b.length) && leAt b 0 4 == 0x46554C4D && leAt b 4 2 == 1 && decide (1 ≤ bSections b) && decide (bSections b ≤ 64) &&
    bTotal b == bSigOff b + 11904 && bTotal b % 64 == 0 && decide (bTotal b ≤ 2 ^ 31) && bSigOff b % 64 == 0 && decide (bSvn b ≤ 64) &&
    decide (leAt b 28 4 < 4) && bTable b % 32 == 0 && bChainOff b % 64 == 0 && leAt b 76 180 == 0

/-- Ranges of which no two share a byte. -/
def disjointAll : List (Nat × Nat) → Bool
  | [] => true
  | x :: r => r.all (fun y => decide (x.1 + x.2 ≤ y.1) || decide (y.1 + y.2 ≤ x.1)) && disjointAll r

/-- The rules of one section (R385); `lo` and `hi` bound the program region. -/
def sectionOk (enrolled : Bool) (lo hi : Nat) (b : Bytes) (i : Nat) : Bool :=
  let x := sectionAt b i
  let o := bTable b + 32 * i
  let rest := leAt b (o + 2) 6 == 0 && leAt b (o + 30) 2 == 0
  rest && x.off % 64 == 0 && decide (1 ≤ x.len) && decide (256 ≤ x.off) && decide (x.off + x.len ≤ bSigOff b) &&
    (x.kind == 3 || x.unit == 0) &&
    (match x.kind with
     | 1 => decide (x.len ≤ 0x2000000)
     | 2 => decide (x.len ≤ 0x100000)
     | 3 => decide (x.unit ≤ 8) && decide (x.len ≤ 0x100000)
     | 4 => x.len == 2
     | 5 => x.len == 2592 && !enrolled
     | 6 => x.dest % 256 == 0 && decide (lo ≤ x.dest) && decide (x.dest + x.len ≤ hi)
     | _ => false)

/-- Check 1 of R388 on the first chunk. -/
def bundleFormatOk (enrolled : Bool) (lo hi : Nat) (b : Bytes) : Bool :=
  let n := bSections b
  let ss := sectionsOf b
  let count := fun (k u : Nat) => (ss.filter (fun x => x.kind == k && x.unit == u)).length
  headOk b && decide (bTable b + 32 * n ≤ 65536) && decide (bChainOff b + bChainLen b ≤ 65536) &&
    decide (bTable b + 32 * n ≤ bSigOff b) && decide (bChainOff b + bChainLen b ≤ bSigOff b) &&
    decide (bTable b + 32 * n ≤ b.length) && decide (bChainOff b + bChainLen b ≤ b.length) && decide (b.length ≤ bTotal b) &&
    (List.range n).all (sectionOk enrolled lo hi b) &&
    count 1 0 == 1 && count 2 0 == 1 && (List.range 9).all (fun u => count 3 u == 1) && decide (count 4 0 ≤ 1) && decide (count 5 0 ≤ 1) &&
    disjointAll ([(0, 256), (bTable b, 32 * n), (bChainOff b, bChainLen b)] ++ ss.map (fun x => (x.off, x.len)))

/-- The certificate chain: root and signing certificate. -/
def bChain (b : Bytes) : Option (Bytes × Bytes) := Config.certSplit (slice b (bChainOff b) (bChainLen b))

/-- Index of the signing key (R386). -/
def bKeyIndex (b : Bytes) : Nat := match bChain b with | some c => Config.certSerial c.2 % 16 | none => 0

/-- The first of checks 1–5 that fails (R388). -/
def State.firstChecks (s : State) (lo hi : Nat) (b : Bytes) : Option Nat :=
  if !bundleFormatOk s.hw.ownerKey.isSome lo hi b then some stBundleFormat
  else if !bitOf (leAt b 28 4) (if s.hw.stepping = 0xA1 then 0 else 1) then some stBundleTarget
  else if !(match bChain b with
      | some c => sha3 (Config.certKey c.1) == s.hw.vendorRoot && Config.certOk (Config.certKey c.1) c.2
      | none => false) then some stAuthFail
  else if bitOf s.hw.revoke (bKeyIndex b) then some stKeyRevoked
  else if bSvn b < s.hw.svn then some stBundleRollback
  else none

/-- The first of checks 6 and 7 that fails (R386, R388). -/
def State.lastChecks (s : State) (b : Bytes) : Option Nat :=
  let dig := sha3 (b.take (bSigOff b))
  let sig := b.drop (bSigOff b)
  let key := match bChain b with | some c => Config.certKey c.2 | none => []
  if !Config.mldsaOk key dig (sig.take 4627) then some 6
  else match s.hw.ownerKey with
    | none => none
    | some d =>
      let pub := slice sig 4640 2592
      if sha3 pub == d && Config.mldsaOk pub dig (slice sig 7232 4627) then none else some 7

/-! ### Loading (R387–R391) -/

/-- Sections reach their destinations as far as bundle bytes [lo, hi) bring them (R389). -/
def State.placeSections (s : State) (b : Bytes) (lo hi : Nat) : State :=
  (sectionsOf b).foldl (fun s x =>
    let a := max lo x.off
    let e := min hi (x.off + x.len)
    if e ≤ a then s
    else
      let got := slice b x.off (e - x.off)
      match x.kind with
      | 1 => { s with sec := { s.sec with fw := Tab.insert s.sec.fw 0 got } }
      | 2 => { s with sec := { s.sec with fw := Tab.insert s.sec.fw 1 got } }
      | 3 => { s with sec := { s.sec with fw := Tab.insert s.sec.fw (2 + x.unit) got } }
      | 6 => (s.storeWrite (x.dest + (a - x.off)) (slice b a (e - a))).hubAccess (x.dest + (a - x.off)) (e - a)
      | _ => s) s

/-- Every byte that the load wrote is zero again, and the state returns to AWAIT (R390, R400). -/
def State.undoLoad (s : State) : State :=
  let b := s.sec.data
  let s := (sectionsOf b).foldl (fun s x =>
    let e := min b.length (x.off + x.len)
    if x.kind != 6 || e ≤ x.off then s else s.storeWrite x.dest (List.replicate (e - x.off) 0)) s
  let s := { s with sec := { s.sec with data := [], fw := [] } }
  (((s.setReg SEC_STATUS_load_state 0).setReg SEC_BUNDLE_INFO_received 0).setReg SEC_BUNDLE_INFO_svn 0).setReg SEC_BUNDLE_INFO_key_index 0

/-- A BUNDLE_LOAD completes; SEC_STATUS.last_status shows its status. -/
def State.bundleEnd (s : State) (d : Nat) (r : Report) : State := (s.setReg SEC_STATUS_last_status r.status).complete d r

/-- A check failed: nothing of the bundle is left. -/
def State.bundleFail (s : State) (d : Nat) (r : Report) : State := (s.undoLoad.raise (evSec SEC_INTR_STATUS_bundle_fail_ev)).bundleEnd d r

/-- The bytes of a chunk, once they are in, are judged and placed (R388, R389). -/
def State.chunkIn (s : State) (d : Nat) (b : Bytes) : State :=
  let off := s.sec.data.length
  let s := if off = 0 then { s with sec := { s.sec with base := s.pktEnd, end_ := s.progEnd } } else s
  match (if off = 0 then s.firstChecks s.sec.base s.sec.end_ b else none) with
  | some st => s.bundleFail d { status := st }
  | none =>
    let all := s.sec.data ++ b
    let s := ({ s with sec := { s.sec with data := all } }).placeSections all off all.length
    let s := ((s.setReg SEC_STATUS_load_state 1).setReg SEC_BUNDLE_INFO_received all.length).setReg SEC_BUNDLE_INFO_svn (bSvn all)
    (s.setReg SEC_BUNDLE_INFO_key_index (bKeyIndex all)).bundleEnd d { status := stOk, result := all.length }

/-- BUNDLE_LOAD op 0. -/
def State.bundleChunk (s : State) (d : Nat) (x : Desc) (data : HostData) : State :=
  let off := leAt x.bytes 24 8
  let len := leAt x.bytes 32 4
  let st := s.reg SEC_STATUS_load_state
  let have_ := s.sec.data.length
  if st = 2 || st = 3 then s.bundleEnd d { status := stBundleState }
  else if off != have_ then s.bundleEnd d { status := stBundleOrder }
  else if have_ != 0 && (len % 64 != 0 || bTotal s.sec.data < off + len) then s.bundleEnd d { status := stBadDescriptor }
  else
    match s.hostRead d x (leAt x.bytes 16 8) len data with
    | (.got b, s) => if len % 64 != 0 && bTotal b != len then s.bundleEnd d { status := stBadDescriptor } else s.chunkIn d b
    | (.fail, s) => s.bundleEnd d { status := stHostAccess }
    | (.wait, s) => s

/-- Milliseconds since the end of the reset, saturating. -/
def State.bootMs (s : State) : Nat := min 65535 ((s.clk.cyc - s.sys.endCyc) / 1000000)

/-- The bundle is released (R390, R451): fuses, HUB_BITID_BUNDLE, the cores, ready; every held SQ is served, and the laser modules run. -/
def State.bundleRelease (s : State) : State :=
  let b := s.sec.data
  let body := fun (k : Nat) => (List.find? (fun x : Section => x.kind == k) (sectionsOf b)).map (fun x => slice b x.off x.len)
  let revoke := match body 4 with | some r => s.hw.revoke ||| leAt r 0 2 | none => s.hw.revoke
  let owner := match s.hw.ownerKey, body 5 with
    | some o, _ => some o
    | none, some pub => some (sha3 pub)
    | none, none => none
  let s := { s with hw := { s.hw with revoke := revoke, ownerKey := owner } }
  let dig := sha3 (b.take (bSigOff b))
  let s := (List.range 8).foldl (fun s i => s.setReg (HUB_BITID_BUNDLE_digest i) (leAt dig (8 * i) 8)) s
  let s := { s with sec := { s.sec with data := [] }, sys := { s.sys with phase := 8 } }
  let s := (((s.setReg SEC_STATUS_load_state 3).setReg HUB_STATUS_ready 1).setReg HUB_BOOT_TIME_ready_ms s.bootMs).raise (evSec SEC_INTR_STATUS_bundle_ok_ev)
  let s := (List.range 1024).foldl (fun s i => if s.flag (RING_SQ_STATE_held i) then s.setReg (RING_SQ_STATE_held i) 0 else s) s
  let run := (s.sys.lasers.filter (fun k => !s.clk.sched.any (fun x => x.ev == .laserRun k))).foldl (fun v k => setBit v k) 0
  (s.setReg HUB_BOARD_STATUS_ls_run run).emit (.pin "LS_RST_N" true)

/-- BUNDLE_LOAD op 1. -/
def State.bundleFinish (s : State) (d : Nat) : State :=
  let b := s.sec.data
  if s.reg SEC_STATUS_load_state != 1 || b.length != bTotal b then s.bundleEnd d { status := stBundleState }
  else
    let s := s.setReg SEC_STATUS_load_state 2
    match s.lastChecks b with
    | some k => s.bundleFail d { status := stAuthFail, result := k }
    | none =>
      let s := s.bundleRelease
      s.bundleEnd d { status := stOk, result := bSvn b, detail := s.bitTag }

/-- BUNDLE_LOAD op 2 (R392). -/
def State.commitSvn (s : State) (d : Nat) : State :=
  if s.reg SEC_STATUS_load_state != 3 then s.bundleEnd d { status := stBundleState }
  else
    let n := max s.hw.svn (s.reg SEC_BUNDLE_INFO_svn)
    ({ s with hw := { s.hw with svn := n } }).bundleEnd d { status := stOk, result := n }

/-- BUNDLE_LOAD op 3. -/
def State.bundleAbort (s : State) (d : Nat) : State :=
  if 2 ≤ s.reg SEC_STATUS_load_state then s.bundleEnd d { status := stBundleState } else s.undoLoad.bundleEnd d { status := stOk }

/-! ### SPDM (R393–R395, R399) -/

def State.modSpdm (s : State) (f : Spdm → Spdm) : State := { s with sec := { s.sec with spdm := f s.sec.spdm } }

/-- The seed of the identity key (R393). -/
def State.identitySeed (s : State) : Bytes := (sha3 (s.hw.secret ++ [0x49, 0x56, 0x4E, 0x2D, 0x49, 0x44])).take 32

/-- A string of bytes in hex digits. -/
def hexText (b : Bytes) : Bytes :=
  let digit := fun (n : Nat) => BitVec.ofNat 8 (if n < 10 then 48 + n else 55 + n)
  b.flatMap (fun x => [digit (x.toNat / 16), digit (x.toNat % 16)])

/-- The device certificate: the vendor's, over the identity key's public part, with the serial fuse as its subject's serialNumber (R393). -/
def State.deviceCert (s : State) : Bytes := Config.deviceCert (Config.mldsaPub s.identitySeed) (hexText s.hw.serial)

/-- The chain of certificate slot 0 (R393): vendor root, intermediate, device certificate, behind the length and the root's digest. -/
def State.certChain (s : State) : Bytes :=
  let certs := s.hw.certRoot ++ s.hw.certInter ++ s.deviceCert
  leBytes 2 (certs.length + 68) ++ [0, 0] ++ sha3 s.hw.certRoot ++ certs

/-- The identity store of a part that the vendor has certified (R393): the fused root, and each certificate under the key of the one before. -/
def State.identityCertified (s : State) : Bool :=
  sha3 (Config.certKey s.hw.certRoot) == s.hw.vendorRoot && Config.certOk (Config.certKey s.hw.certRoot) s.hw.certInter &&
    Config.certOk (Config.certKey s.hw.certInter) s.deviceCert && Config.certKey s.deviceCert == Config.mldsaPub s.identitySeed

/-- Bytes that the spec leaves to the implementation, `n` of them. -/
def State.drawBytes (s : State) (n : Nat) : Bytes × State :=
  let (k, s) := s.draw
  ((padTo n (Config.freeBytes k n)).take n, s)

/-- A response leaves; one beyond DataTransferSize waits for CHUNK_GET behind ERROR LargeResponse. -/
def State.spdmSay (s : State) (b : Bytes) : State :=
  if b.length ≤ 8192 then s.emit (.spdm b)
  else (s.modSpdm (fun p => { p with large := b, next := 0 })).emit (.spdm [0x13, 0x7F, 0x0F, 0, 0])

/-- ERROR with a code. -/
def State.spdmError (s : State) (code : Nat) : State := s.emit (.spdm [0x13, 0x7F, BitVec.ofNat 8 code, 0])

/-- A message of SPDM 1.3, a request as far as its row carries it: code, parameters, content. -/
def spdmMsg (code p1 p2 : Nat) (b : Bytes) : Bytes := [0x13, BitVec.ofNat 8 code, BitVec.ofNat 8 p1, BitVec.ofNat 8 p2] ++ b

/-- The bytes of a text. -/
def asciiBytes (t : String) : Bytes := t.toList.map (fun c => BitVec.ofNat 8 c.toNat)

/-- What a signature is made over (R394): the prefix of DSP0274 with its purpose, and the digest of the transcript. -/
def spdmSigned (purpose : String) (transcript : Bytes) : Bytes :=
  let ctx := asciiBytes purpose
  (List.replicate 4 (asciiBytes "dmtf-spdm-v1.3.*")).flatten ++ List.replicate (36 - ctx.length) 0 ++ ctx ++ sha3 transcript

/-- A signature by the identity key over a transcript; once that key is erased, ERROR Unspecified (R399). -/
def State.spdmSign (s : State) (purpose : String) (transcript : Bytes) (f : Bytes → State → State) : State :=
  if s.hw.erased then s.spdmError 5
  else
    let (k, s) := s.draw
    f (Config.mldsaSign s.identitySeed (spdmSigned purpose transcript) k) s

/-- A message within a session, protected by AES-256-GCM (R394): the handshake keys before FINISH, then those of each KEY_UPDATE. -/
def State.spdmSealed (s : State) (b : Bytes) : State :=
  let p := s.sec.spdm
  (s.modSpdm (fun p => { p with sent := p.sent + 1 })).emit
    (.spdm (Config.aeadSeal (p.session.getD []) (if p.finished then 1 + p.keys else 0) p.sent b))

/-- A request is answered once the link is up and the requester has come as far as `stage`. -/
def State.spdmAt (s : State) (stage : Nat) (f : State → State) : State :=
  if !s.sys.cxlUp then s else if s.sec.spdm.stage < stage then s.spdmError 4 else f s

/-- A request within a completed session. -/
def State.spdmIn (s : State) (f : State → State) : State :=
  s.spdmAt 3 (fun s => if s.sec.spdm.session.isSome && s.sec.spdm.finished then f s else s.spdmError 4)

/-- What measurement `i` holds: a digest, or raw bytes (R395). -/
def State.measurement (s : State) (i : Nat) : Bytes :=
  match i with
  | 1 => s.hw.rom
  | 2 => if s.flag HUB_STATUS_ready then s.bundleDigest else List.replicate 64 0
  | 3 => sha3 (s.hw.vendorRoot ++ s.hw.ownerKey.getD (List.replicate 64 0) ++ [BitVec.ofNat 8 (bit1 s.hw.ownerKey.isSome)] ++
      leBytes 8 s.hw.svn ++ leBytes 2 s.hw.revoke)
  | 4 => leBytes 8 s.bitid ++ leBytes 8 s.bitTag
  | _ => [BitVec.ofNat 8 (if s.hw.erased then 2 else s.sec.high)]

/-- A measurement block: index, specification, sizes, value type with bit 7 for raw bytes. -/
def State.measBlock (s : State) (i : Nat) : Bytes :=
  let v := s.measurement i
  let ty := match i with | 1 => 0 | 2 => 1 | 3 => 2 | 4 => 0x83 | _ => 0x85
  [BitVec.ofNat 8 i, 1] ++ leBytes 2 (v.length + 3) ++ [BitVec.ofNat 8 ty] ++ leBytes 2 v.length ++ v

/-- A request and its response join the part of the transcript that `f` names; one outside the measurements ends theirs. -/
def State.spdmNote (s : State) (f : Spdm → Bytes → Spdm) (req rsp : Bytes) : State := s.modSpdm (fun p => { f p (req ++ rsp) with meas := [] })

def Spdm.addVca (p : Spdm) (b : Bytes) : Spdm := { p with vca := p.vca ++ b }
def Spdm.addCerts (p : Spdm) (b : Bytes) : Spdm := { p with certs := p.certs ++ b }

def State.getVersion (s : State) : State :=
  let req : Bytes := [0x10, 0x84, 0, 0]
  let rsp : Bytes := [0x10, 0x04, 0, 0, 0, 1, 0x00, 0x13]
  s.spdmAt 0 (fun s => (s.modSpdm (fun _ => { stage := 1, vca := req ++ rsp })).emit (.spdm rsp))

/-- CAPABILITIES: certificate, challenge, signed measurements, encryption, key exchange, heartbeat, key update, chunks. -/
def State.getCapabilities (s : State) : State :=
  s.spdmAt 1 (fun s =>
    let (x, s) := s.drawBytes 5
    let rsp := spdmMsg 0x61 0 0 ([0] ++ x.take 1 ++ [0, 0] ++ leBytes 4 0x262D6 ++ leBytes 4 8192 ++ x.drop 1)
    ((s.modSpdm (fun p => { p with stage := max 2 p.stage })).spdmNote Spdm.addVca (spdmMsg 0xE1 0 0 []) rsp).spdmSay rsp)

/-- ALGORITHMS: SHA3-512, ML-DSA-87, secp384r1 and AES-256-GCM, each where the requester offers it (R394). -/
def State.negotiate (s : State) (hashes : List Nat) (offer : AlgOffer) : State :=
  s.spdmAt 2 (fun s =>
    let hash := if hashes.contains 0x29 then 0x29 else 0
    let asym := if offer.asyms.contains 1 then 1 else 0
    let dhe := if offer.dhes.contains 4 then 0x10 else 0
    let aead := if offer.aeads.contains 1 then 2 else 0
    let req := spdmMsg 0xE3 0 0 ((hashes ++ offer.asyms ++ offer.dhes ++ offer.aeads).flatMap (leBytes 2))
    let rsp := spdmMsg 0x63 0 0 (leBytes 2 hash ++ leBytes 4 s.hw.pen ++ leBytes 2 asym ++ leBytes 2 dhe ++ leBytes 2 aead)
    let s := if hash != 0 && asym != 0 then s.modSpdm (fun p => { p with stage := 3, keyEx := dhe != 0 && aead != 0 }) else s
    (s.spdmNote Spdm.addVca req rsp).spdmSay rsp)

def State.getDigests (s : State) : State :=
  s.spdmAt 3 (fun s =>
    let rsp := spdmMsg 0x01 1 1 (sha3 s.certChain)
    (s.spdmNote Spdm.addCerts (spdmMsg 0x81 0 0 []) rsp).spdmSay rsp)

def State.getCertificate (s : State) (slot off len : Nat) : State :=
  s.spdmAt 3 (fun s =>
    let chain := s.certChain
    if slot != 0 || chain.length ≤ off then s.spdmError 1
    else
      let part := slice chain off len
      let rsp := spdmMsg 0x02 slot 0 (leBytes 2 part.length ++ leBytes 2 (chain.length - off - part.length) ++ part)
      (s.spdmNote Spdm.addCerts (spdmMsg 0x82 slot 0 (leBytes 2 off ++ leBytes 2 len)) rsp).spdmSay rsp)

/-- CHALLENGE_AUTH: the chain's digest, a nonce of the device, and a signature over the whole exchange so far. -/
def State.challenge (s : State) (slot : Nat) (nonce : Bytes) : State :=
  s.spdmAt 3 (fun s =>
    if slot != 0 then s.spdmError 1
    else
      let (n, s) := s.drawBytes 32
      let req := spdmMsg 0x83 slot 0 nonce
      let rsp := spdmMsg 0x03 slot 1 (sha3 s.certChain ++ n ++ leBytes 2 0)
      s.spdmSign "responder-challenge_auth signing" (s.sec.spdm.vca ++ s.sec.spdm.certs ++ req ++ rsp) (fun sig s =>
        (s.modSpdm (fun p => { p with certs := [], meas := [] })).spdmSay (rsp ++ sig)))

/-- MEASUREMENTS: the blocks and a nonce of the device; a signed one covers every request for measurements since the last. -/
def State.getMeasurements (s : State) (index : Nat) (signed_ : Bool) (nonce : Bytes) : State :=
  s.spdmAt 3 (fun s =>
    if index != 0xFF && 5 < index then s.spdmError 1
    else
      let (n, s) := s.drawBytes 32
      let blocks := if index = 0 then [] else if index = 0xFF then [1, 2, 3, 4, 5] else [index]
      let req := spdmMsg 0xE0 (bit1 signed_) index nonce
      let record := blocks.flatMap s.measBlock
      let rsp := spdmMsg 0x60 (if index = 0 then 5 else 0) 0 (leBytes 1 blocks.length ++ leBytes 3 record.length ++ record ++ n ++ leBytes 2 0)
      let meas := s.sec.spdm.meas ++ req ++ rsp
      if signed_ then
        s.spdmSign "responder-measurements signing" (s.sec.spdm.vca ++ meas) (fun sig s =>
          (s.modSpdm (fun p => { p with meas := [] })).spdmSay (rsp ++ sig))
      else (s.modSpdm (fun p => { p with meas := meas })).spdmSay rsp)

/-- KEY_EXCHANGE: signed over the algorithms, the chain and the exchange, with the check value of the handshake keys; it needs the key exchange
and the AEAD that NEGOTIATE_ALGORITHMS selected. -/
def State.keyExchange (s : State) (pub : Bytes) : State :=
  s.spdmAt 3 (fun s =>
    if !s.sec.spdm.keyEx then s.spdmError 4
    else
      let (n, s) := s.draw
      let (r, s) := s.drawBytes 32
      let rsp := spdmMsg 0x64 0 0 (r ++ Config.dhPub n)
      let th := s.sec.spdm.vca ++ sha3 s.certChain ++ spdmMsg 0xE4 0 0 pub ++ rsp
      s.spdmSign "responder-key_exchange_rsp signing" th (fun sig s =>
        let key := Config.dhShared n pub
        let mac := Config.sessionMac key false (sha3 (th ++ sig))
        (s.modSpdm (fun p => { p with
          session := some key, finished := false, keys := 0, sent := 0, th := th ++ sig ++ mac, meas := [] })).spdmSay (rsp ++ sig ++ mac)))

/-- The check value that FINISH must bring. -/
def State.finishMac (s : State) (key : Bytes) : Bytes := Config.sessionMac key true (sha3 (s.sec.spdm.th ++ spdmMsg 0xE5 0 0 []))

def State.spdmFinish (s : State) (mac : Bytes) : State :=
  s.spdmAt 3 (fun s =>
    match s.sec.spdm.session with
    | none => s.spdmError 4
    | some k =>
      if s.sec.spdm.finished then s.spdmError 4
      else if mac == s.finishMac k then (s.spdmSealed (spdmMsg 0x65 0 0 [])).modSpdm (fun p => { p with finished := true, sent := 0 })
      else (s.modSpdm (fun p => { p with session := none })).spdmError 1)

def State.endSpdmSession (s : State) : State := s.modSpdm (fun p => { p with session := none, finished := false, keys := 0, sent := 0 })

/-- CHUNK_GET: the next piece of a large response. -/
def State.chunkGet (s : State) (seq : Nat) : State :=
  s.spdmAt 1 (fun s =>
    let p := s.sec.spdm
    if p.large.isEmpty || seq != p.next then s.spdmError 1
    else
      let part := slice p.large (8000 * seq) 8000
      let last := decide (p.large.length ≤ 8000 * (seq + 1))
      let s := s.modSpdm (fun p => if last then { p with large := [], next := 0 } else { p with next := seq + 1 })
      s.emit (.spdm (spdmMsg 0x06 (bit1 last) 0 (leBytes 4 seq ++ leBytes 4 part.length ++ part))))

/-! ### Nutcracker (R396–R400) -/

/-- The nonce is void. -/
def State.voidNonce (s : State) : State :=
  let s := { s with sec := { s.sec with nonce := [] } }
  if s.reg SEC_NC_STATUS_state = 3 then s else s.setReg SEC_NC_STATUS_state 0

/-- SEC_NC_CTRL.request: a nonce is drawn for the level (R397, R398). -/
def State.ncRequest (s : State) (level : Nat) : State :=
  let s := s.setReg SEC_NC_CTRL_level level
  if s.reg SEC_NC_STATUS_state = 3 then s.setReg SEC_NC_STATUS_last_status stDebugLockout
  else if level = 0 || level = 3 || (level = 1 && s.hw.ownerKey.isNone) then s.voidNonce.setReg SEC_NC_STATUS_last_status stAuthFail
  else
    let (n, s) := s.drawBytes 64
    ({ s with sec := { s.sec with nonce := n, ncLevel := level, nonceAt := s.now, resp := [] } }).setReg SEC_NC_STATUS_state 1

/-- A submit failed: the eighth in a row locks, and one while locked out counts too (R398), as far as its field goes (DESIGN CHOICE). -/
def State.ncFail (s : State) (status : Nat := stAuthFail) : State :=
  let n := min 15 (s.reg SEC_NC_STATUS_nc_fail + 1)
  let s := ((s.voidNonce.setReg SEC_NC_STATUS_nc_fail n).setReg SEC_NC_STATUS_last_status status).raise (evSec SEC_INTR_STATUS_nc_fail_ev)
  if 8 ≤ n then s.setReg SEC_NC_STATUS_state 3 else s

/-- Bytes of the response window. -/
def State.respBytes (s : State) (i n : Nat) : Bytes := slice ((List.range 1805).flatMap (fun j => leBytes 4 (s.sec.resp.get 0 j))) i n

/-- The signature in the window is the one the level asks for (R397). -/
def State.ncValid (s : State) : Bool :=
  let pub := s.respBytes 0 2592
  let msg := s.sec.nonce ++ s.hw.serial ++ [BitVec.ofNat 8 s.sec.ncLevel] ++ List.replicate 7 0
  let key := if s.sec.ncLevel = 1 then s.hw.ownerKey else some s.hw.vendorDebug
  key == some (sha3 pub) && Config.mldsaOk pub msg (s.respBytes 2592 4627)

/-- SEC_NC_CTRL.submit (R397–R399). -/
def State.ncSubmit (s : State) : State :=
  if s.reg SEC_NC_STATUS_state = 3 then s.ncFail stDebugLockout
  else if s.sec.nonce.isEmpty || s.elapsed s.sec.nonceAt 60000000000 || !s.ncValid then s.ncFail
  else
    let l := s.sec.ncLevel
    let s := ((s.voidNonce.setReg SEC_NC_STATUS_nc_fail 0).setReg SEC_NC_STATUS_last_status stOk).raise (evSec SEC_INTR_STATUS_nc_ok_ev)
    let s := (s.setReg SEC_STATUS_debug_level (max l (s.reg SEC_STATUS_debug_level)))
    let s := { s with sec := { s.sec with high := max l s.sec.high } }
    if l = 2 then ({ s with hw := { s.hw with erased := true } }).endSpdmSession else s

/-- SEC_NC_CTRL.relock. -/
def State.ncRelock (s : State) : State := s.voidNonce.setReg SEC_STATUS_debug_level 0

/-- The nonce is 60 s old. -/
def State.nonceExpire (s : State) : State :=
  if !s.sec.nonce.isEmpty && s.elapsed s.sec.nonceAt 60000000000 then s.voidNonce else s

/-! ### The commands -/

def execBundleChunk (d : Nat) (data : HostData) (s : State) : Host.Outcome State Fault Refusal :=
  s.does (fun s => s.runDesc d 10 (some 0) (fun x s => s.bundleChunk d x data))
def execBundleFinish (d : Nat) (s : State) : Host.Outcome State Fault Refusal := s.does (fun s => s.runDesc d 10 (some 1) (fun _ s => s.bundleFinish d))
def execCommitSvn (d : Nat) (s : State) : Host.Outcome State Fault Refusal := s.does (fun s => s.runDesc d 10 (some 2) (fun _ s => s.commitSvn d))
def execBundleAbort (d : Nat) (s : State) : Host.Outcome State Fault Refusal := s.does (fun s => s.runDesc d 10 (some 3) (fun _ s => s.bundleAbort d))
def execGetVersion (s : State) : Host.Outcome State Fault Refusal := s.does State.getVersion
def execGetCapabilities (s : State) : Host.Outcome State Fault Refusal := s.does State.getCapabilities
def execNegotiateAlgorithms (hashes : List Nat) (offer : AlgOffer) (s : State) : Host.Outcome State Fault Refusal :=
  s.does (fun s => s.negotiate hashes offer)
def execGetDigests (s : State) : Host.Outcome State Fault Refusal := s.does State.getDigests
def execGetCertificate (slot off len : Nat) (s : State) : Host.Outcome State Fault Refusal := s.does (fun s => s.getCertificate slot off len)
def execChallenge (slot : Nat) (nonce : Bytes) (s : State) : Host.Outcome State Fault Refusal := s.does (fun s => s.challenge slot nonce)
def execGetMeasurements (index : Nat) (sgn : Bool) (nonce : Bytes) (s : State) : Host.Outcome State Fault Refusal :=
  s.does (fun s => s.getMeasurements index sgn nonce)
def execKeyExchange (pub : Bytes) (s : State) : Host.Outcome State Fault Refusal := s.does (fun s => s.keyExchange pub)
def execSpdmFinish (mac : Bytes) (s : State) : Host.Outcome State Fault Refusal := s.does (fun s => s.spdmFinish mac)
def execHeartbeat (s : State) : Host.Outcome State Fault Refusal := s.does (fun s => s.spdmIn (fun s => s.spdmSealed (spdmMsg 0x68 0 0 [])))
def execKeyUpdate (s : State) : Host.Outcome State Fault Refusal :=
  s.does (fun s => s.spdmIn (fun s => (s.modSpdm (fun p => { p with keys := p.keys + 1, sent := 0 })).spdmSealed (spdmMsg 0x69 0 0 [])))
def execEndSession (s : State) : Host.Outcome State Fault Refusal :=
  s.does (fun s => s.spdmIn (fun s => (s.spdmSealed (spdmMsg 0x6C 0 0 [])).endSpdmSession))
def execChunkGet (seq : Nat) (s : State) : Host.Outcome State Fault Refusal := s.does (fun s => s.chunkGet seq)
/-- IDE keys are programmed only within a secured session (R394). -/
def execVendorDefinedRequest (body : Bytes) (s : State) : Host.Outcome State Fault Refusal :=
  s.does (fun s => s.spdmIn (fun s => (s.modSpdm (fun p => { p with ide := p.ide ++ [body] })).spdmSealed (spdmMsg 0x7E 0 0 [])))
def execNcRequest (level : Fin 4) (s : State) : Host.Outcome State Fault Refusal := s.does (fun s => s.ncRequest level.val)
def execNcSubmit (s : State) : Host.Outcome State Fault Refusal := s.does State.ncSubmit
def execNcRelock (s : State) : Host.Outcome State Fault Refusal := s.does State.ncRelock
def execNonceExpire (s : State) : Host.Outcome State Fault Refusal := s.does State.nonceExpire

end Sys2Proof.Machine
end

