-- ==== Sys2Proof/Machine/Time.lean ====
section
/-! DEFINITION. Fabric time (chapter 02): sources, measurements, the discipline, steps, beacons, link delay, PTP, board pins. -/

namespace Sys2Proof.Machine

/-! ### Measurements and the discipline (R31, R34, R41, R42) -/

/-- The source is the one in use, or the one selected and not yet measured (R34). -/
def State.judged (s : State) (k : Nat) : Bool := s.srcActive == k || s.clk.pending == some k

/-- The asymmetry for a measurement of source `k`: TIME_ASYM belongs to the source in src_sel (R34). -/
def State.asymOf (s : State) (k : Nat) : Int := if s.srcActive == k then s.asym else s.regInt TIME_ASYM_asym

/-- The slew limit in units of TIME_RATE (R42). -/
def State.slewLimit (s : State) : Int := ((s.reg TIME_LIMIT_CFG_slew_max * 2 ^ 40 / 1000000 : Nat) : Int)

/-- The servo sets the rate while servo_en is 1 (R31): its law is open, its limits are not. In pin mode FT_REF gives the frequency
correction, and the edges of FT_PPS_IN the phase (R39). -/
def State.servo (s : State) (off : Int) : State :=
  if !s.flag TIME_CTRL_servo_en then s
  else
    let (n, s) := s.draw
    let f := rateLimit (if s.srcActive = 2 then Config.refFreq n else Config.servoFreq s.clk.freq off n)
    let m := s.slewLimit
    let slew := max (-m) (min m (Config.servoSlew s.clk.freq off n))
    ({ s with clk := { s.clk with freq := f } }).setRate (f + slew)

/-- A step of device time (R42): recorded with the stamp before it, counted, signalled. -/
def State.stepTime (s : State) (off : Int) : State :=
  let s := s.recordTime 0 off
  ((s.countSat TIME_COUNTS_step_count).raise (evTime TIME_STATUS_step_ev)).jump off

/-- A measurement in ACQUIRE: a step when it is beyond step_limit (R42), and one of the 16 that lock when it is within lock_thresh (R41). -/
def State.acquire (s : State) (off : Int) : State :=
  let big := decide (((s.reg TIME_LIMIT_CFG_step_limit * 65536 : Nat) : Int) < off.natAbs)
  let run := if off.natAbs ≤ s.reg TIME_LOCK_CFG_lock_thresh * 256 then s.clk.okRun + 1 else 0
  let s := { s with clk := { s.clk with okRun := run } }
  let lock := fun (s : State) => if 16 ≤ run then s.enter dLocked else s
  if big && s.flag TIME_CTRL_step_allow && !s.clk.stepBarred && !s.clk.onBackup then lock (s.stepTime off) else (lock s).servo off

/-- A measurement in LOCKED (R41). -/
def State.tracked (s : State) (off : Int) : State :=
  if s.reg TIME_LOCK_CFG_unlock_thresh * 256 < off.natAbs then
    let s := { s with clk := { s.clk with badRun := s.clk.badRun + 1 } }
    (if 4 ≤ s.clk.badRun then s.enter dAcquire else s).servo off
  else ({ s with clk := { s.clk with badRun := 0 } }).servo off

/-- A valid measurement of source `k` (R34, R41). During a replay the discipline stays in FREE (R337). -/
def State.measure (s : State) (k : Nat) (off : Int) : State :=
  let s := s.setRegInt TIME_OFFSET_offset off
  if s.replaying then s
  else if s.srcActive != k then
    let s := (s.useSource k).enter dAcquire
    let s := { s with clk := { s.clk with pending := none, onBackup := false, stepBarred := false, okRun := 0, badRun := 0 } }
    s.acquire off
  else
    let s := { s with clk := { s.clk with lastMeas := s.now, lost := false } }
    let st := s.reg TIME_STATUS_state
    if st = dLocked then s.tracked off
    else if st = dAcquire then s.acquire off
    else if st = dHoldover && decide (s.reg TIME_LIMIT_CFG_holdover_max ≤ s.holdMs) then s.enter dFree
    else (s.enter dAcquire).acquire off

/-- TIME_SRC_CFG written (R34): 3 acts at once, the source in use ends an automatic move, any other waits for its measurement. -/
def State.srcCfgWrite (s : State) (v : Nat) : State :=
  let sel := bits v 0 2
  let s := ((s.setReg TIME_SRC_CFG_src_sel sel).setReg TIME_SRC_CFG_backup_sel (bits v 2 2)).setReg TIME_SRC_CFG_auto_switch (bits v 4 1)
  let s := ((s.setReg TIME_SRC_CFG_beacon_port (bits v 8 5)).setReg TIME_SRC_CFG_ptp_port (bits v 16 5)).setReg TIME_SRC_CFG_logical (bits v 24 3)
  if sel = 3 then
    let s := (s.useSource 3).enter dFree
    { s with clk := { s.clk with pending := none, onBackup := false } }
  else if sel = s.srcActive then { s with clk := { s.clk with pending := none, onBackup := false } }
  else { s with clk := { s.clk with pending := some sel } }

/-- TIME_RATE written by the host (R31). -/
def State.rateWrite (s : State) (v : Nat) : State :=
  if s.flag TIME_CTRL_servo_en then s else s.setRegInt TIME_RATE_rate (rateLimit (signed 32 v))

/-! ### Loss (R40) -/

/-- The condition of a loss holds. -/
def State.lossHolds (s : State) : LossCause → Bool
  | .beacons => s.srcActive == 0 && s.elapsed s.clk.lastMeas (4000 * s.reg TIME_BEACON_CFG_interval)
  | .syncs => s.srcActive == 1 && s.elapsed s.clk.lastMeas (4000000000 / 2 ^ ((16 - s.reg TIME_PTP_CFG_log_sync) % 16))
  | .delayResponses => decide (s.srcActive < 2) && decide (3 ≤ s.clk.missed)
  | .pps => s.srcActive == 2 && s.elapsed s.clk.lastPps 1100000000
  | .ref => s.srcActive == 2 && s.clk.refStop.any (fun t => s.elapsed t 1000)
  | .refStops | .refRuns => false
  | .linkDown => decide (s.srcActive < 2) && !s.isUp (s.designated s.srcActive)

/-- What SOURCE_LOSS brings of FT_REF itself: when it stopped, or that it runs. -/
def State.refSeen (s : State) : LossCause → State
  | .refStops => { s with clk := { s.clk with refStop := some (s.clk.refStop.getD s.now) } }
  | .refRuns => { s with clk := { s.clk with refStop := none } }
  | .beacons | .syncs | .delayResponses | .pps | .linkDown | .ref => s

/-- Time in holdover has reached holdover_max. -/
def State.holdoverExpire (s : State) : State :=
  if s.reg TIME_STATUS_state = dHoldover ∧ s.reg TIME_LIMIT_CFG_holdover_max ≤ s.holdMs then s.enter dFree else s

/-! ### Beacons and link delay (R35–R37) -/

/-- A beacon (R35, R37): rejected and counted while beacons are in use. One of a source that is selected and not yet in use makes its first
measurement when it is good, and is not counted when it is bad; one whose header is bad in another way than its CRC does nothing more. -/
def State.beaconRx (s : State) (src : Nat) : State :=
  match s.takeCtl src (isEchOp 0x70) with
  | none => s
  | some (c, s) =>
    if s.designated 0 != src || !s.judged 0 then s
    else
      let e := echOf c.bytes
      let b := echPayload c.bytes
      if !e.crcOk || 15 < byteAt b 8 then (if s.srcActive = 0 then s.countSat TIME_COUNTS_src_faults else s)
      else if !echHeaderOk c.bytes then s
      else
        let s := { s with clk := { s.clk with rootId := beAt b 0 8, rootHops := byteAt b 8, rootQuality := byteAt b 9 } }
        s.measure 0 (ftDiff c.stamp (BitVec.ofNat 64 e.stamp) + s.pathDelay 0 + s.asymOf 0)

/-- One logical port's beacon (R35, R37). -/
def State.sendBeacon (s : State) (src : Nat) : State :=
  let n := s.clk.beaconSeq.get 0 src
  let s := { s with clk := { s.clk with beaconSeq := s.clk.beaconSeq.put 0 src ((n + 1) % 2 ^ 32) } }
  s.sendTime src 0x70 (beBytes 8 s.clk.rootId ++ beBytes 1 (s.clk.rootHops + 1) ++ beBytes 1 s.clk.rootQuality ++
    beBytes 1 (bit1 (s.reg TIME_STATUS_state == dHoldover)) ++ [0] ++ beBytes 4 n)

/-- The beacon interval (R37): LOCKED and HOLDOVER send. -/
def State.beaconTimer (s : State) : State :=
  if s.reg TIME_STATUS_state = dLocked ∨ s.reg TIME_STATUS_state = dHoldover then
    (List.range 192).foldl (fun s src =>
      if bitOf (s.reg TIME_BEACON_CFG_tx_mask) (src / 8) && s.isUp src then s.sendBeacon src else s) s
  else s


/-- A quotient that the spec leaves without a rounding rule: below or above, freely, when it is not whole. -/
def State.divide (s : State) (x : Int) (m : Nat) : Int × State :=
  if x % m = 0 then (x / m, s) else let (n, s) := s.draw; (x / m + pick 2 n, s)

/-- A link delay or peer delay from its four stamps, corrections taken off (R36): half the difference, not below zero. -/
def State.delayOf (s : State) (t1 t2 t3 t4 : FT64) (corr : Int) : Nat × State :=
  let (d, s) := s.divide (ftDiff t1 t4 - ftDiff t2 t3 - corr) 2
  (d.toNat, s)

/-- A link delay result of the beacons' port. -/
def State.linkDelay (s : State) (t1 t2 t3 t4 : FT64) : State :=
  let (d, s) := s.delayOf t1 t2 t3 t4 0
  let l := (d :: s.clk.ldelay).take 8
  ({ s with clk := { s.clk with ldelay := l, linkReq := none, missed := if s.srcActive == 0 then 0 else s.clk.missed } }).showDelay 0

/-- A peer delay result of the PTP port. -/
def State.peerDelay (s : State) (t1 t2 t3 t4 : FT64) (corr : Int) : State :=
  let (d, s) := s.delayOf t1 t2 t3 t4 corr
  let l := (d :: s.clk.pdelay).take 8
  ({ s with clk := { s.clk with pdelay := l, pdReq := none, missed := if s.srcActive == 1 then 0 else s.clk.missed } }).showDelay 1

/-! ### PTP (R38) -/

/-- A timestamp of IEEE 1588 as FT64: seconds × 10^9 plus nanoseconds. -/
def ptpStamp (b : Bytes) (i : Nat) : FT64 := ns (beAt b i 6 * 1000000000 + beAt b (i + 6) 4)

/-- The correctionField of a message, in units of 2^-16 ns, in FT64 units. -/
def State.ptpCorr (s : State) (b : Bytes) : Int × State := s.divide (signed 64 (beAt b 8 8)) 256

/-- A waiting frame is a PTP message of this type. -/
def isPtp (ty : Nat) (c : Ctl) : Bool :=
  let f := parseFrame c.bytes
  f.et == 0x88F7 && byteAt c.bytes f.l3 % 16 == ty

/-- The PTP message of a frame. -/
def ptpBody (c : Ctl) : Bytes := c.bytes.drop (parseFrame c.bytes).l3

/-- The port identity of a fabric port: its station MAC as EUI-64, port number 1. -/
def State.ptpId (s : State) (p : Nat) : Bytes :=
  let m := beBytes 6 (s.station p)
  m.take 3 ++ [0xFF, 0xFE] ++ m.drop 3 ++ beBytes 2 1

/-- A PTP message's header: type, length, flags, correction in FT64 units, identity, sequence. -/
def State.ptpHead (s : State) (ty len flags : Nat) (corr : Int) (p seq : Nat) : Bytes :=
  beBytes 1 ty ++ beBytes 1 2 ++ beBytes 2 len ++ beBytes 1 (s.reg TIME_PTP_CFG_domain) ++ [0] ++ beBytes 2 flags ++
    beBytes 8 (unsigned 64 (corr * 256)) ++ beBytes 4 0 ++ s.ptpId p ++ beBytes 2 seq ++ [5, 0x7F]

/-- The frame of a PTP message, to the peer delay address. -/
def State.ptpFrame (s : State) (src : Nat) (m : Bytes) : Bytes :=
  padTo 60 (beBytes 6 0x0180C200000E ++ beBytes 6 (s.station (src / 8)) ++ beBytes 2 0x88F7 ++ m)

/-- A Pdelay_Req of the device: t1 is taken as it leaves (R38, R45). -/
def State.sendPdelay (s : State) (src : Nat) : State :=
  let q := s.clk.pdSeq
  let late := s.clk.pdReq.isSome && s.srcActive == 1
  let s := { s with clk := { s.clk with
    pdSeq := (q + 1) % 65536, pdReq := some { seq := q }, missed := if late then s.clk.missed + 1 else s.clk.missed } }
  s.sendCtl src { bytes := s.ptpFrame src (s.ptpHead 2 54 0 0 (src / 8) q ++ List.replicate 20 0), start := .pdelayReq, seqd := true }

/-- A link delay request of the device (R35, R36): its t1 travels in its header. -/
def State.sendLinkReq (s : State) (src : Nat) : State :=
  let late := s.clk.linkReq.isSome && s.srcActive == 0
  let s := { s with clk := { s.clk with linkReq := some src, missed := if late then s.clk.missed + 1 else s.clk.missed } }
  s.sendTime src 0x71 (List.replicate 16 0)

/-- ldelay_interval (R36): the requester of each source in use or selected sends. -/
def State.delayTimer (s : State) : State :=
  let s := if s.judged 0 && s.isUp (s.designated 0) then s.sendLinkReq (s.designated 0) else s
  if s.judged 1 && s.isUp (s.designated 1) then s.sendPdelay (s.designated 1) else s

/-- A link delay request is answered with t1 and t2 (R35, R36). -/
def State.linkReqRx (s : State) (src : Nat) : State :=
  match s.takeCtl src (isEchOp 0x71) with
  | none => s
  | some (c, s) =>
    if !echHeaderOk c.bytes then s
    else s.sendTime src 0x72 (beBytes 8 (echOf c.bytes).stamp ++ beBytes 8 c.stamp.toNat)

/-- A link delay response (R36). -/
def State.linkRespRx (s : State) (src : Nat) : State :=
  match s.takeCtl src (isEchOp 0x72) with
  | none => s
  | some (c, s) =>
    let b := echPayload c.bytes
    match s.clk.linkReq with
    | some q =>
      if q != src || !echHeaderOk c.bytes then s
      else s.linkDelay (BitVec.ofNat 64 (beAt b 0 8)) (BitVec.ofNat 64 (beAt b 8 8)) (BitVec.ofNat 64 (echOf c.bytes).stamp) c.stamp
    | none => s

/-- A Sync that is not usable, or another PTP message with nothing to belong to. -/
def State.ptpFault (s : State) : State := s.countSat TIME_COUNTS_src_faults

/-- A Sync (R38): one-step measures at once, two-step waits for its Follow_Up. -/
def State.syncRx (s : State) (src : Nat) : State :=
  match s.takeCtl src (isPtp 0) with
  | none => s
  | some (c, s) =>
    if s.designated 1 != src || !s.judged 1 then s
    else
      let b := ptpBody c
      let s := if s.clk.sync.isSome then s.ptpFault else s
      let (corr, s) := s.ptpCorr b
      if bitOf (byteAt b 6) 1 then { s with clk := { s.clk with sync := some { seq := beAt b 30 2, ingress := c.stamp, corr := corr } } }
      else
        let s := { s with clk := { s.clk with sync := none } }
        s.measure 1 (ftDiff c.stamp (ptpStamp b 34) + corr + s.pathDelay 1 + s.asymOf 1)

/-- A Follow_Up (R38). -/
def State.followUpRx (s : State) (src : Nat) : State :=
  match s.takeCtl src (isPtp 8) with
  | none => s
  | some (c, s) =>
    if s.designated 1 != src || !s.judged 1 then s
    else
      let b := ptpBody c
      match s.clk.sync with
      | some y =>
        if y.seq != beAt b 30 2 then s.ptpFault
        else
          let (corr, s) := s.ptpCorr b
          let s := { s with clk := { s.clk with sync := none } }
          s.measure 1 (ftDiff y.ingress (ptpStamp b 34) + y.corr + corr + s.pathDelay 1 + s.asymOf 1)
      | none => s.ptpFault

/-- A Pdelay_Req is answered in two steps (R38): its receipt time, then the time the answer left. -/
def State.pdelayReqRx (s : State) (src : Nat) : State :=
  match s.takeCtl src (isPtp 2) with
  | none => s
  | some (c, s) =>
    if s.designated 1 != src then s
    else
      let b := ptpBody c
      let seq := beAt b 30 2
      let peer := slice b 20 10
      let frac := fun (t : FT64) => ((t.toNat % 256 : Nat) : Int)
      let (corr, s) := s.ptpCorr b
      let follow := s.ptpFrame src (s.ptpHead 10 54 0 0 (src / 8) seq ++ ptpBytes 0 ++ peer)
      s.sendCtl src { bytes := s.ptpFrame src (s.ptpHead 3 54 0x200 (-(frac c.stamp)) (src / 8) seq ++ ptpBytes c.stamp ++ peer),
                      start := .pdelayResp follow corr, seqd := true }

/-- A Pdelay_Resp: one-step gives the result, two-step waits for the follow-up. -/
def State.pdelayResp (s : State) (c : Ctl) : State :=
  let b := ptpBody c
  match s.clk.pdReq with
  | none => s.ptpFault
  | some r =>
    if r.seq != beAt b 30 2 then s.ptpFault
    else
      let (corr, s) := s.ptpCorr b
      if bitOf (byteAt b 6) 1 then { s with clk := { s.clk with pdReq := some { r with resp := some (ptpStamp b 34, c.stamp, corr) } } }
      else match r.t1 with
        | some t1 => s.peerDelay t1 0 0 c.stamp corr
        | none => s.ptpFault

/-- A Pdelay_Resp_Follow_Up. -/
def State.pdelayFollow (s : State) (c : Ctl) : State :=
  let b := ptpBody c
  match s.clk.pdReq with
  | some { seq := q, t1 := some t1, resp := some (t2, t4, corr) } =>
    if q != beAt b 30 2 then s.ptpFault else let (c2, s) := s.ptpCorr b; s.peerDelay t1 t2 (ptpStamp b 34) t4 (corr + c2)
  | _ => s.ptpFault

/-- A Pdelay_Resp or its follow-up, whichever came first. -/
def State.pdelayRespRx (s : State) (src : Nat) : State :=
  match s.takeCtl src (fun c => isPtp 3 c || isPtp 10 c) with
  | none => s
  | some (c, s) => if s.designated 1 != src then s else if isPtp 3 c then s.pdelayResp c else s.pdelayFollow c

/-- An Announce is reported in TIME_PTP_GM. -/
def State.announceRx (s : State) (src : Nat) : State :=
  match s.takeCtl src (isPtp 11) with
  | none => s
  | some (c, s) => if s.designated 1 != src then s else s.setReg TIME_PTP_GM_gm_identity (beAt (ptpBody c) 53 8)

/-! ### Pins (R39) -/

/-- The stamp that captures an edge now: whole ns, within ±1 ns of device time (R39). -/
def State.ppsCapture (s : State) : FT64 := (offBy 256 s.now (Config.ppsError s.clk.cyc) >>> 8) <<< 8

/-- FT_REF has stopped, no more than 1 µs ago (R462). -/
def State.refJustStopped (s : State) : Bool := s.clk.refStop.any (fun t => decide (ftDiff t s.now ≤ 256000))

/-- A rising edge of FT_PPS_IN in pin mode: after each, TIME_PPS_NEXT is 10^9 ns later. One with no time written for it, or within 1 µs after
FT_REF stops, is not used (R39, R462). -/
def State.ppsEdge (s : State) : State :=
  if !s.judged 2 then s
  else
    let next : FT64 := BitVec.ofNat 64 (s.reg TIME_PPS_NEXT_next)
    let s := s.setReg TIME_PPS_NEXT_next (next + ns 1000000000).toNat
    if s.refJustStopped then s
    else
      let s := { s with clk := { s.clk with lastPps := s.now } }
      if !s.clk.ppsWritten then s.countSat TIME_COUNTS_src_faults
      else s.measure 2 (ftDiff s.ppsCapture next + s.asymOf 2)

/-! ### The commands -/

def execTimeSrcCfgWrite (v : Nat) (s : State) : Host.Outcome State Fault Refusal := s.does (fun s => s.srcCfgWrite v)
def execTimeRateWrite (v : Nat) (s : State) : Host.Outcome State Fault Refusal := s.does (fun s => s.rateWrite v)
def execBeaconRx (p : Port) (l : Lp) (s : State) : Host.Outcome State Fault Refusal := s.does (fun s => s.beaconRx (srcOf p l))
def execBeaconTxTimer (s : State) : Host.Outcome State Fault Refusal := s.does State.beaconTimer
def execLinkDelayReqTimer (s : State) : Host.Outcome State Fault Refusal := s.does State.delayTimer
def execLinkDelayReqRx (p : Port) (l : Lp) (s : State) : Host.Outcome State Fault Refusal := s.does (fun s => s.linkReqRx (srcOf p l))
def execLinkDelayRespRx (p : Port) (l : Lp) (s : State) : Host.Outcome State Fault Refusal := s.does (fun s => s.linkRespRx (srcOf p l))
def execPtpSyncRx (p : Port) (l : Lp) (s : State) : Host.Outcome State Fault Refusal := s.does (fun s => s.syncRx (srcOf p l))
def execPtpFollowUpRx (p : Port) (l : Lp) (s : State) : Host.Outcome State Fault Refusal := s.does (fun s => s.followUpRx (srcOf p l))
def execPtpPdelayReqRx (p : Port) (l : Lp) (s : State) : Host.Outcome State Fault Refusal := s.does (fun s => s.pdelayReqRx (srcOf p l))
def execPtpPdelayRespRx (p : Port) (l : Lp) (s : State) : Host.Outcome State Fault Refusal := s.does (fun s => s.pdelayRespRx (srcOf p l))
def execPtpAnnounceRx (p : Port) (l : Lp) (s : State) : Host.Outcome State Fault Refusal := s.does (fun s => s.announceRx (srcOf p l))
def execFtPpsEdge (s : State) : Host.Outcome State Fault Refusal := s.does State.ppsEdge
def execSourceLoss (cause : LossCause) (s : State) : Host.Outcome State Fault Refusal :=
  s.does (fun s => if s.lossHolds cause then s.sourceLost else s.refSeen cause)
def execHoldoverExpire (s : State) : Host.Outcome State Fault Refusal := s.does State.holdoverExpire

end Sys2Proof.Machine
end

