-- ==== Sys2Proof/Machine/Reset.lean ====
section
/-! DEFINITION. Errors of table words, blocks and the device, the reset types, bring-up, and the board's signals (chapters 19 and 20). -/

namespace Sys2Proof.Machine

/-! ### Errors (R433–R436) -/

/-- HUB_FATAL_LOG keeps the first device-fatal error (R436). -/
def State.fatalLog (s : State) (unit cause index : Nat) : State :=
  if s.flag HUB_FATAL_LOG_valid then s
  else
    ((((((s.setReg HUB_FATAL_LOG_class 4).setReg HUB_FATAL_LOG_unit unit).setReg HUB_FATAL_LOG_cause cause).setReg HUB_FATAL_LOG_index index).setW1c
      HUB_FATAL_LOG_valid 1).setReg HUB_FATAL_STAMP_stamp s.now.toNat).stamped

/-- A device-fatal error (R435). -/
def State.deviceFatal (s : State) (unit cause index : Nat) : State :=
  let s := (s.fatalLog unit cause index).rasLog 4 unit cause 0 index
  let s := if s.sys.fatal then s else s.emit (.pin "FAULT_N" false)
  let s := { s with sys := { s.sys with fatal := true, txDark := true, selfRefresh := true } }
  let s := s.selfFence
  let s := (List.range 24).foldl State.portDown s
  ((s.mirPort 0 false).mirPort 1 false).raise (evRas HUB_RAS_STATUS_fatal_ev)

/-- An uncorrectable table word is fetched from the master copy (R433). -/
def State.tableRepair (s : State) (masterBad : Bool) : State :=
  if masterBad then s.deviceFatal 32 2 0 else (s.count HUB_CTR_table_repairs).rasCorrected

/-- A class 3 error is counted and logged (R430, R432). -/
def State.rasBlock (s : State) (unit cause index : Nat) : State :=
  ((s.count HUB_CTR_block_errors).raise (evRas HUB_RAS_STATUS_block_ev)).rasLog 3 unit cause 0 index

/-- A context of a channel in error drains; one that is still loading ends (R434). -/
def State.blockCtx (s : State) (cx : Nat) : State :=
  if (s.ctx cx).st == .loading then s.endCtx cx stQueueFault else s.fault cx 5 stQueueFault (s.ctx cx).pc 0

/-- A step of a collective is open once its first frame is accepted (R276). -/
def Grp.opens (g : Grp) : List Nat :=
  let n := gStep g.entry
  let disp := !g.disp.srcs.isEmpty || !g.disp.waiting.isEmpty || g.disp.batches.any (fun b => b.2.st != .free)
  if gKind g.entry = 5 then (if disp then [n] else [])
  else (if g.cur.opened.isSome then [n] else []) ++ (if g.next.opened.isSome then [(n + 1) % 2 ^ 32] else [])

/-- Groups of a channel that this device owns and that hold open steps, with the first of these steps (R434; DEDUCED: a dispatch group holds one
while it has a token of a source, or a batch, that has not gone home). -/
def State.openOf (s : State) (ch : Nat) : List (Nat × Nat) :=
  (s.groups.filter (fun g => gCh g.2.entry == ch && gOwn g.2.entry)).filterMap (fun g => g.2.opens.head?.map (fun n => (g.1, n)))

/-- A parity error confined to the head entry of queue V, S, X or P: the entry faults with ST_QUEUE_FAULT (R177, R430). -/
def State.parityError (s : State) (cx q : Nat) : State :=
  match ((s.ctx cx).queue q).head? with
  | some e =>
    if q == 0 || !(s.ctx cx).running || !isEngine (iOp e.word) then s
    else (s.rasContained (chOf cx / 2) 3 stQueueFault (chOf cx)).failEntry cx q stQueueFault e
  | none => s

/-- A word of a channel's scratch has become uncorrectable (R431): what reads it finds out. -/
def State.scratchError (s : State) (ch w : Nat) : State :=
  s.modChan ch (fun c => { c with scratchUe := if 0x6000000 / 32 ≤ w || c.scratchUe.contains w then c.scratchUe else w :: c.scratchUe })

/-- A reset of the block has been taken in this cycle: it clears the error (R446). -/
def State.justReset (s : State) (n : Nat) : Bool := s.sys.lastReset == some (n, s.clk.cyc)

/-- An internal error, of a block (R434), corrected, or confined to an entry or to a word of a channel's memories (R430, R431). -/
def State.blockError (s : State) (b : Block) : State :=
  match b with
  | .corrected k => (s.count (match k.val with | 0 => HUB_CTR_sram_ce | 1 => HUB_CTR_d2d_crc_retries | _ => HUB_CTR_cxl_ce)).rasCorrected
  | .entry cx q => s.parityError cx.val q.val
  | .scratch ch w => s.scratchError ch.val w
  | .bank ch t k => s.modChan ch.val (fun c => { c with bankUe := if c.bankUe.contains (4 * t.val + k.val) then c.bankUe else (4 * t.val + k.val) :: c.bankUe })
  | .instruction cx n => s.modCtx cx.val (fun k => if n < k.prog.length then { k with progUe := n :: k.progUe } else k)
  | .port p =>
    let s := s.rasBlock (p.val / 6) 3 p.val
    if s.justReset p.val then s else (s.modPort p.val (fun q => { q with blocked := true })).portDown p.val
  | .channel ch =>
    let s := s.rasBlock (ch.val / 2) 3 ch.val
    if s.justReset (24 + ch.val) then s else
    let s := s.modChan ch.val (fun c => { c with blocked := true })
    let s := (List.range 32).foldl (fun s c => s.blockCtx (32 * ch.val + c)) s
    (s.openOf ch.val).foldl (fun s g => s.corrupt g.1 g.2 stQueueFault) s

/-- Restarts of an MCP core within the last 60 s of device time (R44, R434). -/
def State.mcpRecent (s : State) (core : Nat) : List (Nat × FT64) := s.sys.mcpRestarts.filter (fun r => r.1 == core && !s.elapsed r.2 60000000000)

/-- An MCP core's watchdog expires: the core restarts, or its third restart within 60 s is fatal (R434, R446). -/
def State.mcpWatchdog (s : State) (core : Nat) : State :=
  let s := s.rasBlock 32 4 core
  if s.sys.fatal then s
  else
    if 2 ≤ (s.mcpRecent core).length then s.deviceFatal 32 10 core
    else
      (({ s with sys := { s.sys with mcpRestarts := (core, s.now) :: s.sys.mcpRestarts } }).count HUB_CTR_mcp_restarts).raise
        (evRas HUB_RAS_STATUS_mcp_restart_ev)

/-- HUB_RAS_CTR_CLEAR (R73). -/
def State.rasCtrClear (s : State) : State := s.clearCounters (fun k => keyIn 0x700 0x740 k || keyIn 0x808 0x810 k)

/-! ### Resets of the hub (R438–R442) -/

/-- Registers that the AON rail keeps (R436, R439). -/
def aonOffsets : List Nat := [0x620, 0x628, PWR_TRIP_LOG_die.off, PWR_TRIP_LOG_temp.off, PWR_TRIP_LOG_valid.off]

/-- Pins as a reset of the hub drives them (R356, R435, R442, R451). -/
def State.resetPins (s : State) : List Out :=
  [.pin "LS_RST_N" false, .pin "MIRROR_ALIVE_OUT" false] ++ (if s.sys.fatal then [.pin "FAULT_N" true] else []) ++
    (if s.sys.tripLow then [.pin "THERM_TRIP_N" true] else [])

/-- A reset that reinitializes the hub (R439, R440): what lasts is AON's registers, the fuses, and in a warm reset the store's bytes. -/
def State.hubReset (s0 : State) (last : Nat) (aon cold : Bool) : State :=
  let loading := s0.reg SEC_STATUS_load_state == 1 || s0.reg SEC_STATUS_load_state == 2
  let s := if loading && !cold then s0.undoLoad else s0
  let kept := if aon then [] else s.regs.filter (fun e => aonOffsets.contains (e.1 / 64))
  let hw := { s.hw with dark := List.range 9, erased := s.hw.erased && !aon }
  let t : State :=
    { regs := kept.foldl (fun r e => Tab.insert r e.1 e.2) (hwRegs hw), hw := hw
      sys := { power := .held, cold := cold, lasers := s.sys.lasers, selfRefresh := !cold }
      store := if cold then {} else { mem := s.store.mem, ue := s.store.ue }
      out := s.out ++ s.resetPins, fresh := s.fresh, pending := s.pending }
  t.setReg HUB_RESET_STATUS_last last

/-- RESET_N and PWRGOOD are both high: the reset ends and bring-up starts (R438, R443). -/
def State.resetEnd (s : State) : State :=
  if s.sys.power == .held then
    ({ s with sys := { s.sys with power := .run, phase := 1, endCyc := s.clk.cyc } }).emit (.pin "MIRROR_ALIVE_OUT" true)
  else s

/-- A warm reset (R438, R440). RESET_N holds the device until it rises; the other causes end at once. -/
def State.warmReset (s : State) (src : WarmSrc) : State :=
  match src with
  | .resetN => if s.sys.power == .run || s.sys.power == .tripped then s.hubReset 2 false false else s
  | .cxl => if s.live then (s.hubReset 3 false false).resetEnd else s
  | .ctrl key => if s.live && key % 256 == 0xC3 then (s.hubReset 4 false false).resetEnd else s

/-- PWRGOOD falls (R454, R462): nothing lasts but AON's registers, the fuses, and the pins that AON's rail drives until the next reset. -/
def State.pwrgoodFall (s : State) : State :=
  let t := s.hubReset 0 false true
  { t with
    sys := { t.sys with power := .down, txDark := true, fatal := s.sys.fatal, tripLow := s.sys.tripLow }
    out := s.out ++ [.pin "LS_RST_N" false, .pin "MIRROR_ALIVE_OUT" false] }

/-- AON power-up (R438, R454): VDD_HD is still off, and stays so until PWRGOOD has risen. -/
def State.aonPowerUp (s : State) : State :=
  let t := s.hubReset 0 true true
  { t with sys := { t.sys with power := .down, txDark := true } }

/-! ### Resets of a function, a port, a channel (R441) -/

/-- A CXL function level reset: descriptors go without a record, contexts end without one. -/
def State.flr (s : State) : State :=
  let s := { s.voidNonce with host := { next := s.host.next, applied := s.host.applied } }
  let s := (List.range 256).foldl (fun s cx => if (s.ctx cx).st == .idle then s else s.endCtx cx stFenced) s
  let s := { s with host := { next := s.host.next, applied := s.host.applied } }
  { s with regs := ((s.regs.resetRange 0x300000 0x400000).resetRange 0x8000 0x9008).resetRange 0x50 0x54 }

/-- A port or channel reset is in progress for at most `bound` ns: how long is free (R441). -/
def State.resetBusy (s : State) (block bound : Nat) : State :=
  let (n, s) := s.draw
  let s := { s with sys := { s.sys with lastReset := some (block, s.clk.cyc) } }
  (s.setReg HUB_RESET_STATUS_busy 1).schedule (s.now + ns (1 + pick bound n)) .resetDone

/-- A port reset, refused while another port or channel reset is in progress: its links go down, a frame under way on them ends as aborted, a block error ends, its registers take their reset values. -/
def State.portReset (s : State) (p : Nat) : State :=
  if s.flag HUB_RESET_STATUS_busy then s.setW1c HUB_RESET_STATUS_refused 1
  else
  let s := (List.range 8).foldl (fun s l => s.rxTail p l [] .abort) s.voidNonce
  let s := (List.range 8).foldl (fun s l => if (s.link (8 * p + l)).st == .disabled then s else s.linkDown (8 * p + l) .disabled) s
  let base := 0x400000 + 0x20000 * p
  let s := (s.unschedule (.gateApply p)).unschedule (.gateChange p)
  let s := (List.range 64).foldl (fun s k => s.unschedule (.shaper (8 * p + k / 8) (k % 8))) s
  let s := (List.range 8).foldl (fun s l => s.setLink (8 * p + l) {}) s
  let s := { s with regs := s.regs.resetRange base (base + 0x20000), ports := s.ports.erase p }
  (s.setReg (PORT_STATUS_laser_ok p) (bit1 (!s.hw.dark.contains (p / 3)))).resetBusy p 10000

/-- A channel reset, refused while a valid group names the channel as owner or a reset is in progress: its contexts end with ST_FENCED, its block, scratch and
banks are as at reset, a block error ends. -/
def State.channelReset (s : State) (ch : Nat) : State :=
  if s.flag HUB_RESET_STATUS_busy || s.groups.any (fun g => gCh g.2.entry == ch) then s.setW1c HUB_RESET_STATUS_refused 1
  else
    let s := (List.range 32).foldl (fun s c =>
      if (s.ctx (32 * ch + c)).st == .idle then s else (s.flushHeads (32 * ch + c)).endCtx (32 * ch + c) stFenced) s.voidNonce
    let spare := (List.range 16).map (fun g => s.reg (CH_SPARE_STATUS_group ch g))
    let base := 0x800000 + 0x100000 * ch
    let s := { s with
      regs := s.regs.resetRange base (base + 0x100000), chans := s.chans.erase ch
      ctxs := s.ctxs.filter (fun k => k.1 / 32 != ch)
      clk := { s.clk with pips := s.clk.pips.filter (fun p => p.ch != ch) } }
    ((spare.zipIdx).foldl (fun s x => s.setReg (CH_SPARE_STATUS_group ch x.2) x.1) s).resetBusy (24 + ch) 50000

/-! ### Bring-up (R443) -/

/-- Self-test: the tile groups of the grade are present, a spare covers a group's first failed tile, a further one makes it absent. -/
def State.selfTest (s : State) (failed : List (Nat × Nat)) : State :=
  let n := if s.hw.grade = 0 then 16 else 8
  let s := (List.range 8).foldl (fun s c =>
    let s := (s.setReg (HUB_CAPS_PRESENT_ch (c / 4) (c % 4)) (2 ^ n - 1)).setReg (HUB_CAPS_SPARE_ch (c / 4) (c % 4)) (if s.hw.grade = 0 then 0xFFFF else 0)
    (List.range (16 - n)).foldl (fun s g => s.setReg (CH_SPARE_STATUS_group c (n + g)) 3) s) s
  failed.foldl (fun s f =>
    if n ≤ f.2 ∨ 8 ≤ f.1 then s
    else
      let s := s.groupFails f.1 f.2
      if s.reg (CH_SPARE_STATUS_group f.1 f.2) = 2 then s.spareRemap f.1 f.2 else s) s

/-- Acorn awaits the bundle (R388, R443). -/
def State.await (s : State) : State :=
  ({ s with sys := { s.sys with phase := 7 } }).setReg HUB_BOOT_TIME_await_ms s.bootMs

def State.setPhase (s : State) (n : Nat) : State := { s with sys := { s.sys with phase := n } }

/-- A phase has completed or failed. -/
def State.bringUp (s : State) (res : PhaseResult) : State :=
  match s.sys.phase, res with
  | 1, .done => s.setPhase 2
  | 2, .done => s.setPhase 3
  | 3, .done => s.setPhase 4
  | 4, .done => (s.selfTest []).setPhase 5
  | 4, .selfTest l => (s.selfTest l).setPhase 5
  | 5, .done =>
    let s := { s with sys := { s.sys with selfRefresh := false } }
    if s.sys.cold then s.setPhase 6 else s.await
  | 6, .done => ({ s with store := { s.store with mem := [], ue := [] } }).await
  | 2, .fail => (s.setPhase 0).deviceFatal 32 8 0
  | 3, .fail => (s.setPhase 0).deviceFatal 32 7 0
  | 5, .fail => (s.setPhase 0).deviceFatal 32 0 0
  | _, _ => s

/-! ### The board (R451, R452, R458, R459) -/

/-- A laser module is taken out (R452). With the clocks stopped only its presence changes. -/
def State.moduleOut (s : State) (t : Nat) (busy : Bool) : State :=
  let s := { s.unschedule (.laserRun t) with sys := { s.sys with lasers := s.sys.lasers.filter (· != t) } }
  if !s.live then s
  else (if busy then s.count HUB_LS_I2C_ERR_ls_i2c_errors else s).tileDark t

/-- A laser module is put in: it is held in reset for 100 ms, and then runs once a bundle does (R451, R452). -/
def State.moduleIn (s : State) (t : Nat) : State :=
  if s.sys.lasers.contains t then s
  else
    let s := { s with sys := { s.sys with lasers := insertBy (fun a b => decide (a ≤ b)) t s.sys.lasers } }
    if !s.live then s else
    let s := s.setReg HUB_BOARD_STATUS_ls_run (clearBit (s.reg HUB_BOARD_STATUS_ls_run) t)
    let e : Sched := { at_ := s.now + ns 100000000, ord := 2 ^ 32 + t, ev := .laserRun t }
    { s with clk := { s.clk with sched := insertSched e s.clk.sched } }

/-- Registers that the sideband reads (R458): HUB_CAPS, HUB_STATUS, HUB_RAS_STATUS, HUB_FATAL_LOG, HUB_FATAL_STAMP, PWR_NOW, PWR_TJ,
PWR_TRIP_LOG, SEC_STATUS, MIR_STATUS. -/
def sidebandOffsets : List Nat :=
  [0x0, 0x30, 0x600, 0x620, 0x628, PWR_NOW_p_now.off, PWR_TJ_tj_max.off, PWR_TRIP_LOG_die.off, SEC_STATUS_load_state.off, 0x1400008]

/-- What a sideband read of an offset returns. With the rails down AON answers for its registers, every other reads as all ones. -/
def State.sidebandWord (s : State) (off : Nat) : Nat :=
  if s.sys.power == .down && !aonOffsets.contains off then 2 ^ 64 - 1
  else if sidebandOffsets.contains off then (match regAt regTable off with | some d => s.readReg off d.width | none => 0)
  else 0

/-- SB_ALERT_N is low while a device-fatal error is flagged or THERM_TRIP_N is low (R458). -/
def State.sbAlert (s : State) : Bool := s.flag HUB_RAS_STATUS_fatal_ev || s.sys.tripLow

/-- A sideband transfer: a read command at the device's address is answered. -/
def State.sideband (s : State) (addr cmd off : Nat) : State :=
  if addr != (if s.hw.sbAddr then 0x4B else 0x4A) || cmd != 1 then s else s.emit (.sideband (leBytes 8 (s.sidebandWord off)))

/-- The JTAG IDCODE (R459): version 1 for A1 and 2 for B0, part 0xF024, the manufacturer's identity, 1. -/
def State.idcode (s : State) : Nat := (if s.hw.stepping = 0xB0 then 2 else 1) * 2 ^ 28 + 0xF024 * 2 ^ 12 + Config.jtagMaker % 2 ^ 11 * 2 + 1

/-! ### The commands -/

/-- A device-fatal error that coincides with a thermal trip: the trip prevails, but the log is written (R446). -/
def State.fatalAfterTrip (s : State) (unit cause index : Nat) : State := if s.sys.power == .tripped then s.fatalLog unit cause index else s

def execTableWordRepair (masterBad : Bool) (s : State) : Host.Outcome State Fault Refusal :=
  .next (if s.live then s.tableRepair masterBad else if masterBad then s.fatalAfterTrip 32 2 0 else s)
def execBlockError (b : Block) (s : State) : Host.Outcome State Fault Refusal := s.does (fun s => s.blockError b)
/-- The MCP's cores wait for the bundle in reset (R389). -/
def execMcpWatchdog (core : Fin 4) (s : State) : Host.Outcome State Fault Refusal :=
  .next (if s.live then s.whenReady (fun s => s.mcpWatchdog core.val)
    else if s.flag HUB_STATUS_ready && !s.sys.fatal && decide (2 ≤ (s.mcpRecent core.val).length) then s.fatalAfterTrip 32 10 core.val
    else s)
/-- A device-fatal error. -/
def execDeviceFatal (unit cause index : Nat) (s : State) : Host.Outcome State Fault Refusal :=
  .next (if s.live then s.deviceFatal unit cause index else s.fatalAfterTrip unit cause index)
def execAonPowerUp (s : State) : Host.Outcome State Fault Refusal := .next s.aonPowerUp
def execColdReset (s : State) : Host.Outcome State Fault Refusal := .next (s.hubReset 1 false true)
def execWarmReset (src : WarmSrc) (s : State) : Host.Outcome State Fault Refusal := .next (s.warmReset src)
def execResetEnd (s : State) : Host.Outcome State Fault Refusal := .next s.resetEnd
def execFlr (s : State) : Host.Outcome State Fault Refusal := s.does State.flr
def execPortReset (p : Port) (s : State) : Host.Outcome State Fault Refusal := s.does (fun s => s.portReset p.val)
def execChannelReset (ch : Ch) (s : State) : Host.Outcome State Fault Refusal := s.does (fun s => s.channelReset ch.val)
def execBringupPhaseComplete (res : PhaseResult) (s : State) : Host.Outcome State Fault Refusal := s.does (fun s => s.bringUp res)
def execRasCounterClear (s : State) : Host.Outcome State Fault Refusal := s.does State.rasCtrClear
def execPwrgoodFall (s : State) : Host.Outcome State Fault Refusal := .next s.pwrgoodFall
def execLaserModuleRemoved (t : Tile) (busy : Bool) (s : State) : Host.Outcome State Fault Refusal := .next (s.moduleOut t.val busy)
def execLaserModuleInserted (t : Tile) (s : State) : Host.Outcome State Fault Refusal := .next (s.moduleIn t.val)
def execSidebandRead (addr cmd off : Nat) (s : State) : Host.Outcome State Fault Refusal := .next (s.sideband addr cmd off)
def execJtagIdcode (s : State) : Host.Outcome State Fault Refusal :=
  .next (if s.sys.power == .down then s else s.emit (.jtag s.idcode))

end Sys2Proof.Machine
end

