-- ==== Sys2Proof/Machine/RegWrite.lean ====
section
/-! DEFINITION. A host write to a register of BAR0 (R7, R8, R360, R444). A register whose write does more than R8 says goes to the
operation that the row of its own performs. -/

namespace Sys2Proof.Machine

/-- A WO bit 0 that clears counters, or performs another action. -/
def onBit0 (v : Nat) (f : State → State) (s : State) : State := if bitOf v 0 then f s else s

/-- HUB_RESET_CTRL (R438, R441): a warm reset goes before the others; of a port and a channel reset in one write the port's goes first, so
the channel's is refused. -/
def State.resetCtrl (s : State) (v : Nat) : State :=
  if bitOf v 0 && bits v 8 8 == 0xC3 then s.warmReset (.ctrl (bits v 8 8))
  else
    let s := if bitOf v 16 && decide (bits v 17 5 < 24) then s.portReset (bits v 17 5) else s
    if bitOf v 22 then s.channelReset (bits v 23 3) else s

/-- A vector's mask is written; a pending vector that is unmasked is sent (R378). -/
def State.msixMask (s : State) (k v : Nat) : State :=
  let s := s.setReg (HUB_MSIX_CTRL_mask k) (bits v 0 1)
  if !bitOf v 0 && bitOf (s.reg HUB_MSIX_PBA_pending) k then (s.setReg HUB_MSIX_PBA_pending (clearBit (s.reg HUB_MSIX_PBA_pending) k)).signal k else s

/-- A write to the MSI-X table: aligned accesses of 32 or 64 bits reach the fields of an entry, as its format in PCIe allows (R378). -/
def State.msixWrite (s : State) (off width v : Nat) : State :=
  let k := (off - 0x8000) / 16
  let a := s.reg (HUB_MSIX_ADDR_addr k)
  match width, off % 16 with
  | 32, 0 => s.setReg (HUB_MSIX_ADDR_addr k) (a / 2 ^ 32 * 2 ^ 32 + v % 2 ^ 32)
  | 32, 4 => s.setReg (HUB_MSIX_ADDR_addr k) (a % 2 ^ 32 + v % 2 ^ 32 * 2 ^ 32)
  | 32, 8 => s.setReg (HUB_MSIX_DATA_data k) v
  | 32, 12 => s.msixMask k v
  | 64, 0 => s.setReg (HUB_MSIX_ADDR_addr k) v
  | 64, 8 => (s.setReg (HUB_MSIX_DATA_data k) v).msixMask k (v / 2 ^ 32)
  | _, _ => s

def State.writeHub (s : State) (off v : Nat) : State :=
  if off = 0x630 then s.resetCtrl v
  else if off = 0x640 then onBit0 v State.rasCtrClear s
  else s.putReg off v

/-- SEC_NC_CTRL and the response window (R397, R400): a request goes before a submit; a relock comes last, and fails a submit of its cycle. -/
def State.writeSec (s : State) (off v : Nat) : State :=
  if off = 0x100100 then
    let s := if bitOf v 0 then s.ncRequest (bits v 1 2) else s.setReg SEC_NC_CTRL_level (bits v 1 2)
    let s := if bitOf v 3 then (if bitOf v 4 && s.reg SEC_NC_STATUS_state != 3 then s.ncFail else s.ncSubmit) else s
    if bitOf v 4 then s.ncRelock else s
  else if 0x101000 ≤ off then { s with sec := { s.sec with resp := s.sec.resp.put 0 ((off - 0x101000) / 4) (v % 2 ^ 32) } }
  else s.putReg off v

def State.writePwr (s : State) (off v : Nat) : State :=
  if off = 0x200008 then s.limitWrite v
  else if off = 0x200054 then s.phaseWrite v
  else if off = 0x200020 then onBit0 v State.pwrCtrClear s
  else s.putReg off v

/-- Rings (R362, R363, R381): BASE is taken while en is 0, CFG enables or disables. -/
def State.writeRing (s : State) (off v : Nat) : State :=
  if off = 0x300008 then onBit0 v State.ringCtrClear s
  else if 0x310000 ≤ off ∧ off < 0x320000 then
    let i := (off - 0x310000) / 0x20
    if off % 0x20 = 8 then (if bitOf v 0 then s.sqEnable i v else s.sqDisable i v)
    else if s.flag (RING_SQ_CFG_en i) then s else s.putReg off v
  else if 0x320000 ≤ off ∧ off < 0x330000 then
    let j := (off - 0x320000) / 0x20
    if off % 0x20 = 8 then (if bitOf v 0 then s.cqEnable j v else s.cqDisable j v)
    else if off % 0x20 = 0 && s.flag (RING_CQ_CFG_en j) then s
    else if off % 0x20 = 0xC then (s.putReg off v).cqDue j
    else s.putReg off v
  else s.putReg off v

/-- PORT_GATE_CTRL (R136): the administrative part is closed while a change is pending. -/
def State.gateCtrl (s : State) (p v : Nat) : State :=
  let s := s.setReg (PORT_GATE_CTRL_en p) (bits v 0 1)
  let s := if bitOf v 3 && s.latchNow.bits.get 0 (PORT_GATE_CTRL_cfg_err p).key = 0 then s.setReg (PORT_GATE_CTRL_cfg_err p) 0 else s
  let s := if s.flag (PORT_GATE_CTRL_pending p) then s else s.setReg (PORT_GATE_CTRL_admin_len p) (bits v 4 9)
  if bitOf v 1 then s.gateCfgChange p else s

/-- Registers of a PORT_ block. A value outside the range a register's table states, as a max_frame outside 1,518–65,600 (R56), is stored as
written where no rule gives an outcome (DESIGN CHOICE). -/
def State.writePort (s : State) (off v : Nat) : State :=
  let p := (off - 0x400000) / 0x20000
  let o := (off - 0x400000) % 0x20000
  if o = 0 then (if bitOf v 0 then s.portEnable p (bits v 1 2) else s.portDisable p (bits v 1 2))
  else if o = 0x10 then s.fcCfgWrite p v
  else if o = 0x38 then onBit0 v (fun s => s.portCtrClear p) s
  else if o = 0x100 then s.classCfgWrite p v
  else if o = 0x180 then s.gateCtrl p v
  else if o = 0x188 ∨ o = 0x190 ∨ (0x4000 ≤ o ∧ o < 0x4400) then (if s.flag (PORT_GATE_CTRL_pending p) then s else s.putReg off v)
  else if mirroredReg o then s.hostMirrored p o v
  else s.putReg off v

def State.writeTime (s : State) (off v : Nat) : State :=
  if off = 0x700004 then s.srcCfgWrite v
  else if off = TIME_RATE_rate.off then s.rateWrite v
  else if off = 0x700038 then let s := s.putReg off v; { s with clk := { s.clk with ppsWritten := true } }
  else s.putReg off v

def State.writeCh (s : State) (off v : Nat) : State :=
  let n := (off - 0x800000) / 0x100000
  let o := off % 0x100000
  if o = 0 then s.coreCfgWrite n v
  else if o = 0x14 then onBit0 v (fun s => s.chCtrClear n) s
  else if o = 0x400 then onBit0 v (fun s => s.excRearm n) s
  else s.putReg off v

/-- The store and its pools (R93, R94, R107): counts are taken while the store is disabled; new thresholds are judged at once. -/
def State.writeStore (s : State) (off v : Nat) : State :=
  if off = 0x1000000 then (if bitOf v 0 then s.storeEnable (bitOf v 1) else s.storeOff (bitOf v 1))
  else if off = 0x1000008 then s.regionWrite v
  else if off = 0x100003C then onBit0 v State.storeCtrClear s
  else if off = 0x1000020 then (s.putReg off v).bpSync
  else if 0x1010000 ≤ off ∧ off < 0x1010180 ∧ off % 0x40 = 0 then (if s.flag STORE_CTRL_enable then s else s.putReg off v)
  else if 0x1020000 ≤ off ∧ off % 0x20 = 0x18 then onBit0 v (fun s => s.ownerCommit ((off - 0x1020000) / 0x20)) (s.putReg off v)
  else s.putReg off v

/-- The pod (R402): MIR_CFG is taken in SOLO; leave acts before join. -/
def State.writeMir (s : State) (off v : Nat) : State :=
  if off = 0x1400000 then (if s.pod == podSolo then s.putReg off v else s)
  else if off = 0x1400004 then
    let s := if bitOf v 1 then s.mirLeave else s
    onBit0 v State.mirJoin s
  else if off = 0x1400014 then onBit0 v State.mirCtrClear s
  else if off = 0x1400018 then s.mirPortCfg v
  else if off = 0x1400060 then s.oobCfg v
  else s.putReg off v

/-- Seedbank (R336): its configuration is taken in IDLE. -/
def State.writeSbk (s : State) (off v : Nat) : State :=
  let o := off - 0x1500000
  if o = 0x10 then s.policyWrite v
  else if o = 0xF0 then onBit0 v State.sbkCtrClear s
  else if 0x100 ≤ o ∧ o < 0x180 then s.seedWrite ((o - 0x100) / 8) v
  else if [0, 4, 0x18, 0x20, 0x40].contains o then (if s.reg SBK_STATUS_state = 0 then s.putReg off v else s)
  else s.putReg off v

def State.writeGrp (s : State) (off v : Nat) : State :=
  if off = 0x160000C then onBit0 v State.grpCtrClear s else s.putReg off v

/-- The block of an offset takes the write (R360). -/
def State.writeBlock (s : State) (off v : Nat) : State :=
  if off < 0x100000 then s.writeHub off v
  else if off < 0x200000 then s.writeSec off v
  else if off < 0x300000 then s.writePwr off v
  else if off < 0x400000 then s.writeRing off v
  else if off < 0x700000 then s.writePort off v
  else if off < 0x800000 then s.writeTime off v
  else if off < 0x1000000 then s.writeCh off v
  else if off < 0x1400000 then s.writeStore off v
  else if off < 0x1500000 then s.writeMir off v
  else if off < 0x1600000 then s.writeSbk off v
  else s.writeGrp off v

/-- Blocks that take writes before a bundle runs (R444). -/
def openEarly (off : Nat) : Bool :=
  decide (off < 0x200000) || (decide (0x300000 ≤ off) && decide (off < 0x400000)) || (decide (0x700000 ≤ off) && decide (off < 0x800000)) ||
    off == STORE_REGION_CFG_pkt_size.off

/-- A host write of `width` bits at `off`: nothing happens unless the width is the register's own (R7, R8, R378). -/
def State.hostWriteReg (s : State) (off width v : Nat) : State :=
  if inMsix off then s.msixWrite off width v
  else match regAt regTable off with
    | none => s
    | some d => if d.width != width || (!openEarly off && !s.flag HUB_STATUS_ready) then s else s.writeBlock off (v % 2 ^ width)

/-! ### What a debug level grants over JTAG (R396): the table has no row for these accesses, and each is what one would answer or do -/

/-- Registers of the Nutcracker mailbox, which every level reaches. -/
def ncMailbox (off : Nat) : Bool := (decide (0x100100 ≤ off) && decide (off < 0x100180)) || (decide (0x101000 ≤ off) && decide (off < 0x102C34))

def State.jtagRead (s : State) (off width : Nat) : Nat :=
  if ncMailbox off || 1 ≤ s.reg SEC_STATUS_debug_level then s.readReg off width else 0

def State.jtagWrite (s : State) (off width v : Nat) : State :=
  if ncMailbox off || 2 ≤ s.reg SEC_STATUS_debug_level then s.hostWriteReg off width v else s

def State.jtagStore (s : State) (a n : Nat) : Option Bytes := if 1 ≤ s.reg SEC_STATUS_debug_level then some (s.storeRead a n) else none

def State.jtagStoreWrite (s : State) (a : Nat) (b : Bytes) : State := if 2 ≤ s.reg SEC_STATUS_debug_level then s.storeWrite a b else s

/-- Fuses other than the device secret. -/
def State.jtagFuses (s : State) : Option Bytes :=
  if 2 ≤ s.reg SEC_STATUS_debug_level then
    some (s.hw.vendorRoot ++ s.hw.vendorDebug ++ s.hw.ownerKey.getD (List.replicate 64 0) ++ leBytes 8 s.hw.svn ++ leBytes 2 s.hw.revoke ++ s.hw.serial)
  else none

def execRegisterWrite (off width val : Nat) (s : State) : Host.Outcome State Fault Refusal := s.does (fun s => s.hostWriteReg off width val)

end Sys2Proof.Machine
end

