-- ==== Sys2Proof/Machine/Dispatch.lean ====
section
/-! DEFINITION. The dispatch: one arm per command (R8 and every row of spec/opcode_table.json). -/

namespace Sys2Proof.Machine

/-- The effect of a command on everything but the queue. -/
def exec (i : Instr) (s : State) : Host.Outcome State Fault Refusal :=
  match i with
  | .registerWrite off width val => Sys2Proof.Machine.execRegisterWrite off width val s
  | .scheduledEventFire cycles => Sys2Proof.Machine.execScheduledEventFire cycles s
  | .timeSrcCfgWrite v => Sys2Proof.Machine.execTimeSrcCfgWrite v s
  | .timeRateWrite v => Sys2Proof.Machine.execTimeRateWrite v s
  | .beaconRx p l => Sys2Proof.Machine.execBeaconRx p l s
  | .beaconTxTimer => Sys2Proof.Machine.execBeaconTxTimer s
  | .linkDelayReqTimer => Sys2Proof.Machine.execLinkDelayReqTimer s
  | .linkDelayReqRx p l => Sys2Proof.Machine.execLinkDelayReqRx p l s
  | .linkDelayRespRx p l => Sys2Proof.Machine.execLinkDelayRespRx p l s
  | .ptpSyncRx p l => Sys2Proof.Machine.execPtpSyncRx p l s
  | .ptpFollowUpRx p l => Sys2Proof.Machine.execPtpFollowUpRx p l s
  | .ptpPdelayReqRx p l => Sys2Proof.Machine.execPtpPdelayReqRx p l s
  | .ptpPdelayRespRx p l => Sys2Proof.Machine.execPtpPdelayRespRx p l s
  | .ptpAnnounceRx p l => Sys2Proof.Machine.execPtpAnnounceRx p l s
  | .ftPpsEdge => Sys2Proof.Machine.execFtPpsEdge s
  | .sourceLoss cause => Sys2Proof.Machine.execSourceLoss cause s
  | .holdoverExpire => Sys2Proof.Machine.execHoldoverExpire s
  | .laserLoss t => Sys2Proof.Machine.execLaserLoss t s
  | .laserRestore t => Sys2Proof.Machine.execLaserRestore t s
  | .portEnable p brk => Sys2Proof.Machine.execPortEnable p brk s
  | .portDisable p brk => Sys2Proof.Machine.execPortDisable p brk s
  | .portFcCfgWrite p v => Sys2Proof.Machine.execPortFcCfgWrite p v s
  | .portClassCfgWrite p v => Sys2Proof.Machine.execPortClassCfgWrite p v s
  | .signalDetect p l => Sys2Proof.Machine.execSignalDetect p l s
  | .alignLockDone p l => Sys2Proof.Machine.execAlignLockDone p l s
  | .alignLossTimeout p l => Sys2Proof.Machine.execAlignLossTimeout p l s
  | .fecDegradeInterval p c => Sys2Proof.Machine.execFecDegradeInterval p c s
  | .llrInitTimer p l => Sys2Proof.Machine.execLlrInitTimer p l s
  | .llrInitRx p l => Sys2Proof.Machine.execLlrInitRx p l s
  | .llrInitTimeout p l => Sys2Proof.Machine.execLlrInitTimeout p l s
  | .creditInitRx p l => Sys2Proof.Machine.execCreditInitRx p l s
  | .llrAckRx p l => Sys2Proof.Machine.execLlrAckRx p l s
  | .llrNackRx p l => Sys2Proof.Machine.execLlrNackRx p l s
  | .llrRetryTimeout p l => Sys2Proof.Machine.execLlrRetryTimeout p l s
  | .llrAckTimer p l => Sys2Proof.Machine.execLlrAckTimer p l s
  | .pfcFrameRx p l => Sys2Proof.Machine.execPfcFrameRx p l s
  | .pfcPauseExpire p l c => Sys2Proof.Machine.execPfcPauseExpire p l c s
  | .pfcRefreshTimer p l => Sys2Proof.Machine.execPfcRefreshTimer p l s
  | .creditUpdateRx p l => Sys2Proof.Machine.execCreditUpdateRx p l s
  | .creditKeepaliveTimer p l => Sys2Proof.Machine.execCreditKeepaliveTimer p l s
  | .creditTimeout p l => Sys2Proof.Machine.execCreditTimeout p l s
  | .portCounterClear p => Sys2Proof.Machine.execPortCounterClear p s
  | .frameRxStart p l pre => Sys2Proof.Machine.execFrameRxStart p l pre s
  | .frameDecision p l bytes whole => Sys2Proof.Machine.execFrameDecision p l bytes whole s
  | .frameTail p l rest fcs => Sys2Proof.Machine.execFrameTail p l rest fcs s
  | .egressSelect p l => Sys2Proof.Machine.execEgressSelect p l s
  | .frameTxEnd p l => Sys2Proof.Machine.execFrameTxEnd p l s
  | .egressUnderrun p l => Sys2Proof.Machine.execEgressUnderrun p l s
  | .shaperEligible p l c => Sys2Proof.Machine.execShaperEligible p l c s
  | .gateCfgChange p => Sys2Proof.Machine.execGateCfgChange p s
  | .gateConfigApply p => Sys2Proof.Machine.execGateConfigApply p s
  | .gateChange p => Sys2Proof.Machine.execGateChange p s
  | .policerRateWrite p l c v => Sys2Proof.Machine.execPolicerRateWrite p l c v s
  | .storeEnable scrub => Sys2Proof.Machine.execStoreEnable scrub s
  | .storeDisable scrub => Sys2Proof.Machine.execStoreDisable scrub s
  | .storeRegionCfgWrite v => Sys2Proof.Machine.execStoreRegionCfgWrite v s
  | .poolCacheRefill sl k bad => Sys2Proof.Machine.execPoolCacheRefill sl k bad s
  | .poolCacheSpill sl k => Sys2Proof.Machine.execPoolCacheSpill sl k s
  | .ownerCommit o => Sys2Proof.Machine.execOwnerCommit o s
  | .eccRetryRead addr req clean => Sys2Proof.Machine.execEccRetryRead addr req clean s
  | .scrubRead res => Sys2Proof.Machine.execScrubRead res s
  | .storeCounterClear => Sys2Proof.Machine.execStoreCounterClear s
  | .chCoreCfgWrite ch v => Sys2Proof.Machine.execChCoreCfgWrite ch v s
  | .imageLoadDone cx => Sys2Proof.Machine.execImageLoadDone cx s
  | .engineIssue cx => Sys2Proof.Machine.execEngineIssue cx s
  | .loop cx => Sys2Proof.Machine.execLoop cx s
  | .brk cx => Sys2Proof.Machine.execBrk cx s
  | .cnt cx => Sys2Proof.Machine.execCnt cx s
  | .cmp cx => Sys2Proof.Machine.execCmp cx s
  | .pset cx => Sys2Proof.Machine.execPset cx s
  | .psetMarkerComplete cx q => Sys2Proof.Machine.execPsetMarkerComplete cx q s
  | .pclr cx => Sys2Proof.Machine.execPclr cx s
  | .pwait cx => Sys2Proof.Machine.execPwait cx s
  | .pwaitRelease cx => Sys2Proof.Machine.execPwaitRelease cx s
  | .bar cx => Sys2Proof.Machine.execBar cx s
  | .barMarkerPass cx q => Sys2Proof.Machine.execBarMarkerPass cx q s
  | .hint cx => Sys2Proof.Machine.execHint cx s
  | .mma x => Sys2Proof.Machine.execMma x s
  | .mmz cx => Sys2Proof.Machine.execMmz cx s
  | .cvt cx => Sys2Proof.Machine.execCvt cx s
  | .vop cx => Sys2Proof.Machine.execVop cx s
  | .red cx => Sys2Proof.Machine.execRed cx s
  | .srt cx => Sys2Proof.Machine.execSrt cx s
  | .tpk cx => Sys2Proof.Machine.execTpk cx s
  | .flt cx => Sys2Proof.Machine.execFlt cx s
  | .hst cx => Sys2Proof.Machine.execHst cx s
  | .mov cx host => Sys2Proof.Machine.execMov cx host s
  | .gat cx host => Sys2Proof.Machine.execGat cx host s
  | .sct cx host => Sys2Proof.Machine.execSct cx host s
  | .psend cx => Sys2Proof.Machine.execPsend cx s
  | .precv cx => Sys2Proof.Machine.execPrecv cx s
  | .pfree cx => Sys2Proof.Machine.execPfree cx s
  | .programEnd cx => Sys2Proof.Machine.execProgramEnd cx s
  | .drainComplete cx => Sys2Proof.Machine.execDrainComplete cx s
  | .watchdogTimeout cx => Sys2Proof.Machine.execWatchdogTimeout cx s
  | .rampOpen ch => Sys2Proof.Machine.execRampOpen ch s
  | .tileStartAdmit die half => Sys2Proof.Machine.execTileStartAdmit die half s
  | .spareRemapApply ch g => Sys2Proof.Machine.execSpareRemapApply ch g s
  | .tileFail ch g => Sys2Proof.Machine.execTileFail ch g s
  | .chCounterClear ch => Sys2Proof.Machine.execChCounterClear ch s
  | .excRearm ch => Sys2Proof.Machine.execExcRearm ch s
  | .dataRx k => Sys2Proof.Machine.execDataRx k s
  | .anchorUpRx k => Sys2Proof.Machine.execAnchorUpRx k s
  | .anchorDownRx k => Sys2Proof.Machine.execAnchorDownRx k s
  | .intUpRx k => Sys2Proof.Machine.execIntUpRx k s
  | .sparseRx k => Sys2Proof.Machine.execSparseRx k s
  | .resultRx k => Sys2Proof.Machine.execResultRx k s
  | .ackRx k => Sys2Proof.Machine.execAckRx k s
  | .nackRx k => Sys2Proof.Machine.execNackRx k s
  | .noticeRx k => Sys2Proof.Machine.execNoticeRx k s
  | .abortReqRx k => Sys2Proof.Machine.execAbortReqRx k s
  | .abortRx k => Sys2Proof.Machine.execAbortRx k s
  | .retractReqRx k => Sys2Proof.Machine.execRetractReqRx k s
  | .retractRx k => Sys2Proof.Machine.execRetractRx k s
  | .stepDoneRx k => Sys2Proof.Machine.execStepDoneRx k s
  | .stepDoneSend gid => Sys2Proof.Machine.execStepDoneSend gid s
  | .resendReqRx k => Sys2Proof.Machine.execResendReqRx k s
  | .stepWindowEnd gid step => Sys2Proof.Machine.execStepWindowEnd gid step s
  | .chunkSlotFree gid step chunk => Sys2Proof.Machine.execChunkSlotFree gid step chunk s
  | .groupRelease gid => Sys2Proof.Machine.execGroupRelease gid s
  | .grpCounterClear => Sys2Proof.Machine.execGrpCounterClear s
  | .tokenRx k => Sys2Proof.Machine.execTokenRx k s
  | .tokenEndRx k => Sys2Proof.Machine.execTokenEndRx k s
  | .batchFlushTimeout gid => Sys2Proof.Machine.execBatchFlushTimeout gid s
  | .batchReady gid => Sys2Proof.Machine.execBatchReady gid s
  | .batchCommit gid => Sys2Proof.Machine.execBatchCommit gid s
  | .expertResultRx k => Sys2Proof.Machine.execExpertResultRx k s
  | .resultDeadline gid batch => Sys2Proof.Machine.execResultDeadline gid batch s
  | .tokenGoHome gid src => Sys2Proof.Machine.execTokenGoHome gid src s
  | .seedWrite n v => Sys2Proof.Machine.execSeedWrite n v s
  | .sbkPolicyWrite v => Sys2Proof.Machine.execSbkPolicyWrite v s
  | .recordStart d => Sys2Proof.Machine.execRecordStart d s
  | .recordStop d => Sys2Proof.Machine.execRecordStop d s
  | .recordMark d => Sys2Proof.Machine.execRecordMark d s
  | .replayStart d ring => Sys2Proof.Machine.execReplayStart d ring s
  | .replayStop d => Sys2Proof.Machine.execReplayStop d s
  | .sbkRecordWrite => Sys2Proof.Machine.execSbkRecordWrite s
  | .replayPresent => Sys2Proof.Machine.execReplayPresent s
  | .sbkCounterClear => Sys2Proof.Machine.execSbkCounterClear s
  | .pmcInterval act => Sys2Proof.Machine.execPmcInterval act s
  | .coreLevelChange => Sys2Proof.Machine.execCoreLevelChange s
  | .droopTrip d => Sys2Proof.Machine.execDroopTrip d s
  | .droopStretchEnd cd => Sys2Proof.Machine.execDroopStretchEnd cd s
  | .thermalTrip die temp => Sys2Proof.Machine.execThermalTrip die temp s
  | .pwrLimitWrite v => Sys2Proof.Machine.execPwrLimitWrite v s
  | .pwrPhaseWrite v => Sys2Proof.Machine.execPwrPhaseWrite v s
  | .pwrCalWrite off v => Sys2Proof.Machine.execPwrCalWrite off v s
  | .pwrCounterClear => Sys2Proof.Machine.execPwrCounterClear s
  | .sqTailDoorbell idx v => Sys2Proof.Machine.execSqTailDoorbell idx v s
  | .cqHeadDoorbell idx v => Sys2Proof.Machine.execCqHeadDoorbell idx v s
  | .descriptorFetch idx data => Sys2Proof.Machine.execDescriptorFetch idx data s
  | .completionWrite j how => Sys2Proof.Machine.execCompletionWrite j how s
  | .cqIrqDelayExpire j => Sys2Proof.Machine.execCqIrqDelayExpire j s
  | .sqEnable idx v => Sys2Proof.Machine.execSqEnable idx v s
  | .sqDisable idx v => Sys2Proof.Machine.execSqDisable idx v s
  | .cqEnable idx v => Sys2Proof.Machine.execCqEnable idx v s
  | .cqDisable idx v => Sys2Proof.Machine.execCqDisable idx v s
  | .ringCounterClear => Sys2Proof.Machine.execRingCounterClear s
  | .loadProgram d data => Sys2Proof.Machine.execLoadProgram d data s
  | .startProgram d => Sys2Proof.Machine.execStartProgram d s
  | .groupUpdate d data => Sys2Proof.Machine.execGroupUpdate d data s
  | .tableWrite d data => Sys2Proof.Machine.execTableWrite d data s
  | .storeCopy d data => Sys2Proof.Machine.execStoreCopy d data s
  | .fenceRing d => Sys2Proof.Machine.execFenceRing d s
  | .fenceContext d => Sys2Proof.Machine.execFenceContext d s
  | .stepFence d => Sys2Proof.Machine.execStepFence d s
  | .queryDevice d how => Sys2Proof.Machine.execQueryDevice d how s
  | .queryGroup d how => Sys2Proof.Machine.execQueryGroup d how s
  | .queryTableEntry d how => Sys2Proof.Machine.execQueryTableEntry d how s
  | .queryContext d how => Sys2Proof.Machine.execQueryContext d how s
  | .bar4Read addr len => Sys2Proof.Machine.execBar4Read addr len s
  | .bar4Write addr bytes => Sys2Proof.Machine.execBar4Write addr bytes s
  | .cxlLinkUp => Sys2Proof.Machine.execCxlLinkUp s
  | .bundleChunk d data => Sys2Proof.Machine.execBundleChunk d data s
  | .bundleFinish d => Sys2Proof.Machine.execBundleFinish d s
  | .commitSvn d => Sys2Proof.Machine.execCommitSvn d s
  | .bundleAbort d => Sys2Proof.Machine.execBundleAbort d s
  | .getVersion => Sys2Proof.Machine.execGetVersion s
  | .getCapabilities => Sys2Proof.Machine.execGetCapabilities s
  | .negotiateAlgorithms hashes offer => Sys2Proof.Machine.execNegotiateAlgorithms hashes offer s
  | .getDigests => Sys2Proof.Machine.execGetDigests s
  | .getCertificate slot off len => Sys2Proof.Machine.execGetCertificate slot off len s
  | .challenge slot nonce => Sys2Proof.Machine.execChallenge slot nonce s
  | .getMeasurements index signed nonce => Sys2Proof.Machine.execGetMeasurements index signed nonce s
  | .keyExchange pub => Sys2Proof.Machine.execKeyExchange pub s
  | .spdmFinish mac => Sys2Proof.Machine.execSpdmFinish mac s
  | .heartbeat => Sys2Proof.Machine.execHeartbeat s
  | .keyUpdate => Sys2Proof.Machine.execKeyUpdate s
  | .endSession => Sys2Proof.Machine.execEndSession s
  | .chunkGet seq => Sys2Proof.Machine.execChunkGet seq s
  | .vendorDefinedRequest body => Sys2Proof.Machine.execVendorDefinedRequest body s
  | .ncRequest level => Sys2Proof.Machine.execNcRequest level s
  | .ncSubmit => Sys2Proof.Machine.execNcSubmit s
  | .ncRelock => Sys2Proof.Machine.execNcRelock s
  | .nonceExpire => Sys2Proof.Machine.execNonceExpire s
  | .mirJoin => Sys2Proof.Machine.execMirJoin s
  | .mirLeave => Sys2Proof.Machine.execMirLeave s
  | .joinTimer => Sys2Proof.Machine.execJoinTimer s
  | .joinTimeout => Sys2Proof.Machine.execJoinTimeout s
  | .joinRx m => Sys2Proof.Machine.execJoinRx m s
  | .mirrorFrameRx m f good => Sys2Proof.Machine.execMirrorFrameRx m f good s
  | .hbRx => Sys2Proof.Machine.execHbRx s
  | .groupRecordRx => Sys2Proof.Machine.execGroupRecordRx s
  | .memberRecordRx => Sys2Proof.Machine.execMemberRecordRx s
  | .cvecRecordRx => Sys2Proof.Machine.execCvecRecordRx s
  | .homeRecordRx => Sys2Proof.Machine.execHomeRecordRx s
  | .tableRecordRx => Sys2Proof.Machine.execTableRecordRx s
  | .regRecordRx => Sys2Proof.Machine.execRegRecordRx s
  | .sbkRecordRx => Sys2Proof.Machine.execSbkRecordRx s
  | .syncEndRx => Sys2Proof.Machine.execSyncEndRx s
  | .sbkMirrorTimer => Sys2Proof.Machine.execSbkMirrorTimer s
  | .mirrorLinkDown m => Sys2Proof.Machine.execMirrorLinkDown m s
  | .twinHbTimeout => Sys2Proof.Machine.execTwinHbTimeout s
  | .aliveInSilent => Sys2Proof.Machine.execAliveInSilent s
  | .oobHbTimer => Sys2Proof.Machine.execOobHbTimer s
  | .oobHbRx bytes => Sys2Proof.Machine.execOobHbRx bytes s
  | .oobHbTimeout => Sys2Proof.Machine.execOobHbTimeout s
  | .oobLinkLoss k => Sys2Proof.Machine.execOobLinkLoss k s
  | .leaseExpire gid member => Sys2Proof.Machine.execLeaseExpire gid member s
  | .rehearseLinkDrop d => Sys2Proof.Machine.execRehearseLinkDrop d s
  | .rehearseMemberStall d => Sys2Proof.Machine.execRehearseMemberStall d s
  | .rehearseChunkCorrupt d => Sys2Proof.Machine.execRehearseChunkCorrupt d s
  | .rehearseTwinLoss d => Sys2Proof.Machine.execRehearseTwinLoss d s
  | .rehearseInject => Sys2Proof.Machine.execRehearseInject s
  | .tableWordRepair masterBad => Sys2Proof.Machine.execTableWordRepair masterBad s
  | .blockError b => Sys2Proof.Machine.execBlockError b s
  | .mcpWatchdog core => Sys2Proof.Machine.execMcpWatchdog core s
  | .deviceFatal unit cause index => Sys2Proof.Machine.execDeviceFatal unit cause index s
  | .warmReset src => Sys2Proof.Machine.execWarmReset src s
  | .portReset p => Sys2Proof.Machine.execPortReset p s
  | .channelReset ch => Sys2Proof.Machine.execChannelReset ch s
  | .bringupPhaseComplete res => Sys2Proof.Machine.execBringupPhaseComplete res s
  | .laserModuleRemoved t busy => Sys2Proof.Machine.execLaserModuleRemoved t busy s
  | .laserModuleInserted t => Sys2Proof.Machine.execLaserModuleInserted t s
  | .sidebandRead addr cmd off => Sys2Proof.Machine.execSidebandRead addr cmd off s
  | .alignmentLockLoss p l => Sys2Proof.Machine.execAlignmentLockLoss p l s
  | .alignmentLockReturn p l => Sys2Proof.Machine.execAlignmentLockReturn p l s
  | .sbkRdPtrWrite v => Sys2Proof.Machine.execSbkRdPtrWrite v s
  | .mirPortCfgWrite v => Sys2Proof.Machine.execMirPortCfgWrite v s
  | .mirOobCfgWrite v => Sys2Proof.Machine.execMirOobCfgWrite v s
  | .oobLinkUp k => Sys2Proof.Machine.execOobLinkUp k s
  | .hbmHotRefresh stack temp => Sys2Proof.Machine.execHbmHotRefresh stack temp s
  | .selfFence => Sys2Proof.Machine.execSelfFence s
  | .rehearseEnd => Sys2Proof.Machine.execRehearseEnd s
  | .hbTxTimer => Sys2Proof.Machine.execHbTxTimer s
  | .mirCounterClear => Sys2Proof.Machine.execMirCounterClear s
  | .aonPowerUp => Sys2Proof.Machine.execAonPowerUp s
  | .coldReset => Sys2Proof.Machine.execColdReset s
  | .flr => Sys2Proof.Machine.execFlr s
  | .rasCounterClear => Sys2Proof.Machine.execRasCounterClear s
  | .pwrgoodFall => Sys2Proof.Machine.execPwrgoodFall s
  | .jtagIdcode => Sys2Proof.Machine.execJtagIdcode s
  | .resetEnd => Sys2Proof.Machine.execResetEnd s

end Sys2Proof.Machine
end

