-- ==== Sys2Proof/Safety.lean ====
section
/-! DEFINITION. What the statements speak of: a command carried out, a run that goes on, and terms for what a command finds. -/

namespace Sys2Proof.Machine

/-- The machine goes on from `s`. -/
def goesOn (s : State) : Prop := ∃ t, step s = .next t

/-- `n` steps from `s` all go on. -/
def safeFor : Nat → State → Prop
  | 0, _ => True
  | n + 1, s => ∃ t, step s = .next t ∧ safeFor n t

/-- Command `c` is carried out from `s`, and the state after it has `P`. -/
def Yields (c : Instr) (s : State) (P : State → Prop) : Prop := ∃ t, exec c s = .next t ∧ P t

/-- Nothing changes from `s` to `t` but registers with what stands against writes in this cycle, outputs, what a port holds of its logical
ports, the transmit stamp that a Pdelay_Req takes as it leaves (R38), and the arrival numbers that frames of the port's own take (R47). -/
abbrev linksOnly (s t : State) : Prop :=
  t = { s with regs := t.regs, latch := t.latch, out := t.out, links := t.links, clk := { s.clk with pdReq := t.clk.pdReq, arr := t.clk.arr } }

/-- The state after `n` steps, as far as they go on. -/
def stepsFrom : Nat → State → State
  | 0, s => s
  | n + 1, s => match step s with
    | .next t => stepsFrom n t
    | _ => s

/-! ### Counters -/

/-- From `s` to `t` every register at an offset that `hit` selects takes its reset value, and every other one keeps what it held, but for those that
`but` selects. -/
def State.clears (s t : State) (hit but : Nat → Bool) : Prop :=
  ∀ f : Fld, f.lo < 64 → (hit f.off = true → t.reg f = f.rst) ∧ (hit f.off = false → but f.off = false → t.reg f = s.reg f)

/-- An offset in [lo, hi). -/
def offIn (lo hi o : Nat) : Bool := decide (lo ≤ o) && decide (o < hi)

/-- Offsets of the counters of a fabric port, its logical ports and their policers: PORT_CTR_, PORT_LCTR_, PORT_POL_ counts (R73). -/
def portCounter (p : Port) (o : Nat) : Bool :=
  let b := 0x400000 + 0x20000 * p.val
  offIn (b + 0x800) (b + 0x900) o || offIn (b + 0x1000) (b + 0x1800) o || (offIn (b + 0x2000) (b + 0x3000) o && decide (0x10 ≤ o % 0x40))

/-! ### Fabric time -/

/-- Source `k` is in use and LOCKED, the host steers the rate, and an offset `off` lies within unlock_thresh (R31, R41). -/
abbrev State.tracks (s : State) (k : Nat) (off : Int) : Prop :=
  s.srcActive = k ∧ s.reg TIME_STATUS_state = dLocked ∧ s.flag TIME_CTRL_servo_en = false ∧ s.replaying = false ∧
    off.natAbs ≤ s.reg TIME_LOCK_CFG_unlock_thresh * 256

/-- What such a measurement leaves: TIME_OFFSET, and the loss and unlock supervision restarted. -/
def State.trackedAt (s : State) (off : Int) : State :=
  { s.setRegInt TIME_OFFSET_offset off with clk := { s.clk with lastMeas := s.now, lost := false, badRun := 0 } }

/-- The root's identity, hops and quality are those of a beacon's payload (R35). -/
def State.rootFrom (s : State) (b : Bytes) : State :=
  { s with clk := { s.clk with rootId := beAt b 0 8, rootHops := byteAt b 8, rootQuality := byteAt b 9 } }

/-! ### Channels and descriptors -/

/-- Context `cx` issues instruction `w`, of opcode `op`, now (R143), from a memory that gives it back (R431). -/
abbrev State.issues (s : State) (cx w op : Nat) : Prop :=
  s.live = true ∧ s.sys.fatal = false ∧ (s.ctx cx).word = some w ∧ s.mayIssue cx = true ∧ iOp w = op ∧
    (s.ctx cx).progUe.contains (s.ctx cx).pc = false

/-- The SEQ cycle in which a context that issues now issues: the core's next free one (R143). -/
def State.issueSeq (s : State) (cx : Nat) : Nat := max (s.clk.cyc * 5 / 4) ((s.chan (chOf cx)).nextSeq.get 0 (coreOf cx))

/-- Besides context `cx`, an issued instruction changes registers and channels alone. -/
abbrev ctxOnly (cx : Nat) (s t : State) : Prop :=
  t = { s with regs := t.regs, latch := t.latch, chans := t.chans, ctxs := t.ctxs, out := t.out } ∧ ∀ c, c ≠ cx → t.ctx c = s.ctx c

/-- Of the pips of a core, `t` has those of `s` but for the ones of a mask that were last set before SEQ cycle `seq` (R164). -/
abbrev State.pipsCleared (s t : State) (ch core mask seq : Nat) : Prop :=
  ∀ i, i < 48 → bitOf (t.reg (CH_PIP_pips ch core)) i =
    (bitOf (s.reg (CH_PIP_pips ch core)) i && !(bitOf mask i && decide (((s.chan ch).pipAt.get (0, 0) (64 * core + i)).2 < seq)))

/-- What one repeat of an entry does, and what an entry's completion writes. -/
abbrev EngineWork := (Ctx → Entry → State → Except Nat (Option Rep) × State) × (Entry → State → State)

/-- An engine row: its context, its queue, its opcode and what its entries do. -/
def engineRow : Instr → Option (Nat × Nat × Nat × EngineWork)
  | .mma x => some (x.cx.val, 0, 0x10, State.inTiles x.cx.val (State.mmaBody x.cx.val x.waited), fun _ s => s)
  | .mmz cx => some (cx.val, 0, 0x11, State.inTiles cx.val (State.mmzBody cx.val), fun _ s => s)
  | .cvt cx => some (cx.val, 0, 0x12, State.inTiles cx.val (State.cvtBody cx.val), fun _ s => s)
  | .vop cx => some (cx.val, 1, 0x20, State.vopBody cx.val, fun _ s => s)
  | .red cx => some (cx.val, 1, 0x21, State.redBody cx.val, fun _ s => s)
  | .srt cx => some (cx.val, 2, 0x30, State.srtBody cx.val, fun _ s => s)
  | .tpk cx => some (cx.val, 2, 0x31, State.tpkBody cx.val, fun _ s => s)
  | .flt cx => some (cx.val, 2, 0x32, State.fltBody cx.val, fun e s => s.writeCount cx.val 113 e)
  | .hst cx => some (cx.val, 2, 0x33, State.hstBody cx.val, fun _ s => s)
  | .mov cx host => some (cx.val, 3, 0x40, State.movBody cx.val host, fun _ s => s)
  | .gat cx host => some (cx.val, 3, 0x41, State.indexBody cx.val true host, State.indexFin cx.val)
  | .sct cx host => some (cx.val, 3, 0x42, State.indexBody cx.val false host, State.indexFin cx.val)
  | .psend cx => some (cx.val, 4, 0x50, State.psendBody cx.val, fun _ s => s)
  | .precv cx => some (cx.val, 4, 0x51, State.precvBody cx.val, State.precvFin cx.val)
  | .pfree cx => some (cx.val, 4, 0x52, State.pfreeBody cx.val, fun _ s => s)
  | _ => none

/-- The head of queue `q` of a running context is the last repeat of entry `e`, of opcode `op`; the channel runs, and the engine has its turn
for the context (R160). -/
abbrev State.lastRepeat (s : State) (cx q op : Nat) (e : Entry) (rest : List Entry) : Prop :=
  s.live = true ∧ s.sys.fatal = false ∧ (s.ctx cx).queue q = e :: rest ∧ (s.ctx cx).st = .run ∧ iOp e.word = op ∧
    repeats e.word e.cnt ≤ 65536 ∧ e.i + 1 = repeats e.word e.cnt ∧ s.engineTurn cx q = true

/-- Slot `t` of an instruction, whose register held `r` and its x register `x`, gives at repeat `i` the `n` bytes at offset `a` of the
context's scratch window: in whole words, inside the window, below the end of the address space. -/
abbrev State.inScratch (s : State) (cx w t r x i n a : Nat) : Prop :=
  slSpace t = 1 ∧ (locOf w t r x i 0).addr = (a : Int) ∧ a % 32 = 0 ∧ a + n ≤ (s.ctx cx).winLen ∧ a + n ≤ 2 ^ 48

/-- `n` bytes of the context's scratch window from offset `a` on. -/
def State.scr (s : State) (cx a n : Nat) : Bytes := Mem.read (s.chan (chOf cx)).scratch ((s.ctx cx).win + a) n

/-- Descriptor `d` is `x`, and the row of opcode `op` may run it now (R368, R371). -/
abbrev State.serves (s : State) (d op : Nat) (x : Desc) : Prop :=
  s.live = true ∧ s.desc d = some x ∧ x.opcode = op ∧ x.started = false ∧ s.mayStart d x = true ∧ descOk x.bytes = true

/-! ### Groups -/

/-- Waiting frame `k`, of a kind `ok` takes, is `g`, of group `x`, and passes checks 1 to 3 (R274); the state after them is `v`. -/
abbrev State.admits (s : State) (k : Nat) (ok : GIn → Bool) (g : GIn) (x : Grp) (v : State) : Prop :=
  s.live = true ∧ (s.take k ok).1 = some g ∧ (s.take k ok).2.grp g.gid = some x ∧ (s.take k ok).2.admit3 x.entry g = (true, v)

/-- Frame `k` is a new contribution `g` of opcode `op` to an open step of group `x`, next in decision order, not mismatched, and readable (R274, R275,
R291). -/
abbrev State.contributes (s : State) (k op : Nat) (g : GIn) (x : Grp) (v : State) : Prop :=
  s.admits k (fun g => g.h.opcode == op && s.contribTurn g) g x v ∧ gKind x.entry ≠ 5 ∧ (v.stepOpen x g).1 = true ∧ v.readable g = true ∧
    (∀ y ∈ (x.chunk g.h.step g.h.chunk).have_, y.member ≠ g.h.member ∨ y.opcode ≠ contribKey op ∨ y.part ≠ g.h.part) ∧
    v.fromParent x.entry g = false ∧
    (let child := mChild ((v.memberEntry x.entry g.h.member).getD [])
     mismatch x.entry g (allowedOps x.entry child) child (x.chunk g.h.step g.h.chunk) = false) ∧
    (v.chan (gCh x.entry)).scratchUe = []

/-- Frame `k` is `g` of an open step of group `x`, from the group's parent, and readable. -/
abbrev State.fromAbove (s : State) (k : Nat) (ok : Nat → Bool) (g : GIn) (x : Grp) (v : State) : Prop :=
  s.admits k (fun g => ok g.h.opcode) g x v ∧ (v.stepOpen x g).1 = true ∧ v.readable g = true ∧ v.fromParent x.entry g = true ∧
    x.entry.length = 64

/-- Frame `k` is `g`, readable and new, that the parent sends for a chunk of an open step of group `x`, not mismatched (R274, R275). -/
abbrev State.forChunk (s : State) (k : Nat) (ok : Nat → Bool) (g : GIn) (x : Grp) (v : State) : Prop :=
  s.fromAbove k ok g x v ∧ mismatch x.entry g (parentOps x.entry) false (x.chunk g.h.step g.h.chunk) = false ∧
    (∀ y ∈ (x.chunk g.h.step g.h.chunk).have_, y.member ≠ g.h.member ∨ y.opcode ≠ contribKey g.h.opcode ∨ y.part ≠ g.h.part)

/-- Pip `i` of a core is set, and has not been set again so late that clearing it once its condition is seen leaves it (R164, R165). -/
abbrev State.pipUsable (s : State) (ch core i : Nat) : Prop :=
  i < 48 ∧ bitOf (s.reg (CH_PIP_pips ch core)) i = true ∧
    ((s.chan ch).pipAt.get (0, 0) (64 * core + i)).2 < max (s.seqNow ch core) (((s.chan ch).pipAt.get (0, 0) (64 * core + i)).1 + 1)

/-- What a group's step end brings about waits for no twin, and leaves (R408, R412). -/
abbrev State.unmirrored (s : State) : Prop :=
  s.pod ≠ podPaired ∧ (s.pod = podSync → s.mir.source = false) ∧ s.flag MIR_STATUS_self_fenced = false ∧ s.mir.ended = []

/-- In `t` chunk `c` of step `n` of group `gid` has `P`. -/
abbrev State.chunkHas (t : State) (gid n c : Nat) (P : Chunk → Prop) : Prop := ∃ y, t.grp gid = some y ∧ P (y.chunk n c)

/-- In `t` group `gid` is past the step that `x` stood at (R288): the step after it is the current one, and it is held as the previous. -/
abbrev State.stepped (t : State) (gid : Nat) (x : Grp) : Prop :=
  ∃ y, t.grp gid = some y ∧ gStep y.entry = (gStep x.entry + 1) % 2 ^ 32 ∧ y.cur = x.next ∧ y.next = {} ∧ y.prev.closed = true

/-- GRP_ABORT_LOG and GRP_ABORT_STEP tell of status `st` and step `n` (R289). -/
abbrev State.abortLogged (t : State) (gid st n : Nat) : Prop :=
  t.reg GRP_ABORT_LOG_group_id = gid % 2 ^ 16 ∧ t.reg GRP_ABORT_LOG_status = st ∧ t.reg GRP_ABORT_LOG_valid = 1 ∧
    t.reg GRP_ABORT_STEP_step = n % 2 ^ 32 ∧ t.flag GRP_INTR_STATUS_abort_ev = true

/-- Group `gid` stands at a new epoch and step with nothing of its steps left, and the retraction is logged (R290, R291). -/
abbrev State.retractedTo (t : State) (gid epoch step cause : Nat) : Prop :=
  (∃ y, t.grp gid = some y ∧ gEpoch y.entry = epoch ∧ gStep y.entry = step ∧ y.cur = {} ∧ y.next = {} ∧ y.prev = {}) ∧
    t.reg GRP_RETRACT_LOG_cause = cause ∧ t.reg GRP_RETRACT_LOG_new_epoch = epoch ∧ t.reg GRP_RETRACT_LOG_valid = 1 ∧
    t.flag GRP_INTR_STATUS_retract_ev = true

/-! ### Tokens -/

/-- Waiting frame `k` is `g`, of opcode `op`, from an active source of the open dispatch group `x`, and takes the checks of R299 down to
the step: its turn has come, its source is open in that step (order 1 to 4); `v` is the state that has renewed the source's lease. -/
abbrev State.sourced (s : State) (k op : Nat) (g : GIn) (x : Grp) (v : State) : Prop :=
  s.live = true ∧ (s.take k (fun g => g.h.opcode == op)).1 = some g ∧ s.turn [0x40, 0x41] g = true ∧ s.grp g.gid = some x ∧ gKind x.entry = 5 ∧ gOwn x.entry = true ∧
    g.h.member < gCount x.entry ∧ s.memberEntry x.entry g.h.member ≠ none ∧ mActive ((s.memberEntry x.entry g.h.member).getD []) = true ∧
    v = (s.take k (fun g => g.h.opcode == op)).2.renew g.gid g.h.member g.stamp ∧ g.h.epoch = gEpoch x.entry ∧
    (stepDiff g.h.step (gStep x.entry) = 0 ∨ stepDiff g.h.step (gStep x.entry) = 1) ∧
    ((x.src g.h.step g.h.member).getD {}).count = none ∧ g.h.op = 0x5F ∧ g.h.cls = 0

/-- In `t` source `m` of step `n` of group `gid` has `P`. -/
abbrev State.sourceHas (t : State) (gid n m : Nat) (P : TokSrc → Prop) : Prop := ∃ y z, t.grp gid = some y ∧ y.src n m = some z ∧ P z

/-! ### Completions -/

/-- From `s` to `t` descriptor `d`, which is `x`, has completed with a status, a result and a detail (R364, R370, R377). -/
abbrev State.reports (s t : State) (d : Nat) (x : Desc) (status result detail : Nat) : Prop :=
  t.desc d = none ∧ (s.flag (RING_CQ_CFG_en x.cq) = true → s.flag (RING_CQ_STATE_error x.cq) = false → x.quiet = false →
    ∃ r, (t.cq x.cq).waiting = (s.cq x.cq).waiting ++ [r] ∧ r.tag = x.tag ∧ r.status = status ∧ r.opcode = x.opcode ∧ r.sq = x.sq ∧
      r.result = result ∧ r.detail = detail)

/-! ### SPDM -/

/-- From `s` to `t` response `m` has left, or waits for CHUNK_GET behind ERROR LargeResponse when it is beyond DataTransferSize (R394). -/
abbrev State.answers (s t : State) (m : Bytes) : Prop :=
  (m.length ≤ 8192 → t.out = s.out ++ [.spdm m]) ∧
    (8192 < m.length → t.out = s.out ++ [.spdm [0x13, 0x7F, 0x0F, 0, 0]] ∧ t.sec.spdm.large = m ∧ t.sec.spdm.next = 0)

/-- From `s` to `t` ERROR has left with a code. -/
abbrev State.answersError (s t : State) (code : Byte) : Prop := t.out = s.out ++ [.spdm [0x13, 0x7F, code, 0]] ∧ t.sec.spdm.session = s.sec.spdm.session

/-- A message of the session with secret `k`, the `n`-th under keys of generation `g`, has left (R394). -/
abbrev State.sealed_ (s t : State) (k : Bytes) (g n : Nat) (m : Bytes) : Prop := t.out = s.out ++ [.spdm (Config.aeadSeal k g n m)]

/-! ### Pods -/

/-- The first sequenced record received is `r`, of this type (R406); `u` is the state without it. -/
abbrev State.nextMir (s : State) (kind : Nat) (r : MirIn) (u : State) : Prop :=
  s.live = true ∧ s.mir.inRecs.find? MirIn.seqd = some r ∧ r.kind = kind ∧ u = { s with mir := { s.mir with inRecs := s.mir.inRecs.erase r } }

/-- The UP field of mirror port `m`. -/
def mirUpFld (m : Mlink) : Fld := if m.val = 0 then MIR_STATUS_m0_up else MIR_STATUS_m1_up

/-- No logical port of fabric port `p` has a frame queued or under way. -/
abbrev State.quietPort (s : State) (p : Nat) : Prop := ∀ l, l < 8 → (s.link (8 * p + l)).eg.q = [] ∧ (s.link (8 * p + l)).eg.tx = none

/-! ### Registers -/

/-- A write of the register at `off` does what R8 says and no more, whatever the state: not one that clears counters, acts, is taken in some
states only, or goes on to what it configures. -/
def plainReg (off : Nat) : Bool :=
  if off < 0x100000 then off != 0x630 && off != 0x640 && !inMsix off
  else if off < 0x200000 then off != 0x100100 && decide (off < 0x101000)
  else if off < 0x300000 then off != 0x200008 && off != 0x200020 && off != 0x200054
  else if off < 0x400000 then off != 0x300008 && !(decide (0x310000 ≤ off) && decide (off < 0x330000))
  else if off < 0x700000 then
    let o := (off - 0x400000) % 0x20000
    !([0, 0x10, 0x38, 0x100, 0x180, 0x188, 0x190].contains o) && !(decide (0x4000 ≤ o) && decide (o < 0x4400)) && !mirroredReg o
  else if off < 0x800000 then off != 0x700004 && off != TIME_RATE_rate.off && off != 0x700038
  else if off < 0x1000000 then !([0, 0x14, 0x400].contains (off % 0x100000))
  else if off < 0x1400000 then
    !([0x1000000, 0x1000008, 0x1000020, 0x100003C].contains off) && !(decide (0x1010000 ≤ off) && decide (off < 0x1010180)) && decide (off < 0x1020000)
  else if off < 0x1500000 then !([0x1400000, 0x1400004, 0x1400014, 0x1400018, 0x1400060].contains off)
  else if off < 0x1600000 then
    !([0, 4, 0x10, 0x18, 0x20, 0x40, 0xF0].contains (off - 0x1500000)) && !(decide (0x1500100 ≤ off) && decide (off < 0x1500180))
  else off != 0x160000C

/-! ### Fuses -/

/-- The fuses of `b` are those of `a`, or more of them are blown (R383, R390, R392). -/
structure Hw.blownInto (a b : Hw) : Prop where
  vendorRoot : b.vendorRoot = a.vendorRoot
  vendorDebug : b.vendorDebug = a.vendorDebug
  serial : b.serial = a.serial
  secret : b.secret = a.secret
  certRoot : b.certRoot = a.certRoot
  certInter : b.certInter = a.certInter
  rom : b.rom = a.rom
  stepping : b.stepping = a.stepping
  grade : b.grade = a.grade
  svn : a.svn ≤ b.svn
  revoke : ∀ i, bitOf a.revoke i = true → bitOf b.revoke i = true
  ownerKey : a.ownerKey ≠ none → b.ownerKey = a.ownerKey

/-! ### Encodings -/

/-- Every field of an ECH header fits its width (R265). -/
abbrev Ech.fits (e : Ech) : Prop :=
  e.version < 16 ∧ e.opcode < 256 ∧ e.flagsRsv < 4 ∧ e.gid < 2 ^ 16 ∧ e.member < 2 ^ 12 ∧ e.cls < 16 ∧ e.epoch < 2 ^ 16 ∧ e.step < 2 ^ 32 ∧
    e.chunk < 2 ^ 24 ∧ e.fmt < 16 ∧ e.fmtRsv < 16 ∧ e.op < 256 ∧ e.plen < 2 ^ 16 ∧ e.part < 256 ∧ e.stamp < 2 ^ 64

/-! ### Stopped clocks -/

/-- A command that the block takes only while its clocks run: not a reset, not the trip comparators, not an error that is device-fatal and that a
trip may meet, not the board (R356, R438, R446, R454). -/
def ordinary : Instr → Bool
  | .aonPowerUp => false
  | .coldReset => false
  | .warmReset _ => false
  | .resetEnd => false
  | .thermalTrip _ _ => false
  | .deviceFatal _ _ _ => false
  | .tableWordRepair bad => !bad
  | .mcpWatchdog _ => false
  | .pwrgoodFall => false
  | .laserModuleRemoved _ _ => false
  | .laserModuleInserted _ => false
  | .sidebandRead _ _ _ => false
  | .jtagIdcode => false
  | _ => true

/-- The clocks are stopped, and no command that waits is one that acts then. -/
abbrev State.stopped (s : State) : Prop := s.live = false ∧ s.pending.all ordinary = true

end Sys2Proof.Machine
end

