-- ==== Sys2Proof/Certificates/Slice0/Obligations.lean ====
section
/-! DEFINITION. The statements about the block, for the provers. `Yields c s P` says that command `c` is carried out from `s` and
that the state after it has `P`. -/

open Sys2Proof Sys2Proof.Machine

/-- A step runs the command at the front of the queue on the rest, and idles on an empty queue. For every command c, state
s and queue r, step of s with c in front of r is exec of c on s with queue r. On an empty queue the step answers the
same state, which is the model's choice (log entry 5). (spec/95_what_each_step_holds.md) -/
def Obligations.StepRunsFrontCommand : Prop :=
  (∀ (c : Instr) (s : State) (r : List Instr), step { s with pending := c :: r } = exec c { s with pending := r }) ∧
  (∀ s : State, s.pending = [] → step s = .next s)

/-- Each TIME cycle adds 2^40 plus TIME_RATE, the first due event fires in its cycle; TIME_RATE and TIME_SRC_CFG are
written as R31 and R34 say. While the clocks run, n TIME cycles in which no scheduled event and no pip on its way
comes due add n times (2^40 + rate) accumulator units, and nothing else changes but the cycle count: with nothing
scheduled, and with a first event more than n cycles away. When the first event of the schedule comes due after
exactly n cycles and nothing else does, those cycles pass and the event takes its effect. The end of a reset, due
within n cycles and alone in the schedule, leaves HUB_RESET_STATUS.busy 0 and an empty schedule, with all n cycles
passed. That a command passes n cycles and fires the first due event is the model's form of R46 (log entry 10,
DEDUCED); that a port or channel reset is in progress until an event of its own ends it is log entry 53 (DEDUCED).
While the clocks run, TIME_RATE_WRITE with servo_en 0 leaves the rate at the signed value written, limited to plus or
minus 219902325, and changes nothing else; with servo_en 1 it changes nothing. TIME_SRC_CFG_WRITE takes src_sel; 3
puts source 3 in use at once with the discipline in FREE; the source in use ends a pending selection and an automatic
move; another value waits as the pending source, with the source in use and the discipline state as they were. (R31,
R34, R46, R441) -/
def Obligations.TimeAdvancesByTheRate : Prop :=
  (∀ (s : State) (n : Nat), s.live = true → s.clk.pips = [] →
    ((s.clk.sched = [] ∨ (∃ e r, s.clk.sched = e :: r ∧ n < s.cyclesTo e.at_)) → exec (.scheduledEventFire n) s = .next (s.tick n)) ∧
    (s.tick n = { s with clk := { s.clk with
      acc := s.clk.acc + BitVec.ofNat 96 (n * (2 ^ 40 + s.regInt TIME_RATE_rate).toNat), cyc := s.clk.cyc + n } }) ∧
    (∀ e r t, s.clk.sched = e :: r → s.cyclesTo e.at_ = n → t = (s.tick n).fireFirst e r →
      (t.upcoming = none ∨ ∃ k f, t.upcoming = some (k, f) ∧ 0 < k) →
      exec (.scheduledEventFire n) s = .next t) ∧
    (∀ e, s.clk.sched = [e] → e.ev = .resetDone → s.cyclesTo e.at_ ≤ n →
      exec (.scheduledEventFire n) s = .next (State.setReg { s.tick n with clk := { (s.tick n).clk with sched := [] } } HUB_RESET_STATUS_busy 0))) ∧
  (∀ (s : State) (v : Nat), s.live = true →
    (s.flag TIME_CTRL_servo_en = false →
      exec (.timeRateWrite v) s = .next (s.setRegInt TIME_RATE_rate (max (-219902325) (min 219902325 (signed 32 v))))) ∧
    (s.flag TIME_CTRL_servo_en = true → exec (.timeRateWrite v) s = .next s) ∧
    (bits v 0 2 = 3 → Yields (.timeSrcCfgWrite v) s (fun t => t.reg TIME_SRC_CFG_src_sel = 3 ∧ t.srcActive = 3 ∧
      t.reg TIME_STATUS_state = 0 ∧ t.clk.pending = none ∧ t.clk.onBackup = false)) ∧
    (bits v 0 2 ≠ 3 → bits v 0 2 ≠ s.srcActive → Yields (.timeSrcCfgWrite v) s (fun t => t.reg TIME_SRC_CFG_src_sel = bits v 0 2 ∧
      t.srcActive = s.srcActive ∧ t.reg TIME_STATUS_state = s.reg TIME_STATUS_state ∧ t.clk.pending = some (bits v 0 2))) ∧
    (bits v 0 2 ≠ 3 → bits v 0 2 = s.srcActive → Yields (.timeSrcCfgWrite v) s (fun t => t.reg TIME_SRC_CFG_src_sel = bits v 0 2 ∧
      t.srcActive = s.srcActive ∧ t.reg TIME_STATUS_state = s.reg TIME_STATUS_state ∧ t.clk.pending = none ∧ t.clk.onBackup = false)))

/-- A beacon, a Sync, a Follow_Up and a PPS edge measure the offset of the source in use. Take a LOCKED device whose rate
the host steers, with the source in use, and an offset within unlock_thresh. A waiting beacon on the designated port
with a good header and at most 15 hops leaves TIME_OFFSET at beacon stamp plus path delay plus asymmetry minus ingress
stamp, and keeps root, hops and quality. A one-step Sync does the same with its origin timestamp and correctionField;
a two-step Sync waits for its Follow_Up, and the Follow_Up with the same sequence measures with both corrections. The
path delay is the median of the source's own set, which is the model's choice (log entry 60). An FT_PPS_IN edge while
FT_REF runs measures its capture against TIME_PPS_NEXT, which moves on by 10^9 ns, and restarts the edge supervision.
Nothing else changes, the loss supervision restarts. A beacon with a bad header CRC or with more than 15 hops measures
nothing and counts one src_faults. Corrections are whole FT64 units here; the error of a capture within 1 ns is free
(log entry 59). (R35, R36, R37, R38, R39, R41) -/
def Obligations.MeasurementsInLocked : Prop :=
  ∀ (s : State) (p : Port) (l : Lp) (c : Ctl) (u : State), s.live = true →
    (s.takeCtl (srcOf p l) (isEchOp 0x70) = some (c, u) → u.designated 0 = srcOf p l → echHeaderOk c.bytes = true →
      byteAt (echPayload c.bytes) 8 ≤ 15 →
      ∀ off, off = ftDiff c.stamp (BitVec.ofNat 64 (echOf c.bytes).stamp) + u.pathDelay 0 + u.asymOf 0 → u.tracks 0 off →
      exec (.beaconRx p l) s = .next ((u.rootFrom (echPayload c.bytes)).trackedAt off)) ∧
    (s.takeCtl (srcOf p l) (isEchOp 0x70) = some (c, u) → u.designated 0 = srcOf p l → u.srcActive = 0 →
      ((echOf c.bytes).crcOk = false ∨ 15 < byteAt (echPayload c.bytes) 8) →
      exec (.beaconRx p l) s = .next (u.countSat TIME_COUNTS_src_faults)) ∧
    (s.takeCtl (srcOf p l) (isPtp 0) = some (c, u) → u.designated 1 = srcOf p l → u.judged 1 = true → u.clk.sync = none →
      signed 64 (beAt (ptpBody c) 8 8) % 256 = 0 → bitOf (byteAt (ptpBody c) 6) 1 = true →
      exec (.ptpSyncRx p l) s = .next { u with clk := { u.clk with sync := some ⟨beAt (ptpBody c) 30 2, c.stamp, signed 64 (beAt (ptpBody c) 8 8) / 256⟩ } }) ∧
    (s.takeCtl (srcOf p l) (isPtp 0) = some (c, u) → u.designated 1 = srcOf p l → u.clk.sync = none →
      signed 64 (beAt (ptpBody c) 8 8) % 256 = 0 → bitOf (byteAt (ptpBody c) 6) 1 = false →
      ∀ off, off = ftDiff c.stamp (ptpStamp (ptpBody c) 34) + signed 64 (beAt (ptpBody c) 8 8) / 256 + u.pathDelay 1 +
        u.asymOf 1 → u.tracks 1 off →
      exec (.ptpSyncRx p l) s = .next (u.trackedAt off)) ∧
    (∀ y, s.takeCtl (srcOf p l) (isPtp 8) = some (c, u) → u.designated 1 = srcOf p l → u.clk.sync = some y →
      y.seq = beAt (ptpBody c) 30 2 → signed 64 (beAt (ptpBody c) 8 8) % 256 = 0 →
      ∀ off, off = ftDiff y.ingress (ptpStamp (ptpBody c) 34) + y.corr + signed 64 (beAt (ptpBody c) 8 8) / 256 +
        u.pathDelay 1 + u.asymOf 1 → u.tracks 1 off →
      exec (.ptpFollowUpRx p l) s = .next (State.trackedAt { u with clk := { u.clk with sync := none } } off)) ∧
    (∀ next : FT64, next = BitVec.ofNat 64 (s.reg TIME_PPS_NEXT_next) → s.clk.ppsWritten = true → s.clk.refStop = none →
      ∀ off, off = ftDiff s.ppsCapture next + s.asymOf 2 → s.tracks 2 off →
      exec .ftPpsEdge s = .next (State.trackedAt { s.setReg TIME_PPS_NEXT_next (next + ns 1000000000).toNat with
        clk := { s.clk with lastPps := s.now } } off))

/-- Link delay and peer delay requests are sent and answered, and their results enter the median. A waiting link delay
request with a good header is answered with t1 and the ingress stamp t2, and nothing else changes; a Pdelay_Req on the
designated port is answered by a response with its receipt time, which its follow-up follows. LINK_DELAY_REQ_TIMER,
with beacons in use on an UP port and PTP not selected, sends a request; with PTP in use on an UP port and beacons not
selected it sends a Pdelay_Req. A link delay response to the outstanding request, and a Pdelay_Resp_Follow_Up to the
outstanding exchange, put half of (t4 - t1) - (t3 - t2), not below zero, in front of at most eight results of that
source, and with the source in use TIME_PATH_DELAY is their lower median (limited to its 32 bits). An Announce on the
designated port gives gm_identity. Differences and corrections are even and whole here; where they are not, the
rounding is free (log entry 12). The bytes of the PTP messages and the two-step answer are taken from IEEE 1588 (log
entry 13, PRESUMED); a set of results for each source, and 32 bits as the limit of TIME_PATH_DELAY, are the model's
choice (log entry 60). (R35, R36, R38) -/
def Obligations.DelayExchanges : Prop :=
  ∀ (s : State) (p : Port) (l : Lp) (c : Ctl) (u : State), s.live = true →
    (s.takeCtl (srcOf p l) (isEchOp 0x71) = some (c, u) → echHeaderOk c.bytes = true →
      exec (.linkDelayReqRx p l) s = .next (u.sendTime (srcOf p l) 0x72 (beBytes 8 (echOf c.bytes).stamp ++ beBytes 8 c.stamp.toNat))) ∧
    (s.takeCtl (srcOf p l) (isPtp 2) = some (c, u) → u.designated 1 = srcOf p l → signed 64 (beAt (ptpBody c) 8 8) % 256 = 0 →
      exec (.ptpPdelayReqRx p l) s = .next (u.sendCtl (srcOf p l)
        { bytes := u.ptpFrame (srcOf p l) (u.ptpHead 3 54 0x200 (-((c.stamp.toNat % 256 : Nat) : Int)) (srcOf p l / 8) (beAt (ptpBody c) 30 2) ++
            ptpBytes c.stamp ++ slice (ptpBody c) 20 10),
          start := .pdelayResp (u.ptpFrame (srcOf p l) (u.ptpHead 10 54 0 0 (srcOf p l / 8) (beAt (ptpBody c) 30 2) ++ ptpBytes 0 ++
            slice (ptpBody c) 20 10)) (signed 64 (beAt (ptpBody c) 8 8) / 256), seqd := true })) ∧
    (s.judged 0 = true → s.judged 1 = false → s.isUp (s.designated 0) = true → s.clk.linkReq = none →
      exec .linkDelayReqTimer s = .next
        (State.sendTime { s with clk := { s.clk with linkReq := some (s.designated 0) } } (s.designated 0) 0x71 (List.replicate 16 0))) ∧
    (s.judged 0 = false → s.judged 1 = true → s.isUp (s.designated 1) = true → s.clk.pdReq = none →
      exec .linkDelayReqTimer s = .next
        (State.sendCtl { s with clk := { s.clk with pdSeq := (s.clk.pdSeq + 1) % 65536, pdReq := some { seq := s.clk.pdSeq } } } (s.designated 1)
          { bytes := s.ptpFrame (s.designated 1) (s.ptpHead 2 54 0 0 (s.designated 1 / 8) s.clk.pdSeq ++ List.replicate 20 0),
            start := .pdelayReq, seqd := true })) ∧
    (∀ t1 d : Int, s.takeCtl (srcOf p l) (isEchOp 0x72) = some (c, u) → echHeaderOk c.bytes = true →
      u.clk.linkReq = some (srcOf p l) → u.srcActive = 0 →
      t1 = ftDiff (BitVec.ofNat 64 (beAt (echPayload c.bytes) 0 8)) c.stamp -
        ftDiff (BitVec.ofNat 64 (beAt (echPayload c.bytes) 8 8)) (BitVec.ofNat 64 (echOf c.bytes).stamp) → t1 = 2 * d →
      Yields (.linkDelayRespRx p l) s (fun t => t.clk.ldelay = (d.toNat :: u.clk.ldelay).take 8 ∧ t.clk.linkReq = none ∧
        t.reg TIME_PATH_DELAY_delay = min (2 ^ 32 - 1) (median t.clk.ldelay))) ∧
    (∀ (r : PtpPdelay) (t1 t2 t4 : FT64) (k1 k2 d : Int), s.takeCtl (srcOf p l) (fun c => isPtp 3 c || isPtp 10 c) = some (c, u) →
      isPtp 3 c = false → u.designated 1 = srcOf p l → u.srcActive = 1 → u.clk.pdReq = some r → r.t1 = some t1 → r.resp = some (t2, t4, k1) →
      r.seq = beAt (ptpBody c) 30 2 → signed 64 (beAt (ptpBody c) 8 8) = 256 * k2 →
      ftDiff t1 t4 - ftDiff t2 (ptpStamp (ptpBody c) 34) - (k1 + k2) = 2 * d →
      Yields (.ptpPdelayRespRx p l) s (fun t => t.clk.pdelay = (d.toNat :: u.clk.pdelay).take 8 ∧ t.clk.pdReq = none ∧
        t.reg TIME_PATH_DELAY_delay = min (2 ^ 32 - 1) (median t.clk.pdelay))) ∧
    (s.takeCtl (srcOf p l) (isPtp 11) = some (c, u) → u.designated 1 = srcOf p l →
      exec (.ptpAnnounceRx p l) s = .next (u.setReg TIME_PTP_GM_gm_identity (beAt (ptpBody c) 53 8)))

/-- BEACON_TX_TIMER sends one beacon on every UP logical port of the masked ports, in LOCKED and HOLDOVER only. In LOCKED
or HOLDOVER every UP logical port of a fabric port in tx_mask takes the next number of its own beacon sequence, and
every other logical port keeps its sequence. The discipline, device time and the links' states are as they were. With
one such port the state after is the one that sends its beacon: root identity, hop count plus 1, quality, a flags byte
that is 1 in HOLDOVER, the sequence number. On an idle port without retry, with nothing waiting and no replay, that
frame with the transmit stamp in its header leaves at once, and nothing else leaves. In FREE and ACQUIRE nothing
changes. (R35, R37) -/
def Obligations.BeaconsLeaveInLockedAndHoldover : Prop :=
  ∀ s : State, s.live = true →
    ((s.reg TIME_STATUS_state = 2 ∨ s.reg TIME_STATUS_state = 3) → Yields .beaconTxTimer s (fun t =>
      (∀ src, src < 192 → t.clk.beaconSeq.get 0 src =
        if bitOf (s.reg TIME_BEACON_CFG_tx_mask) (src / 8) && s.isUp src then (s.clk.beaconSeq.get 0 src + 1) % 2 ^ 32
        else s.clk.beaconSeq.get 0 src) ∧
      t.clk.acc = s.clk.acc ∧ t.reg TIME_STATUS_state = s.reg TIME_STATUS_state ∧ t.store = s.store ∧ (∀ src, t.isUp src = s.isUp src))) ∧
    (∀ src b, src < 192 → (∀ x, x < 192 → ((bitOf (s.reg TIME_BEACON_CFG_tx_mask) (x / 8) && s.isUp x) = true ↔ x = src)) →
      (s.reg TIME_STATUS_state = 2 ∨ s.reg TIME_STATUS_state = 3) →
      b = beBytes 8 s.clk.rootId ++ beBytes 1 (s.clk.rootHops + 1) ++ beBytes 1 s.clk.rootQuality ++
        beBytes 1 (if s.reg TIME_STATUS_state = 3 then 1 else 0) ++ [0] ++ beBytes 4 (s.clk.beaconSeq.get 0 src) →
      exec .beaconTxTimer s = .next (State.sendTime { s with clk := { s.clk with
        beaconSeq := s.clk.beaconSeq.put 0 src ((s.clk.beaconSeq.get 0 src + 1) % 2 ^ 32) } } src 0x70 b) ∧
      ((s.link src).eg.tx = none → (s.link src).eg.ctlq = [] → s.llrOn src = false → s.replaying = false →
        Yields .beaconTxTimer s (fun t =>
          t.out = s.out ++ [.frame src stdPreamble (restamp (s.portEch src 0x70 b) (s.txStamp src)) true (s.txStamp src)]))) ∧
    ((s.reg TIME_STATUS_state = 0 ∨ s.reg TIME_STATUS_state = 1) → exec .beaconTxTimer s = .next s)

/-- A lost source leads from LOCKED to HOLDOVER or FREE and from ACQUIRE to FREE; HOLDOVER expires to FREE. SOURCE_LOSS
whose condition holds, for a source not already declared lost, sets loss_ev and leaves the discipline in HOLDOVER if
it has been LOCKED for at least 10 s, in FREE if it was LOCKED for less or in ACQUIRE. HOLDOVER_EXPIRE with
holdover_max reached leaves FREE. The stop of FT_REF, which SOURCE_LOSS brings as an event of its own (log entry 12),
is noted and loses nothing yet; an edge of FT_PPS_IN within 1 us after it is not used, though it moves TIME_PPS_NEXT
on by one second. (R39, R40, R41, R462) -/
def Obligations.LossOfTheSource : Prop :=
  ∀ (s : State) (k : LossCause), s.live = true →
    (s.lossHolds k = true → s.clk.lost = false → s.reg TIME_STATUS_state = 2 → s.elapsed s.clk.lockedAt 10000000000 = true →
      Yields (.sourceLoss k) s (fun t => t.reg TIME_STATUS_state = 3 ∧ t.clk.lost = !(s.flag TIME_SRC_CFG_auto_switch &&
        s.reg TIME_SRC_CFG_backup_sel != 3 && !s.clk.onBackup) ∧ t.reg TIME_STATUS_loss_ev = 1)) ∧
    (s.lossHolds k = true → s.clk.lost = false →
      (s.reg TIME_STATUS_state = 1 ∨ (s.reg TIME_STATUS_state = 2 ∧ s.elapsed s.clk.lockedAt 10000000000 = false)) →
      Yields (.sourceLoss k) s (fun t => t.reg TIME_STATUS_state = 0 ∧ t.reg TIME_STATUS_loss_ev = 1)) ∧
    (s.reg TIME_STATUS_state = 3 → s.reg TIME_LIMIT_CFG_holdover_max ≤ s.holdMs →
      Yields .holdoverExpire s (fun t => t.reg TIME_STATUS_state = 0)) ∧
    (s.clk.refStop = none → exec (.sourceLoss .refStops) s = .next { s with clk := { s.clk with refStop := some s.now } }) ∧
    (s.judged 2 = true → s.refJustStopped = true → exec .ftPpsEdge s = .next
      (s.setReg TIME_PPS_NEXT_next (BitVec.ofNat 64 (s.reg TIME_PPS_NEXT_next) + ns 1000000000).toNat))

/-- Enabling, disabling and configuring a fabric port, and clearing its counters. With the block ready: PORT_ENABLE of a
disabled port sets enable and breakout, brings each logical port of that breakout to DOWN and leaves every other
port's links and the store alone. PORT_DISABLE of an enabled port with nothing queued clears enable and brings all
eight logical ports to DISABLED; of a disabled port it writes breakout alone. PORT_FC_CFG_WRITE gives a logical port
its field where it is DISABLED or DOWN and the field is not 3, and keeps it elsewhere (for the value 3 R65 says so;
for a logical port in another state it is the model's choice, log entry 83). PORT_CLASS_CFG_WRITE with a trust other
than 3 takes trust and default_tc, and while every logical port is DISABLED the lossless mask. PORT_COUNTER_CLEAR
zeroes every counter of the port, its logical ports and its classes, but for what they count in the cycle of the
clear, and keeps every other register. (R49, R54, R55, R65, R73, R122) -/
def Obligations.PortAdministration : Prop :=
  ∀ (s : State) (p : Port) (brk : Fin 4) (v : Nat), s.live = true → s.flag HUB_STATUS_ready = true →
    (s.flag (PORT_CFG_enable p) = false → Yields (.portEnable p brk) s (fun t => t.reg (PORT_CFG_enable p) = 1 ∧
      t.reg (PORT_CFG_breakout p) = brk.val ∧ (∀ l, l < 2 ^ brk.val → (t.link (8 * p + l)).st = .down) ∧
      (∀ src, src / 8 ≠ p.val → t.link src = s.link src) ∧ t.store = s.store ∧ t.clk = s.clk)) ∧
    (s.flag (PORT_CFG_enable p) = true → (∀ l, l < 8 → (s.link (8 * p + l)).eg.q = [] ∧ (s.link (8 * p + l)).eg.tx = none) →
      Yields (.portDisable p brk) s (fun t => t.reg (PORT_CFG_enable p) = 0 ∧ (∀ l, l < 8 → (t.link (8 * p + l)).st = .disabled) ∧
        (∀ src, src / 8 ≠ p.val → t.link src = s.link src) ∧ t.store = s.store)) ∧
    (s.flag (PORT_CFG_enable p) = false → exec (.portDisable p brk) s = .next (s.setReg (PORT_CFG_breakout p) brk.val)) ∧
    Yields (.portFcCfgWrite p v) s (fun t => t = s.setReg (PORT_FC_CFG_mode p) (t.reg (PORT_FC_CFG_mode p)) ∧ ∀ l, l < 8 →
      bits (t.reg (PORT_FC_CFG_mode p)) (2 * l) 2 =
        if ((s.link (8 * p + l)).st = .disabled ∨ (s.link (8 * p + l)).st = .down) ∧ bits v (2 * l) 2 ≠ 3
        then bits v (2 * l) 2 else bits (s.reg (PORT_FC_CFG_mode p)) (2 * l) 2) ∧
    (bits v 0 2 ≠ 3 → (∀ l, l < 8 → (s.link (8 * p + l)).st = .disabled) → s.store.usage = [] → s.store.bp = [] → s.store.bpPairs = [] →
      Yields (.portClassCfgWrite p v) s (fun t => t.reg (PORT_CLASS_CFG_trust p) = bits v 0 2 ∧
        t.reg (PORT_CLASS_CFG_default_tc p) = bits v 4 3 ∧ t.reg (PORT_CLASS_CFG_lossless_mask p) = bits v 8 7 ∧
        t = { s with regs := t.regs })) ∧
    (s.latchNow.counts = [] → Yields (.portCounterClear p) s (fun t =>
      s.clears t (portCounter p) (fun _ => false) ∧ t = { s with regs := t.regs, links := t.links })) ∧
    (∀ (l : Lp) (n : Nat), s.latchNow.counts = [((PORT_LCTR_rx_frames p l).key, n)] → n < 2 ^ 64 →
      Yields (.portCounterClear p) s (fun t => t.reg (PORT_LCTR_rx_frames p l) = n ∧ t.reg (PORT_LCTR_tx_frames p l) = 0))

/-- Lasers, signal, alignment and their losses move a logical port between its link states. A DOWN logical port of the
breakout, with lasers lit and nothing holding it, goes to ALIGN on SIGNAL_DETECT. After ALIGN, lock for 1 ms leads to
LLR_INIT with a new session when retry is enabled, and without retry to UP outside credit mode and to FC_INIT in it.
Loss of lock starts the gap, its return within 4 us ends it, and after more than 4 us a port with nothing queued is
DOWN. A FEC interval of a fabric port adds its codewords by corrected symbols, the corrected and uncorrectable ones
and the symbols, and sets degrade_ev when the symbols are above the threshold; of a mirror port it adds the
uncorrectable ones. LASER_LOSS of a lit tile marks it dark, clears laser_ok, sets laser_ev and brings every logical
port of its fabric ports that is not DISABLED to DOWN (with nothing queued there); LASER_RESTORE of a dark tile with
its module present and running reverses laser_ok. (R48, R53, R54, R62, R73) -/
def Obligations.LinkBringUpAndLoss : Prop :=
  ∀ (s : State) (p : Port) (l : Lp) (n : Nat) (h : List Nat) (k : Tile), s.live = true →
    ((s.link (8 * p + l)).st = .down → l.val < s.lpCount p → s.hw.dark.contains (p.val / 3) = false → (s.port p).blocked = false →
      s.sys.txDark = false → s.mir.rehearsal = none →
      Yields (.signalDetect p l) s (fun t => (t.link (8 * p + l)).st = .align ∧ (t.link (8 * p + l)).signal = true ∧
        (∀ src, src ≠ 8 * p.val + l.val → t.link src = s.link src) ∧ linksOnly s t)) ∧
    ((s.link (8 * p + l)).st = .align → bitOf (s.reg (PORT_LLR_CFG_en p)) l = true →
      Yields (.alignLockDone p l) s (fun t => (t.link (8 * p + l)).st = .llrInit ∧
        (t.link (8 * p + l)).ownSess = ((s.link (8 * p + l)).ownSess + 1) % 256 ∧ linksOnly s t)) ∧
    ((s.link (8 * p + l)).st = .align → bitOf (s.reg (PORT_LLR_CFG_en p)) l = false →
      Yields (.alignLockDone p l) s (fun t =>
        (t.link (8 * p + l)).st = (if s.fcMode (8 * p + l) = 2 then LinkSt.fcInit else .up) ∧ linksOnly s t)) ∧
    ((s.link (8 * p + l)).st ≠ .disabled → (s.link (8 * p + l)).st ≠ .down → (s.link (8 * p + l)).lostAt = none →
      Yields (.alignmentLockLoss p l) s (fun t => (t.link (8 * p + l)).lostAt = some s.now ∧ (t.link (8 * p + l)).lock = false ∧
        (t.link (8 * p + l)).st = (s.link (8 * p + l)).st)) ∧
    (∀ t0, (s.link (8 * p + l)).lostAt = some t0 → ftDiff t0 s.now ≤ 1024000 →
      Yields (.alignmentLockReturn p l) s (fun t => (t.link (8 * p + l)).lostAt = none ∧ (t.link (8 * p + l)).lock = true ∧
        (t.link (8 * p + l)).st = (s.link (8 * p + l)).st)) ∧
    (∀ t0, (s.link (8 * p + l)).lostAt = some t0 → 1024000 < ftDiff t0 s.now →
      (s.link (8 * p + l)).eg.q = [] → (s.link (8 * p + l)).eg.tx = none →
      Yields (.alignLossTimeout p l) s (fun t => (t.link (8 * p + l)).st = .down ∧ (t.link (8 * p + l)).held = [] ∧
        (∀ src, src / 8 ≠ p.val → t.link src = s.link src))) ∧
    (∀ sum, sum = (List.range 16).foldl (fun a i => a + i * h.getD i 0) 0 →
      Yields (.fecDegradeInterval ⟨p.val, by omega⟩ ⟨h, n⟩) s (fun t =>
        t.reg (PORT_CTR_fec_symbols_corrected p) = (s.reg (PORT_CTR_fec_symbols_corrected p) + sum) % 2 ^ 64 ∧
        t.reg (PORT_CTR_fec_cw_corrected p) =
          (s.reg (PORT_CTR_fec_cw_corrected p) + (List.range 16).foldl (fun a i => a + if i = 0 then 0 else h.getD i 0) 0) % 2 ^ 64 ∧
        t.reg (PORT_CTR_fec_cw_uncorrected p) = (s.reg (PORT_CTR_fec_cw_uncorrected p) + n) % 2 ^ 64 ∧
        (∀ i, i < 16 → t.reg (PORT_CTR_fec_hist p i) = (s.reg (PORT_CTR_fec_hist p i) + h.getD i 0) % 2 ^ 64) ∧
        (s.reg (PORT_FEC_DEGRADE_threshold p) < sum → t.flag (PORT_INTR_STATUS_degrade_ev p) = true) ∧ t.links = s.links)) ∧
    (∀ m : Mlink, exec (.fecDegradeInterval ⟨24 + m.val, by omega⟩ ⟨h, n⟩) s = .next (s.count (MIR_CTR_fec_cw_uncorrected m) n)) ∧
    (s.hw.dark.contains k.val = false →
      (∀ q ∈ tilePorts k, ∀ j, j < 8 → (s.link (8 * q + j)).eg.q = [] ∧ (s.link (8 * q + j)).eg.tx = none) →
      Yields (.laserLoss k) s (fun t => t.hw.dark = k.val :: s.hw.dark ∧ (∀ q ∈ tilePorts k,
        t.flag (PORT_STATUS_laser_ok q) = false ∧ t.flag (PORT_INTR_STATUS_laser_ev q) = true ∧
        (∀ j, j < 8 → (t.link (8 * q + j)).st = if (s.link (8 * q + j)).st = .disabled then LinkSt.disabled else .down)))) ∧
    (s.hw.dark.contains k.val = true → s.sys.lasers.contains k.val = true → bitOf (s.reg HUB_BOARD_STATUS_ls_run) k = true →
      Yields (.laserRestore k) s (fun t => t.hw.dark = s.hw.dark.erase k.val ∧ t.links = s.links ∧ (∀ q ∈ tilePorts k,
        t.flag (PORT_STATUS_laser_ok q) = true ∧ t.flag (PORT_INTR_STATUS_laser_ev q) = true)))

/-- Retry is negotiated, acknowledged frames leave the retry buffer, a NACK or a timeout resends. In LLR_INIT the timer
sends LLR_INIT with the own session, llr_req and 32768. An LLR_INIT received outside credit mode brings the port UP
with both sequences at zero and the peer's session, and shows retry active when both sides have sent llr_req; 1 ms
without one brings it UP with retry as it was. On a mirror port, which runs retry always, it gives the peer's session;
the session, max_retries and retry timeout of a mirror port are the model's choice (log entry 69), and so is when a
side leaves LLR_INIT (log entry 80). With retry active, an ACK of the peer's session drops the held frames before its
sequence; a NACK, and a timeout of the oldest held frame, resend from a sequence, byte for byte, while max_retries is
not reached and no frame is under way; at max_retries a fabric port goes DOWN with llr_fail_ev, and a mirror port
DOWN. The ACK timer acknowledges what has advanced. (R57, R58, R59, R61, R62, R72) -/
def Obligations.LinkLevelRetry : Prop :=
  ∀ (s : State) (p : LlrPort) (l : Lp) (c : Ctl) (u : State), s.live = true →
    ((s.link (srcOf p l)).st = .llrInit → exec (.llrInitTimer p l) s = .next
      ((s.sendEch (srcOf p l) 0x74 (beBytes 1 (s.link (srcOf p l)).ownSess ++ beBytes 1 (bit1 (s.llrEn (srcOf p l))) ++
        beBytes 2 32768 ++ [0, 0, 0, 0])).modLink (srcOf p l) (fun k => { k with sentInit := some (s.llrEn (srcOf p l)) }))) ∧
    (s.takeCtl (srcOf p l) (isEchOp 0x74) = some (c, u) → srcOf p l < 192 → (u.link (srcOf p l)).st = .llrInit → u.fcMode (srcOf p l) ≠ 2 →
      (u.link (srcOf p l)).eg.ctlq = [] →
      Yields (.llrInitRx p l) s (fun t => (t.link (srcOf p l)).st = .up ∧ (t.link (srcOf p l)).txSeq = 0 ∧
        (t.link (srcOf p l)).nextExp = 0 ∧ (t.link (srcOf p l)).peerSess = byteAt (echPayload c.bytes) 0 ∧
        t.llrOn (srcOf p l) = (u.llrOn (srcOf p l) ||
          (bitOf (byteAt (echPayload c.bytes) 1) 0 && (u.link (srcOf p l)).sentInit.getD (u.llrEn (srcOf p l)))) ∧ linksOnly s t)) ∧
    (s.takeCtl (srcOf p l) (isEchOp 0x74) = some (c, u) → 192 ≤ srcOf p l → u.isUp (srcOf p l) = true → (u.link (srcOf p l)).peerInit = none →
      (u.link (srcOf p l)).sentInit ≠ none → exec (.llrInitRx p l) s = .next (u.modLink (srcOf p l) (fun k => { k with
        peerSess := byteAt (echPayload c.bytes) 0, peerInit := some (bitOf (byteAt (echPayload c.bytes) 1) 0) }))) ∧
    ((s.link (srcOf p l)).st = .llrInit → srcOf p l < 192 → s.elapsed (s.link (srcOf p l)).since 1000000 = true → s.fcMode (srcOf p l) ≠ 2 →
      Yields (.llrInitTimeout p l) s (fun t => (t.link (srcOf p l)).st = .up ∧ t.llrOn (srcOf p l) = s.llrOn (srcOf p l) ∧ linksOnly s t)) ∧
    (s.takeCtl (srcOf p l) (isEchOp 0x75) = some (c, u) → u.llrOn (srcOf p l) = true →
      byteAt (echPayload c.bytes) 0 = (u.link (srcOf p l)).peerSess → (u.link (srcOf p l)).eg.ctlq = [] →
      ∀ left, left = (u.link (srcOf p l)).held.filter (fun h => !seqBefore h.seq (beAt (echPayload c.bytes) 2 2)) →
      left.length < (u.link (srcOf p l)).held.length →
      exec (.llrAckRx p l) s = .next (u.modLink (srcOf p l) (fun k => { k with held := left, resends := 0, lastAck := s.now }))) ∧
    (s.takeCtl (srcOf p l) (isEchOp 0x76) = some (c, u) → u.llrOn (srcOf p l) = true →
      byteAt (echPayload c.bytes) 0 = (u.link (srcOf p l)).peerSess → (u.link (srcOf p l)).held ≠ [] →
      (u.link (srcOf p l)).resends < u.maxRetries (srcOf p l) → (u.link (srcOf p l)).eg.tx = none →
      exec (.llrNackRx p l) s = .next
        ((u.countL PORT_LCTR_llr_nack_rx (srcOf p l)).resendFrom (srcOf p l) (beAt (echPayload c.bytes) 2 2))) ∧
    (∀ h r, (s.link (srcOf p l)).held = h :: r → s.llrOn (srcOf p l) = true →
      s.elapsed (s.link (srcOf p l)).lastAck (s.retryNs (srcOf p l)) = true →
      ((s.link (srcOf p l)).resends < s.maxRetries (srcOf p l) → (s.link (srcOf p l)).eg.tx = none →
        exec (.llrRetryTimeout p l) s = .next (s.resendFrom (srcOf p l) h.seq)) ∧
      (s.maxRetries (srcOf p l) ≤ (s.link (srcOf p l)).resends →
        (s.link (srcOf p l)).eg.q = [] → (s.link (srcOf p l)).eg.tx = none →
        Yields (.llrRetryTimeout p l) s (fun t => (t.link (srcOf p l)).st = .down ∧
          (srcOf p l < 192 → t.flag (PORT_INTR_STATUS_llr_fail_ev (srcOf p l / 8)) = true)))) ∧
    (s.llrOn (srcOf p l) = true → (s.link (srcOf p l)).nextExp ≠ (s.link (srcOf p l)).acked → (s.link (srcOf p l)).skipping = false →
      exec (.llrAckTimer p l) s = .next
        ((s.sendAck (srcOf p l) 0x75).modLink (srcOf p l) (fun k => { k with acked := k.nextExp })))

/-- PFC pauses and resumes classes; credit frames carry limits; a silent peer times out. A PFC frame in PFC mode pauses
each named class of tc0 to tc6 for its quanta of 512 bit times, ends the pause of a class whose quanta are zero, keeps
the rest, and is counted; outside PFC mode it is counted alone. A pause whose time has come ends. The refresh timer of
an UP port in PFC mode with back-pressured classes sends one PFC frame naming them, and counts it. CREDIT_INIT in
FC_INIT brings the port UP, and on a port that is UP leaves it UP, with limits, counts and received units at zero, the
peer's mask kept, and every lossless class granted its limit; CREDIT_UPDATE takes the limit of each lossless class;
the keepalive grants the limits of every lossless class. A frame that has waited for credit for the timeout, with no
update in that time, sets credit_timeout_ev. (R65, R66, R67, R68, R69, R71, R112) -/
def Obligations.FlowControlFrames : Prop :=
  ∀ (s : State) (p : Port) (l : Lp) (cl : Cls) (c : Ctl) (u : State), s.live = true →
    (s.takeCtl (srcOf p l) (fun c => isPfc c.bytes) = some (c, u) → u.fcMode (srcOf p l) = 1 →
      Yields (.pfcFrameRx p l) s (fun t =>
        (∀ i, i < 7 → (t.link (srcOf p l)).pause.find? i =
          if bitOf (beAt c.bytes ((parseFrame c.bytes).l3 + 2) 2) i = false then (s.link (srcOf p l)).pause.find? i
          else if beAt c.bytes ((parseFrame c.bytes).l3 + 4 + 2 * i) 2 = 0 then none
          else some (s.now + BitVec.ofNat 64
            (ceilDiv (beAt c.bytes ((parseFrame c.bytes).l3 + 4 + 2 * i) 2 * 512 * 256) (s.rate (srcOf p l))))) ∧
        t.reg (PORT_LCTR_rx_pfc_frames p l) = (s.reg (PORT_LCTR_rx_pfc_frames p l) + 1) % 2 ^ 64 ∧ linksOnly s t)) ∧
    (s.takeCtl (srcOf p l) (fun c => isPfc c.bytes) = some (c, u) → u.fcMode (srcOf p l) ≠ 1 →
      bitOf (beAt c.bytes ((parseFrame c.bytes).l3 + 2) 2) 7 = false →
      exec (.pfcFrameRx p l) s = .next (u.countL PORT_LCTR_rx_pfc_frames (srcOf p l))) ∧
    (∀ t0, (s.link (srcOf p l)).pause.find? cl = some t0 → atOrBefore t0 s.now = true →
      exec (.pfcPauseExpire p l cl) s = .next (s.modLink (srcOf p l) (fun k => { k with pause := k.pause.erase cl }))) ∧
    (s.isUp (srcOf p l) = true → s.fcMode (srcOf p l) = 1 → s.bpClasses (srcOf p l) ≠ [] →
      ∀ fr, fr = pfcFrame (s.station (srcOf p l / 8)) ((s.bpClasses (srcOf p l)).map (fun i => (i, s.reg (PORT_PFC_CFG_xoff_quanta p)))) →
      exec (.pfcRefreshTimer p l) s = .next ((s.sendCtl (srcOf p l) { bytes := fr }).countL PORT_LCTR_tx_pfc_frames (srcOf p l))) ∧
    (s.takeCtl (srcOf p l) (isEchOp 0x78) = some (c, u) → u.fcMode (srcOf p l) = 2 →
      ((u.link (srcOf p l)).st = .fcInit ∨ (u.link (srcOf p l)).st = .up) →
      Yields (.creditInitRx p l) s (fun t => (t.link (srcOf p l)).st = .up ∧ (t.link (srcOf p l)).limit = [] ∧
        (t.link (srcOf p l)).consumed = [] ∧ (t.link (srcOf p l)).rxUnits = [] ∧
        (t.link (srcOf p l)).peerMask = some (byteAt (echPayload c.bytes) 1) ∧ (t.link (srcOf p l)).lastUpdate = s.now ∧
        (∀ i, i < 7 → t.lossless (srcOf p l / 8) i = true → (t.link (srcOf p l)).granted.get 0 i = t.creditLimit (srcOf p l) i) ∧
        linksOnly s t)) ∧
    (s.takeCtl (srcOf p l) (isEchOp 0x79) = some (c, u) → u.fcMode (srcOf p l) = 2 →
      Yields (.creditUpdateRx p l) s (fun t => (∀ i, i < 7 → (t.link (srcOf p l)).limit.get 0 i =
          if s.lossless (srcOf p l / 8) i then beAt (echPayload c.bytes) (4 + 4 * i) 4 else (s.link (srcOf p l)).limit.get 0 i) ∧
        (t.link (srcOf p l)).lastUpdate = s.now ∧ t = { s with links := t.links })) ∧
    (s.isUp (srcOf p l) = true → s.fcMode (srcOf p l) = 2 →
      Yields (.creditKeepaliveTimer p l) s (fun t => (∀ i, i < 7 → (t.link (srcOf p l)).granted.get 0 i =
          if s.lossless (srcOf p l / 8) i then s.creditLimit (srcOf p l) i else (s.link (srcOf p l)).granted.get 0 i) ∧ linksOnly s t)) ∧
    (∀ t0, (s.link (srcOf p l)).eg.creditSince = some t0 → s.fcMode (srcOf p l) = 2 →
      s.elapsed t0 (s.reg (PORT_CREDIT_CFG_timeout (srcOf p l / 8)) * 10000) = true →
      s.elapsed (s.link (srcOf p l)).lastUpdate (s.reg (PORT_CREDIT_CFG_timeout (srcOf p l / 8)) * 10000) = true →
      Yields (.creditTimeout p l) s (fun t => t.flag (PORT_INTR_STATUS_credit_timeout_ev (srcOf p l / 8)) = true ∧ t.links = s.links))

/-- A frame's first bit is stamped, its fate is decided once, and its tail is counted and handed on. On a logical port in
UP, LLR_INIT or FC_INIT with no frame under reception and no replay, FRAME_RX_START takes the next arrival number of
its source and the stamp of the receive plane; with retry active a tag with the expected sequence and session is
accepted in sequence and ends skipping, and while skipping any other sequence is counted and its frame not accepted.
FRAME_DECISION, of a frame's first 256 bytes or of a shorter frame that has come whole, leaves one under 64 bytes
without a fate; it gives a PFC or link control frame to the port, and on an UP port a PTP or time frame that finds a
lookup slot; a frame below rows 1 to 3 that is neither recorded nor policed is discarded and counted in disabled_drops
while the store is not ready, and in lookup_overrun_drops when the lookup has no slot; else it gets the fate of rows 4
to 9 (ForwardingTables says which). A port that is not UP drops what is no row 1 frame, which is the model's choice
(log entry 68). FRAME_TAIL ends the reception: a frame under 64 bytes counts in rx_undersize, any other in rx_frames
and rx_bytes; a good sequenced frame advances next_expected; a good control frame (PFC) joins those that wait at the
port, and a good group frame waits for its group's owner. (R21, R45, R57, R59, R73, R74, R76, R91, R94, R338) -/
def Obligations.FrameReception : Prop :=
  ∀ (s : State) (p : Port) (l : Lp) (b : Bytes) (r : Rx), s.live = true →
    (((s.link (8 * p + l)).st = .up ∨ (s.link (8 * p + l)).st = .llrInit ∨ (s.link (8 * p + l)).st = .fcInit) → l.val < s.lpCount p →
      (s.link (8 * p + l)).rx = none → s.replaying = false → ∀ pre : Bytes,
      (s.llrOn (8 * p + l) = false → exec (.frameRxStart p l pre) s = .next ((s.arrival (8 * p + l)).2.modLink (8 * p + l)
        (fun k => { k with rx := some { stamp := s.planeNow (8 * p + l), arr := (s.arrival (8 * p + l)).1 } }))) ∧
      (s.llrOn (8 * p + l) = true → readTag pre = .sequenced (s.link (8 * p + l)).nextExp (s.link (8 * p + l)).ownSess →
        exec (.frameRxStart p l pre) s = .next ((s.arrival (8 * p + l)).2.modLink (8 * p + l) (fun k => { k with
          skipping := false, rx := some { stamp := s.planeNow (8 * p + l), arr := (s.arrival (8 * p + l)).1, sequenced := true } }))) ∧
      (∀ q n, s.llrOn (8 * p + l) = true → readTag pre = .sequenced q n → q ≠ (s.link (8 * p + l)).nextExp → (s.link (8 * p + l)).skipping = true →
        exec (.frameRxStart p l pre) s = .next (((s.arrival (8 * p + l)).2.countL PORT_LCTR_llr_seq_discards (8 * p + l)).modLink (8 * p + l)
          (fun k => { k with rx := some { stamp := s.planeNow (8 * p + l), arr := (s.arrival (8 * p + l)).1, sequenced := true, accept := false } })))) ∧
    ((s.link (8 * p + l)).rx = some r → r.decided = false → r.dropped = false → r.accept = true → s.replaying = false →
      ∀ (w : Bool) (n : Nat) (hd : Bytes) (f : Parsed) (d : Rx), hd = b.take (if w then 252 else 256) →
      n = (if w then hd.length + 4 else 256) → f = parseFrame hd → d = { r with decided := true, whole := w, data := hd } →
      (w = true → hd.length < 60 → exec (.frameDecision p l b w) s = .next (s.modLink (8 * p + l) (fun k => { k with rx := some d }))) ∧
      ((w = false ∨ 60 ≤ hd.length) → s.portRow (8 * p + l) hd f = some 1 → exec (.frameDecision p l b w) s = .next (s.modLink (8 * p + l)
        (fun k => { k with rx := some { d with fate := .port, cls := 7 } }))) ∧
      (∀ i, (w = false ∨ 60 ≤ hd.length) → s.portRow (8 * p + l) hd f = some i → i ≠ 1 → s.isUp (8 * p + l) = true → ∀ u, s.lookupSlot p n = some u →
        exec (.frameDecision p l b w) s = .next (u.modLink (8 * p + l)
          (fun k => { k with rx := some { d with fate := .port, cls := s.classify p f } }))) ∧
      ((w = false ∨ 60 ≤ hd.length) → s.portRow (8 * p + l) hd f ≠ some 1 → s.isUp (8 * p + l) = false →
        exec (.frameDecision p l b w) s = .next (s.modLink (8 * p + l)
          (fun k => { k with rx := some { d with cls := s.classify p f, dropped := true } }))) ∧
      (∀ e : Rx, (w = false ∨ 60 ≤ hd.length) → s.portRow (8 * p + l) hd f = none → s.isUp (8 * p + l) = true → s.recording = false →
        s.flag (PORT_POL_RATE_en p l (s.classify p f)) = false → e = { d with cls := s.classify p f, colour := 0, recorded := false } →
        (s.flag STORE_STATUS_ready = false → exec (.frameDecision p l b w) s = .next
          ((s.count STORE_CTR_disabled_drops).modLink (8 * p + l) (fun k => { k with rx := some { e with fate := .drop } }))) ∧
        (s.flag STORE_STATUS_ready = true → s.lookupSlot p n = none → exec (.frameDecision p l b w) s = .next
          ((s.countL PORT_LCTR_lookup_overrun_drops (8 * p + l)).modLink (8 * p + l) (fun k => { k with rx := some { e with fate := .drop } }))) ∧
        (∀ u ft v, s.flag STORE_STATUS_ready = true → s.lookupSlot p n = some u →
          u.decideFate (8 * p + l) (s.classify p f) e hd f w = (ft, v) →
          exec (.frameDecision p l b w) s = .next (v.modLink (8 * p + l) (fun k => { k with rx := some { e with fate := ft } }))))) ∧
    ((s.link (8 * p + l)).rx = some r → r.decided = true → (s.link (8 * p + l)).lostAt = none → r.cut = false →
      ∀ all : Bytes, all = r.data ++ (if r.whole then [] else b) →
      (all.length < 60 → r.sequenced = false → exec (.frameTail p l b .good) s = .next
        ((s.modLink (8 * p + l) (fun k => { k with rx := none })).countL PORT_LCTR_rx_undersize (8 * p + l))) ∧
      (all.length < 60 → r.sequenced = true → r.dropped = false → r.accept = true → exec (.frameTail p l b .good) s = .next
        ((s.modLink (8 * p + l) (fun k => { k with rx := none, nextExp := (k.nextExp + 1) % 65536 })).countL PORT_LCTR_rx_undersize (8 * p + l))) ∧
      (60 ≤ all.length → all.length + 4 ≤ s.maxFrame p → r.dropped = false → r.accept = true → r.recorded = false →
        r.colour = 0 → s.fcMode (8 * p + l) ≠ 2 →
        (r.fate = .drop → Yields (.frameTail p l b .good) s (fun t => (t.link (8 * p + l)).rx = none ∧
          (t.link (8 * p + l)).nextExp =
            (if r.sequenced then ((s.link (8 * p + l)).nextExp + 1) % 65536 else (s.link (8 * p + l)).nextExp) ∧
          t.reg (PORT_LCTR_rx_frames p l) = (s.reg (PORT_LCTR_rx_frames p l) + 1) % 2 ^ 64 ∧
          t.reg (PORT_LCTR_rx_bytes p l) = (s.reg (PORT_LCTR_rx_bytes p l) + all.length + 4) % 2 ^ 64 ∧ linksOnly s t)) ∧
        (r.fate = .port → isPfc all = true → Yields (.frameTail p l b .good) s (fun t => (t.link (8 * p + l)).rx = none ∧
          (t.link (8 * p + l)).ctl = (s.link (8 * p + l)).ctl ++ [{ stamp := r.stamp, arr := r.arr, good := true, bytes := all }] ∧
          linksOnly s t)) ∧
        (∀ id gid, r.fate = .group id gid → Yields (.frameTail p l b .good) s (fun t => (t.link (8 * p + l)).rx = none ∧
          t.inbox = s.inbox ++ [{ frm := id, gid := gid, token := false }]))))

/-- What rows 4 to 9 and the forwarding tables give a received frame, and which counter counts a drop. A frame with ECH
for a station MAC whose group is not valid is dropped and counted; a frame that is no such frame gets what the lookup
gives. Addressed to the station, an IP frame with a good header takes the action of the longest matching prefix, and
no match, no IP, an unreadable header or a bad IPv4 checksum is counted in its own counter; any other frame takes the
action of its MAC and VLAN. DROP counts as a miss; PROGRAM names its context and tag; NEXT_HOP sends one copy with its
rewrite, unless the entry is not written, the egress is the ingress without hairpin_ok, the TTL would expire, or the
length is above max_frame, in that order, which is the model's choice (log entry 64); ECMP is NEXT_HOP of the live
member that the hash selects; REPLICATE sends a copy for each member that passes the same checks, in list order. (R74,
R75, R80, R81, R82, R84, R87, R90, R463, R464) -/
def Obligations.ForwardingTables : Prop :=
  ∀ (s : State) (src : Nat) (b : Bytes) (f : Parsed), src < 192 →
    (∀ (cls : Nat) (r : Rx) (w : Bool),
      (f.isEch (s.echType (src / 8)) = true → f.dmac = s.station (src / 8) → s.groups.find? (echOf b).gid = none →
        s.decideFate src cls r b f w = (.drop, s.countL PORT_LCTR_ech_unknown_drops src)) ∧
      ((f.isEch (s.echType (src / 8)) = false ∨ f.dmac ≠ s.station (src / 8)) → ∀ u, s.lookup src true false b f = (.drop, u) →
        s.decideFate src cls r b f w = (.drop, u)) ∧
      ((f.isEch (s.echType (src / 8)) = false ∨ f.dmac ≠ s.station (src / 8)) → ∀ u eg ed id v, s.lookup src true false b f = (.copies false [(eg, ed)], u) →
        u.receive src (8 * (src / 8) + cls) cls r b f (some eg) = some (id, v) → s.decideFate src cls r b f w =
          (.fwd id, v.spread id false (8 * (src / 8) + cls) [(eg, { frm := id, edit := ed, cut := v.mayCut src eg w, rep := false })]))) ∧
    (f.dmac ≠ s.station (src / 8) → s.tables.endpoint.find? (f.dmac * 4096 + f.vid) = none →
      s.lookup src true false b f = (.drop, s.countL PORT_LCTR_lookup_miss_drops src)) ∧
    (f.dmac ≠ s.station (src / 8) → ∀ a, s.tables.endpoint.find? (f.dmac * 4096 + f.vid) = some a →
      s.lookup src true false b f = s.act src true b f a) ∧
    (f.dmac = s.station (src / 8) → f.et ≠ 0x0800 → f.et ≠ 0x86DD →
      s.lookup src true false b f = (.drop, s.countL PORT_LCTR_lookup_miss_drops src)) ∧
    (f.dmac = s.station (src / 8) → (f.et = 0x0800 ∨ f.et = 0x86DD) → (f.ip = none ∨ ∃ ip, f.ip = some ip ∧ ip.csumOk = false) →
      s.lookup src true false b f = (.drop, s.countL PORT_LCTR_ip_hdr_err src)) ∧
    (∀ (ip : Ip) (t : Tab Nat) (w : Nat), f.dmac = s.station (src / 8) → (f.et = 0x0800 ∨ f.et = 0x86DD) → f.ip = some ip → ip.csumOk = true →
      t = (if ip.v6 then s.tables.v6 else s.tables.v4) → w = (if ip.v6 then 128 else 32) →
      ((∀ n, n ≤ w → t.find? (n * 2 ^ w + beNat ip.dst / 2 ^ (w - n) * 2 ^ (w - n)) = none) →
        s.lookup src true false b f = (.drop, s.countL PORT_LCTR_lookup_miss_drops src)) ∧
      (∀ n a, n ≤ w → t.find? (n * 2 ^ w + beNat ip.dst / 2 ^ (w - n) * 2 ^ (w - n)) = some a →
        (∀ m, m ≤ w → n < m → t.find? (m * 2 ^ w + beNat ip.dst / 2 ^ (w - m) * 2 ^ (w - m)) = none) →
        s.lookup src true false b f = s.act src true b f a)) ∧
    (∀ a, bits a 0 3 = 0 → s.act src true b f a = (.drop, s.countL PORT_LCTR_lookup_miss_drops src)) ∧
    (∀ a, bits a 0 3 = 4 → s.act src true b f a = (.prog (bits a 8 3 * 32 + bits a 11 5) (bits a 16 8), s)) ∧
    (∀ a, bits a 0 3 = 1 → s.tables.nexthop.find? (bits a 8 16) = none →
      s.act src true b f a = (.drop, s.countL PORT_LCTR_lookup_miss_drops src)) ∧
    (∀ a e, bits a 0 3 = 1 → s.tables.nexthop.find? (bits a 8 16) = some e →
      (byteAt e 0 = src → bitOf (byteAt e 1) 0 = false → s.act src true b f a = (.drop, s.countL PORT_LCTR_hairpin_drops src)) ∧
      (byteAt e 0 ≠ src ∨ bitOf (byteAt e 1) 0 = true → ∀ ip, bitOf a 3 = true → f.ip = some ip → ip.ttl ≤ 1 →
        s.act src true b f a = (.drop, s.countL PORT_LCTR_ttl_drops src)) ∧
      (byteAt e 0 ≠ src ∨ bitOf (byteAt e 1) 0 = true → (bitOf a 3 = false ∨ f.expired = false) → ∀ len, headerLen b f (s.echType (src / 8)) = some len →
        s.maxFrame (byteAt e 0 / 8) < max len ((len : Int) + vlanDelta (!f.tags.isEmpty) (bits (byteAt e 1) 1 2)).toNat →
        s.act src true b f a = (.drop, s.countL PORT_LCTR_mtu_drops src)) ∧
      (byteAt e 0 ≠ src ∨ bitOf (byteAt e 1) 0 = true → (bitOf a 3 = false ∨ f.expired = false) → ((headerLen b f (s.echType (src / 8))).all fun len =>
          decide (max len ((len : Int) + vlanDelta (!f.tags.isEmpty) (bits (byteAt e 1) 1 2)).toNat ≤ s.maxFrame (byteAt e 0 / 8))) = true →
        s.act src true b f a = (.copies false [(byteAt e 0,
          { route := bitOf a 3, dmac := beAt e 4 6, vlanOp := bits (byteAt e 1) 1 2, vid := leAt e 2 2 % 4096 })], s))) ∧
    (∀ a live, bits a 0 3 = 2 → live = ((s.tables.ecmp.find? (bits a 8 16)).elim [] nhList).filter s.nhLive →
      (live = [] → s.act src true b f a = (.drop, s.countL PORT_LCTR_lookup_miss_drops src)) ∧
      (live ≠ [] → s.act src true b f a = s.act src true b f (1 + 8 * bits a 3 1 +
        256 * live.getD (ecmpHash (s.reg (PORT_HASH_SEED_seed (src / 8))) b f (s.echType (src / 8)) / 2 ^ 16 * live.length / 2 ^ 16) 0))) ∧
    (∀ a g, bits a 0 3 = 3 → s.tables.repl.find? (bits a 8 16) = some g →
      (s.act src true b f a).1 = match (nhList g).filterMap (fun i => (s.hop src true b f (bitOf a 3) i).1) with
        | [] => .drop
        | l => .copies true l) ∧
    (∀ a, bits a 0 3 = 3 → s.tables.repl.find? (bits a 8 16) = none → s.act src true b f a = (.drop, s.countL PORT_LCTR_lookup_miss_drops src))

/-- A selected head starts, a finished copy leaves with its FCS, a starved cut-through copy leaves with the abort code. On
an UP logical port with no frame under way, no gate list and no retry, EGRESS_SELECT starts the head of tc7 when the
limiter allows it; with tc7 empty and one class in the round, newly visited, it starts that class's head when it may
start and its length is within deficit plus quantum, and the deficit becomes that sum less the length. FRAME_TX_END of
an unsequenced stored copy with a good tail within max_frame sends its bytes with a good FCS under the stamp of its
first bit, that stamp in its header where the rules put one there, and frees the link; EGRESS_UNDERRUN of a cut-
through copy sends the whole units committed with the abort code and is counted. SHAPER_ELIGIBLE of a due shaper whose
time is reached or whose rate is zero unparks its class. (R22, R45, R87, R88, R89, R127, R131, R132, R205) -/
def Obligations.EgressTransmission : Prop :=
  ∀ (s : State) (p : Port) (l : Lp) (h : Copy) (r : List Copy) (f : Sys2Proof.Machine.Frm), s.live = true →
    (s.isUp (srcOf p l) = true → (s.link (srcOf p l)).eg.tx = none → srcOf p l % 8 < s.lpCount (srcOf p l / 8) → s.gateOn (srcOf p l / 8) = false →
      s.llrOn (srcOf p l) = false → s.frm h.frm = some f → s.frameUe f = none →
      (f.tail.isSome && !h.cut && decide (s.maxFrame (srcOf p l / 8) < s.schedLen h (srcOf p l / 8))) = false →
      ((s.link (srcOf p l)).eg.queue 7 = h :: r → s.tc7Ready (srcOf p l) = true →
        Yields (.egressSelect p l) s (fun t => (t.link (srcOf p l)).eg.queue 7 = r ∧
          (t.link (srcOf p l)).eg.tx = some { copy := h, sched := s.schedLen h (srcOf p l / 8), rate := s.shapeRate (srcOf p l) 7, stamp := s.txStamp (srcOf p l), seq := none })) ∧
      (∀ c, c < 7 → (s.link (srcOf p l)).eg.queue 7 = [] → (s.link (srcOf p l)).eg.active = [c] → (s.link (srcOf p l)).eg.queue c = h :: r →
        (s.link (srcOf p l)).eg.visited = [] → s.canStart (srcOf p l) c h = true →
        ((s.schedLen h (srcOf p l / 8) : Nat) : Int) ≤ (s.link (srcOf p l)).eg.deficit.get 0 c + ((s.quantum (srcOf p l / 8) c : Nat) : Int) →
        Yields (.egressSelect p l) s (fun t => (t.link (srcOf p l)).eg.queue c = r ∧
          (t.link (srcOf p l)).eg.tx = some { copy := h, sched := s.schedLen h (srcOf p l / 8), rate := s.shapeRate (srcOf p l) c, stamp := s.txStamp (srcOf p l), seq := none } ∧
          (t.link (srcOf p l)).eg.deficit.get 0 c = (s.link (srcOf p l)).eg.deficit.get 0 c + ((s.quantum (srcOf p l / 8) c : Nat) : Int) -
            ((s.schedLen h (srcOf p l / 8) : Nat) : Int)))) ∧
    (∀ x, (s.link (srcOf p l)).eg.tx = some x → s.frm x.copy.frm = some f → x.seq = none → x.abort = false → x.stopAt = none →
      s.replaying = false →
      (f.tail = some .good → f.cutAt = none → x.copy.cut = false → (s.link (srcOf p l)).resend = none →
        Yields (.frameTxEnd p l) s (fun t => (t.link (srcOf p l)).eg.tx = none ∧
          .frame (srcOf p l) stdPreamble (s.stampCopy f (srcOf p l / 8) (s.copyBytes x.copy (srcOf p l / 8)) x.stamp) true x.stamp ∈ t.out)) ∧
      (x.copy.cut = true → f.tail = none → (s.link (srcOf p l)).resend = none →
        Yields (.egressUnderrun p l) s (fun t => (t.link (srcOf p l)).eg.tx = none ∧
          t.reg (PORT_LCTR_tx_underrun p l) = (s.reg (PORT_LCTR_tx_underrun p l) + 1) % 2 ^ 64 ∧
          .frame (srcOf p l) stdPreamble
            (s.stampCopy f (srcOf p l / 8) ((s.copyBytes x.copy (srcOf p l / 8)).take (f.len / 256 * 256)) x.stamp) false x.stamp ∈ t.out))) ∧
    (∀ c : Cls, s.dueEvent (.shaper (srcOf p l) c) = true →
      (s.reg (PORT_SHP_CFG_rate (srcOf p l / 8) (srcOf p l % 8) c) = 0 ∨
        atOrBefore (BitVec.ofNat 64 (s.reg (PORT_SHP_STATE_e_time (srcOf p l / 8) (srcOf p l % 8) c))) s.now = true) →
      exec (.shaperEligible p l c) s = .next ((s.unschedule (.shaper (srcOf p l) c)).modEg (srcOf p l)
        (fun g => { g with parked := g.parked.erase c.val })))

/-- A gate list is checked, waits for its time, becomes operational and sets the gate state; policer rates are written.
With the block ready and no change pending, GATE_CFG_CHANGE of a list that fails the check sets cfg_err and nothing
else; a list that passes is pending with its apply time the first cycle boundary at or after now plus 1 us, and that
event is scheduled. GATE_CONFIG_APPLY when due copies the administrative list of at most 256 entries with its base and
cycle to the operational one and ends pending. GATE_CHANGE when due sets the mask that the operational list gives at
device time. POLICER_RATE_WRITE takes cir, pir and en; where en rises the buckets are full, and where en was already 1
or is written 0 they stay as they are, and in SOLO nothing but these fields changes. (R126, R133, R136, R137) -/
def Obligations.GatesAndPolicers : Prop :=
  ∀ (s : State) (p : Port), s.live = true →
    (s.flag HUB_STATUS_ready = true → s.flag (PORT_GATE_CTRL_pending p) = false →
      (s.gateCheck p = false → exec (.gateCfgChange p) s = .next (s.setW1c (PORT_GATE_CTRL_cfg_err p) 1)) ∧
      (s.gateCheck p = true → ∀ base at_ : FT64, base = BitVec.ofNat 64 (s.reg (PORT_GATE_BASE_base p)) →
        at_ = base + BitVec.ofNat 64 (ceilDiv (ftDiff base (s.now + ns 1000)).toNat (s.reg (PORT_GATE_CYCLE_cycle p) * 256) *
          (s.reg (PORT_GATE_CYCLE_cycle p) * 256)) →
        Yields (.gateCfgChange p) s (fun t => t.flag (PORT_GATE_CTRL_pending p) = true ∧ t.reg (PORT_GATE_CFG_TIME_t p) = at_.toNat ∧
          (∃ e ∈ t.clk.sched, e.ev = .gateApply p ∧ e.at_ = at_) ∧ (∀ e ∈ s.clk.sched, e ∈ t.clk.sched)))) ∧
    (s.dueEvent (.gateApply p) = true → s.reg (PORT_GATE_CTRL_admin_len p) ≤ 256 →
      Yields (.gateConfigApply p) s (fun t => t.flag (PORT_GATE_CTRL_pending p) = false ∧
        t.reg (PORT_GATE_CTRL_oper_len p) = s.reg (PORT_GATE_CTRL_admin_len p) ∧
        t.reg (PORT_GATE_OPER_BASE_base p) = s.reg (PORT_GATE_BASE_base p) ∧
        t.reg (PORT_GATE_OPER_CYCLE_cycle p) = s.reg (PORT_GATE_CYCLE_cycle p) ∧
        (∀ i, i < s.reg (PORT_GATE_CTRL_admin_len p) → t.reg (PORT_GATE_OPER_mask p i) = s.reg (PORT_GATE_ADMIN_mask p i) ∧
          t.reg (PORT_GATE_OPER_interval p i) = s.reg (PORT_GATE_ADMIN_interval p i)))) ∧
    (s.dueEvent (.gateChange p) = true → s.reg (PORT_GATE_CTRL_oper_len p) ≠ 0 →
      Yields (.gateChange p) s (fun t => (t.port p).mask = (s.gateAt p s.now).1 ∧ (t.port p).gateHeld = false ∧ t.regs = s.regs ∧
        (∀ q, q ≠ p.val → t.port q = s.port q))) ∧
    (∀ (l : Lp) (c : Fin 7) (v : Nat), s.flag HUB_STATUS_ready = true → s.flag (PORT_POL_RATE_en (srcOf p l / 8) (srcOf p l % 8) c) = false → bitOf v 31 = true →
      Yields (.policerRateWrite p l c v) s (fun t => t.reg (PORT_POL_RATE_cir p l c) = bits v 0 21 ∧ t.reg (PORT_POL_RATE_pir p l c) = bits v 32 21 ∧
        t.reg (PORT_POL_RATE_en p l c) = 1 ∧
        ((t.link (srcOf p l)).policers.get {} c).tc = ((s.reg (PORT_POL_BURST_cbs p l c) * 65536 : Nat) : Int) ∧
        ((t.link (srcOf p l)).policers.get {} c).tp = ((s.reg (PORT_POL_BURST_pbs p l c) * 65536 : Nat) : Int))) ∧
    (∀ (l : Lp) (c : Fin 7) (v : Nat), s.flag HUB_STATUS_ready = true →
      (s.flag (PORT_POL_RATE_en (srcOf p l / 8) (srcOf p l % 8) c) = true ∨ bitOf v 31 = false) →
      Yields (.policerRateWrite p l c v) s (fun t => t.reg (PORT_POL_RATE_cir p l c) = bits v 0 21 ∧ t.reg (PORT_POL_RATE_pir p l c) = bits v 32 21 ∧
        t.reg (PORT_POL_RATE_en p l c) = bits v 31 1 ∧ (t.link (srcOf p l)).policers = (s.link (srcOf p l)).policers ∧
        (s.pod = podSolo → t = { s with regs := t.regs } ∧ ∀ f : Fld, f.lo < 64 → f.off ≠ (PORT_POL_RATE_en p l c).off → t.reg f = s.reg f)))

/-- Enabling, disabling and dividing the store; owners' limits; rereads, scrubbing and counters. With the block ready and
the store disabled, STORE_ENABLE that passes R94's checks makes it ready with no buffer allocated, total from the
counts, each owner's peak zero, each pool's low-water mark at its free count, and the store bytes as they were; with
no buffer out of use every pool's ring then holds all its buffers, from its base on, and the caches are empty; a
failing check sets cfg_err with its code and leaves it disabled. STORE_DISABLE of an enabled store ends every frame
and buffer at once and keeps the bytes, which is the model's reading (log entry 20, DEDUCED); each acknowledged
contribution it loses then corrupts its step, in order. STORE_REGION_CFG_WRITE is taken while the store is disabled
and no bundle is open. OWNER_COMMIT takes limits in order that fit, and else sets cfg_err. A clean reread counts a
corrected error; an uncorrectable one of a ring fetch marks the word. The scrubber, when enabled, moves on by one unit
after a clean read, and counts a corrected word of the eight. STORE_COUNTER_CLEAR with nothing counted in its cycle
zeroes every counter, restarts each pool's low-water mark at its free count and each owner's peak at its usage, and
changes no other register. (R73, R93, R94, R99, R107, R114, R117, R287) -/
def Obligations.StoreAdministration : Prop :=
  ∀ (s : State) (sc : Bool) (v addr : Nat) (o : Fin 226), s.live = true →
    (s.flag HUB_STATUS_ready = true → s.flag STORE_CTRL_enable = false → (s.setReg STORE_CTRL_scrub_en (bit1 sc)).storeCheck = none →
      Yields (.storeEnable sc) s (fun t => t.flag STORE_CTRL_enable = true ∧ t.flag STORE_STATUS_ready = true ∧
        t.reg STORE_SHARED_STATUS_total = s.poolTotal % 2 ^ 32 ∧ t.store.bufs = [] ∧ t.store.usage = [] ∧ t.store.mem = s.store.mem ∧ t.frames = s.frames ∧
        (∀ q, q < 256 → t.reg (POOL_OWN_PEAK_peak q) = 0) ∧ (∀ k : Pool, t.reg (POOL_LOW_WATER_low k) = (t.pool k).free % 2 ^ 30) ∧
        (s.store.lost = [] → ∀ k : Pool, t.pool k = { ring := [⟨t.reg (POOL_BASE_base k) / 256, s.reg (POOL_CFG_count k), 1⟩], caches := [] }))) ∧
    (∀ k, s.flag HUB_STATUS_ready = true → s.flag STORE_CTRL_enable = false → (s.setReg STORE_CTRL_scrub_en (bit1 sc)).storeCheck = some k →
      Yields (.storeEnable sc) s (fun t => t.flag STORE_CTRL_enable = false ∧ t.reg STORE_STATUS_cfg_err = 1 ∧
        t.reg STORE_STATUS_cfg_err_code = k ∧ t.store = s.store)) ∧
    (s.flag HUB_STATUS_ready = true → s.flag STORE_CTRL_enable = true →
      ∃ w, exec (.storeDisable sc) s = .next (s.anchorsLost.foldl (fun u x => u.corrupt x.1 x.2 stMemUncorrectable) w) ∧
        w.flag STORE_CTRL_enable = false ∧ w.flag STORE_STATUS_ready = false ∧ w.frames = [] ∧ w.inbox = [] ∧
        w.store.bufs = [] ∧ w.store.usage = [] ∧ w.store.pools = [] ∧ w.store.mem = s.store.mem) ∧
    (s.flag STORE_CTRL_enable = false → s.bundleOpen = false →
      Yields (.storeRegionCfgWrite v) s (fun t => t.reg STORE_REGION_CFG_pkt_size = bits v 0 8 ∧ t.reg STORE_REGION_CFG_sbk_size = bits v 8 8 ∧
        t = { s with regs := t.regs })) ∧
    (s.flag HUB_STATUS_ready = true → s.store.usage = [] → s.store.bp = [] → s.store.bpPairs = [] →
      s.reg (POOL_OWN_MIN_min o) ≤ s.reg (POOL_OWN_XON_xon o) → s.reg (POOL_OWN_XON_xon o) < s.reg (POOL_OWN_XOFF_xoff o) →
      s.reg (POOL_OWN_XOFF_xoff o) ≤ s.reg (POOL_OWN_CEIL_ceil o) → s.sumMin - (s.limits o).min + s.reg (POOL_OWN_MIN_min o) ≤ s.total →
      Yields (.ownerCommit o) s (fun t => t.limits o = { min := s.reg (POOL_OWN_MIN_min o), xon := s.reg (POOL_OWN_XON_xon o), xoff := s.reg (POOL_OWN_XOFF_xoff o), ceil := s.reg (POOL_OWN_CEIL_ceil o) } ∧
        (∀ q, q ≠ o.val → t.limits q = s.limits q))) ∧
    (s.flag HUB_STATUS_ready = true → s.reg (POOL_OWN_CEIL_ceil o) < s.reg (POOL_OWN_XOFF_xoff o) →
      exec (.ownerCommit o) s = .next (s.setW1c (POOL_OWN_CTRL_cfg_err o) 1)) ∧
    (∀ q, addr < storeEnd → Yields (.eccRetryRead addr q true) s (fun t => t.reg STORE_CTR_ce_count = (s.reg STORE_CTR_ce_count + 1) % 2 ^ 64 ∧
        t.flag STORE_INTR_STATUS_ce_ev = true ∧ t.store = s.store)) ∧
    (addr < storeEnd → Yields (.eccRetryRead addr .ringFetch false) s (fun t => t.store.ue.contains (addr / 32) = true ∧ t.store.mem = s.store.mem)) ∧
    (s.flag STORE_CTRL_scrub_en = true → (s.store.scrubAt + 1) * 256 ≠ storeEnd →
      exec (.scrubRead (List.replicate 8 .clean)) s = .next (State.traffic { s with store := { s.store with scrubAt := s.store.scrubAt + 1 } } 1 0) ∧
      (∀ i, i < 8 → Yields (.scrubRead (List.replicate i .clean ++ [.corrected])) s (fun t => t.flag STORE_INTR_STATUS_ce_ev = true ∧
        t.reg STORE_CTR_ce_count = (s.reg STORE_CTR_ce_count + 1) % 2 ^ 64 ∧
        t.store = { s.store with scrubAt := s.store.scrubAt + 1 }))) ∧
    (s.flag HUB_STATUS_ready = true → s.latchNow.counts = [] → Yields .storeCounterClear s (fun t =>
        s.clears t (offIn 0x1000100 0x1000150) (fun a => (List.range 6).any (fun k => a == (POOL_LOW_WATER_low k).off) ||
          (List.range 256).any (fun q => a == (POOL_OWN_PEAK_peak q).off)) ∧
        (∀ k : Pool, t.reg (POOL_LOW_WATER_low k) = (s.pool k).free % 2 ^ 30) ∧
        (∀ q, q < 256 → t.reg (POOL_OWN_PEAK_peak q) = s.usage q % 2 ^ 32) ∧ t = { s with regs := t.regs }))

/-- A refill and a spill move free entries between a pool's ring and a slice's cache and lose none. POOL_CACHE_REFILL with
no bad entry and POOL_CACHE_SPILL leave, where the caches stand in their canonical form, the pool's free count, every
other pool, the allocated buffers, the registers and the store bytes as they were; where the cache lies below
refill_low and the ring is not empty the refill moves up to 64 entries, and above spill_high the spill moves 64.
(R102) -/
def Obligations.CachesKeepTheFreeBuffers : Prop :=
  ∀ (s : State) (sl : Slice) (k : Pool), s.live = true → Tab.wf (s.pool k).caches [] = true →
    Yields (.poolCacheRefill sl k []) s (fun t => (t.pool k).free = (s.pool k).free ∧ (∀ j, j ≠ k.val → t.pool j = s.pool j) ∧
      (segCount ((s.pool k).caches.get [] sl) < s.reg (POOL_CACHE_CFG_refill_low k) →
        segCount ((t.pool k).caches.get [] sl) = segCount ((s.pool k).caches.get [] sl) + min 64 (segCount (s.pool k).ring)) ∧
      t = { s with store := { s.store with pools := t.store.pools } }) ∧
    Yields (.poolCacheSpill sl k) s (fun t => (t.pool k).free = (s.pool k).free ∧ (∀ j, j ≠ k.val → t.pool j = s.pool j) ∧
      (s.reg (POOL_CACHE_CFG_spill_high k) < segCount ((s.pool k).caches.get [] sl) → 64 ≤ segCount ((s.pool k).caches.get [] sl) →
        segCount ((t.pool k).caches.get [] sl) + 64 = segCount ((s.pool k).caches.get [] sl)) ∧
      t = { s with store := { s.store with pools := t.store.pools } })

/-- loop, brk, cnt and cmp change only their context, as their words say, and go on. For a context that issues the
instruction now: cnt writes register cN, xN or aN with the immediate or another register, or adds it, wrapping at the
register's width, unless an engine's result reached that register in the same SEQ cycle, and goes on; cmp sets or
clears one comparator by the relation and goes on; loop with a count enters its body, and with a count of zero passes
it; brk of an active loop goes on after its body when the comparator is set, leaving it and the loops inside it, and
else goes on. The context is in RUN, the instruction is counted, and no other context, no memory and no other block
changes. (R149, R153, R156, R157, R186, R187, R188) -/
def Obligations.SequencerRegistersAndFlow : Prop :=
  ∀ (s : State) (cx : Cx) (w : Nat) (k : Ctx), k = { s.ctx cx with st := .run, waits := 0 } →
    (s.issues cx w 3 → ∀ v, v = (if bits w 14 2 < 2 then bits w 32 48 else k.reg (bits w 16 2) (bits w 18 4)) →
      ∀ u, u = (if bits w 8 2 = 0 then v else v % 2 ^ 32) →
      Yields (.cnt cx) s (fun t => ctxOnly cx s t ∧ t.ctx cx = Ctx.forward (if k.engAt.get 0 (16 * bits w 8 2 + bits w 10 4) = s.issueSeq cx + 1 then k
        else k.setReg (bits w 8 2) (bits w 10 4) (if bits w 14 2 % 2 = 1 then k.reg (bits w 8 2) (bits w 10 4) + u else u)) ∧
        t.reg (CH_CTR_instr_issued (chOf cx)) = (s.reg (CH_CTR_instr_issued (chOf cx)) + 1) % 2 ^ 64)) ∧
    (s.issues cx w 4 → ∀ x y, x = k.reg (if bitOf w 13 then 2 else 1) (bits w 14 4) →
      y = (if bitOf w 18 then bits w 32 32 else k.reg (if bitOf w 19 then 2 else 1) (bits w 20 4)) →
      Yields (.cmp cx) s (fun t => ctxOnly cx s t ∧ t.ctx cx =
        Ctx.forward { k with k := if cmpHolds (bits w 10 3) x y then setBit k.k (bits w 8 2) else clearBit k.k (bits w 8 2) })) ∧
    (s.issues cx w 1 → ∀ n last, n = (if bitOf w 10 then k.reg 1 (bits w 11 3) else bits w 11 16) → last = k.pc + bits w 27 12 + 1 →
      Yields (.loop cx) s (fun t => ctxOnly cx s t ∧ t.ctx cx = if n = 0 then k.goto (last + 1) k.loops.length
        else { k with pc := k.pc + 1, loops := { reg := bits w 8 2, first := k.pc + 1, last := last, left := n } :: k.loops })) ∧
    (s.issues cx w 2 → ∀ l r, leaveLoop (bits w 8 2) k.loops = some (l, r) →
      Yields (.brk cx) s (fun t => ctxOnly cx s t ∧ t.ctx cx =
        if bitOf k.k (bits w 10 2) then Ctx.goto { k with loops := r } (l.last + 1) r.length else k.forward))

/-- pset, pclr, pwait, bar and their markers act on the core's pips and the queues; hint is kept. For a context that
issues now: a pset at issue sets a pip of its own core, one that was set counting as overset, and a pip of another
core 8 SEQ cycles later; a pset or a bar for queues with room appends its marker to each of them; pclr clears its
mask, but for pips set in the same SEQ cycle; a pwait whose condition holds goes on and else waits; a hint is counted
and kept with its stamp. A pset marker at the head of a queue sets its pip and leaves the queue; a bar marker whose
pips are all set leaves it. A pwait release wakes the waiter of the core whose condition holds, and its auto-clear
clears the pips no sooner than the cycle after the condition came to hold. (R158, R162, R163, R164, R165, R166, R189,
R350) -/
def Obligations.PipsBarriersAndHints : Prop :=
  ∀ (s : State) (cx : Cx) (w : Nat),
    (s.issues cx w 5 → 4 < bits w 16 3 → ∀ core i, core = bits w 14 2 → i = bits w 8 6 →
      (core = coreOf cx → bitOf (s.reg (CH_PIP_pips (chOf cx) core)) i = false →
        Yields (.pset cx) s (fun t => ctxOnly cx s t ∧ (t.ctx cx).pc = (Ctx.forward { s.ctx cx with st := .run, waits := 0 }).pc ∧
          t.reg (CH_PIP_pips (chOf cx) core) = setBit (s.reg (CH_PIP_pips (chOf cx) core)) i % 2 ^ 48)) ∧
      (core = coreOf cx → bitOf (s.reg (CH_PIP_pips (chOf cx) core)) i = true → i < 48 →
        Yields (.pset cx) s (fun t => ctxOnly cx s t ∧ bitOf (t.reg (CH_PIP_OVERSET_overset (chOf cx) core)) i = true ∧
          t.flag (CH_INTR_STATUS_overset_ev (chOf cx)) = true ∧ t.reg (CH_PIP_pips (chOf cx) core) = s.reg (CH_PIP_pips (chOf cx) core))) ∧
      (core ≠ coreOf cx → Yields (.pset cx) s (fun t => (t.ctx cx).pc = (Ctx.forward { s.ctx cx with st := .run, waits := 0 }).pc ∧
        ({ seq := s.issueSeq cx + 8, ch := chOf cx, core := core, pip := i } : PipLater) ∈ t.clk.pips ∧
        (∀ y ∈ s.clk.pips, y ∈ t.clk.pips) ∧ t.reg (CH_PIP_pips (chOf cx) core) = s.reg (CH_PIP_pips (chOf cx) core)))) ∧
    (s.issues cx w 5 → bits w 16 3 ≤ 4 → ((s.ctx cx).queue (bits w 16 3)).length < 64 →
      Yields (.pset cx) s (fun t => ctxOnly cx s t ∧ ((t.ctx cx).queue (bits w 16 3)).map (·.word) =
        ((s.ctx cx).queue (bits w 16 3)).map (·.word) ++ [w])) ∧
    (s.issues cx w 8 → (∀ q, q < 5 → ((s.ctx cx).queue q).length < 64) →
      Yields (.bar cx) s (fun t => ctxOnly cx s t ∧ ∀ q, q < 5 → ((t.ctx cx).queue q).map (·.word) =
        ((s.ctx cx).queue q).map (·.word) ++ (if bitOf (bits w 56 5) q then [w] else []))) ∧
    (s.issues cx w 6 → Yields (.pclr cx) s (fun t => ctxOnly cx s t ∧
      s.pipsCleared t (chOf cx) (coreOf cx) (bits w 8 48) (s.issueSeq cx))) ∧
    (s.issues cx w 7 → s.pipsHold cx w = true → Yields (.pwait cx) s (fun t => ctxOnly cx s t ∧
      t.ctx cx = Ctx.forward { s.ctx cx with st := .run, waits := 0 } ∧
      s.pipsCleared t (chOf cx) (coreOf cx) (if bitOf w 57 then bits w 8 48 else 0)
        (max (s.issueSeq cx) (s.pipsSince (chOf cx) (coreOf cx) (bits w 8 48) (bitOf w 56) + 1)))) ∧
    (s.issues cx w 7 → s.pipsHold cx w = false → Yields (.pwait cx) s (fun t => ctxOnly cx s t ∧
      (t.ctx cx).st = .wait ∧ (t.ctx cx).waits = 1 ∧ (t.ctx cx).pc = (s.ctx cx).pc)) ∧
    (s.issues cx w 9 → Yields (.hint cx) s (fun t => ctxOnly cx s t ∧ t.reg PWR_CTR_hints = (s.reg PWR_CTR_hints + 1) % 2 ^ 64 ∧
      (t.chan (chOf cx)).hints.find? (cx % 32) = some (w, s.chNow (chOf cx)))) ∧
    (∀ (q : Fin 5) (e : Entry) (r : List Entry), s.live = true → s.sys.fatal = false → (s.ctx cx).queue q = e :: r → (s.ctx cx).st = .run →
      (iOp e.word = 5 → bits e.word 14 2 = coreOf cx → bitOf (s.reg (CH_PIP_pips (chOf cx) (bits e.word 14 2))) (bits e.word 8 6) = false →
        Yields (.psetMarkerComplete cx q) s (fun t => ctxOnly cx s t ∧ ((t.ctx cx).queue q).map (·.word) = r.map (·.word) ∧
          t.reg (CH_PIP_pips (chOf cx) (bits e.word 14 2)) = setBit (s.reg (CH_PIP_pips (chOf cx) (bits e.word 14 2))) (bits e.word 8 6) % 2 ^ 48)) ∧
      (iOp e.word = 8 → s.barBlocks cx e = false →
        Yields (.barMarkerPass cx q) s (fun t => ctxOnly cx s t ∧ ((t.ctx cx).queue q).map (·.word) = r.map (·.word)))) ∧
    (s.live = true → s.sys.fatal = false → s.releasable (chOf cx) (coreOf cx) = [(cx.val, w)] →
      Yields (.pwaitRelease cx) s (fun t => (t.ctx cx).waits = 3 ∧ (t.ctx cx).pc = (s.ctx cx).forward.pc ∧
        s.pipsCleared t (chOf cx) (coreOf cx) (if bitOf w 57 then bits w 8 48 else 0) (max (s.seqNow (chOf cx) (coreOf cx))
          (s.pipsSince (chOf cx) (coreOf cx) (bits w 8 48) (bitOf w 56) + 1)) ∧ ∀ c, c ≠ cx.val → t.ctx c = s.ctx c))

/-- An engine instruction takes its registers at issue, joins its queue and advances the registers. A context that issues
an engine instruction whose queue has room appends an entry with the instruction word, the pc and the registers of its
slots as they stand; registers with upd advance by repeat times stride (but one that an engine's result reached in the
same SEQ cycle keeps it); a precv names the pip of later arrivals; the context goes on. With a full queue it waits for
room and issues nothing. (R149, R151, R158, R183, R204) -/
def Obligations.EngineInstructionsQueue : Prop :=
  ∀ (s : State) (cx : Cx) (w : Nat), s.live = true → s.sys.fatal = false → (s.ctx cx).word = some w → s.mayIssue cx = true → isEngine (iOp w) = true →
    (s.ctx cx).progUe.contains (s.ctx cx).pc = false →
    (((s.ctx cx).queue (iQueue w)).length < 64 → Yields (.engineIssue cx) s (fun t => ctxOnly cx s t ∧
      ((t.ctx cx).queue (iQueue w)).map (fun e => (e.word, e.pc, e.a, e.b, e.d)) = ((s.ctx cx).queue (iQueue w)).map (fun e => (e.word, e.pc, e.a, e.b, e.d)) ++
        [(w, (s.ctx cx).pc, (s.ctx cx).reg 0 (slReg (slotA w)), (s.ctx cx).reg 0 (slReg (slotB w)), (s.ctx cx).reg 0 (slReg (slotD w)))] ∧
      (t.ctx cx).a = (advance (s.issueSeq cx) w (repeats w ((s.ctx cx).reg 1 (bits w 17 3))) (s.ctx cx)).a ∧
      (t.ctx cx).apip = (if iOp w = 0x51 ∧ bits w 105 6 ≠ 63 then some (bits w 105 6) else (s.ctx cx).apip) ∧
      (t.ctx cx).pc = (s.ctx cx).forward.pc)) ∧
    (64 ≤ ((s.ctx cx).queue (iQueue w)).length → Yields (.engineIssue cx) s (fun t => ctxOnly cx s t ∧
      (t.ctx cx).st = .wait ∧ (t.ctx cx).waits = 2 ∧ (t.ctx cx).pc = (s.ctx cx).pc ∧ (t.ctx cx).q = (s.ctx cx).q))

/-- A repeat of mma, mmz, cvt, vop, red, srt, tpk, flt, hst, mov, gat, sct, psend, precv or pfree advances its entry or
faults. For every engine row (mma, mmz, cvt, vop, red, srt, tpk, flt, hst, mov, gat, sct, psend, precv, pfree) at the
head of its queue in a running context whose turn at the engine it is: where its repeat has its effect and repeats are
left, the state is that effect with its events and flags noted and the entry at the next repeat; after the last repeat
the program has the entry's flags, the entry's result is written and the entry has left the queue; where the repeat
fails, the program's flags are gathered and the queue faults with that status at that repeat; where it must wait it
stays. A repeat count of zero leaves the queue with no effect, one above 65,536 faults. A context whose turn it is not
waits. (R151, R158, R159, R160, R168, R171, R230) -/
def Obligations.EngineEntriesRepeat : Prop :=
  ∀ (c : Instr) (s : State) (cx q op : Nat) (work : EngineWork) (e : Entry) (r : List Entry),
    engineRow c = some (cx, q, op, work) → s.live = true → s.sys.fatal = false → (s.ctx cx).queue q = e :: r → (s.ctx cx).running = true → iOp e.word = op →
    (repeats e.word e.cnt = 0 → exec c s = .next (s.pop cx q)) ∧
    (65536 < repeats e.word e.cnt → exec c s = .next (s.fault cx q stRepeatRange e.pc 0)) ∧
    (0 < repeats e.word e.cnt → repeats e.word e.cnt ≤ 65536 → s.engineTurn cx q = false → exec c s = .next s) ∧
    (0 < repeats e.word e.cnt → repeats e.word e.cnt ≤ 65536 → s.engineTurn cx q = true → ∀ u : State,
      (∀ p v f, work.1 (s.ctx cx) e s = (.ok (some p), u) →
        v = ((u.serve cx q).event (chOf cx) q (repeatEvents e.word).1 (repeatEvents e.word).2).noteFlags cx q p.e p.fl →
        f = { p.e.gather p.fl with i := e.i + 1 } →
        (e.i + 1 ≠ repeats e.word e.cnt → exec c s = .next (v.setQueue cx q (f :: r))) ∧
        (e.i + 1 = repeats e.word e.cnt → exec c s = .next ((work.2 f (v.flushEntry cx q f)).pop cx q))) ∧
      (work.1 (s.ctx cx) e s = (.ok none, u) → exec c s = .next u) ∧
      (∀ st, work.1 (s.ctx cx) e s = (.error st, u) → exec c s = .next ((u.serve cx q).failEntry cx q st e)))

/-- The last repeat of mov, srt and mmz with operands in scratch, and of pfree. With both operands aligned inside the
context's scratch window and no uncorrectable word there: mov leaves at its destination the bytes its source held, and
no other scratch byte changes; srt leaves at its destination its records in order of key, the same records as it read.
mmz in tiles that may start leaves its tiles' bank of kind zero and every other bank as it was. pfree of a held buffer
with one share releases it. In each case the entry has left its queue. (R184, R193, R197, R201, R206, R238) -/
def Obligations.EngineResultsInScratch : Prop :=
  ∀ (s : State) (cx : Cx) (e : Entry) (r : List Entry) (src dst : Nat),
    (∀ (n : Nat) (host : HostData), s.lastRepeat cx 3 0x40 e r → n = moveLen e.word → slSpace (slotA e.word) = 1 → slSpace (slotD e.word) = 1 →
      (locOf e.word (slotA e.word) e.a e.xa e.i 0).addr = (src : Int) → (locOf e.word (slotD e.word) e.d e.xd e.i 0).addr = (dst : Int) →
      src % 32 = 0 → dst % 32 = 0 → src + n ≤ (s.ctx cx).winLen → dst + n ≤ (s.ctx cx).winLen → (s.chan (chOf cx)).scratchUe = [] →
      Yields (.mov cx host) s (fun t => ((t.ctx cx).queue 3).map (·.word) = r.map (·.word) ∧
        ∀ a, Mem.get (t.chan (chOf cx)).scratch a = if (s.ctx cx).win + dst ≤ a ∧ a < (s.ctx cx).win + dst + n
          then Mem.get (s.chan (chOf cx)).scratch ((s.ctx cx).win + src + (a - ((s.ctx cx).win + dst))) else Mem.get (s.chan (chOf cx)).scratch a)) ∧
    (∀ n kt : Nat, s.lastRepeat cx 2 0x30 e r → n = 2 ^ bits e.word 104 4 → kt = bits e.word 108 2 → bitOf e.word 110 = false →
      slSpace (slotA e.word) = 1 → slSpace (slotD e.word) = 1 →
      (locOf e.word (slotA e.word) e.a e.xa e.i 0).addr = (src : Int) → (locOf e.word (slotD e.word) e.d e.xd e.i 0).addr = (dst : Int) →
      src % 32 = 0 → dst % 32 = 0 → src + 8 * n ≤ (s.ctx cx).winLen → dst + 8 * n ≤ (s.ctx cx).winLen → (s.chan (chOf cx)).scratchUe = [] →
      Yields (.srt cx) s (fun t => ((t.ctx cx).queue 2).map (·.word) = r.map (·.word) ∧
        (records n (Mem.read (t.chan (chOf cx)).scratch ((s.ctx cx).win + dst) (8 * n))).Perm
          (records n (Mem.read (s.chan (chOf cx)).scratch ((s.ctx cx).win + src) (8 * n))) ∧
        (records n (Mem.read (t.chan (chOf cx)).scratch ((s.ctx cx).win + dst) (8 * n))).Pairwise (fun x y => recKey kt x ≤ recKey kt y))) ∧
    (s.lastRepeat cx 0 0x11 e r → s.tilesOpen (chOf cx) (tilesOf (gmaskOf e.word)) = true → Yields (.mmz cx) s (fun t => ((t.ctx cx).queue 0).map (·.word) = r.map (·.word) ∧
        (∀ x ∈ tilesOf (gmaskOf e.word), t.bank (chOf cx) x ((bankOf e.word + e.i) % 4) = {}) ∧
        (∀ x b, b < 4 → (x ∉ tilesOf (gmaskOf e.word) ∨ b ≠ (bankOf e.word + e.i) % 4) → t.bank (chOf cx) x b = s.bank (chOf cx) x b))) ∧
    (∀ u b, s.lastRepeat cx 4 0x52 e r → (locOf e.word (slotA e.word) e.a e.xa e.i 0).handle.bind s.handleUnit = some u →
      (s.ctx cx).held.contains u = true → s.store.bufs.find? u = some b → b.shares ≤ 1 →
      Yields (.pfree cx) s (fun t => ((t.ctx cx).queue 4).map (·.word) = r.map (·.word) ∧ t.store.bufs.find? u = none ∧
        (t.ctx cx).held = (s.ctx cx).held.erase u))

/-- A context loads, runs, ends or drains; the watchdog faults it; a core's solo mode and the channel's logs are kept.
IMAGE_LOAD_DONE of a LOADING context whose image and argument block are readable and pass the checks puts it at
instruction 0 with registers from the block, in the wake latency after which it issues. PROGRAM_END past the last
instruction with empty queues, and DRAIN_COMPLETE of a draining context with empty queues, return it to IDLE with
nothing but its step and its pc left (its buffers and frames being none; that these two stay is the model's reading,
log entry 23, DEDUCED). WATCHDOG_TIMEOUT of the one wait, of a pwait or of a bar marker at a head, that has lasted
beyond the timeout drains the context with ST_TIMEOUT logged as its first fault. CH_CORE_CFG_WRITE takes solo for
cores whose contexts are all IDLE; the counter clear, with nothing counted in its cycle, zeroes every counter of the
channel and changes no other register; a rearm ends the log's valid bit. (R141, R147, R148, R167, R168, R231) -/
def Obligations.ContextLife : Prop :=
  ∀ (s : State) (cx : Cx) (k : Ctx), s.live = true → s.sys.fatal = false → k = s.ctx cx →
    (∀ img n ws arg, k.st = .loading → img = (k.d.bind s.desc).elim 0 (fun x => leAt x.bytes 8 6) → n = hLength k.header →
      s.badWords img (64 + 16 * n) = [] → s.badWords k.args 256 = [] → ws = imageWords n (s.storeRead (img + 64) (16 * n)) →
      arg = s.storeRead k.args 256 → leAt arg 224 32 = 0 → imageOk k.header ws = true → psetsOk k.header (coreOf cx) ws = true →
      Yields (.imageLoadDone cx) s (fun t => (t.ctx cx).st = .wait ∧ (t.ctx cx).waits = 3 ∧ (t.ctx cx).waitSince = s.clk.cyc ∧
        (t.ctx cx).pc = 0 ∧ (t.ctx cx).prog = ws ∧ (t.ctx cx).loops = [] ∧
        (∀ i, i < 16 → (t.ctx cx).reg 0 i = leAt arg (8 * i) 8 % 2 ^ 48 ∧ (t.ctx cx).reg 2 i = leAt arg (128 + 4 * i) 4) ∧
        (∀ i, i < 8 → (t.ctx cx).reg 1 i = leAt arg (192 + 4 * i) 4) ∧
        t = { s with ctxs := t.ctxs, regs := t.regs, latch := t.latch, pmc := t.pmc })) ∧
    (k.st = .run → k.word = none → k.idleQueues = true → k.held = [] → k.fifo = [] →
      Yields (.programEnd cx) s (fun t => t.ctx cx = { step := k.step, pc := k.pc } ∧ (∀ c, c ≠ cx.val → t.ctx c = s.ctx c) ∧
        (∀ d, k.d = some d → t.desc d = none) ∧ t.store = s.store)) ∧
    (k.st = .drain → k.idleQueues = true → k.held = [] → k.fifo = [] →
      Yields (.drainComplete cx) s (fun t => t.ctx cx = { step := k.step, pc := k.pc } ∧ (∀ c, c ≠ cx.val → t.ctx c = s.ctx c) ∧
        (∀ d, k.d = some d → t.desc d = none) ∧ t.store = s.store)) ∧
    (∀ u p since, k.running = true → k.fault = none → 0 < s.reg (CH_WDOG_CFG_timeout (chOf cx)) →
      k.timed.filter (fun x => decide ((((s.reg (CH_WDOG_CFG_timeout (chOf cx)) * 256000 : Nat)) : Int) < ftDiff x.2.2 s.now)) = [(u, p, since)] →
      Yields (.watchdogTimeout cx) s (fun t => (t.ctx cx).st = .drain ∧ (t.ctx cx).fault = some
        { status := stTimeout, unit := u, instr := p, rep := 0, seq := s.seqNow (chOf cx) (coreOf cx) - coreCycles ((ftDiff since s.now - ((s.reg (CH_WDOG_CFG_timeout (chOf cx)) * 256000 : Nat) : Int)).toNat / 256) } ∧
        t.reg (CH_CTX_FAULT_status (chOf cx) (cx % 32)) = 8 ∧ t.flag (CH_INTR_STATUS_timeout_ev (chOf cx)) = true)) ∧
    (∀ (ch : Ch) (v : Nat), s.flag HUB_STATUS_ready = true → (∀ j, j < 32 → (s.ctx (32 * ch + j)).st = .idle) →
      exec (.chCoreCfgWrite ch v) s = .next (s.setReg (CH_CORE_CFG_solo ch) (v % 16))) ∧
    (∀ (ch : Ch) (o : Nat), s.flag HUB_STATUS_ready = true → s.latchNow.counts = [] → o = 0x800000 + 0x100000 * ch → Yields (.chCounterClear ch) s (fun t =>
      s.clears t (fun a => offIn (o + 0x408) (o + 0x430) a || offIn (o + 0x1000) (o + 0x1048) a || offIn (o + 0x1100) (o + 0x1130) a ||
        offIn (o + 0x1200) (o + 0x1230) a) (fun _ => false) ∧ t = { s with regs := t.regs, ctxs := t.ctxs, chans := t.chans })) ∧
    (∀ ch : Ch, s.flag HUB_STATUS_ready = true → (s.chan ch).lastInv = none →
      exec (.excRearm ch) s = .next (s.setReg (CH_EXC_INV_SRC_valid ch) 0))

/-- Sixteen tile starts are admitted a window, a quiet channel asks for a ramp, a failed group is remapped or absent.
TILE_START_ADMIT on a channel at work admits waiting tile starts in order of tile, as many as the window of 8 CORE
cycles has left of its sixteen, and notes whether one still waits; on a quiet channel all wait and a ramp is wanted;
with no start waiting it ends the ramp. RAMP_OPEN of the next channel, with no ramp in the last 129 CORE cycles, marks
it active and no longer wanted. TILE_FAIL with no program in the channel asks for a remap where the group has its
spare and else marks the group absent; where the one entry at the head of an M queue uses a tile of the group it
faults with ST_TILE_FAULT as well. SPARE_REMAP_APPLY of a pending remap of a group that nothing holds applies it and
uses the spare up. (R171, R172, R174, R176) -/
def Obligations.RampsAndTiles : Prop :=
  ∀ (s : State) (ch : Ch) (g : Fin 16) (all : List Nat), s.live = true → s.sys.fatal = false → all = s.startsWanted ch →
    (all ≠ [] → s.quietCh ch = false → ∀ now used, now = s.coreNow (ch / 2) →
      used = (if (s.chan ch).window.1 = now / 8 then (s.chan ch).window.2 else 0) →
      Yields (.tileStartAdmit ⟨ch.val / 2, by omega⟩ ⟨ch.val % 2, by omega⟩) s (fun t => (t.chan ch).admitted = (s.chan ch).admitted ++ all.take (16 - used) ∧
        (t.chan ch).window = (now / 8, used + (all.take (16 - used)).length) ∧
        (t.chan ch).stallAt = (if all.drop (16 - used) = [] then none else some now) ∧
        (∀ c, c ≠ ch.val → t.chan c = s.chan c) ∧ t = { s with chans := t.chans, regs := t.regs, latch := t.latch })) ∧
    (all ≠ [] → s.quietCh ch = true → Yields (.tileStartAdmit ⟨ch.val / 2, by omega⟩ ⟨ch.val % 2, by omega⟩) s (fun t => (t.chan ch).admitted = (s.chan ch).admitted ∧
      (t.chan ch).rampWanted = some ((s.chan ch).rampWanted.getD s.clk.cyc) ∧ t = { s with chans := t.chans })) ∧
    (all = [] → exec (.tileStartAdmit ⟨ch.val / 2, by omega⟩ ⟨ch.val % 2, by omega⟩) s = .next ((s.modChan ch (fun c => { c with stallAt := none })).setReg (CH_STATUS_ramp_active ch) 0)) ∧
    (s.nextRamp = some ch.val → (∀ c, s.pmc.ramp = some c → 129 ≤ s.coreNow 4 - c) →
      Yields (.rampOpen ch) s (fun t => (t.chan ch).rampWanted = none ∧ t.flag (CH_STATUS_ramp_active ch) = true ∧ t.pmc.ramp = some (s.coreNow 4))) ∧
    ((∀ j, j < 32 → (s.ctx (32 * ch + j)).queue 0 = []) →
      (s.reg (CH_SPARE_STATUS_group ch g) = 0 → bitOf (s.reg (HUB_CAPS_SPARE_ch (ch / 4) (ch % 4))) g = true →
        exec (.tileFail ch g) s = .next (s.setReg (CH_SPARE_STATUS_group ch g) 2)) ∧
      (bitOf (s.reg (HUB_CAPS_SPARE_ch (ch / 4) (ch % 4))) g = false → Yields (.tileFail ch g) s (fun t =>
        t.reg (CH_SPARE_STATUS_group ch g) = 3 ∧ bitOf (t.reg (HUB_CAPS_PRESENT_ch (ch / 4) (ch % 4))) g = false))) ∧
    (∀ i e r, i < 32 → (∀ j, j < 32 → j ≠ i → (s.ctx (32 * ch + j)).queue 0 = []) → (s.ctx (32 * ch + i)).queue 0 = e :: r →
      (s.ctx (32 * ch + i)).running = true → isEngine (iOp e.word) = true → bitOf (hTiles (s.ctx (32 * ch + i)).header) g = true →
      bitOf (gmaskOf e.word) g = true →
      exec (.tileFail ch g) s = .next ((s.failEntry (32 * ch + i) 0 stTileFault e).groupFails ch g)) ∧
    (s.reg (CH_SPARE_STATUS_group ch g) = 2 → bitOf (s.reg (CH_TILE_HOLD_held ch)) g = false →
      Yields (.spareRemapApply ch g) s (fun t => t.reg (CH_SPARE_STATUS_group ch g) = 1 ∧
        bitOf (t.reg (HUB_CAPS_SPARE_ch (ch / 4) (ch % 4))) g = false ∧ t.flag (CH_INTR_STATUS_remap_ev ch) = true))

/-- A DATA, ANCHOR_UP, INT_UP or SPARSE contribution is added into its chunk's slot, or sent on as the result, and its
chunk goes on. For a readable new contribution of an open step of a group that passes the checks, with its slot
readable: a DATA frame of an EAGER all-reduce or reduce-scatter is copied into a free slot when its chunk is IDLE with
nothing buffered and is combined element by element when the chunk gathers; a DATA frame of an ANCHORED one merges its
elements' anchor codes and waits in its buffer while the chunk anchors, and adds its integers while it gathers; a DATA
frame of an all-gather or a broadcast makes its IDLE chunk DONE with its bytes and their CRC as the result; an
ANCHOR_UP merges its codes while the chunk anchors; an INT_UP part adds its integers while the chunk gathers; a SPARSE
frame adds its records to the chunk's memory and slot. In each case the contribution is noted, as added unless it
waits, no other byte of the owner channel's scratch changes, and but for the last kind of DATA the command ends with
the chunk's own progress from there. (R273, R274, R276, R278, R279, R280, R281, R286, R287) -/
def Obligations.ContributionsAreAdded : Prop :=
  ∀ (s v : State) (k : Nat) (g : GIn) (x : Grp) (sc : Mem) (e : Bytes) (c a : Nat) (ck : Chunk),
    e = x.entry → c = g.h.chunk → a = gSlotAt e c → sc = (s.chan (gCh e)).scratch → ck = x.chunk g.h.step c →
    (s.contributes k 1 g x v → gCls e = 0 → gKind e ≤ 1 →
      (ck.st = .idle → ck.frames = [] → slotFree x g.h.step c = true → ∃ u : State, exec (.dataRx k) s = .next (u.progress g.gid g.h.step c) ∧
        (u.chan (gCh e)).scratch = Mem.write sc a (g.payload.take (gChunkBytes e c)) ∧
        u.chunkHas g.gid g.h.step c (fun y => y.st = .gather ∧ ∃ h ∈ y.have_, h.member = g.h.member ∧ h.opcode = 1 ∧ h.added = true)) ∧
      (ck.st = .gather → ∃ u : State, exec (.dataRx k) s = .next (u.progress g.gid g.h.step c) ∧
        (u.chan (gCh e)).scratch = Mem.write sc a (pack (gFmt e) ((eagerList (gFmt e) (gRed e) (Mem.read sc a (gChunkBytes e c))
          (g.payload.take (gChunkBytes e c)) (gElems e c)).map (·.1))) ∧
        u.chunkHas g.gid g.h.step c (fun y => ∃ h ∈ y.have_, h.member = g.h.member ∧ h.opcode = 1 ∧ h.added = true))) ∧
    (s.contributes k 1 g x v → gCls e = 1 → gKind e ≤ 1 → ∀ old, old = Mem.read sc a (16 * gElems e c) →
      (ck.st = .anchor → ∃ u : State, exec (.dataRx k) s = .next (u.progress g.gid g.h.step c) ∧
        (u.chan (gCh e)).scratch = Mem.write sc a (withCodes old (((slotCodes old (gElems e c)).zip
          ((List.range (gElems e c)).map (fun j => anchorOf (gFmt e) (element (gFmt e) g.payload j)))).map (fun z => mergeAnchor z.1 z.2))) ∧
        u.chunkHas g.gid g.h.step c (fun y => y.frames = ck.frames ++ [g.frm] ∧ ∃ h ∈ y.have_, h.member = g.h.member ∧ h.opcode = 1)) ∧
      (ck.st = .gather → ∃ u : State, exec (.dataRx k) s = .next (u.progress g.gid g.h.step c) ∧
        (u.chan (gCh e)).scratch = Mem.write sc a (addInts old 0
          ((slotCodes old (gElems e c)).zipIdx.map (fun z => anchorInt (gFmt e) (element (gFmt e) g.payload z.2) z.1))) ∧
        u.chunkHas g.gid g.h.step c (fun y => ∃ h ∈ y.have_, h.member = g.h.member ∧ h.opcode = 1 ∧ h.added = true))) ∧
    (s.contributes k 1 g x v → gKind e = 2 ∨ gKind e = 3 → ck.st = .idle → s.mir.rehearsal = none → ∀ body, body = g.payload.take (gChunkBytes e c) →
      Yields (.dataRx k) s (fun t => t.chunkHas g.gid g.h.step c (fun y => y.st = .done ∧ y.result = body ++ beBytes 4 (crc32c body) ∧
        y.source = g.h.member ∧ ∃ h ∈ y.have_, h.member = g.h.member ∧ h.added = true) ∧ (t.chan (gCh e)).scratch = sc)) ∧
    (s.contributes k 2 g x v → gCls e = 1 → gKind e ≤ 1 → ck.st = .anchor →
      ∀ codes old, codes = (g.payload.take (gElems e c)).map (·.toNat) → old = Mem.read sc a (16 * codes.length) →
      ∃ u : State, exec (.anchorUpRx k) s = .next (u.progress g.gid g.h.step c) ∧
        (u.chan (gCh e)).scratch = Mem.write sc a (withCodes old (((slotCodes old codes.length).zip codes).map (fun z => mergeAnchor z.1 z.2))) ∧
        u.chunkHas g.gid g.h.step c (fun y => ∃ h ∈ y.have_, h.member = g.h.member ∧ h.opcode = 2 ∧ h.added = true)) ∧
    (s.contributes k 4 g x v → gCls e = 1 → gKind e ≤ 1 → ck.st = .gather → ∃ u : State, exec (.intUpRx k) s = .next (u.progress g.gid g.h.step c) ∧
        (u.chan (gCh e)).scratch = Mem.write sc a (addInts (Mem.read sc a (16 * gElems e c)) (g.h.part * gPartElems e)
          ((List.range (gPartLen e c g.h.part)).map (fun j => leAt g.payload (12 * j) 12))) ∧
        u.chunkHas g.gid g.h.step c (fun y => ∃ h ∈ y.have_, h.member = g.h.member ∧ h.part = g.h.part ∧ h.added = true)) ∧
    (s.contributes k 0x0D g x v → gCls e = 0 → gKind e = 4 → ck.st = .gather →
      ∀ r, r = sparseAdd (gFmt e) (gCap e) (sparseRecs g.payload) ck.index (Mem.read sc a (gSlot e)) →
      ∃ u : State, exec (.sparseRx k) s = .next (u.progress g.gid g.h.step c) ∧ (u.chan (gCh e)).scratch = Mem.write sc a r.2.1 ∧
        u.chunkHas g.gid g.h.step c (fun y => y.index = r.1 ∧ ∃ h ∈ y.have_, h.member = g.h.member ∧ h.added = true))

/-- A result from the parent ends its chunk; the parent's anchors open the gather; a set pip releases held results; a
freed slot is taken. A new RESULT or SPARSE_RESULT from the parent that passes the checks, with a right chunk CRC, for
a chunk that awaits it in a step with no abort requested, makes the chunk DONE with that payload as its result, and is
acknowledged. A new ANCHOR_DOWN from the parent for a chunk that awaits it, with nothing held back, puts its codes (at
least 53) into the slot and starts the gather. GROUP_RELEASE of an own all-reduce or reduce-scatter group with one
HELD chunk and its rel_pip set makes that chunk DONE with the slot's bytes and their CRC, and clears the pip, unless
it was set again no sooner than the cycle that clears it. CHUNK_SLOT_FREE of an IDLE EAGER chunk with one buffered
contribution and a free slot copies it in. (R278, R280, R287) -/
def Obligations.ResultsReleasedAndTaken : Prop :=
  ∀ (s v : State) (k : Nat) (g : GIn) (x : Grp),
    (s.forChunk k (fun o => o == 5 || o == 0x0E) g x v → 4 ≤ g.payload.length →
      crc32c (g.payload.take (g.payload.length - 4)) = beAt g.payload (g.payload.length - 4) 4 →
      (x.step g.h.step).abortReq = false → (x.chunk g.h.step g.h.chunk).st = .awaitResult →
      Yields (.resultRx k) s (fun t => t.chunkHas g.gid g.h.step g.h.chunk (fun y => y.st = .done ∧ y.result = g.payload ∧ y.resOp = g.h.opcode ∧
        ∃ h ∈ y.have_, h.member = g.h.member ∧ h.opcode = 5 ∧ h.added = true))) ∧
    (s.forChunk k (· == 3) g x v → (x.chunk g.h.step g.h.chunk).st = .awaitAnchor → (x.chunk g.h.step g.h.chunk).frames = [] →
      (s.chan (gCh x.entry)).scratchUe = [] →
      ∃ u : State, exec (.anchorDownRx k) s = .next (u.gatherStage g.gid g.h.step g.h.chunk) ∧
        u.chunkHas g.gid g.h.step g.h.chunk (fun y => y.st = .gather ∧
          y.anchors = (List.range (gElems x.entry g.h.chunk)).map (fun j => BitVec.ofNat 8 (max 53 (byteAt g.payload j)))) ∧
        slotCodes (Mem.read (u.chan (gCh x.entry)).scratch (gSlotAt x.entry g.h.chunk) (16 * gElems x.entry g.h.chunk)) (gElems x.entry g.h.chunk) =
          (List.range (gElems x.entry g.h.chunk)).map (fun j => max 53 (byteAt g.payload j))) ∧
    (∀ gid c slot, s.live = true → s.grp gid = some x → gOwn x.entry = true → gKind x.entry ≤ 1 → x.cur.closed = false → x.cur.abortReq = false →
      x.cur.chunks.filterMap (fun z : Nat × Chunk => if z.2.st == .held then some z.1 else none) = [c] →
      (x.cur.chunks.get {} c).st = .held → x.next.chunks = [] → (s.chan (gCh x.entry)).scratchUe = [] → s.mir.rehearsal = none →
      s.pipUsable (gCh x.entry) (gCore x.entry) (gRelPip x.entry) →
      slot = Mem.read (s.chan (gCh x.entry)).scratch (gSlotAt x.entry c) (gChunkBytes x.entry c) →
      Yields (.groupRelease gid) s (fun t => t.chunkHas gid (gStep x.entry) c (fun y => y.st = .done ∧ y.result = slot ++ beBytes 4 (crc32c slot)) ∧
        bitOf (t.reg (CH_PIP_pips (gCh x.entry) (gCore x.entry))) (gRelPip x.entry) = false)) ∧
    (∀ gid n c id, s.live = true → s.grp gid = some x → (stepDiff n (gStep x.entry) = 0 ∨ stepDiff n (gStep x.entry) = 1) →
      (x.chunk n c).st = .idle → (x.chunk n c).frames = [id] → slotFree x n c = true → s.ginOf id gid = some g → g.h.step = n → g.h.chunk = c →
      gCls x.entry = 0 → gKind x.entry ≤ 1 → s.readable g = true →
      ∃ u : State, exec (.chunkSlotFree gid n c) s = .next (u.progress gid n c) ∧ u.chunkHas gid n c (fun y => y.st = .gather ∧ y.frames = []) ∧
        (u.chan (gCh x.entry)).scratch = Mem.write (s.chan (gCh x.entry)).scratch (gSlotAt x.entry c) (g.payload.take (gChunkBytes x.entry c)))

/-- STEP_DONE, aborts and retractions end a group's steps; the window end marks late members. With the detector off and
the next step not ended: STEP_DONE_SEND at an own root with every chunk of the current step DONE, and STEP_DONE of the
current step from the parent, pass the step in a device whose twin need not confirm it first; in PAIRED, with room for
the record, the root's STEP_DONE waits for that (R408), and the step with it, which is the model's reading (log entry
31, DEDUCED). ABORT from the parent, and ABORT_REQ of a child at the root (not a mismatch after a release), log the
abort with its status and step and pass the current step. RETRACT from the parent takes its epoch and resume step;
RETRACT_REQ of a child at the root takes the next epoch and the step after the fence; both discard every step's state
and log the cause. STEP_WINDOW_END when due, under wpol 0, marks every active member with no frame late. (R275, R277,
R288, R289, R290, R291, R408) -/
def Obligations.StepsEnd : Prop :=
  ∀ (s v : State) (k : Nat) (g : GIn) (x : Grp),
    (∀ gid, s.live = true → s.grp gid = some x → x.entry.length = 64 → s.flag MIR_DET_CFG_det_en = false → gRoot x.entry = true →
      gOwn x.entry = true → gKind x.entry ≠ 5 → x.sfm = false → x.cur.closed = false → x.cur.ending = false → x.next.closed = false →
      (∀ c, c < gChunks x.entry → (x.cur.chunks.get {} c).st = .done) →
      (s.unmirrored → Yields (.stepDoneSend gid) s (fun t => t.stepped gid x)) ∧
      (s.pod = podPaired → s.mir.held = [] → s.mir.unconfirmed.length < 65536 → s.mir.ended = [] → Yields (.stepDoneSend gid) s (fun t =>
        (∃ y, t.grp gid = some y ∧ y.entry = x.entry ∧ y.cur = { x.cur with ending := true } ∧ y.next = x.next) ∧
        ∃ r, t.mir.waits = s.mir.waits ++ [r] ∧ r.1 = (s.mir.txSeq + 1) % 2 ^ 32 ∧ r.2.length = 1))) ∧
    (s.fromAbove k (· == 0x0C) g x v → s.flag MIR_DET_CFG_det_en = false → x.next.closed = false → x.cur.ending = false → s.unmirrored → g.h.step = gStep x.entry → controlFits x.entry g = true →
      Yields (.stepDoneRx k) s (fun t => t.stepped g.gid x)) ∧
    (s.fromAbove k (· == 9) g x v → s.flag MIR_DET_CFG_det_en = false → x.next.closed = false → g.h.step = gStep x.entry → controlFits x.entry g = true →
      Yields (.abortRx k) s (fun t => t.stepped g.gid x ∧ t.abortLogged g.gid (byteAt g.payload 0) g.h.step)) ∧
    (s.admits k (fun g => g.h.opcode == 8) g x v → (v.stepOpen x g).1 = true → v.fromParent x.entry g = false → v.readable g = true → controlFits x.entry g = true →
      mChild ((v.memberEntry x.entry g.h.member).getD []) = true → gRoot x.entry = true → x.entry.length = 64 →
      s.flag MIR_DET_CFG_det_en = false → x.next.closed = false → g.h.step = gStep x.entry →
      (byteAt g.payload 0 ≠ stCollectiveMismatch ∨ x.released g.h.step = false) →
      Yields (.abortReqRx k) s (fun t => t.stepped g.gid x ∧ t.abortLogged g.gid (byteAt g.payload 0) g.h.step)) ∧
    (s.admits k (fun g => g.h.opcode == 0x0B) g x v → v.fromParent x.entry g = true → v.readable g = true → controlFits x.entry g = true →
      x.entry.length = 64 → Yields (.retractRx k) s (fun t => t.retractedTo g.gid (beAt g.payload 2 2) (beAt g.payload 4 4) (byteAt g.payload 0))) ∧
    (s.admits k (fun g => g.h.opcode == 0x0A) g x v → (v.stepOpen x g).1 = true → v.fromParent x.entry g = false → v.readable g = true → controlFits x.entry g = true →
      mChild ((v.memberEntry x.entry g.h.member).getD []) = true → gRoot x.entry = true → x.entry.length = 64 →
      Yields (.retractReqRx k) s (fun t => t.retractedTo g.gid ((gEpoch x.entry + 1) % 2 ^ 16) ((gFence x.entry + 1) % 2 ^ 32) (byteAt g.payload 0))) ∧
    (∀ gid n, s.live = true → s.dueEvent (.windowEnd gid n) = true → s.grp gid = some x →
      (stepDiff n (gStep x.entry) = 0 ∨ stepDiff n (gStep x.entry) = 1) → (x.step n).closed = false → gWpol x.entry = 0 →
      Yields (.stepWindowEnd gid n) s (fun t => t.dueEvent (.windowEnd gid n) = false ∧ ∃ y, t.grp gid = some y ∧
        ∀ m ∈ s.actives x.entry, (x.step n).firsts.find? m.1 = none → m.1 ∈ (y.step n).late))

/-- An ACK is consumed, a NACK of an unreadable frame and a RESEND_REQ are answered with what is held, the counters clear.
An ACK of a group that has not been taken over is consumed and no more. A NACK from the parent that tells of an
unreadable frame (R287), where one frame sent up matches it, sends that frame again with the resend flag. A RESEND_REQ
for a chunk of the current or the previous step that is DONE with a result sends the result again to the asker with
the resend flag, which is the model's reading (log entry 31, DEDUCED). GRP_COUNTER_CLEAR, with no count in its cycle,
zeroes every group and token counter and changes no other register and nothing else. (R73, R272, R275, R276, R287,
R413) -/
def Obligations.GroupAnswers : Prop :=
  ∀ (s v : State) (k : Nat) (g : GIn) (x : Grp),
    (s.admits k (fun g => g.h.opcode == 6) g x v → v.readable g = true → controlFits x.entry g = true → x.taken = none → exec (.ackRx k) s = .next (v.gdrop g)) ∧
    (∀ u, s.admits k (fun g => g.h.opcode == 7 && byteAt g.payload 1 != 0) g x v → v.readable g = true → controlFits x.entry g = true → v.fromParent x.entry g = true →
      byteAt g.payload 0 = stMemUncorrectable → (x.chunk g.h.step g.h.chunk).up = [u] → u.1.opcode = byteAt g.payload 1 → u.1.part = g.h.part →
      exec (.nackRx k) s = .next ((v.gdrop g).gsend (gframe x.entry { u.1 with resend := true } u.2 [gParent x.entry]))) ∧
    (s.admits k (fun g => g.h.opcode == 0x0F) g x v → v.readable g = true → controlFits x.entry g = true → (stepDiff g.h.step (gStep x.entry) = 0 ∨ stepDiff g.h.step (gStep x.entry) = -1) →
      (x.chunk g.h.step g.h.chunk).st = .done →
      (x.chunk g.h.step g.h.chunk).result ≠ [] → exec (.resendReqRx k) s = .next ((v.gdrop g).gsend (gframe x.entry
        { chunkHead x.entry (x.chunk g.h.step g.h.chunk).resOp g.h.step g.h.chunk with resend := true } (x.chunk g.h.step g.h.chunk).result
        ((v.gdrop g).answerTo x.entry g)))) ∧
    (s.live = true → s.flag HUB_STATUS_ready = true → s.latchNow.counts = [] → Yields .grpCounterClear s (fun t =>
      s.clears t (fun a => offIn 0x1600100 0x1600168 a || offIn 0x1600200 0x1600258 a) (fun _ => false) ∧ t = { s with regs := t.regs }))

/-- A token in turn enters the filling batch, a TOKEN_END gives its source's count, and batches complete and become READY.
A readable TOKEN in its turn with one token of the expected number, of an open source of a dispatch group with no
frame waiting, whose step has a filling batch with room for more than it, is appended to that batch, its row and its
record stand in the intake ring, and its source expects the next number; then steps that can close do. A TOKEN_END in
its turn with the expected number sets the source's count before the step is judged. BATCH_FLUSH_TIMEOUT when due
completes the one filling batch that is old enough, and counts its pads. BATCH_READY of an own group makes the one
live batch READY when it is queued, sets done_pip and clears rel_pip, unless that was set in this very cycle. (R298,
R299, R300, R301, R302, R303, R304) -/
def Obligations.TokensAreTakenIn : Prop :=
  ∀ (s v : State) (k : Nat) (g : GIn) (x : Grp) (e : Bytes), e = x.entry →
    (∀ j b row sc a i, s.sourced k 0x40 g x v → v.readable g = true → x.disp.waiting = [] → g.h.fmt = gFmt e →
      g.payload.length % (8 + gCap e) = 0 → tokenList (gCap e) g.payload = [(((x.src g.h.step g.h.member).getD {}).next, row)] →
      x.filling g.h.step = some j → x.disp.batches.get {} j = b → i = b.toks.length → i + 1 < tkB e →
      sc = (s.chan (gCh e)).scratch → a = tkIntakeAt e j →
      ∃ u : State, exec (.tokenRx k) s = .next (u.closeSteps g.gid) ∧ (u.batch g.gid j).toks =
          b.toks ++ [{ src := g.h.member, num := ((x.src g.h.step g.h.member).getD {}).next, stamp := g.stamp }] ∧
        (u.chan (gCh e)).scratch = Mem.write (Mem.write sc (a + i * gCap e) row) (a + tkB e * gCap e + 16 * i)
          (leBytes 2 g.h.member ++ [1, 0] ++ leBytes 4 ((x.src g.h.step g.h.member).getD {}).next ++ leBytes 8 g.stamp.toNat) ∧
        u.sourceHas g.gid g.h.step g.h.member (fun z => z.next = ((x.src g.h.step g.h.member).getD {}).next + 1) ∧
        u.reg GRP_CTR_tokens_accepted = (s.reg GRP_CTR_tokens_accepted + 1) % 2 ^ 64) ∧
    (s.sourced k 0x41 g x v → x.disp.waiting = [] → g.h.fmt = 0 → beAt g.payload 0 4 = ((x.src g.h.step g.h.member).getD {}).next →
      ∃ u : State, exec (.tokenEndRx k) s = .next (u.closeSteps g.gid) ∧
        u.sourceHas g.gid g.h.step g.h.member (fun z => z.count = some (beAt g.payload 0 4))) ∧
    (∀ gid j b, s.live = true → s.dueEvent (.flush gid) = true → s.grp gid = some x → tkFlush e ≠ 0 →
      List.filter (fun z : Nat × Batch => z.2.st == .filling) x.disp.batches = [(j, b)] → x.disp.batches.get {} j = b → b.toks.length ≤ tkB e →
      atOrBefore ((b.toks.head?.map (·.stamp)).getD 0 + ns (tkFlush e * 1000)) s.now = true →
      Yields (.batchFlushTimeout gid) s (fun t => (t.batch gid j).st = .queued ∧ (t.batch gid j).toks = b.toks ∧
        t.reg GRP_CTR_pad_tokens = (s.reg GRP_CTR_pad_tokens + (tkB e - b.toks.length)) % 2 ^ 64)) ∧
    (∀ gid j b, s.live = true → s.grp gid = some x → gOwn e = true → gDonePip e < 48 → gDonePip e ≠ gRelPip e →
      List.filter (fun z : Nat × Batch => z.2.st != .free && z.2.st != .committed) x.disp.batches = [(j, b)] → b.st = .queued →
      Yields (.batchReady gid) s (fun t => (t.batch gid j).st = .ready ∧
        bitOf (t.reg (CH_PIP_pips (gCh e) (gCore e))) (gDonePip e) = true ∧
        (gRelPip e < 48 → ((s.chan (gCh e)).pipAt.get (0, 0) (64 * gCore e + gRelPip e)).2 < s.seqNow (gCh e) (gCore e) →
          bitOf (t.reg (CH_PIP_pips (gCh e) (gCore e))) (gRelPip e) = false)))

/-- A READY batch commits on its pip; a result row is taken and added; a deadline drops what is missing; complete tokens
go home. With rel_pip set, BATCH_COMMIT of an own group commits its READY batch with no early results: its tokens stay
in number, each has K more assignments, its deadline lies the window after now, the pip is cleared and the commit
counted. A readable EXPERT_RESULT in its turn and in time with one row whose slot is mapped and which its token may
add next is taken, counted and added. RESULT_DEADLINE when due, with no result on its way, leaves no assignment
mapped. TOKEN_GO_HOME sends one complete token of a source from its home mark on, counts it and moves the mark. (R303,
R306, R309, R310, R311, R313) -/
def Obligations.BatchesCommitAndGoHome : Prop :=
  ∀ (s : State) (x : Grp) (gid : Nat) (e : Bytes), e = x.entry → s.live = true → s.grp gid = some x →
    (∀ j b, List.find? (fun z : Nat × Batch => z.2.st == .ready) x.disp.batches = some (j, b) → gOwn e = true →
      s.pipUsable (gCh e) (gCore e) (gRelPip e) → b.early = [] → (∀ tk ∈ b.toks, tk.asn = []) →
      Yields (.batchCommit gid) s (fun t => (t.batch gid j).st = .committed ∧ (t.batch gid j).toks.length = b.toks.length ∧
        (∀ tk ∈ (t.batch gid j).toks, tk.asn.length = tkK e) ∧
        (t.batch gid j).deadline = (if gWindow e = 0 then none else some (s.now + ns (gWindow e))) ∧
        bitOf (t.reg (CH_PIP_pips (gCh e) (gCore e))) (gRelPip e) = false ∧
        t.reg GRP_CTR_batches_committed = (s.reg GRP_CTR_batches_committed + 1) % 2 ^ 64)) ∧
    (∀ k g u i r tk, s.take k (fun g => g.h.opcode == 0x43 && s.turn [0x43] g) = (some g, u) → g.gid = gid → gKind e = 5 → gOwn e = true → g.h.epoch = gEpoch e →
      g.h.part < gSlots e → (s.batch gid g.h.part).st = .committed → (s.batch gid g.h.part).step = g.h.step → g.payload.length = tkRo e →
      g.h.member * tkC e ≤ g.h.chunk → g.h.chunk + 1 ≤ g.h.member * tkC e + tkC e →
      (s.batch gid g.h.part).deadline.any (fun d => atOrBefore d g.stamp) = false →
      slotOwner (s.batch gid g.h.part).toks g.h.chunk = some (i, r) → (s.batch gid g.h.part).toks[i]? = some tk → tk.home = false → g.frm < u.nextFrm →
      u.readable g = true → (s.chan (gCh e)).scratchUe = [] →
      (s.batch gid g.h.part).taken.contains g.h.chunk = false → 0 < tkK e →
      nextRow (gWpol e == 0) (tk.asn.set r (.row g.h.chunk g.frm 0)) 0 = some (r, g.h.chunk, g.frm, 0) →
      Yields (.expertResultRx k) s (fun t => (t.batch gid g.h.part).taken.contains g.h.chunk = true ∧
        t.reg GRP_CTR_result_rows = (s.reg GRP_CTR_result_rows + 1) % 2 ^ 64 ∧
        (((t.batch gid g.h.part).toks[i]?).bind (fun z => z.asn[r]?)) = some (.added g.h.chunk))) ∧
    (∀ j d, s.deadlineDue gid j = true → (s.batch gid j).st = .committed → (s.batch gid j).deadline = some d →
      s.resultsDue gid d = false → Yields (.resultDeadline gid j) s (fun t => t.dueEvent (.deadline gid j) = false ∧
        ∀ tk ∈ (t.batch gid j).toks, ∀ a ∈ tk.asn, ∀ sl, a ≠ Assign.mapped sl)) ∧
    (∀ m j i z, m < 4096 → gKind e = 5 → x.disp.closed = [] → (∀ b ∈ x.disp.batches, b.2.step = gStep e) → x.src (gStep e) m = some z →
      x.readyToks (gStep e) m (max 1 ((65536 - 4) / (8 + tkRo e))) z.home = [(j, i)] → i < (x.disp.batches.get {} j).toks.length →
      Yields (.tokenGoHome gid m) s (fun t => t.reg GRP_CTR_tokens_returned = (s.reg GRP_CTR_tokens_returned + 1) % 2 ^ 64 ∧
        t.sourceHas gid (gStep e) m (fun y => y.home = z.home + 1)))

/-- Seeds and policy are written outside a replay; a recording starts, takes a mark, writes its first staged record and
stops. With the block ready and no replay: SEED_WRITE sets its slot and no other; SBK_POLICY_WRITE sets sr_rne and
anchored_only while every context is IDLE and no group stands in the way, and changes nothing while one is not;
SBK_RD_PTR_WRITE sets the read pointer; the counter clear zeroes every counter of the block and no other register,
where nothing was counted in its cycle. RECORD_START in IDLE with a ring enters RECORD with the START record staged,
counts this recording's written and lost records from zero (the model's reading, log entry 39) and completes;
RECORD_MARK stages a record of its value and completes; RECORD_STOP stages the STOP record and waits. SBK_RECORD_WRITE
writes a whole record, 4 us old, that fits the store ring where it stands, and moves SBK_WR_PTR and SBK_SEQ past it.
(R73, R326, R327, R331, R332, R336) -/
def Obligations.SeedbankRecords : Prop :=
  ∀ (s : State) (d : Nat) (x : Desc), s.live = true →
    (s.flag HUB_STATUS_ready = true → s.replaying = false →
      (∀ (n : Fin 16) (v : Nat), Yields (.seedWrite n v) s (fun t => t.reg (SBK_SEED_seed n) = v % 2 ^ 64 ∧
        (∀ m : Fin 16, m ≠ n → t.reg (SBK_SEED_seed m) = s.reg (SBK_SEED_seed m)) ∧ t.store = s.store ∧ t.groups = s.groups)) ∧
      (∀ v : Nat, (∀ k ∈ s.ctxs, k.2.st = .idle) → (∀ g ∈ s.groups, bitOf v 1 = true → refusedByAnchored g.2.entry = false) →
        exec (.sbkPolicyWrite v) s = .next ((s.setReg SBK_POLICY_sr_rne (bits v 0 1)).setReg SBK_POLICY_anchored_only (bits v 1 1)))) ∧
    (∀ v : Nat, (∃ k ∈ s.ctxs, k.2.st ≠ .idle) → exec (.sbkPolicyWrite v) s = .next s) ∧
    (s.flag HUB_STATUS_ready = true → ∀ v : Nat, exec (.sbkRdPtrWrite v) s = .next (s.setReg SBK_RD_PTR_rd v)) ∧
    (s.flag HUB_STATUS_ready = true → s.latchNow.counts = [] → Yields .sbkCounterClear s (fun t =>
      s.clears t (offIn 0x1500200 0x1500238) (fun _ => false) ∧ t = { s with regs := t.regs })) ∧
    (s.serves d 8 x → byteAt x.bytes 8 = 0 → s.reg SBK_STATUS_state = 0 → s.ringSize ≠ 0 →
      Yields (.recordStart d) s (fun t => t.reg SBK_STATUS_state = 1 ∧ (∃ r, t.sbk.staged = [r] ∧ r.kind = 9 ∧ r.src = 195 ∧ r.stamp = s.now) ∧
        t.sbk.lost = 0 ∧ t.sbk.written = 0 ∧ s.reports t d x 0 0 0)) ∧
    (s.serves d 8 x → byteAt x.bytes 8 = 2 → s.recording = true → s.sbk.stagedBytes + 64 ≤ 0x800000 →
      Yields (.recordMark d) s (fun t => (∃ r ∈ t.sbk.staged, r.kind = 8 ∧ r.src = 194 ∧ r.stamp = s.now ∧ r.payload = slice x.bytes 16 8) ∧
        (∀ r ∈ s.sbk.staged, r ∈ t.sbk.staged) ∧ s.reports t d x 0 0 0)) ∧
    (s.serves d 8 x → byteAt x.bytes 8 = 1 → s.recording = true →
      Yields (.recordStop d) s (fun t => t.sbk.stop = some d ∧ (∃ r ∈ t.sbk.staged, r.kind = 10 ∧ r.stamp = s.now) ∧ t.reg SBK_STATUS_state = 1 ∧
        t.desc d = some { x with started := true } ∧ t.recording = false)) ∧
    (∀ r rest n, s.sbk.staged = r :: rest → s.reg SBK_STATUS_state = 1 → r.whole = true → s.elapsed r.stamp 4000 = true → s.sbk.lost = 0 →
      r.kind ≠ 10 → n = recBytes r.payload.length → s.flag SBK_CFG_target = false → s.ringRoom [n] = true → s.reg SBK_WR_PTR_wr + n ≤ s.ringSize →
      Yields .sbkRecordWrite s (fun t => t.sbk.staged = rest ∧ t.reg SBK_SEQ_seq = (s.reg SBK_SEQ_seq + 1) % 2 ^ 32 ∧
        t.reg SBK_WR_PTR_wr = (s.reg SBK_WR_PTR_wr + n) % s.ringSize % 2 ^ 40 ∧
        t.store.mem = Mem.write s.store.mem (s.sbkBase + s.reg SBK_WR_PTR_wr)
          (ringRecord r.kind r.flags r.src r.stamp r.arr (s.reg SBK_SEQ_seq) (n / 32) r.payload) ∧
        t.reg SBK_CTR_records_written = (s.reg SBK_CTR_records_written + 1) % 2 ^ 64))

/-- A replay starts at its START record with the discipline FREE, presents every kind of record in turn, and ends as R339
says. With no group and nothing scheduled, REPLAY_START in IDLE whose START record is good and of this identity enters
REPLAY behind that record, with the discipline FREE and the descriptor still running. REPLAY_PRESENT of a good record
in turn, once device time has reached its stamp, moves past it: a SEED record sets the seed slot; a DESCRIPTOR enters
intake with its bytes, stamp and key for the ring of SBK_REPLAY_CFG; a HOST_DATA record is kept for its reader; a TIME
record sets the rate, or steps time at its offset; an FW_WRITE record writes a list entry, or a group entry of the
same epoch; a MARK or PAD does nothing else; a whole good FRAME, not of the port's own rows, that no policer measures
and that finds a lookup slot is judged as one that arrives with its stamp and key: it counts as received, and a group
frame waits for its group. A STOP record, or a MARK at the end offset, ends the replay with ST_OK, a GAP record with
ST_REPLAY_GAP, a truncated FRAME with ST_REPLAY_INCOMPLETE and a bad record with ST_REPLAY_CORRUPT, and the completion
names the last record presented. REPLAY_STOP ends the replay and completes both descriptors. (R336, R337, R338, R339) -/
def Obligations.SeedbankReplays : Prop :=
  ∀ (s : State) (d : Nat) (x : Desc), s.live = true →
    (∀ (ring : Bytes) (r : RingRec), s.serves d 8 x → byteAt x.bytes 8 = 3 → s.reg SBK_STATUS_state = 0 → s.ringSize ≠ 0 → s.groups = [] →
      s.clk.sched = [] → s.ringRec ring (leAt x.bytes 16 8) = .ok r → r.kind = 9 → leAt r.payload 8 8 = s.bitTag →
      endsWithin s.ringSize (leAt x.bytes 16 8) r.bytes (leAt x.bytes 24 8) = false →
      Yields (.replayStart d ring) s (fun t => t.reg SBK_STATUS_state = 2 ∧ t.reg TIME_STATUS_state = dFree ∧
        t.desc d = some { x with started := true } ∧ ∃ q, t.sbk.replay = some q ∧ q.d = d ∧ q.seq = (r.seq + 1) % 2 ^ 32 ∧
          q.pos = (leAt x.bytes 16 8 + r.bytes) % s.ringSize)) ∧
    (∀ (q : Replay) (r : RingRec), s.sbk.replay = some q → s.ringRec q.ring q.pos = .ok r → r.seq = q.seq → atOrBefore r.stamp s.now = true →
      (endsWithin s.ringSize q.pos r.bytes q.end_ = false →
        (r.kind = 5 → Yields .replayPresent s (fun t => t.reg (SBK_SEED_seed (byteAt r.payload 0 % 16)) = leAt r.payload 8 8 ∧
          t.reg SBK_REPLAY_POS_stamp = r.stamp.toNat ∧
          t.reg SBK_CTR_records_replayed = (s.reg SBK_CTR_records_replayed + 1) % 2 ^ 64 ∧
          ∃ p, t.sbk.replay = some p ∧ p.pos = (q.pos + r.bytes) % s.ringSize ∧ p.seq = (q.seq + 1) % 2 ^ 32)) ∧
        (∀ b, r.kind = 2 → b = slice (padTo 72 r.payload) 8 64 → descKnown b = true →
          Yields .replayPresent s (fun t => ∃ y, t.desc s.host.next = some y ∧ y.bytes = b ∧ y.sq = leAt r.payload 0 2 ∧ y.stamp = r.stamp ∧ y.arr = r.arr ∧
            y.cq = s.reg SBK_REPLAY_CFG_cq ∧ y.replayed = true ∧ y.started = false)) ∧
        (r.kind = 3 → Yields .replayPresent s (fun t => ∃ p, t.sbk.replay = some p ∧ t.store = s.store ∧
          p.hostData = q.hostData ++ [(leAt r.payload 0 8, r.payload.drop 8)])) ∧
        (r.kind = 4 → byteAt r.payload 0 = 1 → Yields .replayPresent s (fun t =>
          t.regInt TIME_RATE_rate = rateLimit (signed 64 (leAt r.payload 8 8)) ∧ t.now = s.now)) ∧
        (r.kind = 4 → byteAt r.payload 0 = 0 → s.clk.sched = [] → s.groups = [] → Yields .replayPresent s (fun t =>
          t.now = s.now + BitVec.ofInt 64 (signed 64 (leAt r.payload 8 8)) ∧ t.flag TIME_STATUS_step_ev = true ∧
          t.reg TIME_RATE_rate = s.reg TIME_RATE_rate)) ∧
        (r.kind = 6 → byteAt r.payload 0 ≠ 0 → s.badWords (leAt r.payload 8 6) (r.payload.length - 16) = [] →
          Yields .replayPresent s (fun t => t.store.mem = Mem.write s.store.mem (leAt r.payload 8 6) (r.payload.drop 16) ∧ t.groups = s.groups)) ∧
        (∀ y, r.kind = 6 → byteAt r.payload 0 = 0 → s.grp (leAt r.payload 2 2) = some y → gEpoch y.entry = gEpoch (r.payload.drop 16) →
          gValid (r.payload.drop 16) = true → Yields .replayPresent s (fun t =>
            t.grp (leAt r.payload 2 2) = some { y with entry := r.payload.drop 16 } ∧ t.store = s.store)) ∧
        (r.kind = 8 ∨ r.kind = 0 → Yields .replayPresent s (fun t => t = { s with regs := t.regs, latch := t.latch, sbk := t.sbk } ∧
          ∃ p, t.sbk.replay = some p ∧ p.pos = (q.pos + r.bytes) % s.ringSize ∧ p.seq = (if r.kind = 0 then q.seq else (q.seq + 1) % 2 ^ 32))) ∧
        (∀ (p : Port) (l : Lp) (b : Bytes) (f : Parsed) (w u v : State) (e : Rx) (ft : Fate), r.kind = 1 → r.src = 8 * p + l → r.flags = 0 →
          64 ≤ r.payload.length → r.payload.length ≤ 256 → r.payload.length ≤ s.maxFrame p → b = r.payload.take (r.payload.length - 4) →
          f = parseFrame b → s.portRow (8 * p + l) b f = none → s.flag STORE_STATUS_ready = true → s.recording = false → s.fcMode (8 * p + l) ≠ 2 →
          s.flag (PORT_POL_RATE_en p l (s.classify p f)) = false →
          e = { stamp := r.stamp, arr := r.arr, decided := true, whole := true, data := b, cls := s.classify p f, recorded := false } →
          w = (s.replayPast r).modLink (8 * p + l) (fun k => { k with rx := some { stamp := r.stamp, arr := r.arr }, lostAt := none }) →
          w.lookupSlot p r.payload.length = some u → u.decideFate (8 * p + l) (s.classify p f) e b f true = (ft, v) →
          (ft = .drop → Yields .replayPresent s (fun t =>
            t.reg (PORT_LCTR_rx_frames p l) = (v.reg (PORT_LCTR_rx_frames p l) + 1) % 2 ^ 64 ∧
            (t.link (8 * p + l)).rx = (s.link (8 * p + l)).rx ∧ (t.link (8 * p + l)).lostAt = (s.link (8 * p + l)).lostAt)) ∧
          (∀ id gid, ft = .group id gid → Yields .replayPresent s (fun t =>
            t.inbox = v.inbox ++ [{ frm := id, gid := gid, token := false }] ∧ (t.link (8 * p + l)).rx = (s.link (8 * p + l)).rx)))) ∧
      (∀ y, s.desc q.d = some y →
        (r.kind = 10 ∨ (r.kind = 8 ∧ endsWithin s.ringSize q.pos r.bytes q.end_ = true) → Yields .replayPresent s (fun t => t.reg SBK_STATUS_state = 0 ∧ t.sbk.replay = none ∧
          s.reports t q.d y 0 r.seq r.stamp.toNat)) ∧
        (r.kind = 7 → Yields .replayPresent s (fun t => t.reg SBK_STATUS_state = 0 ∧ t.sbk.replay = none ∧
          s.reports t q.d y 0x78 q.last.1 q.last.2)) ∧
        (r.kind = 1 → bitOf r.flags 2 = true → Yields .replayPresent s (fun t => t.reg SBK_STATUS_state = 0 ∧ t.sbk.replay = none ∧
          s.reports t q.d y 0x7B q.last.1 q.last.2)))) ∧
    (∀ (q : Replay) (y : Desc), s.sbk.replay = some q → s.ringRec q.ring q.pos = .error none → s.desc q.d = some y →
      Yields .replayPresent s (fun t => t.reg SBK_STATUS_state = 0 ∧ t.sbk.replay = none ∧ t.flag SBK_STATUS_corrupt_ev = true ∧
        s.reports t q.d y 0x79 q.last.1 q.last.2)) ∧
    (∀ q : Replay, s.serves d 8 x → byteAt x.bytes 8 = 4 → s.replaying = true → s.sbk.replay = some q →
      Yields (.replayStop d) s (fun t => t.reg SBK_STATUS_state = 0 ∧ t.sbk.replay = none ∧ t.flag SBK_STATUS_done_ev = true ∧
        t.desc d = none ∧ t.desc q.d = none))

/-- An interval is judged once and its energy booked; a level takes effect; limits, phases and calibration are written as
R345, R353 and R343 say. With firmware running, PMC_INTERVAL of a new interval books its model power as energy, shows
it in PWR_NOW with the highest of the sensors' readings, restarts the counts of events, store units and link
transfers, takes the calibration and limits of the boundary, and leaves at most 60 bubbles where there were at most
60. CORE_LEVEL_CHANGE of a level that was requested in an earlier cycle and not deferred makes it the level in force,
counts it and reports it. PWR_LIMIT_WRITE clamps cap to 1,100 W, exc to 1,400 W and exc_ms to 20; a window, and values
below a range, are taken as written, and so is any gain, which is the model's choice (log entry 62). PWR_PHASE_WRITE
takes a permutation and ignores any other value; PWR_CAL_WRITE of the gain takes its 16 bits; the counter clear, with
nothing counted in its cycle, zeroes every counter of the block, restarts the peak, and keeps every other register.
(R73, R342, R343, R345, R347, R349, R353) -/
def Obligations.PowerIntervalsAndLimits : Prop :=
  ∀ (s : State) (act : PmcSample) (v l p : Nat), s.live = true →
    (s.flag HUB_STATUS_ready = true → s.pmc.lastK ≠ some (s.now.toNat / 2560000) →
      p = s.modelPower (if s.pmc.lastK.isNone then s.pwrBoundary else s.pmc.eff) (s.reg PWR_TJ_tj_max) (s.counted act.counts) →
      Yields (.pmcInterval act) s (fun t => t.pmc.lastK = some (s.now.toNat / 2560000) ∧ t.pmc.total = s.pmc.total + p ∧
        t.reg PWR_ENERGY_energy = (s.pmc.total + p) / 1000000000 % 2 ^ 64 ∧ t.reg PWR_NOW_p_now = p / 10000000 % 2 ^ 32 ∧
        t.reg PWR_TJ_tj_max = (hottest act.sensors).2.toNat % 2 ^ 8 ∧ t.pmc.eff = s.pwrBoundary ∧ t.pmc.units = 0 ∧ t.pmc.links = 0 ∧ (∀ ch, ch < 8 → (t.chan ch).events = []) ∧ (s.reg PWR_STATUS_d ≤ 60 → t.reg PWR_STATUS_d ≤ 60))) ∧
    (s.pmc.req = some l → s.pmc.deferred = false → s.pmc.reqAt ≠ s.clk.cyc → Yields .coreLevelChange s (fun t => t.reg PWR_STATUS_level = l % 2 ^ 3 ∧
      t.reg PWR_STATUS_freq_pending = 0 ∧ t.pmc.req = none ∧ t.reg PWR_CTR_freq_changes = (s.reg PWR_CTR_freq_changes + 1) % 2 ^ 64 ∧
      t.flag PWR_INTR_STATUS_level_ev = true)) ∧
    (s.flag HUB_STATUS_ready = true →
      Yields (.pwrLimitWrite v) s (fun t => t.reg PWR_LIMIT_cap = min 1100 (bits v 0 11) ∧ t.reg PWR_LIMIT_exc = min 1400 (bits v 11 11) ∧
        t.reg PWR_LIMIT_window = bits v 32 15 ∧ t.reg PWR_LIMIT_exc_ms = min 20 (bits v 48 8) ∧ t.reg PWR_LIMIT_exc_gap = bits v 56 8 ∧
        t = { s with regs := t.regs, pmc := { s.pmc with before := t.pmc.before } }) ∧
      ((∀ c, c < 8 → ∃ i, i < 8 ∧ phaseAt v i = c) → exec (.pwrPhaseWrite v) s = .next (s.setReg PWR_PHASE_order v)) ∧
      ((∃ c, c < 8 ∧ ∀ i, i < 8 → phaseAt v i ≠ c) → exec (.pwrPhaseWrite v) s = .next s) ∧
      Yields (.pwrCalWrite 0x20005C v) s (fun t => t.reg PWR_CAL_GAIN_gain = bits v 0 16 ∧ t = { s with regs := t.regs }) ∧
      (s.latchNow.counts = [] → Yields .pwrCounterClear s (fun t => s.clears t (offIn 0x200200 0x200250) (fun o => o == PWR_TJ_tj_peak.off) ∧
        t.reg PWR_TJ_tj_peak = s.reg PWR_TJ_tj_max % 2 ^ 8 ∧ t.reg PWR_TJ_tj_max = s.reg PWR_TJ_tj_max ∧
        t.reg PWR_TJ_die = s.reg PWR_TJ_die ∧ t.reg PWR_TJ_hbm_max = s.reg PWR_TJ_hbm_max ∧
        t = { s with regs := t.regs, pmc := { s.pmc with stretch := t.pmc.stretch, bubble := 0, coreWas := t.pmc.coreWas, thermAt := s.now } })))

/-- A droop stretches its die until it is calm; 115 degrees stop the clocks; 85 degrees double a stack's refresh and are
reported once. DROOP_TRIP by more than the threshold counts, marks droop active and notes the trip and the stretch of
its channel's die; one within the threshold changes nothing. DROOP_STRETCH_END of a stretched die calm for min_stretch
of its CORE cycles ends that stretch and counts its cycles. THERMAL_TRIP at 115 C or more, in any power state, stops
the clocks, darkens the transmitters, puts the stacks into self-refresh, pulls THERM_TRIP_N low and fills
PWR_TRIP_LOG, once; below 115 C nothing happens. HBM_HOT_REFRESH at 85 C or more of a stack not yet hot marks it and
reports it; below 85 C it is hot no more; PWR_TJ shows the hottest stack's last reading. (R351, R355, R356, R454) -/
def Obligations.DroopAndTemperature : Prop :=
  ∀ s : State,
    (∀ (ch : Ch) (depth : Nat), s.live = true →
      (s.reg PWR_DROOP_CFG_thresh < depth → Yields (.droopTrip ⟨ch, depth⟩) s (fun t =>
        t.reg PWR_CTR_droop_events = (s.reg PWR_CTR_droop_events + 1) % 2 ^ 64 ∧ t.flag PWR_INTR_STATUS_droop_ev = true ∧
        t.flag PWR_STATUS_droop_active = true ∧ t.pmc.trip.find? (ch / 2) = some (s.clk.cyc, s.coreNow (ch / 2)) ∧
        t.pmc.stretch.find? (ch / 2) = some ((s.pmc.stretch.find? (ch / 2)).getD (s.coreNow (ch / 2))))) ∧
      (depth ≤ s.reg PWR_DROOP_CFG_thresh → exec (.droopTrip ⟨ch, depth⟩) s = .next s)) ∧
    (∀ (cd : Fin 4) (t0 : Nat), s.live = true → s.pmc.stretch.find? cd = some t0 →
      s.reg PWR_DROOP_CFG_min_stretch ≤ s.coreNow cd - (s.pmc.trip.get (0, 0) cd).2 →
      Yields (.droopStretchEnd cd) s (fun t => t.pmc.stretch = s.pmc.stretch.erase cd ∧
        t.reg PWR_CTR_stretch_cycles = (s.reg PWR_CTR_stretch_cycles + (s.coreNow cd - t0)) % 2 ^ 64 ∧
        (s.pmc.stretch.erase cd = [] → t.reg PWR_STATUS_droop_active = 0))) ∧
    (∀ die temp : Nat,
      (115 ≤ temp → s.sys.tripLow = false → Yields (.thermalTrip die temp) s (fun t => t.live = false ∧
        t.sys.power = (if s.sys.power = .down then Power.down else .tripped) ∧ t.sys.txDark = true ∧ t.sys.selfRefresh = true ∧ t.sys.tripLow = true ∧
        t.reg PWR_TRIP_LOG_die = die % 2 ^ 8 ∧ t.reg PWR_TRIP_LOG_temp = temp % 2 ^ 8 ∧ t.reg PWR_TRIP_LOG_valid = 1 ∧
        t.out = s.out ++ [.pin "THERM_TRIP_N" false])) ∧
      ((temp < 115 ∨ s.sys.tripLow = true) → exec (.thermalTrip die temp) s = .next s)) ∧
    (∀ (stack : Fin 24) (temp : Nat), s.live = true →
      (85 ≤ temp → s.pmc.hot.contains stack.val = false → Yields (.hbmHotRefresh stack temp) s (fun t =>
        t.pmc.hot = s.pmc.hot ++ [stack.val] ∧ t.flag PWR_INTR_STATUS_hbm_hot_ev = true)) ∧
      (temp < 85 → Yields (.hbmHotRefresh stack temp) s (fun t => t.pmc.hot.contains stack.val = false ∧
        t.reg PWR_TJ_hbm_max = (s.pmc.hbm.put 0 stack temp).foldl (fun a e => max a e.2) 0 % 2 ^ 8)))

/-- Rings are enabled and disabled; doorbells make descriptors visible and free entries, or put a ring into error.
SQ_ENABLE of a disabled SQ with an enabled CQ and a log_size of 4 or more enables it empty, and with firmware running
it is not held; SQ_DISABLE drops what it has not fetched. CQ_ENABLE of a disabled CQ enables it empty with phase 1;
CQ_DISABLE of one with nothing waiting disables it. A tail doorbell of an enabled SQ within its size, that leaves
fewer than 2^s entries between head and tail, sets the tail and makes the new descriptors visible with one stamp and,
where no higher SQ was rung in the same cycle, the next arrival number; one beyond the size, or past the head (R4; the
error state is the model's choice, log entry 77), puts the SQ into error; of a disabled SQ it is counted as ignored. A
disable in the cycle of the SQ's first tail doorbell prevails: the tail and the error event are as before it, and it
counts as ignored. A head doorbell no further than the tail sets the head. The counter clear zeroes every counter of
the rings and no other register, where nothing was counted in its cycle. (R4, R73, R362, R363, R364, R366, R367, R381) -/
def Obligations.RingsAndDoorbells : Prop :=
  ∀ (s : State) (i : Ring) (v : Nat), s.live = true →
    (s.flag (RING_SQ_CFG_en i) = false → s.flag (RING_CQ_CFG_en (bits v 8 10)) = true → 4 ≤ bits v 1 4 → s.flag HUB_STATUS_ready = true →
      Yields (.sqEnable i v) s (fun t => t.reg (RING_SQ_CFG_en i) = 1 ∧ t.reg (RING_SQ_CFG_log_size i) = bits v 1 4 ∧
        t.reg (RING_SQ_CFG_cq i) = bits v 8 10 ∧ t.reg (RING_SQ_STATE_head i) = 0 ∧ t.reg (RING_SQ_STATE_tail i) = 0 ∧
        t.reg (RING_SQ_STATE_error i) = 0 ∧ t.reg (RING_SQ_STATE_held i) = 0 ∧ t.host.sqs.get [] i = [])) ∧
    (s.flag (RING_SQ_CFG_en i) = true → Yields (.sqDisable i v) s (fun t => t.reg (RING_SQ_CFG_en i) = 0 ∧ t.reg (RING_SQ_STATE_error i) = 0 ∧
      t.host.sqs.get [] i = [] ∧ t.host.descs = s.host.descs)) ∧
    (s.flag (RING_CQ_CFG_en i) = false → 4 ≤ bits v 1 4 → Yields (.cqEnable i v) s (fun t => t.reg (RING_CQ_CFG_en i) = 1 ∧
      t.reg (RING_CQ_CFG_log_size i) = bits v 1 4 ∧ t.reg (RING_CQ_CFG_vector i) = bits v 8 6 ∧ t.reg (RING_CQ_STATE_head i) = 0 ∧
      t.reg (RING_CQ_STATE_tail i) = 0 ∧ t.reg (RING_CQ_STATE_phase i) = 1 ∧ (t.cq i).waiting = [])) ∧
    (s.flag (RING_CQ_CFG_en i) = true → (s.cq i).waiting = [] → Yields (.cqDisable i v) s (fun t => t.reg (RING_CQ_CFG_en i) = 0 ∧
      t.reg (RING_CQ_STATE_error i) = 0 ∧ (t.cq i).waiting = [] ∧ ∀ j : Ring, t.reg (RING_SQ_STATE_error j) = s.reg (RING_SQ_STATE_error j))) ∧
    (s.flag (RING_SQ_CFG_en i) = true → s.flag (RING_SQ_STATE_error i) = false →
      (∀ n, v < 65536 → v < sqSize s i → s.sqHolds i v < sqSize s i → s.flag HUB_STATUS_ready = true →
        n = (sqSize s i + v - s.reg (RING_SQ_STATE_tail i)) % sqSize s i → 0 < n →
        Yields (.sqTailDoorbell i v) s (fun t => t.reg (RING_SQ_STATE_tail i) = v ∧ ∃ l k, t.host.sqs.get [] i = l ++ [k] ∧
          l.map (fun w => (w.n, w.stamp)) = (s.host.sqs.get [] i).map (fun w => (w.n, w.stamp)) ∧ k.n = n ∧ k.stamp = s.now ∧
          ((∀ q ∈ s.host.sqs, i.val < q.1 → ∀ w ∈ q.2, w.stamp ≠ s.now) → l = s.host.sqs.get [] i ∧ k.arr = s.clk.arr.get 0 194 % 2 ^ 32))) ∧
      (∀ (u : State) (w : Nat), (s.host.bells.get {} i).cyc ≠ s.clk.cyc → exec (.sqTailDoorbell i v) s = .next u → Yields (.sqDisable i w) u (fun t =>
        t.reg (RING_SQ_STATE_tail i) = s.reg (RING_SQ_STATE_tail i) % 2 ^ 16 ∧ t.reg RING_INTR_STATUS_ring_err_ev = s.reg RING_INTR_STATUS_ring_err_ev % 2 ∧
        t.reg RING_CTR_doorbell_ignored = (s.reg RING_CTR_doorbell_ignored + 1) % 2 ^ 64 ∧ t.host.sqs.get [] i = [])) ∧
      (v < 65536 → sqSize s i ≤ v ∨ sqSize s i ≤ s.sqHolds i v → Yields (.sqTailDoorbell i v) s (fun t => t.reg (RING_SQ_STATE_error i) = 1 ∧ t.reg RING_ERR_LOG_ring = i.val ∧
        t.reg RING_ERR_LOG_cause = 1 ∧ t.flag RING_INTR_STATUS_ring_err_ev = true ∧ t.host.sqs.get [] i = []))) ∧
    (s.flag (RING_SQ_CFG_en i) = false → exec (.sqTailDoorbell i v) s = .next (s.count RING_CTR_doorbell_ignored)) ∧
    (s.flag (RING_CQ_CFG_en i) = true → s.flag (RING_CQ_STATE_error i) = false → v < 65536 → v < cqSize s i →
      (cqSize s i + v - s.reg (RING_CQ_STATE_head i)) % cqSize s i ≤
        (cqSize s i + s.reg (RING_CQ_STATE_tail i) - s.reg (RING_CQ_STATE_head i)) % cqSize s i →
      Yields (.cqHeadDoorbell i v) s (fun t => t.reg (RING_CQ_STATE_head i) = v ∧ (t.cq i).waiting = (s.cq i).waiting)) ∧
    (s.latchNow.counts = [] → Yields .ringCounterClear s (fun t => s.clears t (offIn 0x300100 0x300130) (fun _ => false) ∧
      t = { s with regs := t.regs, host := { s.host with fullSince := t.host.fullSince } }))

/-- The SQ whose turn it is gives its head descriptor; a waiting record goes to host memory; the moderation delay signals
the vector. DESCRIPTOR_FETCH of the SQ whose turn it is, with 64 bytes of a known descriptor, no recording and no
replay, takes it in under the next intake number with its doorbell's stamp and its seed slot as it stood at the
doorbell (R324; log entry 36 says how the model keeps what stood before), and moves the head on. COMPLETION_WRITE of
an enabled CQ with room writes the first waiting record's 32 bytes at the tail and moves the tail, turning the phase
when it wraps. CQ_IRQ_DELAY_EXPIRE of a CQ whose delay has run out sends its unmasked vector and restarts its count;
while irq_en is 0 the interrupt stays due (the model's choice, log entry 89). (R324, R340, R364, R365, R367, R377,
R378, R379) -/
def Obligations.DescriptorsFetchedAndRecordsWritten : Prop :=
  ∀ (s : State) (i : Ring), s.live = true →
    (∀ (b : Bytes) (k : Visible) (rest : List Visible), s.sqNext = some i.val → s.host.sqs.get [] i = k :: rest → b.length = 64 → descKnown b = true →
      s.flag HUB_STATUS_ready = true → s.recording = false → s.replaying = false →
      Yields (.descriptorFetch i (.ok b)) s (fun t =>
        (∃ x, t.desc s.host.next = some x ∧ x.sq = i ∧ x.bytes = b ∧ x.stamp = k.stamp ∧ x.arr = k.arr ∧ x.cq = s.reg (RING_SQ_CFG_cq i) ∧
          x.started = false ∧ x.replayed = false ∧ x.seed = s.seedAt (byteAt b 25 % 16) x) ∧
        t.host.next = s.host.next + 1 ∧ t.reg (RING_SQ_STATE_head i) = (s.reg (RING_SQ_STATE_head i) + 1) % sqSize s i % 2 ^ 16 ∧
        t.host.sqs.get [] i = k.drop1 rest ∧ t.reg RING_CTR_descriptors_fetched = (s.reg RING_CTR_descriptors_fetched + 1) % 2 ^ 64)) ∧
    (∀ (r : CRec) (rest : List CRec), (s.cq i).waiting = r :: rest → s.flag (RING_CQ_CFG_en i) = true → s.flag (RING_CQ_STATE_error i) = false →
      s.cqRoom i = true → Yields (.completionWrite i .done) s (fun t => (t.cq i).waiting = rest ∧
        .hostWrite (s.reg (RING_CQ_BASE_base i) * 4096 + 32 * s.reg (RING_CQ_STATE_tail i))
          (recordBytes r (s.reg (RING_SQ_STATE_head r.sq)) (s.reg (RING_CQ_STATE_phase i))) ∈ t.out ∧
        t.reg (RING_CQ_STATE_tail i) = (s.reg (RING_CQ_STATE_tail i) + 1) % cqSize s i % 2 ^ 16 ∧
        ((s.reg (RING_CQ_STATE_tail i) + 1) % cqSize s i = 0 → t.reg (RING_CQ_STATE_phase i) = (1 - s.reg (RING_CQ_STATE_phase i)) % 2))) ∧
    (∀ t0, (s.cq i).first = some t0 → s.reg (RING_CQ_MOD_delay i) ≠ 0 → s.elapsed t0 (s.reg (RING_CQ_MOD_delay i) * 1000) = true →
      s.flag (RING_CQ_CFG_irq_en i) = true → s.flag (HUB_MSIX_CTRL_mask (s.reg (RING_CQ_CFG_vector i))) = false →
      Yields (.cqIrqDelayExpire i) s (fun t => (t.cq i).count = 0 ∧ (t.cq i).first = none ∧
        t.out = s.out ++ [.msix (s.reg (HUB_MSIX_ADDR_addr (s.reg (RING_CQ_CFG_vector i)))) (s.reg (HUB_MSIX_DATA_data (s.reg (RING_CQ_CFG_vector i))))])) ∧
    (∀ t0, (s.cq i).first = some t0 → s.reg (RING_CQ_MOD_delay i) ≠ 0 → s.elapsed t0 (s.reg (RING_CQ_MOD_delay i) * 1000) = true →
      s.flag (RING_CQ_CFG_irq_en i) = false → exec (.cqIrqDelayExpire i) s = .next (s.modCq i (fun q => { q with due := true })))

/-- LOAD_PROGRAM stores a good image, START_PROGRAM puts an idle context in LOADING or is refused or held, STORE_COPY
moves bytes. A LOAD_PROGRAM whose image passes the checks and whose range is in the program region stores the image's
bytes there and reports its instruction count; after a loss of IDE integrity it fails with ST_HOST_ACCESS. A
START_PROGRAM whose ranges and header are good, with no remap pending and the store enabled, puts its context in
LOADING with its argument block, window and step, holds its tile groups, clears its pips (but for those set in this
very cycle) and its fault, and goes on; with a tile group absent it fails with ST_ENGINE_ABSENT, with a context, group
or pip in use with ST_RESOURCE_BUSY, with another mode or length with ST_BAD_DESCRIPTOR, with an uncorrectable header
at the failing address; it is held while a remap is pending, and while the store is disabled, which is the model's
choice (log entry 72). A STORE_COPY, with a buffer to be had for it (log entry 73 says which the model takes), copies
the source's bytes within the store, from the host, or to the host, and completes; one that a range check refuses,
that finds no buffer, or whose source is uncorrectable says so. Each leaves the rest of the store as it was. (R94,
R95, R96, R115, R145, R146, R147, R174, R359, R371, R372, R373) -/
def Obligations.ProgramsLoadAndStart : Prop :=
  ∀ (s : State) (d : Nat) (x : Desc), s.live = true →
    (∀ (b : Bytes) (n : Nat), s.serves d 1 x → x.replayed = false → leAt x.bytes 24 4 = 64 + 16 * n → 1 ≤ n → n ≤ 16384 → b.length = 64 + 16 * n →
      (x.ide = true → Yields (.loadProgram d (.ok b)) s (fun t => t.store = s.store ∧ s.reports t d x stHostAccess 0 0)) ∧
      (x.ide = false → hLength b = n → imageOk b (imageWords n (b.drop 64)) = true → s.rangeCheck (leAt x.bytes 16 6) (64 + 16 * n) [.program] = none →
        s.partialUe (leAt x.bytes 16 6) (64 + 16 * n) = none →
        Yields (.loadProgram d (.ok b)) s (fun t => t.store.mem = Mem.write s.store.mem (leAt x.bytes 16 6) b ∧ s.reports t d x 0 n 0))) ∧
    (∀ img cx h n, s.serves d 2 x → img = leAt x.bytes 8 6 → cx = byteAt x.bytes 24 → h = s.storeRead img 64 → n = hLength h →
      s.rangeCheck img 64 [.program] = none → s.rangeCheck (leAt x.bytes 16 6) 256 [.program] = none →
      (∀ w ws, s.badWords img 64 = w :: ws → Yields (.startProgram d) s (fun t => t.ctxs = s.ctxs ∧ s.reports t d x stMemUncorrectable 0 (w * 32))) ∧
      (s.badWords img 64 = [] → hMode h ≠ bit1 (s.solo cx) ∨ n < 1 ∨ (if s.solo cx then 16384 else 2048) < n →
        Yields (.startProgram d) s (fun t => t.ctxs = s.ctxs ∧ s.reports t d x stBadDescriptor 0 0)) ∧
      (s.badWords img 64 = [] → hMode h = bit1 (s.solo cx) → (s.solo cx = true → cx % 8 = 0) → 1 ≤ n → n ≤ (if s.solo cx then 16384 else 2048) →
        s.rangeCheck img (64 + 16 * n) [.program] = none →
        ((∃ t ∈ tilesOf (hTiles h), s.reg (CH_SPARE_STATUS_group (chOf cx) (t / 16)) = 2) ∨ s.flag STORE_STATUS_ready = false →
          exec (.startProgram d) s = .next s) ∧
        ((∀ t ∈ tilesOf (hTiles h), s.reg (CH_SPARE_STATUS_group (chOf cx) (t / 16)) ≠ 2) → s.flag STORE_STATUS_ready = true →
          ((s.chan (chOf cx)).blocked = true ∨ within (hTiles h) (s.present (chOf cx)) = false →
            Yields (.startProgram d) s (fun t => t.ctxs = s.ctxs ∧ s.reports t d x stEngineAbsent 0 0)) ∧
          ((s.chan (chOf cx)).blocked = false → within (hTiles h) (s.present (chOf cx)) = true →
            (s.startBusy cx h = true → Yields (.startProgram d) s (fun t => t.ctxs = s.ctxs ∧ s.reports t d x stResourceBusy 0 0)) ∧
            (s.startBusy cx h = false →
              Yields (.startProgram d) s (fun t => (t.ctx cx).st = .loading ∧ (t.ctx cx).header = h ∧ (t.ctx cx).args = leAt x.bytes 16 6 ∧
                (t.ctx cx).win = leAt x.bytes 28 4 ∧ (t.ctx cx).winLen = leAt x.bytes 32 4 ∧ (t.ctx cx).step = leAt x.bytes 40 8 ∧ (t.ctx cx).d = some d ∧
                s.pipsCleared t (chOf cx) (coreOf cx) (hClaim h) (s.seqNow (chOf cx) (coreOf cx)) ∧ t.reg (CH_CTX_FAULT_valid (chOf cx) (cx % 32)) = 0 ∧
                (∀ c, c ≠ cx → t.ctx c = s.ctx c) ∧ t.desc d = some { x with started := true } ∧ t.store = s.store ∧
                t.reg (CH_TILE_HOLD_held (chOf cx)) = (s.reg (CH_TILE_HOLD_held (chOf cx)) ||| hTiles h) % 2 ^ 16)))))) ∧
    (∀ src dst n dir, s.serves d 5 x → src = leAt x.bytes 16 8 → dst = leAt x.bytes 24 8 → n = leAt x.bytes 32 8 → dir = byteAt x.bytes 8 →
      (∀ (data : HostData) r, dir ≠ 0 → s.rangeFail src n [.program, .seedbank] = some r →
        Yields (.storeCopy d data) s (fun t => t.store = s.store ∧ s.reports t d x r.status 0 r.detail)) ∧
      (∀ (data : HostData) r, dir ≠ 1 → (dir ≠ 0 → s.rangeFail src n [.program, .seedbank] = none) → s.rangeFail dst n [.program] = some r →
        Yields (.storeCopy d data) s (fun t => t.store = s.store ∧ s.reports t d x r.status 0 r.detail)) ∧
      ((dir ≠ 0 → s.rangeFail src n [.program, .seedbank] = none) → (dir ≠ 1 → s.rangeFail dst n [.program] = none) →
        (∀ data : HostData, (s.hostBuffer n).1 = none → Yields (.storeCopy d data) s (fun t => t.store.mem = s.store.mem ∧ s.reports t d x stPoolExhausted 0 0)) ∧
        ((s.hostBuffer n).1.isSome = true →
          (∀ (data : HostData) w ws, dir ≠ 0 → s.badWords src n = w :: ws → Yields (.storeCopy d data) s (fun t =>
            t.store.mem = s.store.mem ∧ s.reports t d x stMemUncorrectable 0 (w * 32))) ∧
          (∀ data : HostData, dir = 2 → s.badWords src n = [] → Yields (.storeCopy d data) s (fun t =>
            t.store.mem = Mem.write s.store.mem dst (s.storeRead src n) ∧ s.reports t d x 0 0 0)) ∧
          (∀ b : Bytes, dir = 1 → s.badWords src n = [] → x.ide = false → Yields (.storeCopy d (.ok b)) s (fun t =>
            .hostWrite dst (s.storeRead src n) ∈ t.out ∧ t.store.mem = s.store.mem ∧ s.reports t d x 0 0 0)) ∧
          (∀ b : Bytes, dir = 0 → x.replayed = false → x.ide = false → b.length = n →
            Yields (.storeCopy d (.ok b)) s (fun t => t.store.mem = Mem.write s.store.mem dst b ∧ s.reports t d x 0 0 0)))))

/-- Fences complete when what they wait for is done; queries write their record to host memory. FENCE of mode 0 completes
when it may run. FENCE of mode 1 of an IDLE context completes; of a running context with nothing wrong and
instructions left it puts it into DRAIN with ST_FENCED and completes later. FENCE of mode 2 of a group outside a pair,
with a step later than fence_step and before cur_step, sets the group's mode and fence_step and completes. A QUERY of
the device, a group that stands, a context, or a table entry that stands, writes the record of R376 to its address and
reports its length; one of the device after a loss of IDE integrity writes nothing and fails. (R359, R374, R375, R376,
R420) -/
def Obligations.FencesAndQueries : Prop :=
  ∀ (s : State) (d : Nat) (x : Desc), s.live = true →
    (s.serves d 6 x → byteAt x.bytes 8 = 0 → Yields (.fenceRing d) s (fun t => s.reports t d x 0 0 0 ∧ t.store = s.store ∧ t.ctxs = s.ctxs)) ∧
    (s.serves d 6 x → byteAt x.bytes 8 = 1 →
      ((s.ctx (byteAt x.bytes 9)).st = .idle → Yields (.fenceContext d) s (fun t => s.reports t d x 0 0 0 ∧ t.ctxs = s.ctxs)) ∧
      ((s.ctx (byteAt x.bytes 9)).st = .run → (s.ctx (byteAt x.bytes 9)).fault = none → (s.ctx (byteAt x.bytes 9)).word.isSome = true →
        Yields (.fenceContext d) s (fun t => (t.ctx (byteAt x.bytes 9)).st = .drain ∧
          ((t.ctx (byteAt x.bytes 9)).fault.map (·.status)) = some stFenced ∧ t.desc d = some { x with started := true }))) ∧
    (∀ g, s.serves d 6 x → byteAt x.bytes 8 = 2 → s.grp (leAt x.bytes 10 2) = some g → s.pod = podSolo → g.entry.length = 64 →
      0 < stepDiff (leAt x.bytes 12 4) (gFence g.entry) → stepDiff (leAt x.bytes 12 4) (gStep g.entry) < 0 →
      Yields (.stepFence d) s (fun t => s.reports t d x 0 0 0 ∧ ∃ y, t.grp (leAt x.bytes 10 2) = some y ∧ gFence y.entry = leAt x.bytes 12 4 ∧
        y.sfm = bitOf (byteAt x.bytes 9) 0 ∧ y.cur = g.cur)) ∧
    (s.serves d 7 x → x.ide = false →
      (byteAt x.bytes 8 = 0 → Yields (.queryDevice d .done) s (fun t => .hostWrite (leAt x.bytes 16 8) s.queryDevice ∈ t.out ∧
        s.reports t d x 0 64 0)) ∧
      (∀ g, byteAt x.bytes 8 = 1 → s.groups.find? (leAt x.bytes 10 2) = some g → Yields (.queryGroup d .done) s (fun t =>
        .hostWrite (leAt x.bytes 16 8) g.entry ∈ t.out ∧ s.reports t d x 0 g.entry.length 0)) ∧
      (∀ b, byteAt x.bytes 8 = 2 → s.queryTable (byteAt x.bytes 12) (slice x.bytes 24 32) = some b → Yields (.queryTableEntry d .done) s (fun t =>
        .hostWrite (leAt x.bytes 16 8) b ∈ t.out ∧ s.reports t d x 0 b.length 0)) ∧
      (byteAt x.bytes 8 = 3 → Yields (.queryContext d .done) s (fun t =>
        .hostWrite (leAt x.bytes 16 8) (s.queryContext (byteAt x.bytes 9)) ∈ t.out ∧ s.reports t d x 0 32 0))) ∧
    (s.serves d 7 x → x.ide = true → byteAt x.bytes 8 = 0 → Yields (.queryDevice d .done) s (fun t => t.out.all (fun o => match o with
      | .hostWrite _ _ => s.out.contains o | _ => true) = true ∧ s.reports t d x stHostAccess 0 0))

/-- A table write and a group update that stand are applied at one stamp, later than the last, and report it; a member's
notice moves its endpoint. Outside a pod, with no apply stamp ahead of device time and no host read lost, a
TABLE_WRITE whose apply stands makes the tables what the apply gives and reports the absent deletes and the apply
stamp; one that does not stand changes no table and reports the offending record. A GROUP_UPDATE of one valid new
entry with none of its frames still to be taken makes that group with the entry as written and reports the stamp. Each
stamp is the present time where that is later than the last one, and else the FT64 unit after it, which is the model's
choice (log entry 78). A readable notice of a member moves the endpoint entry of that member's ID to its sender. (R78,
R79, R271, R368, R374, R410, R411, R414) -/
def Obligations.UpdatesApplyAtOneStamp : Prop :=
  ∀ (s : State) (d : Nat) (x : Desc) (b : Bytes), s.live = true →
    (∀ t n recs, s.serves d 4 x → s.pod = podSolo → s.applyWaits = false → x.replayed = false → x.ide = false → t = byteAt x.bytes 8 → n = leAt x.bytes 12 4 → b.length = recSize t * n → recs = splitRecs (recSize t) n b →
      (∀ T absent, s.tables.apply t recs = .ok (T, absent) → Yields (.tableWrite d (.ok b)) s (fun u => u.tables = T ∧
        ∃ at_ : FT64, u.host.applied = some at_ ∧ (∀ a, s.host.applied = some a → at_ = s.now ∧ precedes a s.now = true ∨ at_ = a + 1) ∧
          s.reports u d x 0 absent at_.toNat)) ∧
      (∀ i, s.tables.apply t recs = .error i → Yields (.tableWrite d (.ok b)) s (fun u => u.tables = s.tables ∧
        s.reports u d x stBadDescriptor i 0))) ∧
    (s.serves d 3 x → s.pod = podSolo → s.applyWaits = false → x.replayed = false → x.ide = false → leAt x.bytes 16 2 = 1 → b.length = 64 →
      gValid b = true → s.grp (gGid b) = none → s.undelivered (gGid b) = false → s.entryOk none b = true → s.groups.length < 4096 →
      Yields (.groupUpdate d (.ok b)) s (fun u => ∃ at_ : FT64, u.host.applied = some at_ ∧ (∀ a, s.host.applied = some a → at_ = s.now ∧ precedes a s.now = true ∨ at_ = a + 1) ∧ s.reports u d x 0 0 at_.toNat ∧
        ∃ y, u.grp (gGid b) = some y ∧ y.entry = b ∧ y.cur = {} ∧ y.base = (s.actives b).length ∧ ∀ k, k ≠ gGid b → u.grp k = s.grp k)) ∧
    (∀ k g u y id, s.take k (fun g => g.h.opcode == 7 && byteAt g.payload 1 == 0) = (some g, u) → u.grp g.gid = some y → u.readable g = true →
      g.h.member < gCount y.entry → g.h.member ≠ 0xFFF → (u.memberEntry y.entry g.h.member).map mId = some id →
      exec (.noticeRx k) s = .next ((u.gdrop g).moveEndpoint id
        (endpointKey g.smac (((u.frm g.frm).map (fun f => (parseFrame (u.frameBytes f)).vid)).getD 0))))

/-- BAR4 reads and writes the program region while it is open and answers with an error where it may not; the link's time
is kept. With a bundle running and BAR4 enabled, a read of a range of the program region or Seedbank with good words
answers its bytes, counts as store traffic for the power model and changes nothing else, and a write within the
program region stores its bytes; with BAR4 closed, or a write outside the program region, the answer is an error and
the store is as it was. CXL_LINK_UP marks the link up and keeps the milliseconds since the end of the reset. (R95,
R96, R361, R443) -/
def Obligations.TheStoreWindow : Prop :=
  ∀ (s : State) (a n : Nat) (b : Bytes), s.live = true →
    (s.bar4Open = true → s.rangeCheck a n [.program, .seedbank] = none → s.badWords a n = [] →
      exec (.bar4Read a n) s = .next ((s.hubAccess a n).emit (.bar4Read a (some (s.storeRead a n))))) ∧
    (s.bar4Open = false → exec (.bar4Read a n) s = .next (s.emit (.bar4Read a none)) ∧ exec (.bar4Write a b) s = .next (s.emit (.bar4Write a false))) ∧
    (s.bar4Open = true → s.rangeCheck a b.length [.program] = none → s.partialUe a b.length = none →
      Yields (.bar4Write a b) s (fun t => t.out = s.out ++ [.bar4Write a true] ∧ t.regs = s.regs ∧
        ∀ i, Mem.get t.store.mem i = if a ≤ i ∧ i < a + b.length then b.getD (i - a) 0 else Mem.get s.store.mem i)) ∧
    (∀ st, s.rangeCheck a b.length [.program] = some st → exec (.bar4Write a b) s = .next (s.emit (.bar4Write a false))) ∧
    (s.sys.cxlUp = false → Yields .cxlLinkUp s (fun t => t.sys.cxlUp = true ∧
      t.reg HUB_BOOT_TIME_link_ms = min 65535 ((s.clk.cyc - s.sys.endCyc) / 1000000)))

/-- A chunk in order is taken, a failed check leaves nothing, a finished bundle that passes releases the device, a commit
raises the svn. BUNDLE_LOAD op 0 with the next offset, a length that fits and host bytes takes them (a first chunk
when checks 1 to 5 pass), shows RECEIVING, and reports the bytes received; a first chunk that fails a check leaves
AWAIT with nothing received and reports the check's status. Op 1 of a whole bundle that passes checks 6 and 7 makes
the device ready with the bundle's digest and reports its svn; one that fails a check keeps it not ready, with nothing
received, and reports ST_AUTH_FAIL with the check's number. Op 2 in RELEASED raises the fused svn to the bundle's. Op
3 in AWAIT or RECEIVING drops what was received. (R387, R388, R389, R390, R392) -/
def Obligations.BundlesLoadAndRelease : Prop :=
  ∀ (s : State) (d : Nat) (x : Desc), s.live = true → s.serves d 10 x →
    (byteAt x.bytes 8 = 0 → s.reg SEC_STATUS_load_state < 2 → x.replayed = false → x.ide = false → leAt x.bytes 24 8 = s.sec.data.length →
      ∀ b : Bytes, b.length = leAt x.bytes 32 4 →
      (s.sec.data ≠ [] → b.length % 64 = 0 ∧ s.sec.data.length + b.length ≤ bTotal s.sec.data) →
      (b.length % 64 = 0 ∨ bTotal b = b.length) →
      Yields (.bundleChunk d (.ok b)) s (fun t => t.hw = s.hw ∧ match (if s.sec.data = [] then s.firstChecks s.pktEnd s.progEnd b else none) with
        | none => t.sec.data = s.sec.data ++ b ∧ t.reg SEC_STATUS_load_state = 1 ∧
            t.reg SEC_BUNDLE_INFO_received = (s.sec.data.length + b.length) % 2 ^ 32 ∧ t.reg HUB_STATUS_ready = s.reg HUB_STATUS_ready ∧
            s.reports t d x 0 (s.sec.data.length + b.length) 0
        | some st => t.sec.data = [] ∧ t.reg SEC_STATUS_load_state = 0 ∧ t.flag SEC_INTR_STATUS_bundle_fail_ev = true ∧ s.reports t d x st 0 0)) ∧
    (byteAt x.bytes 8 = 1 → s.reg SEC_STATUS_load_state = 1 → s.sec.data.length = bTotal s.sec.data →
      Yields (.bundleFinish d) s (fun t => t.sec.data = [] ∧ match s.lastChecks s.sec.data with
        | none => t.reg HUB_STATUS_ready = 1 ∧ t.reg SEC_STATUS_load_state = 3 ∧ t.sys.phase = 8 ∧ t.sec.fw = s.sec.fw ∧
            (∀ i, i < 8 → t.reg (HUB_BITID_BUNDLE_digest i) = leAt (sha3 (s.sec.data.take (bSigOff s.sec.data))) (8 * i) 8) ∧
            (∀ i : Ring, t.reg (RING_SQ_STATE_held i) = 0) ∧ ∃ tag, s.reports t d x 0 (bSvn s.sec.data) tag
        | some k => t.reg HUB_STATUS_ready = s.reg HUB_STATUS_ready ∧ t.reg SEC_STATUS_load_state = 0 ∧ t.sec.fw = [] ∧ t.hw = s.hw ∧
            s.reports t d x stAuthFail k 0)) ∧
    (byteAt x.bytes 8 = 2 → s.reg SEC_STATUS_load_state = 3 → Yields (.commitSvn d) s (fun t =>
      t.hw = { s.hw with svn := max s.hw.svn (s.reg SEC_BUNDLE_INFO_svn) } ∧ s.reports t d x 0 (max s.hw.svn (s.reg SEC_BUNDLE_INFO_svn)) 0)) ∧
    (byteAt x.bytes 8 = 3 → s.reg SEC_STATUS_load_state < 2 → Yields (.bundleAbort d) s (fun t => t.sec.data = [] ∧
      t.reg SEC_STATUS_load_state = 0 ∧ t.reg SEC_BUNDLE_INFO_received = 0 ∧ t.hw = s.hw ∧ s.reports t d x 0 0 0))

/-- The SPDM requests answer in turn, signatures cover the exchange, a session is sealed, and an erased identity signs
nothing. With the link up: GET_VERSION answers version 1.3 and starts anew; each later request is answered once the
requester has come as far as it needs, with the content R393 to R395 give: the algorithms of R394 as far as they are
offered, the chain of root, intermediate and device certificate, the measurements with a nonce of the device.
CHALLENGE, signed measurements and KEY_EXCHANGE carry a signature of the identity key over the exchange so far; once a
grant of level 2 has erased that key they answer ERROR Unspecified. KEY_EXCHANGE with secp384r1 and AES-256-GCM
selected makes a session, which FINISH with the right check value completes and with a wrong one ends; within it
HEARTBEAT, KEY_UPDATE, VENDOR_DEFINED_REQUEST and END_SESSION are answered under the session's keys. The bytes of the
messages, the transcript and the 8,000-byte chunks are the model's choice (log entry 46). (R393, R394, R395, R399) -/
def Obligations.SpdmRequestsAnswered : Prop :=
  ∀ (s : State) (p : Spdm), s.live = true → s.sys.cxlUp = true → p = s.sec.spdm →
    Yields .getVersion s (fun t => t.out = s.out ++ [.spdm [0x10, 0x04, 0, 0, 0, 1, 0x00, 0x13]] ∧ t.regs = s.regs ∧
      t.sec.spdm = { stage := 1, vca := [0x10, 0x84, 0, 0] ++ [0x10, 0x04, 0, 0, 0, 1, 0x00, 0x13] }) ∧
    (1 ≤ p.stage → Yields .getCapabilities s (fun t => t.sec.spdm.stage = max 2 p.stage ∧ t.out.length = s.out.length + 1 ∧ t.regs = s.regs)) ∧
    (2 ≤ p.stage → ∀ (hashes : List Nat) (offer : AlgOffer),
      (hashes.contains 0x29 = true → offer.asyms.contains 1 = true → Yields (.negotiateAlgorithms hashes offer) s (fun t => t.sec.spdm.stage = 3 ∧
        t.sec.spdm.keyEx = (offer.dhes.contains 4 && offer.aeads.contains 1) ∧
        t.out = s.out ++ [.spdm (spdmMsg 0x63 0 0 (leBytes 2 0x29 ++ leBytes 4 s.hw.pen ++ leBytes 2 1 ++
          leBytes 2 (if offer.dhes.contains 4 then 0x10 else 0) ++ leBytes 2 (if offer.aeads.contains 1 then 2 else 0)))])) ∧
      (hashes.contains 0x29 = false ∨ offer.asyms.contains 1 = false → Yields (.negotiateAlgorithms hashes offer) s (fun t =>
        t.sec.spdm.stage = p.stage ∧ t.sec.spdm.keyEx = p.keyEx))) ∧
    (3 ≤ p.stage →
      Yields .getDigests s (fun t => t.out = s.out ++ [.spdm (spdmMsg 0x01 1 1 (sha3 s.certChain))]) ∧
      (∀ off len, off < s.certChain.length → Yields (.getCertificate 0 off len) s (fun t => s.answers t (spdmMsg 0x02 0 0
        (leBytes 2 (slice s.certChain off len).length ++ leBytes 2 (s.certChain.length - off - (slice s.certChain off len).length) ++ slice s.certChain off len)) ∧
        s.certChain.drop 68 = s.hw.certRoot ++ s.hw.certInter ++ Config.deviceCert (Config.mldsaPub s.identitySeed) (hexText s.hw.serial))) ∧
      (∀ nonce rsp : Bytes, rsp = spdmMsg 0x03 0 1 (sha3 s.certChain ++ (s.drawBytes 32).1 ++ leBytes 2 0) →
        (s.hw.erased = true → Yields (.challenge 0 nonce) s (fun t => s.answersError t 5)) ∧
        (s.hw.erased = false → Yields (.challenge 0 nonce) s (fun t => t.regs = s.regs ∧ s.answers t (rsp ++ Config.mldsaSign s.identitySeed
          (spdmSigned "responder-challenge_auth signing" (p.vca ++ p.certs ++ spdmMsg 0x83 0 0 nonce ++ rsp)) (s.fresh + 1))))) ∧
      (∀ (nonce rsp : Bytes) (i : Nat) (l : List Nat), (i ≤ 5 ∨ i = 0xFF) → l = (if i = 0 then [] else if i = 0xFF then [1, 2, 3, 4, 5] else [i]) →
        rsp = spdmMsg 0x60 (if i = 0 then 5 else 0) 0 (leBytes 1 l.length ++ leBytes 3 (l.flatMap s.measBlock).length ++ l.flatMap s.measBlock ++
          (s.drawBytes 32).1 ++ leBytes 2 0) →
        Yields (.getMeasurements i false nonce) s (fun t => s.answers t rsp ∧ t.sec.spdm.meas = p.meas ++ spdmMsg 0xE0 0 i nonce ++ rsp) ∧
        (s.hw.erased = true → Yields (.getMeasurements i true nonce) s (fun t => s.answersError t 5)) ∧
        (s.hw.erased = false → Yields (.getMeasurements i true nonce) s (fun t => t.sec.spdm.meas = [] ∧ s.answers t (rsp ++ Config.mldsaSign s.identitySeed
          (spdmSigned "responder-measurements signing" (p.vca ++ (p.meas ++ spdmMsg 0xE0 1 i nonce ++ rsp))) (s.fresh + 1))))) ∧
      (∀ pub : Bytes, (p.keyEx = false → Yields (.keyExchange pub) s (fun t => s.answersError t 4)) ∧
        (p.keyEx = true → s.hw.erased = true → Yields (.keyExchange pub) s (fun t => s.answersError t 5)) ∧
        (p.keyEx = true → s.hw.erased = false → Yields (.keyExchange pub) s (fun t => t.sec.spdm.session = some (Config.dhShared s.fresh pub) ∧
          t.sec.spdm.finished = false ∧ t.sec.spdm.sent = 0 ∧ ∃ rsp sig : Bytes, rsp.drop 36 = Config.dhPub s.fresh ∧
            sig = Config.mldsaSign s.identitySeed (spdmSigned "responder-key_exchange_rsp signing" (p.vca ++ sha3 s.certChain ++ spdmMsg 0xE4 0 0 pub ++ rsp))
              (s.fresh + 2) ∧ ∃ mac : Bytes, mac = Config.sessionMac (Config.dhShared s.fresh pub) false
              (sha3 (p.vca ++ sha3 s.certChain ++ spdmMsg 0xE4 0 0 pub ++ rsp ++ sig)) ∧ s.answers t (rsp ++ sig ++ mac)))) ∧
      (∀ k, p.session = some k → p.finished = false →
        Yields (.spdmFinish (s.finishMac k)) s (fun t => t.sec.spdm.finished = true ∧ t.sec.spdm.session = some k ∧
          s.sealed_ t k 0 p.sent (spdmMsg 0x65 0 0 [])) ∧
        (∀ mac, mac ≠ s.finishMac k → Yields (.spdmFinish mac) s (fun t => t.sec.spdm.session = none ∧ t.out = s.out ++ [.spdm [0x13, 0x7F, 1, 0]]))) ∧
      (∀ k, p.session = some k → p.finished = true →
        Yields .heartbeat s (fun t => s.sealed_ t k (1 + p.keys) p.sent (spdmMsg 0x68 0 0 []) ∧ t.sec.spdm = { p with sent := p.sent + 1 }) ∧
        Yields .keyUpdate s (fun t => s.sealed_ t k (1 + (p.keys + 1)) 0 (spdmMsg 0x69 0 0 []) ∧
          t.sec.spdm = { p with keys := p.keys + 1, sent := 1 }) ∧
        Yields .endSession s (fun t => s.sealed_ t k (1 + p.keys) p.sent (spdmMsg 0x6C 0 0 []) ∧ t.sec.spdm.session = none ∧ t.sec.spdm.finished = false) ∧
        ∀ body : Bytes, Yields (.vendorDefinedRequest body) s (fun t => s.sealed_ t k (1 + p.keys) p.sent (spdmMsg 0x7E 0 0 []) ∧
          t.sec.spdm.ide = p.ide ++ [body]))) ∧
    (1 ≤ p.stage → p.large ≠ [] → Yields (.chunkGet p.next) s (fun t => t.out = s.out ++ [.spdm (spdmMsg 0x06 (bit1 (decide (p.large.length ≤ 8000 * (p.next + 1)))) 0
        (leBytes 4 p.next ++ leBytes 4 (slice p.large (8000 * p.next) 8000).length ++ slice p.large (8000 * p.next) 8000))] ∧
      (8000 * (p.next + 1) < p.large.length → t.sec.spdm.next = p.next + 1)))

/-- A request draws a nonce, a right signature grants its level and uses the nonce up, eight wrong ones in a row lock, a
relock ends the grant. Not locked out, a request for level 2, or for level 1 with an owner enrolled, draws a 64-byte
nonce at the present time. A submit of a right signature within 60 s raises the debug level to the nonce's level,
zeroes the fail count, voids the nonce, and at level 2 erases the identity key; a wrong one counts, voids the nonce,
and the eighth in a row locks. A relock voids the nonce and returns to level 0; a nonce 60 s old is void. In each case
the fused keys stay as they are. (R396, R397, R398, R399) -/
def Obligations.NutcrackerGrantsAndLocks : Prop :=
  ∀ s : State, s.live = true →
    (∀ level : Fin 4, s.reg SEC_NC_STATUS_state ≠ 3 → (level.val = 2 ∨ level.val = 1 ∧ s.hw.ownerKey ≠ none) →
      Yields (.ncRequest level) s (fun t => t.sec.nonce.length = 64 ∧ t.sec.ncLevel = level.val ∧ t.sec.nonceAt = s.now ∧
        t.reg SEC_NC_STATUS_state = 1 ∧ t.hw = s.hw)) ∧
    (s.reg SEC_NC_STATUS_state ≠ 3 → s.sec.nonce ≠ [] → s.elapsed s.sec.nonceAt 60000000000 = false →
      s.sec.ncLevel < 4 → s.reg SEC_STATUS_debug_level < 4 → s.reg SEC_NC_STATUS_nc_fail < 8 →
      Yields .ncSubmit s (fun t => t.sec.nonce = [] ∧ t.hw.ownerKey = s.hw.ownerKey ∧ t.hw.vendorDebug = s.hw.vendorDebug ∧ if s.ncValid = true then
          t.reg SEC_NC_STATUS_nc_fail = 0 ∧ t.reg SEC_NC_STATUS_last_status = 0 ∧
            t.reg SEC_STATUS_debug_level = max s.sec.ncLevel (s.reg SEC_STATUS_debug_level) ∧ t.hw.erased = (s.hw.erased || s.sec.ncLevel == 2)
        else t.reg SEC_NC_STATUS_nc_fail = s.reg SEC_NC_STATUS_nc_fail + 1 ∧ t.reg SEC_STATUS_debug_level = s.reg SEC_STATUS_debug_level ∧
          t.reg SEC_NC_STATUS_state = (if s.reg SEC_NC_STATUS_nc_fail = 7 then 3 else 0) ∧ t.hw = s.hw)) ∧
    Yields .ncRelock s (fun t => t.sec.nonce = [] ∧ t.reg SEC_STATUS_debug_level = 0 ∧ t.hw = s.hw) ∧
    (s.sec.nonce ≠ [] → s.elapsed s.sec.nonceAt 60000000000 = true → Yields .nonceExpire s (fun t => t.sec.nonce = [] ∧
      t.reg SEC_STATUS_debug_level = s.reg SEC_STATUS_debug_level ∧ t.hw = s.hw))

/-- No step turns a fuse back: what vendor test wrote stays, the minimum version and the revocations only grow, an
enrolled owner stays. From every state, whatever command a step takes: the digests of the vendor's keys, the serial
number, the device secret, the certificates of the identity store, the ROM's digest, the stepping and the grade are as
before; the fused minimum version has not fallen; a revoked key index is still revoked; and an owner key that was
enrolled is the same one. So it holds of any number of steps, resets among them. (R383, R390, R392) -/
def Obligations.FusesOnlyBlow : Prop :=
  (∀ s t : State, step s = .next t → s.hw.blownInto t.hw) ∧
  (∀ (h : Hw) (n : Nat) (s : State), h.blownInto s.hw → h.blownInto (stepsFrom n s).hw)

/-- A join is begun, repeated, timed out and judged; heartbeats and the end of the copy are taken; leaving ends the
pairing. With firmware running: MIR_JOIN in SOLO, with no device-fatal error, begins to join now; MIR_LEAVE returns to
SOLO with both series of records anew (the model's reading, log entry 49). JOIN_TIMER sends JOIN records while
joining; JOIN_TIMEOUT after 10 ms ends the join with error code 5. A JOIN record of the same pod and the other role,
judged by a role 1 device that joins with no group and the same bundle, makes it the target in SYNC. (The places of
the fields in a JOIN record are the model's choice, log entry 50.) An HB of a PAIRED twin in PAIRED gives the twin's
time offset. SYNC_END at a target that is no source brings PAIRED. (R402, R403, R404, R406) -/
def Obligations.PodsJoinAndPair : Prop :=
  ∀ (s u : State) (m : Mlink) (r : MirIn), s.live = true →
    (s.flag HUB_STATUS_ready = true → s.pod = podSolo → s.sys.fatal = false → Yields .mirJoin s (fun t => t.mir.joinAt = some s.now ∧ t.pod = podSolo ∧
      t.flag MIR_STATUS_self_fenced = false ∧ t.groups = s.groups)) ∧
    (s.flag HUB_STATUS_ready = true → s.mir.waits = [] → s.mir.held = [] → s.mir.ended = [] → Yields .mirLeave s (fun t => t.pod = podSolo ∧ t.mir.txSeq = 0 ∧
      t.mir.unconfirmed = [] ∧ t.mir.rxNext = 0 ∧ t.groups = s.groups)) ∧
    (s.joining = true → exec .joinTimer s = .next s.sendJoin) ∧
    (∀ t0, s.mir.joinAt = some t0 → s.pod = podSolo → s.elapsed t0 10000000 = true → Yields .joinTimeout s (fun t =>
      t.reg MIR_STATUS_join_err_code = 5 ∧ t.mir.joinAt = none ∧ t.flag MIR_INTR_STATUS_join_err_ev = true ∧ t.pod = podSolo)) ∧
    (s.mir.inRecs.find? (fun r => r.kind == 9 && r.link == m.val) = some r → s.joining = true → s.reg MIR_CFG_role = 1 → byteAt r.body 2 ≠ 1 →
      leAt r.body 0 2 = s.reg MIR_CFG_pod_id → s.groups = [] → leAt r.body 4 8 = s.reg (HUB_BITID_BUNDLE_digest 0) →
      Yields (.joinRx m) s (fun t => t.pod = podSync ∧ t.mir.target = true ∧ t.mir.source = false ∧ t.mir.joinAt = none ∧ t.mir.rxNext = 0)) ∧
    (s.mir.inRecs.find? (fun r => r.kind == 1) = some r → s.pod = podPaired → r.state = podPaired →
      Yields .hbRx s (fun t => t.reg MIR_TWIN_OFFSET_offset = (BitVec.ofNat 64 (leAt r.body 0 8) - r.stamp).toNat ∧
        t.mir.inRecs = s.mir.inRecs.erase r ∧ t.pod = podPaired ∧ t.groups = s.groups)) ∧
    (s.nextMir 10 r u → s.pod = podSync → s.mir.target = true → s.mir.source = false →
      Yields .syncEndRx s (fun t => t.pod = podPaired ∧ t.flag MIR_INTR_STATUS_paired_ev = true ∧ t.mir.inRecs = s.mir.inRecs.erase r))

/-- A mirror frame's records are received, and each sequenced record in turn gives this device what its twin tells. A good
heartbeat frame of the pod that retry accepts on an enabled port with light, outside DETACHED and with nothing
unconfirmed, adds its HB record, with its ingress stamp and arrival number; a bad one is counted and gives no record.
In turn and with no update of its own in the way: a GROUP record makes a new group as it says; a MEMBER record writes
the member's flags where their word can be read and notes the eviction; CVEC and HOME records of a group the twin owns
note the contribution, the release or the home mark; the last TABLE record of an apply that stands applies it; a REG
record writes the policer or shaper register; an SBK record gives the twin's ring position. The layouts of the MEMBER,
CVEC, HOME, REG and SBK bodies are the model's choice (log entry 50), and so is the eviction's time, taken as this
device's when it applies the record (log entry 51). (R404, R405, R408, R410) -/
def Obligations.MirrorRecordsApply : Prop :=
  ∀ (s u : State) (r : MirIn),
    (∀ (m : Mlink) (pre b body : Bytes), s.live = true → s.mirEnabled m = true → s.mirLit = true → s.pod ≠ podDetached →
      (((s.mirPort m true).arrival (192 + m)).2.tagIn (192 + m) pre).2.1 = true →
      (parseMir 1 (b.drop 30) = some [(1, body)] → beAt b 16 2 = 0 → beAt b 0 6 = 0x0180C200000E → beAt b 6 6 = 0 → beAt b 12 2 = 0x88B6 →
        b.length + 4 ≤ 9216 → byteAt b 14 = 1 → byteAt b 15 < 16 → beAt b 28 2 = 0 → beAt b 26 2 = s.reg MIR_CFG_pod_id → s.mir.unconfirmed = [] →
        Yields (.mirrorFrameRx m ⟨pre, b⟩ true) s (fun t => t.mir.hbAt = s.now ∧ t.flag (mirUpFld m) = true ∧
          t.reg (MIR_CTR_rx_frames m) = (s.reg (MIR_CTR_rx_frames m) + 1) % 2 ^ 64 ∧
          t.mir.inRecs = s.mir.inRecs ++
            [{ kind := 1, body := body, state := byteAt b 15 % 8, role := byteAt b 15 / 8, pod := beAt b 26 2, link := m,
               stamp := s.planeNow (192 + m), arr := s.clk.arr.get 0 (192 + m) }])) ∧
      Yields (.mirrorFrameRx m ⟨pre, b⟩ false) s (fun t => t.mir = s.mir ∧ t.reg (MIR_CTR_rx_fcs_err m) = (s.reg (MIR_CTR_rx_fcs_err m) + 1) % 2 ^ 64)) ∧
    (s.nextMir 2 r u → s.mir.upds = [] → gValid (r.body.take 64) = true → s.grp (gGid (r.body.take 64)) = none →
      Yields .groupRecordRx s (fun t => t.mir = u.mir ∧ (s.recording = false → t.regs = s.regs) ∧ ∃ y, t.grp (gGid (r.body.take 64)) = some y ∧ y.entry = r.body.take 64 ∧
        y.sfm = bitOf (byteAt r.body 64) 0 ∧ y.base = leAt r.body 66 2 ∧ y.cur = {})) ∧
    (∀ g, s.nextMir 3 r u → s.grp (leAt r.body 0 2) = some g →
      s.partialUe (gList g.entry + 8 * leAt r.body 2 2 + 2) (slice r.body 4 1).length = none → Yields .memberRecordRx s (fun t => t.mir = u.mir ∧
      t.store.mem = Mem.write s.store.mem (gList g.entry + 8 * leAt r.body 2 2 + 2) (slice r.body 4 1) ∧
      ∃ y, t.grp (leAt r.body 0 2) = some y ∧ y.evicted = g.evicted ++ [(leAt r.body 2 2, s.now)])) ∧
    (∀ g, s.nextMir 4 r u → s.grp (leAt r.body 0 2) = some g → gOwn g.entry = false →
      (byteAt r.body 12 = 0 → Yields .cvecRecordRx s (fun t => t.mir = u.mir ∧ ∃ y, t.grp (leAt r.body 0 2) = some y ∧
        y.twinAcked = g.twinAcked ++ [(leAt r.body 2 4, leAt r.body 6 3, byteAt r.body 9, leAt r.body 10 2)])) ∧
      (byteAt r.body 12 ≠ 0 → leAt r.body 6 3 < gChunks g.entry → Yields .cvecRecordRx s (fun t => t.mir = u.mir ∧
        ∃ y, t.grp (leAt r.body 0 2) = some y ∧ y.twinReleased = g.twinReleased ++ [(leAt r.body 2 4, leAt r.body 6 3)]))) ∧
    (∀ g, s.nextMir 5 r u → s.grp (leAt r.body 0 2) = some g → gOwn g.entry = false → Yields .homeRecordRx s (fun t => t.mir = u.mir ∧
      ∃ y, t.grp (leAt r.body 0 2) = some y ∧ (leAt r.body 4 4, leAt r.body 2 2, leAt r.body 8 4) ∈ y.twinHome)) ∧
    (∀ T n recs, s.nextMir 6 r u → s.mir.parts = [] → s.mir.upds = [] → bitOf (byteAt r.body 1) 0 = true →
      recs = splitRecs (recSize (byteAt r.body 0)) ((r.body.drop 8).length / recSize (byteAt r.body 0)) (r.body.drop 8) →
      s.tables.apply (byteAt r.body 0) recs = .ok (T, n) → Yields .tableRecordRx s (fun t => t.tables = T ∧ t.mir.parts = [] ∧ t.groups = s.groups)) ∧
    (s.nextMir 7 r u → byteAt r.body 0 < 24 → mirroredReg (leAt r.body 4 4) = true →
      exec .regRecordRx s = .next (u.writeMirrored (byteAt r.body 0) (leAt r.body 4 4) (leAt r.body 8 8))) ∧
    (s.nextMir 8 r u → exec .sbkRecordRx s = .next { u with mir := { u.mir with twinSbk := (leAt r.body 0 8, leAt r.body 8 8) } })

/-- Heartbeats leave; a silent twin is lost and its groups are taken; a device that cannot speak fences itself; out-of-
band ports follow their links. HB_TX_TIMER in a pod with one mirror port up, free and with room in its retry buffer,
sends one HB there with the device time; SBK_MIRROR_TIMER while recording in PAIRED with room sends one SBK record.
MIRROR_LINK_DOWN of the only UP port in PAIRED detaches. TWIN_HB_TIMEOUT in PAIRED with the twin lost makes a SURVIVOR
that owns every group. ALIVE_IN_SILENT with heartbeats present reports it. SELF_FENCE after half the timeout without
an HB owns nothing and is SOLO. Out of band: the timer sends an HB, one of the twin is taken, its absence is shown, a
port comes up and goes down. MIR_PORT_CFG and MIR_OOB_CFG take their enables; the counter clear, with no count in its
cycle, zeroes every counter of the block and no other register, and waits that go on count from then. (R73, R402,
R406, R412, R413, R426, R429) -/
def Obligations.TwinsLostAndFenced : Prop :=
  ∀ (s : State) (m : Mlink) (v : Nat), s.live = true →
    (s.pod ≠ podSolo → s.mirUp = [m.val] → (s.link (192 + m)).eg.ctlq = [] → (s.link (192 + m)).eg.tx = none → s.retryRoom (192 + m) 64 = true →
      Yields .hbTxTimer s (fun t => t.mir.hbTx = s.now ∧
      t.reg (MIR_CTR_tx_frames m) = (s.reg (MIR_CTR_tx_frames m) + 1) % 2 ^ 64 ∧ t.pod = s.pod ∧ ∃ o, t.out = s.out ++ [o] ∧
        (match o with | .frame q _ b good _ => q == 192 + m.val && good && beAt b 12 2 == 0x88B6 && leAt b 34 8 == s.now.toNat | _ => false) = true)) ∧
    (s.reg SBK_STATUS_state = 1 → s.pod = podPaired → s.mir.held = [] → s.mir.unconfirmed.length < 65536 → Yields .sbkMirrorTimer s (fun t =>
      t.mir.txSeq = (s.mir.txSeq + 1) % 2 ^ 32 ∧ t.mir.unconfirmed.map (·.bytes) = s.mir.unconfirmed.map (·.bytes) ++ [s.sbkRec])) ∧
    (s.mirUp = [m.val] → s.pod = podPaired → Yields (.mirrorLinkDown m) s (fun t => t.reg (mirUpFld m) = 0 ∧ t.pod = podDetached ∧
      t.flag MIR_INTR_STATUS_detach_ev = true)) ∧
    (s.hbMissing = true → s.pod = podPaired → s.twinLost = true → s.mir.inRecs = [] → (∀ e ∈ s.groups, e.2.entry.length = 64) →
      Yields .twinHbTimeout s (fun t => t.pod = podSurvivor ∧ t.reg MIR_TAKEOVER_LOG_valid = 1 ∧ t.flag MIR_INTR_STATUS_takeover_ev = true ∧
        ∀ gid y, t.grp gid = some y → gOwn y.entry = true)) ∧
    (s.flag MIR_CFG_alive_en = true → s.hbMissing = false → Yields .aliveInSilent s (fun t => t.reg MIR_STATUS_alive_in = 0 ∧
      t.flag MIR_INTR_STATUS_alive_ev = true ∧ t.pod = s.pod ∧ t.groups = s.groups)) ∧
    (s.pod ≠ podSolo → s.elapsed s.mir.hbTx (s.reg MIR_HB_CFG_hb_timeout * 500) = true → (∀ e ∈ s.groups, e.2.entry.length = 64) →
      Yields .selfFence s (fun t => t.pod = podSolo ∧ t.flag MIR_STATUS_self_fenced = true ∧ .pin "MIRROR_ALIVE_OUT" false ∈ t.out ∧
        ∀ gid y, t.grp gid = some y → gOwn y.entry = false)) ∧
    (s.flag MIR_CFG_oob_hb_en = true → s.flag MIR_STATUS_self_fenced = false → bitOf (s.reg MIR_OOB_CFG_up) (s.reg MIR_OOB_CFG_active) = true →
      Yields .oobHbTimer s (fun t => ∃ b, t.out = s.out ++ [.oob (s.reg MIR_OOB_CFG_active) b] ∧ beAt b 0 6 = s.reg MIR_OOB_TWIN_MAC_mac % 2 ^ 48)) ∧
    (∀ b : Bytes, s.reg MIR_OOB_CFG_up ≠ 0 → beAt b 0 6 = s.reg MIR_OOB_MAC_mac → beAt b 12 2 = 0x88B6 → byteAt b 14 = 1 → beAt b 16 2 = 0 →
      beAt b 26 2 = s.reg MIR_CFG_pod_id → byteAt b 30 = 1 → byteAt b 15 % 8 ≠ podSurvivor → Yields (.oobHbRx b) s (fun t =>
        t.mir = { s.mir with oobAt := s.now } ∧ t.reg MIR_STATUS_oob_hb = 1 ∧ t.pod = s.pod)) ∧
    (s.oobMissing = true → s.pod = podSolo → exec .oobHbTimeout s = .next (s.setReg MIR_STATUS_oob_hb 0)) ∧
    (bitOf (s.reg MIR_OOB_CFG_en) m = true → Yields (.oobLinkUp m) s (fun t => bitOf (t.reg MIR_OOB_CFG_up) m = true ∧
      (m.val = 0 → t.reg MIR_OOB_CFG_active = 0) ∧ t = { s with regs := t.regs })) ∧
    Yields (.oobLinkLoss m) s (fun t => bitOf (t.reg MIR_OOB_CFG_up) m = false ∧ t = { s with regs := t.regs }) ∧
    (s.flag HUB_STATUS_ready = true →
      Yields (.mirPortCfgWrite v) s (fun t => t.reg MIR_PORT_CFG_m0_en = bits v 0 1 ∧ t.reg MIR_PORT_CFG_m1_en = bits v 1 1) ∧
      Yields (.mirOobCfgWrite v) s (fun t => t.reg MIR_OOB_CFG_en = bits v 0 2 ∧ t.reg MIR_OOB_CFG_fec_en = bits v 2 1 ∧
        t.reg MIR_OOB_CFG_up = (s.reg MIR_OOB_CFG_up &&& bits v 0 2) ∧ t = { s with regs := t.regs }) ∧
      (s.latchNow.counts = [] → Yields .mirCounterClear s (fun t => s.clears t (offIn 0x1400100 0x1400300) (fun _ => false) ∧
        t.roomWait = 0 ∧ (∀ gid, (t.grp gid).map (·.entry) = (s.grp gid).map (·.entry)) ∧
        t = { s with regs := t.regs, mir := { s.mir with held := t.mir.held }, groups := t.groups })))

/-- An ended lease evicts its member once; a rehearsal that is allowed is scheduled, injected and ended. LEASE_EXPIRE of
an active member of an own root group without child devices, with the detector on, the lease run out and the eviction
within its limits, in SOLO with no rehearsal, evicts it: the group takes the next epoch with nothing of its steps
left, the eviction is noted and counted, the lease is gone. A REHEARSE that is not denied is kept and its injection
scheduled for its time. REHEARSE_INJECT when due, outside a replay and not of a chunk, marks it injected now, counts
it and schedules its end; a link drop takes the logical port down, a twin loss fences the device. REHEARSE_END when
due ends it: its descriptor is gone and the held frames wait first; after a twin loss the device joins, unless a
device-fatal error stands. (R415, R416, R418, R419, R423, R424, R425) -/
def Obligations.LeasesAndRehearsals : Prop :=
  ∀ s : State, s.live = true →
    (∀ gid m g t0, s.grp gid = some g → g.entry.length = 64 → gOwn g.entry = true → s.flag MIR_DET_CFG_det_en = true → s.replaying = false →
      s.mir.rehearsal = none → s.pod = podSolo → g.lease.find? m = some t0 → (s.actives g.entry).any (fun x => x.1 == m) = true →
      s.elapsed t0 (s.reg MIR_DET_CFG_lease * 1000) = true → s.detGroup g.entry = true → s.evictRefused g = false →
      Yields (.leaseExpire gid m) s (fun t => t.reg MIR_CTR_evictions = (s.reg MIR_CTR_evictions + 1) % 2 ^ 64 ∧ t.reg MIR_DET_LOG_member = m % 2 ^ 12 ∧
        t.flag MIR_INTR_STATUS_evict_ev = true ∧ ∃ y, t.grp gid = some y ∧ gEpoch y.entry = (gEpoch g.entry + 1) % 2 ^ 16 ∧ y.cur = {} ∧ y.next = {} ∧
          y.evicted = g.evicted ++ [(m, s.now)] ∧ y.lease = g.lease.erase m)) ∧
    (∀ c d k x, (c, k) ∈ [(Instr.rehearseLinkDrop d, 0), (Instr.rehearseMemberStall d, 1), (Instr.rehearseChunkCorrupt d, 2), (Instr.rehearseTwinLoss d, 3)] → s.serves d 9 x → byteAt x.bytes 8 = k → s.rehearseDenied x = false →
      Yields c s (fun t => ∃ r, t.mir.rehearsal = some r ∧ r.d = d ∧ r.kind = k ∧ r.injected = none ∧
        r.at_ = BitVec.ofNat 64 (leAt x.bytes 16 8) ∧ r.duration = leAt x.bytes 24 4 ∧ t.desc d = some { x with started := true } ∧
        ∃ e ∈ t.clk.sched, e.ev = .rehearse ∧ e.at_ = r.at_)) ∧
    (∀ r, s.replaying = false → s.dueEvent .rehearse = true → s.mir.rehearsal = some r → r.kind ≠ 2 → Yields .rehearseInject s (fun t =>
      (t.mir.rehearsal.map (·.injected)) = some (some s.now) ∧ t.reg MIR_CTR_rehearsals = (s.reg MIR_CTR_rehearsals + 1) % 2 ^ 64 ∧
      t.mir.lastInject = some s.now ∧ (∃ e ∈ t.clk.sched, e.ev = .rehearseEnd ∧ e.at_ = s.now + ns (r.duration * 1000)) ∧
      (r.kind = 0 → (s.link r.port).st = .up → (t.link r.port).st = .down ∧ (t.link r.port).lock = false) ∧
      (r.kind = 1 → t.links = s.links ∧ t.groups = s.groups) ∧
      (r.kind = 3 → t.pod = podSolo ∧ t.flag MIR_STATUS_self_fenced = true))) ∧
    (∀ r, s.replaying = false → s.dueEvent .rehearseEnd = true → s.mir.rehearsal = some r →
      (r.kind ≠ 3 → Yields .rehearseEnd s (fun t =>
        t.mir.rehearsal = none ∧ t.desc r.d = none ∧ t.inbox = r.frames ++ s.inbox ∧ t.dueEvent .rehearseEnd = false)) ∧
      (r.kind = 3 → s.pod = podSolo → s.sys.fatal = false → Yields .rehearseEnd s (fun t =>
        t.mir.rehearsal = none ∧ t.desc r.d = none ∧ t.mir.joinAt = some s.now ∧ t.mir.rejoin = true ∧ t.flag MIR_STATUS_self_fenced = false)))

/-- A table word is repaired, a block is taken down, a controller core restarts, a fatal error stops every transmitter and
is logged once. TABLE_WORD_REPAIR from a good master copy is counted and reported as corrected. BLOCK_ERROR of a quiet
port takes it down and keeps it down; of a channel with every context IDLE and no group of its own blocks it; both are
counted and reported as class 3, where no reset of the block was taken in the cycle. Of a corrected error it counts by
kind and reports class 1; of a queue's entry other than the M queue's it faults the head entry with ST_QUEUE_FAULT; a
word of scratch, an accumulator bank, an instruction become uncorrectable. MCP_WATCHDOG, once a bundle runs, with
fewer than two restarts of that core in the last 60 s of device time restarts it; before a bundle runs it does
nothing. DEVICE_FATAL darkens the transmitters, puts the stacks into self-refresh, pulls FAULT_N low, fences the
device from its pod and fills HUB_FATAL_LOG when that is empty; after a thermal trip it does the last alone, and so do
a table word whose master copy is bad and a third restart. The RAS counter clear, with no count in its cycle, zeroes
every counter of the hub and no other register. (R73, R177, R389, R430, R431, R433, R434, R435, R436, R446) -/
def Obligations.ErrorsByClass : Prop :=
  ∀ s : State, (s.live = true →
    Yields (.tableWordRepair false) s (fun t => t.reg HUB_CTR_table_repairs = (s.reg HUB_CTR_table_repairs + 1) % 2 ^ 64 ∧
      t.flag HUB_RAS_STATUS_ce_ev = true ∧ t.tables = s.tables ∧ t.sys = s.sys) ∧
    (∀ p : Port, s.justReset p = false → s.quietPort p → Yields (.blockError (.port p)) s (fun t => (t.port p).blocked = true ∧ t.flag HUB_RAS_STATUS_block_ev = true ∧
      t.reg HUB_CTR_block_errors = (s.reg HUB_CTR_block_errors + 1) % 2 ^ 64 ∧
      (∀ l, l < 8 → (t.link (8 * p + l)).st = if (s.link (8 * p + l)).st = .disabled then LinkSt.disabled else .down) ∧ t.chans = s.chans)) ∧
    (∀ ch : Ch, s.justReset (24 + ch) = false → (∀ j, j < 32 → (s.ctx (32 * ch + j)).st = .idle) → (∀ g ∈ s.groups, gCh g.2.entry ≠ ch.val) →
      Yields (.blockError (.channel ch)) s (fun t => (t.chan ch).blocked = true ∧ t.flag HUB_RAS_STATUS_block_ev = true ∧
        t.reg HUB_CTR_block_errors = (s.reg HUB_CTR_block_errors + 1) % 2 ^ 64 ∧ (∀ c, c ≠ ch.val → t.chan c = s.chan c) ∧ t.links = s.links)) ∧
    (∀ k : Fin 3, Yields (.blockError (.corrected k)) s (fun t => t.flag HUB_RAS_STATUS_ce_ev = true ∧ t.sys = s.sys ∧
      t.reg HUB_CTR_sram_ce = (if k.val = 0 then (s.reg HUB_CTR_sram_ce + 1) % 2 ^ 64 else s.reg HUB_CTR_sram_ce) ∧
      t.reg HUB_CTR_d2d_crc_retries = (if k.val = 1 then (s.reg HUB_CTR_d2d_crc_retries + 1) % 2 ^ 64 else s.reg HUB_CTR_d2d_crc_retries) ∧
      t.reg HUB_CTR_cxl_ce = (if k.val = 2 then (s.reg HUB_CTR_cxl_ce + 1) % 2 ^ 64 else s.reg HUB_CTR_cxl_ce))) ∧
    (∀ (cx : Cx) (q : Fin 5) e rest, 0 < q.val → (s.ctx cx).queue q = e :: rest → (s.ctx cx).running = true → isEngine (iOp e.word) = true →
      (s.ctx cx).fault = none → Yields (.blockError (.entry cx q)) s (fun t => (t.ctx cx).st = .drain ∧ (t.ctx cx).queue q = [] ∧
        (t.ctx cx).fault = some { status := stQueueFault, unit := q, instr := e.pc, rep := e.i, seq := s.seqNow (chOf cx) (coreOf cx) } ∧
        (∀ c, c ≠ cx.val → t.ctx c = s.ctx c))) ∧
    (∀ (ch : Ch) (w : Nat), w < 0x300000 → Yields (.blockError (.scratch ch w)) s (fun t => (t.chan ch).scratchUe.contains w = true ∧
      t = { s with chans := t.chans })) ∧
    (∀ (ch : Ch) (tile : Fin 256) (bank : Fin 4), Yields (.blockError (.bank ch tile bank)) s (fun t =>
      (t.chan ch).bankUe.contains (4 * tile.val + bank.val) = true ∧ t = { s with chans := t.chans })) ∧
    (∀ (cx : Cx) (n : Nat), n < (s.ctx cx).prog.length → Yields (.blockError (.instruction cx n)) s (fun t =>
      (t.ctx cx).progUe.contains n = true ∧ (t.ctx cx).prog = (s.ctx cx).prog ∧ t = { s with ctxs := t.ctxs })) ∧
    (∀ core : Fin 4, s.flag HUB_STATUS_ready = false → exec (.mcpWatchdog core) s = .next s) ∧
    (∀ core : Fin 4, s.flag HUB_STATUS_ready = true → s.sys.fatal = false →
      (s.sys.mcpRestarts.filter (fun r => r.1 == core.val && !s.elapsed r.2 60000000000)).length < 2 →
      Yields (.mcpWatchdog core) s (fun t => t.reg HUB_CTR_mcp_restarts = (s.reg HUB_CTR_mcp_restarts + 1) % 2 ^ 64 ∧
        t.flag HUB_RAS_STATUS_mcp_restart_ev = true ∧ t.sys = { s.sys with mcpRestarts := (core.val, s.now) :: s.sys.mcpRestarts })) ∧
    (∀ unit cause index : Nat, s.sys.fatal = false → s.flag HUB_FATAL_LOG_valid = false →
      Yields (.deviceFatal unit cause index) s (fun t => t.sys.fatal = true ∧ t.sys.txDark = true ∧ t.sys.selfRefresh = true ∧
        .pin "FAULT_N" false ∈ t.out ∧ t.flag HUB_RAS_STATUS_fatal_ev = true ∧ t.pod = podSolo ∧ t.flag MIR_STATUS_self_fenced = true ∧
        t.reg HUB_FATAL_LOG_class = 4 ∧ t.reg HUB_FATAL_LOG_unit = unit % 2 ^ 8 ∧ t.reg HUB_FATAL_LOG_cause = cause % 2 ^ 8 ∧
        t.reg HUB_FATAL_LOG_valid = 1 ∧ t.reg HUB_FATAL_STAMP_stamp = s.now.toNat)) ∧
    (s.latchNow.counts = [] → Yields .rasCounterClear s (fun t => 
      s.clears t (fun a => offIn 0x700 0x740 a || offIn 0x808 0x810 a) (fun _ => false) ∧ t = { s with regs := t.regs }))) ∧
    (∀ (unit cause index : Nat) (c : Instr), s.sys.power = .tripped → s.flag HUB_FATAL_LOG_valid = false →
      (c = .deviceFatal unit cause index ∨ (c = .tableWordRepair true ∧ unit = 32 ∧ cause = 2 ∧ index = 0) ∨
        (∃ core : Fin 4, c = .mcpWatchdog core ∧ unit = 32 ∧ cause = 10 ∧ index = core.val ∧ s.flag HUB_STATUS_ready = true ∧ s.sys.fatal = false ∧
          2 ≤ (s.sys.mcpRestarts.filter (fun r => r.1 == core.val && !s.elapsed r.2 60000000000)).length)) → Yields c s (fun t =>
      t.sys = s.sys ∧ t.out = s.out ∧ t.links = s.links ∧ t.reg HUB_FATAL_LOG_unit = unit % 2 ^ 8 ∧ t.reg HUB_FATAL_LOG_cause = cause % 2 ^ 8 ∧
        t.reg HUB_FATAL_LOG_valid = 1 ∧ t.reg HUB_FATAL_STAMP_stamp = s.now.toNat))

/-- The resets hold the device with what they keep, a held device is released, and bring-up goes through its phases to
AWAIT. COLD_RESET and RESET_N falling hold the device, and AON_POWER_UP leaves it without VDD_HD (R454); each leaves
it not ready and not fatal, shows which reset it was, and keeps the waiting commands and the fuses' keys; the first
two empty the store, RESET_N keeps its bytes (with no bundle under way). RESET_END of a held device starts bring-up. A
CXL warm reset, and HUB_RESET_CTRL with its key, do the same and start bring-up at once; with another key nothing
happens. Phases 1 to 3 lead on; phase 5 leads on to the store's initialisation when cold, else to AWAIT; phase 6
clears the store and leads to AWAIT. A failed phase 2 is fatal. (R438, R439, R440, R441, R442, R443, R454) -/
def Obligations.ResetsAndBringUp : Prop :=
  ∀ s : State,
    Yields .aonPowerUp s (fun t => t.sys.power = .down ∧ t.reg HUB_STATUS_ready = 0 ∧ t.reg HUB_RESET_STATUS_last = 0 ∧ t.store = {} ∧
      t.sys.fatal = false ∧ t.hw.erased = false ∧ t.hw.vendorRoot = s.hw.vendorRoot ∧ t.hw.ownerKey = s.hw.ownerKey ∧ t.pending = s.pending ∧
      t.reg HUB_FATAL_LOG_valid = 0) ∧
    Yields .coldReset s (fun t => t.sys.power = .held ∧ t.reg HUB_STATUS_ready = 0 ∧ t.reg HUB_RESET_STATUS_last = 1 ∧ t.store = {} ∧
      t.sys.fatal = false ∧ t.hw.erased = s.hw.erased ∧ t.hw.ownerKey = s.hw.ownerKey ∧ t.pending = s.pending ∧ t.groups = [] ∧ t.frames = []) ∧
    ((s.sys.power = .run ∨ s.sys.power = .tripped) → s.reg SEC_STATUS_load_state ≠ 1 → s.reg SEC_STATUS_load_state ≠ 2 →
      Yields (.warmReset .resetN) s (fun t => t.sys.power = .held ∧ t.reg HUB_STATUS_ready = 0 ∧ t.reg HUB_RESET_STATUS_last = 2 ∧
        t.store.mem = s.store.mem ∧ t.store.bufs = [] ∧ t.groups = [] ∧ t.ctxs = [] ∧ t.pending = s.pending)) ∧
    (s.live = true → s.reg SEC_STATUS_load_state ≠ 1 → s.reg SEC_STATUS_load_state ≠ 2 →
      Yields (.warmReset .cxl) s (fun t => t.live = true ∧ t.sys.phase = 1 ∧ t.reg HUB_RESET_STATUS_last = 3 ∧ t.store.mem = s.store.mem ∧ t.groups = []) ∧
      (∀ key, key % 256 = 0xC3 → Yields (.warmReset (.ctrl key)) s (fun t => t.live = true ∧ t.sys.phase = 1 ∧ t.reg HUB_RESET_STATUS_last = 4 ∧
        t.store.mem = s.store.mem)) ∧
      (∀ key, key % 256 ≠ 0xC3 → exec (.warmReset (.ctrl key)) s = .next s)) ∧
    (s.sys.power = .held → Yields .resetEnd s (fun t => t.live = true ∧ t.sys.phase = 1 ∧ t.sys.endCyc = s.clk.cyc ∧ t.regs = s.regs)) ∧
    (s.live = true →
      (∀ n, 1 ≤ n → n ≤ 3 → s.sys.phase = n → exec (.bringupPhaseComplete .done) s = .next { s with sys := { s.sys with phase := n + 1 } }) ∧
      (s.sys.phase = 4 → Yields (.bringupPhaseComplete .done) s (fun t => t.sys.phase = 5 ∧ ∀ c, c < 8 →
        t.reg (HUB_CAPS_PRESENT_ch (c / 4) (c % 4)) = if s.hw.grade = 0 then 0xFFFF else 0xFF)) ∧
      (s.sys.phase = 5 → Yields (.bringupPhaseComplete .done) s (fun t => t.sys.phase = (if s.sys.cold then 6 else 7) ∧ t.sys.selfRefresh = false ∧
        t.store = s.store)) ∧
      (s.sys.phase = 6 → Yields (.bringupPhaseComplete .done) s (fun t => t.sys.phase = 7 ∧ t.store.mem = [] ∧ t.store.ue = [] ∧
        t.reg HUB_BOOT_TIME_await_ms = min 65535 ((s.clk.cyc - s.sys.endCyc) / 1000000))) ∧
      (s.sys.phase = 2 → Yields (.bringupPhaseComplete .fail) s (fun t => t.sys.fatal = true ∧ t.sys.phase = 0)))

/-- What a function, port and channel reset leaves, how long the last two are in progress, and when they are refused. FLR
leaves no descriptor and no running context, every register of the rings and of the MSI-X table as at reset, and no
nonce. PORT_RESET with nothing received or queued leaves every logical port of the port DISABLED, every register of
its block as at reset but for the state of its laser, and no other port's links changed. CHANNEL_RESET of a channel
that no group names leaves its contexts IDLE and its block as at reset, register by register, but for the spare
status; one that a group names is refused and shown, with nothing else changed. A reset that is taken is shown as
busy, and its end is due within 10 µs for a port and 50 µs for a channel; until then a port or channel reset is
refused and shown, with nothing else changed. That the effect of a reset comes at once, and that the spare status
stays, is the model's reading (log entry 53). (R10, R398, R439, R441) -/
def Obligations.PartialResets : Prop :=
  ∀ s : State, s.live = true →
    Yields .flr s (fun t => t.host.descs = [] ∧ t.host.sqs = [] ∧ (∀ c, c < 256 → (t.ctx c).st = .idle) ∧ t.sec.nonce = [] ∧
      ∀ f : Fld, f.lo < 64 → offIn 0x300000 0x400000 f.off = true ∨ offIn 0x8000 0x9008 f.off = true → t.reg f = f.rst) ∧
    (∀ (p : Port) (o : Nat), o = 0x400000 + 0x20000 * p → s.flag HUB_RESET_STATUS_busy = false → s.quietPort p →
      (∀ l, l < 8 → (s.link (8 * p + l)).rx = none) → Yields (.portReset p) s (fun t =>
      (∀ l, l < 8 → t.link (8 * p + l) = {}) ∧ (t.port p).blocked = false ∧ t.sec.nonce = [] ∧
      (∀ f : Fld, f.lo < 64 → offIn o (o + 0x20000) f.off = true → f.off ≠ (PORT_STATUS_laser_ok p).off → t.reg f = f.rst) ∧
      t.reg (PORT_STATUS_laser_ok p) = bit1 (!s.hw.dark.contains (p / 3)) ∧
      (∀ src, src / 8 ≠ p.val → t.link src = s.link src) ∧ t.flag HUB_RESET_STATUS_busy = true ∧
      ∃ n, n ≤ 10000 ∧ ∃ e ∈ t.clk.sched, e.ev = .resetDone ∧ e.at_ = s.now + ns n)) ∧
    (∀ (ch : Ch) (o : Nat), o = 0x800000 + 0x100000 * ch → s.flag HUB_RESET_STATUS_busy = false → (∀ g ∈ s.groups, gCh g.2.entry ≠ ch.val) →
      Yields (.channelReset ch) s (fun t => t.chan ch = {} ∧ (∀ j, j < 32 → t.ctx (32 * ch + j) = {}) ∧ t.sec.nonce = [] ∧
      (∀ f : Fld, f.lo < 64 → offIn o (o + 0x100000) f.off = true → (∀ g : Fin 16, f.key ≠ (CH_SPARE_STATUS_group ch g).key) → t.reg f = f.rst) ∧
      (∀ g : Fin 16, t.reg (CH_SPARE_STATUS_group ch g) = s.reg (CH_SPARE_STATUS_group ch g) % 2 ^ 2) ∧ t.groups = s.groups ∧ t.flag HUB_RESET_STATUS_busy = true ∧
      ∃ n, n ≤ 50000 ∧ ∃ e ∈ t.clk.sched, e.ev = .resetDone ∧ e.at_ = s.now + ns n)) ∧
    (∀ ch : Ch, (∃ g ∈ s.groups, gCh g.2.entry = ch.val) → exec (.channelReset ch) s = .next (s.setW1c HUB_RESET_STATUS_refused 1)) ∧
    (∀ (p : Port) (ch : Ch), s.flag HUB_RESET_STATUS_busy = true → exec (.portReset p) s = .next (s.setW1c HUB_RESET_STATUS_refused 1) ∧
      exec (.channelReset ch) s = .next (s.setW1c HUB_RESET_STATUS_refused 1))

/-- PWRGOOD falling stops the clocks; laser modules come and go; the sideband and JTAG answer at their address. PWRGOOD
falling stops every clock, darkens the transmitters, resets the laser modules, and leaves nothing but the fuses and
the registers that AON keeps. A laser module that is put in is present, held in reset, and due to run in 100 ms; one
that is taken out of a tile that was dark already is absent, and not due to run any more. A sideband read at the
device's address answers the register of the sideband's list, with PWRGOOD low all ones but for what AON keeps; at
another address nothing answers. JTAG answers the IDCODE of the stepping while the rails are up. (R451, R452, R454,
R458, R459) -/
def Obligations.BoardSignals : Prop :=
  ∀ s : State,
    Yields .pwrgoodFall s (fun t => t.live = false ∧ t.sys.power = .down ∧ t.sys.txDark = true ∧ t.store = {} ∧ t.groups = [] ∧
      t.ctxs = [] ∧ t.chans = [] ∧ t.frames = [] ∧ t.sec = {} ∧ t.hw.ownerKey = s.hw.ownerKey ∧ t.hw.erased = s.hw.erased ∧
      t.out = s.out ++ [.pin "LS_RST_N" false, .pin "MIRROR_ALIVE_OUT" false] ∧ t.reg HUB_STATUS_ready = 0 ∧
      ((s.regs.map Prod.fst).Nodup → ∀ f : Fld, f.lo < 64 → aonOffsets.contains f.off = true → s.regs.find? f.key ≠ none → t.reg f = s.reg f)) ∧
    (∀ k : Tile, s.live = true → s.sys.lasers.contains k.val = false → Yields (.laserModuleInserted k) s (fun t => t.sys.lasers.contains k.val = true ∧
      bitOf (t.reg HUB_BOARD_STATUS_ls_run) k = false ∧ t.out = s.out ∧
      ∃ e ∈ t.clk.sched, e.ev = .laserRun k ∧ e.at_ = s.now + ns 100000000)) ∧
    (∀ k : Tile, s.live = true → k.val ≠ 8 → s.hw.dark.contains k.val = true → Yields (.laserModuleRemoved k false) s (fun t =>
      t.sys.lasers.contains k.val = false ∧ (∀ e ∈ t.clk.sched, e.ev ≠ .laserRun k) ∧ t.hw = s.hw ∧ t.links = s.links)) ∧
    (∀ off, sidebandOffsets.contains off = true → s.sys.power = .run → ∀ d, regAt regTable off = some d →
      exec (.sidebandRead (if s.hw.sbAddr then 0x4B else 0x4A) 1 off) s = .next (s.emit (.sideband (leBytes 8 (s.readReg off d.width))))) ∧
    (∀ off, aonOffsets.contains off = false → s.sys.power = .down →
      exec (.sidebandRead (if s.hw.sbAddr then 0x4B else 0x4A) 1 off) s = .next (s.emit (.sideband (leBytes 8 (2 ^ 64 - 1))))) ∧
    (∀ addr cmd off, addr ≠ (if s.hw.sbAddr then 0x4B else 0x4A) → exec (.sidebandRead addr cmd off) s = .next s) ∧
    (s.sys.power ≠ .down → Yields .jtagIdcode s (fun t => ∃ w, t.out = s.out ++ [.jtag w] ∧ w % 2 = 1 ∧ w / 2 ^ 12 % 2 ^ 16 = 0xF024 ∧
      w / 2 ^ 28 = (if s.hw.stepping = 0xB0 then 2 else 1)))

/-- A write of the wrong width or to a closed block does nothing; a plain register takes its fields by their access; the
others act as their rows. A write at no register, of another width than the register's, or before a bundle runs to a
block that R444 closes, changes nothing. A plain register of an open block takes what its fields' access codes say, an
RO field holding and a W1C field losing the bits written 1 that hardware does not set in the cycle, and nothing else
changes. The MSI-X table takes an entry's address whole or by halves, its data and its mask. A ring's BASE while its
ring is enabled, MIR_CFG outside SOLO and a pool's count with the store enabled hold. The registers that do more act
as the row of their own: rings, PWR_LIMIT, PWR_PHASE, PORT_CFG, PORT_FC_CFG, PORT_CLASS_CFG, TIME_SRC_CFG, TIME_RATE,
CH_CORE_CFG, STORE_CTRL, seeds, the mirror's control, HUB_RESET_CTRL, the counter clears. (R7, R8, R9, R360, R362,
R378, R444) -/
def Obligations.RegisterWritesReachTheirBlock : Prop :=
  ∀ (s : State) (off width v : Nat), s.live = true →
    (regAt regTable off = none → inMsix off = false → exec (.registerWrite off width v) s = .next s) ∧
    (∀ d, regAt regTable off = some d →
      (d.width ≠ width → inMsix off = false → exec (.registerWrite off width v) s = .next s) ∧
      (s.flag HUB_STATUS_ready = false → openEarly off = false → exec (.registerWrite off width v) s = .next s) ∧
      ((s.flag HUB_STATUS_ready = true ∨ openEarly off = true) → d.width = width → plainReg off = true → exec (.registerWrite off width v) s =
        .next { s with regs := writeFields (fun f => s.latchNow.bits.get 0 f.key) s.regs off (v % 2 ^ width) d })) ∧
    (∀ (k : Fin 64) (o : Nat), o = 0x8000 + 16 * k → v < 2 ^ 64 →
      exec (.registerWrite o 64 v) s = .next (s.setReg (HUB_MSIX_ADDR_addr k) v) ∧
      Yields (.registerWrite o 32 v) s (fun t => t = { s with regs := t.regs } ∧
        t.reg (HUB_MSIX_ADDR_addr k) = (s.reg (HUB_MSIX_ADDR_addr k) / 2 ^ 32 * 2 ^ 32 + v % 2 ^ 32) % 2 ^ 64) ∧
      Yields (.registerWrite (o + 4) 32 v) s (fun t => t = { s with regs := t.regs } ∧
        t.reg (HUB_MSIX_ADDR_addr k) = (s.reg (HUB_MSIX_ADDR_addr k) % 2 ^ 32 + v % 2 ^ 32 * 2 ^ 32) % 2 ^ 64) ∧
      exec (.registerWrite (o + 8) 32 v) s = .next (s.setReg (HUB_MSIX_DATA_data k) v) ∧
      (bitOf v 0 = true → exec (.registerWrite (o + 12) 32 v) s = .next (s.setReg (HUB_MSIX_CTRL_mask k) 1))) ∧
    (v < 2 ^ 64 → ∀ i : Ring, s.flag (RING_SQ_CFG_en i) = true → exec (.registerWrite (0x310000 + 0x20 * i) 64 v) s = .next s) ∧
    (v < 2 ^ 32 → ∀ i : Ring,
      exec (.registerWrite (0x310008 + 0x20 * i) 32 v) s = (if bitOf v 0 then exec (.sqEnable i v) s else exec (.sqDisable i v) s) ∧
      exec (.registerWrite (0x320008 + 0x20 * i) 32 v) s = (if bitOf v 0 then exec (.cqEnable i v) s else exec (.cqDisable i v) s)) ∧
    (s.flag HUB_STATUS_ready = true → v < 2 ^ 32 →
      (∀ p : Port, exec (.registerWrite (0x400000 + 0x20000 * p) 32 v) s =
          (if bitOf v 0 then exec (.portEnable p (BitVec.ofNat 2 (v / 2)).toFin) s else exec (.portDisable p (BitVec.ofNat 2 (v / 2)).toFin) s) ∧
        exec (.registerWrite (0x400010 + 0x20000 * p) 32 v) s = exec (.portFcCfgWrite p v) s ∧
        exec (.registerWrite (0x400100 + 0x20000 * p) 32 v) s = exec (.portClassCfgWrite p v) s) ∧
      (∀ ch : Ch, exec (.registerWrite (0x800000 + 0x100000 * ch) 32 v) s = exec (.chCoreCfgWrite ch v) s) ∧
      exec (.registerWrite 0x700004 32 v) s = exec (.timeSrcCfgWrite v) s ∧
      exec (.registerWrite 0x700020 32 v) s = exec (.timeRateWrite v) s ∧
      exec (.registerWrite 0x200054 32 v) s = exec (.pwrPhaseWrite v) s ∧
      exec (.registerWrite 0x1000000 32 v) s = (if bitOf v 0 then exec (.storeEnable (bitOf v 1)) s else exec (.storeDisable (bitOf v 1)) s) ∧
      exec (.registerWrite 0x1000008 32 v) s = exec (.storeRegionCfgWrite v) s ∧
      exec (.registerWrite 0x1500010 32 v) s = exec (.sbkPolicyWrite v) s ∧
      exec (.registerWrite 0x1400018 32 v) s = exec (.mirPortCfgWrite v) s ∧
      exec (.registerWrite 0x1400060 32 v) s = exec (.mirOobCfgWrite v) s) ∧
    (s.flag HUB_STATUS_ready = true → v < 2 ^ 64 →
      exec (.registerWrite 0x200008 64 v) s = exec (.pwrLimitWrite v) s ∧
      (∀ n : Fin 16, exec (.registerWrite (0x1500100 + 8 * n) 64 v) s = exec (.seedWrite n v) s)) ∧
    (s.flag HUB_STATUS_ready = true →
      exec (.registerWrite 0x640 32 1) s = exec .rasCounterClear s ∧ exec (.registerWrite 0x200020 32 1) s = exec .pwrCounterClear s ∧
      exec (.registerWrite 0x300008 32 1) s = exec .ringCounterClear s ∧ exec (.registerWrite 0x100003C 32 1) s = exec .storeCounterClear s ∧
      exec (.registerWrite 0x1400014 32 1) s = exec .mirCounterClear s ∧ exec (.registerWrite 0x160000C 32 1) s = exec .grpCounterClear s ∧
      exec (.registerWrite 0x1400004 32 1) s = exec .mirJoin s ∧ exec (.registerWrite 0x1400004 32 2) s = exec .mirLeave s ∧
      exec (.registerWrite 0x630 32 0xC301) s = exec (.warmReset (.ctrl 0xC3)) s ∧
      (∀ p : Port, exec (.registerWrite (0x400038 + 0x20000 * p) 32 1) s = exec (.portCounterClear p) s ∧
        exec (.registerWrite 0x630 32 (2 ^ 16 + 2 ^ 17 * p)) s = exec (.portReset p) s)) ∧
    (s.flag HUB_STATUS_ready = true → s.pod ≠ podSolo → exec (.registerWrite 0x1400000 32 v) s = .next s) ∧
    (s.flag HUB_STATUS_ready = true → s.flag STORE_CTRL_enable = true → ∀ k : Pool, exec (.registerWrite (0x1010000 + 0x40 * k) 32 v) s = .next s)

/-- Repeat i of mmz sets bank (bank + i) mod 4 to +0 in every tile of gmask. For every mmz entry of at most 65,536 repeats
at the head of the M queue of a running context, at any of its repeats i, once its tiles may start (R171): repeat i
leaves bank (bank + i) mod 4 of every tile of gmask at +0, where gmask and bank are the fields that mma has, and every
other bank of the channel as it was. The entry takes no operand: whatever its operand slots hold, the repeat is
carried out, reads nothing, and changes nothing but the channel, the context and registers. (R193) -/
def Obligations.MmzZeroesItsBank : Prop :=
  ∀ (s : State) (cx : Cx) (e : Entry) (r : List Entry), s.live = true → s.sys.fatal = false → (s.ctx cx).queue 0 = e :: r →
    (s.ctx cx).running = true → iOp e.word = 0x11 → e.i < repeats e.word e.cnt → repeats e.word e.cnt ≤ 65536 →
    s.tilesOpen (chOf cx) (tilesOf (gmaskOf e.word)) = true →
    Yields (.mmz cx) s (fun t =>
      (∀ x ∈ tilesOf (bits e.word 104 16), ∀ i, i < 1024 → (t.bank (chOf cx) x ((bits e.word 120 2 + e.i) % 4)).elems.getD i 0 = 0) ∧
      (∀ x b, b < 4 → (x ∉ tilesOf (bits e.word 104 16) ∨ b ≠ (bits e.word 120 2 + e.i) % 4) → t.bank (chOf cx) x b = s.bank (chOf cx) x b) ∧
      t = { s with chans := t.chans, ctxs := t.ctxs, regs := t.regs, latch := t.latch, out := t.out })

/-- A loop with csel 1 latches all 32 bits of its counter, runs its body that often, and does not see later writes. A
context that issues a loop with csel 1 latches the value n of cM, whatever it is (n above 65,535 too): with n not 0
the loop is entered with n passes left and its body is next, with n = 0 the body is skipped. At the end of a pass (no
inner loop ends there) the body starts again while passes are left, and after the last one the loop is left. A cnt
that writes a counter leaves every loop in progress as it was. (R188) -/
def Obligations.LoopsCountFromACounter : Prop :=
  ∀ (s : State) (cx : Cx) (w : Nat) (k : Ctx), k = { s.ctx cx with st := .run, waits := 0 } →
    (s.issues cx w 1 → bitOf w 10 = true → ∀ n, n = k.reg 1 (bits w 11 3) →
      (n ≠ 0 → Yields (.loop cx) s (fun t => (t.ctx cx).pc = k.pc + 1 ∧
        (t.ctx cx).loops = { reg := bits w 8 2, first := k.pc + 1, last := k.pc + bits w 27 12 + 1, left := n } :: k.loops)) ∧
      (n = 0 → Yields (.loop cx) s (fun t => t.ctx cx = k.goto (k.pc + bits w 27 12 + 2) k.loops.length))) ∧
    (s.issues cx w 3 → bits w 8 2 = 1 → (∀ l r, k.loops = l :: r → k.pc ≠ l.last) → Yields (.cnt cx) s (fun t => (t.ctx cx).loops = k.loops ∧
      (t.ctx cx).pc = k.pc + 1)) ∧
    (∀ l r, k.loops = l :: r → k.pc = l.last → (1 < l.left → k.forward = { k with pc := l.first, loops := { l with left := l.left - 1 } :: r }) ∧
      (l.left ≤ 1 → (∀ o q, r = o :: q → l.last ≠ o.last) → k.forward = { k with pc := l.last + 1, loops := r }))

/-- What mma, cvt, vop and red compute on integer operands in scratch. For the last repeat of an entry whose operands lie
aligned in the scratch window with no uncorrectable word there or in its banks, and whose tiles may start: an INT8 mma
adds to element (r, n) of each tile's bank the sum over k of A[r][k] times that tile's B[k][n], modulo 2^32, and the
cycles its operands were late count in operand_wait_cycles; an INT32 cvt without epilogue writes the banks' elements
row by row across the tiles; vop add and and on INT32 write each lane's sum modulo 2^32 and bitwise and; red sum on
INT32 adds A into D modulo 2^32. Each entry has left its queue. (R192, R194, R195, R196, R232, R234) -/
def Obligations.MatrixAndVectorResults : Prop :=
  ∀ (s : State) (cx : Cx) (e : Entry) (r : List Entry) (a b d : Nat), (s.chan (chOf cx)).scratchUe = [] →
    (∀ ts waited, ts = tilesOf (gmaskOf e.word) → s.tilesOpen (chOf cx) ts = true → s.bankBad (chOf cx) (bankOf e.word) ts = false → s.lastRepeat cx 0 0x10 e r → iFa e.word = 0xC → iFd e.word = 0xC → bits e.word 122 3 = 0 →
      s.inScratch cx e.word (slotA e.word) e.a e.xa e.i 1024 a → s.inScratch cx e.word (slotB e.word) e.b e.xb e.i (1024 * ts.length) b →
      s.kindClash (chOf cx) (bankOf e.word) 2 ts = false →
      Yields (.mma ⟨cx, waited⟩) s (fun t => t.reg (CH_CTR_operand_wait_cycles (chOf cx)) =
          (s.reg (CH_CTR_operand_wait_cycles (chOf cx)) + waited * (ts.length / 16)) % 2 ^ 64 ∧ ((t.ctx cx).queue 0).map (·.word) = r.map (·.word) ∧ ∀ j m n, j < ts.length → m < 32 → n < 32 →
        (t.bank (chOf cx) (ts.getD j 0) (bankOf e.word)).vals.getD (32 * m + n) 0 =
          unsigned 32 (signed 32 ((s.bank (chOf cx) (ts.getD j 0) (bankOf e.word)).elems.getD (32 * m + n) 0) +
            ((List.range 32).map (fun k => signed 8 (byteAt (s.scr cx a 1024) (32 * m + k)) *
              signed 8 (byteAt (s.scr cx b (1024 * ts.length)) (1024 * j + 32 * k + n)))).sum))) ∧
    (∀ ts n, ts = tilesOf (gmaskOf e.word) → n = ts.length → s.tilesOpen (chOf cx) ts = true →
      s.bankBad (chOf cx) ((bankOf e.word + e.i) % 4) ts = false → s.lastRepeat cx 0 0x12 e r → iFa e.word = 0xA → iFd e.word = 0xA → bits e.word 122 5 = 0 →
      s.inScratch cx e.word (slotD e.word) e.d e.xd e.i (4096 * n) d → s.kindClash (chOf cx) ((bankOf e.word + e.i) % 4) 2 ts = false →
      Yields (.cvt cx) s (fun t => ((t.ctx cx).queue 0).map (·.word) = r.map (·.word) ∧ ∀ j m c, j < n → m < 32 → c < 32 →
        leAt (t.scr cx d (4096 * n)) (4 * (32 * n * m + 32 * j + c)) 4 =
          (s.bank (chOf cx) (ts.getD j 0) ((bankOf e.word + e.i) % 4)).elems.getD (32 * m + c) 0 % 2 ^ 32)) ∧
    (∀ op, op = bits e.word 104 5 → op = 0 ∨ op = 13 → s.lastRepeat cx 1 0x20 e r → iFa e.word = 0xA → iFd e.word = 0xA →
      s.inScratch cx e.word (slotA e.word) e.a e.xa e.i 2048 a → s.inScratch cx e.word (slotB e.word) e.b e.xb e.i 2048 b →
      s.inScratch cx e.word (slotD e.word) e.d e.xd e.i 2048 d →
      Yields (.vop cx) s (fun t => ((t.ctx cx).queue 1).map (·.word) = r.map (·.word) ∧ ∀ i, i < 512 → leAt (t.scr cx d 2048) (4 * i) 4 =
        (if op = 0 then (leAt (s.scr cx a 2048) (4 * i) 4 + leAt (s.scr cx b 2048) (4 * i) 4) % 2 ^ 32
         else leAt (s.scr cx a 2048) (4 * i) 4 &&& leAt (s.scr cx b 2048) (4 * i) 4))) ∧
    (s.lastRepeat cx 1 0x21 e r → iFa e.word = 0xA → bits e.word 104 7 = 0 →
      s.inScratch cx e.word (slotA e.word) e.a e.xa e.i 256 a → s.inScratch cx e.word (slotD e.word) e.d e.xd e.i 256 d →
      Yields (.red cx) s (fun t => ((t.ctx cx).queue 1).map (·.word) = r.map (·.word) ∧ ∀ i, i < 64 → leAt (t.scr cx d 256) (4 * i) 4 =
        (leAt (s.scr cx d 256) (4 * i) 4 + leAt (s.scr cx a 256) (4 * i) 4) % 2 ^ 32))

/-- What tpk, flt, hst, gat, sct, psend and precv leave. For the last repeat of an entry with operands aligned in the
scratch window: tpk with k = 1 records the lowest index of a largest value; a one-repeat flt (u32, lt) writes the
surviving records in order and their count; hst without slots adds to each counter its bin's records; gat and sct copy
from and to the place that the index names; psend sends the header bytes followed by the body, as one frame of its
class; a holding precv writes the record of the oldest frame, holds its buffer and names it in its registers. (R198,
R199, R200, R202, R204, R205) -/
def Obligations.SortFilterAndMoverResults : Prop :=
  ∀ (s : State) (cx : Cx) (e : Entry) (r : List Entry) (a b d : Nat), (s.chan (chOf cx)).scratchUe = [] →
    (∀ n v, n = bits e.word 107 12 + 1 → s.lastRepeat cx 2 0x31 e r → iFa e.word = 1 → bits e.word 104 3 = 0 → bitOf e.word 119 = false →
      s.inScratch cx e.word (slotA e.word) e.a e.xa e.i (4 * n) a → s.inScratch cx e.word (slotD e.word) e.d e.xd e.i 8 d →
      v = (fun i => decodeVal 1 (leAt (s.scr cx a (4 * n)) (4 * i) 4)) →
      Yields (.tpk cx) s (fun t => leAt (t.scr cx d 8) 4 4 = e.i ∧ ∃ i, leAt (t.scr cx d 8) 0 4 = i ∧ i < n ∧
        (∀ j, j < n → ranksAbove (v j) (v i) = false) ∧ ∀ j, j < i → ranksAbove (v i) (v j) = true)) ∧
    (∀ n out, n = 2 ^ bits e.word 116 4 → s.lastRepeat cx 2 0x32 e r → e.i = 0 → e.acc = 0 → bits e.word 104 3 = 2 → bits e.word 107 2 = 0 →
      s.inScratch cx e.word (slotA e.word) e.a e.xa e.i (8 * n) a → s.inScratch cx e.word (slotD e.word) e.d e.xd e.i (8 * n) d →
      out = (records n (s.scr cx a (8 * n))).filter (fun x => decide (leAt x 0 4 < e.m1)) →
      Yields (.flt cx) s (fun t => t.scr cx d (8 * out.length) = out.flatten ∧ (t.ctx cx).reg 1 (bits e.word 113 3) = out.length)) ∧
    (∀ n bins key, n = 2 ^ bits e.word 116 4 → bins = bits e.word 104 12 + 1 → s.lastRepeat cx 2 0x33 e r → bitOf e.word 121 = false →
      s.inScratch cx e.word (slotA e.word) e.a e.xa e.i (8 * n) a → s.inScratch cx e.word (slotD e.word) e.d e.xd e.i (4 * bins) d →
      key = (fun j => leAt (s.scr cx a (8 * n)) (8 * j + 4 * bits e.word 120 1) 4) → (∀ j, j < n → key j < bins) →
      Yields (.hst cx) s (fun t => ∀ q, q < bins → leAt (t.scr cx d (4 * bins)) (4 * q) 4 =
        (leAt (s.scr cx d (4 * bins)) (4 * q) 4 + ((List.range n).filter (fun j => key j == q)).length) % 2 ^ 32)) ∧
    (∀ (n v : Nat) (host : HostData), n = moveLen e.word → bitOf e.word 120 = false → v = leNat (s.scr cx b 4) → v < e.m1 →
      s.inScratch cx e.word (slotB e.word) e.b e.xb e.i 4 b →
      (s.lastRepeat cx 3 0x41 e r → s.inScratch cx e.word (slotA e.word) e.a e.xa v n a → s.inScratch cx e.word (slotD e.word) e.d e.xd e.i n d →
        Yields (.gat cx host) s (fun t => t.scr cx d n = s.scr cx a n)) ∧
      (s.lastRepeat cx 3 0x42 e r → s.inScratch cx e.word (slotA e.word) e.a e.xa e.i n a → s.inScratch cx e.word (slotD e.word) e.d e.xd v n d →
        Yields (.sct cx host) s (fun t => t.scr cx d n = s.scr cx a n))) ∧
    (∀ hl x u, hl = bits e.word 117 6 → s.lastRepeat cx 4 0x50 e r → 60 ≤ hl + e.m1 → hl + e.m1 ≤ 65596 → (bitOf e.word 107 = true → e.m2 < 192) →
      s.inScratch cx e.word (slotA e.word) e.a e.xa e.i hl a → s.inScratch cx e.word (slotB e.word) e.b e.xb e.i e.m1 b →
      s.originate (chOf cx) (ownerOf cx) (s.scr cx a hl ++ s.scr cx b e.m1) (bits e.word 104 3) false (bitOf e.word 116)
        (if bitOf e.word 107 then some e.m2 else none) = (x, u) → x ≠ .refused →
      Yields (.psend cx) s (fun t => ((t.ctx cx).queue 4).map (·.word) = r.map (·.word) ∧ t = { u with chans := t.chans, ctxs := t.ctxs, regs := t.regs, latch := t.latch, out := t.out })) ∧
    (∀ (x : RxItem) (q : List RxItem) (f : Sys2Proof.Machine.Frm), s.lastRepeat cx 4 0x51 e r → bitOf e.word 104 = true → (s.ctx cx).fifo = x :: q → s.frm x.frm = some f →
      s.inScratch cx e.word (slotD e.word) e.d e.xd e.i 32 d → f.len < 2 ^ 32 →
      Yields (.precv cx) s (fun t => (t.ctx cx).fifo = q ∧ (t.ctx cx).held = (s.ctx cx).held ++ [f.unit] ∧ t.store = s.store ∧
        (t.ctx cx).reg 0 (slReg (slotA e.word)) = s.handle f.unit % 2 ^ 48 ∧ leAt (t.scr cx d 32) 0 8 = s.handle f.unit % 2 ^ 64 ∧
        leAt (t.scr cx d 32) 8 8 = f.stamp.toNat ∧ leAt (t.scr cx d 32) 16 4 = f.len ∧ byteAt (t.scr cx d 32) 21 = x.tag % 256 ∧
        byteAt (t.scr cx d 32) 22 = f.cls % 256 ∧ byteAt (t.scr cx d 32) 23 = 2))

/-- The values that reset leaves. The state after power-up waits in bring-up phase 1 with no bundle running, no command
waiting and nothing scheduled; device time is zero and in FREE from source 3; TIME_RATE is zero; every port and
logical port is disabled, every context is IDLE, the store holds no buffer and no frame, no group is valid, every ring
is disabled; the limits and the ramp order of the PMC are those of their register rows. Where the spec gives no value,
the model's choice (log entries under DESIGN CHOICE) is not stated here. (R33, R34, R72, R345, R353, R443) -/
def Obligations.ResetState : Prop :=
  State.reset.live = true ∧ State.reset.sys.phase = 1 ∧ State.reset.sys.fatal = false ∧ State.reset.reg HUB_STATUS_ready = 0 ∧
    State.reset.pending = [] ∧ State.reset.clk.sched = [] ∧ State.reset.now = 0 ∧ State.reset.reg TIME_STATUS_state = 0 ∧
    State.reset.srcActive = 3 ∧ State.reset.regInt TIME_RATE_rate = 0 ∧ State.reset.groups = [] ∧ State.reset.frames = [] ∧
    State.reset.store.bufs = [] ∧ State.reset.store.mem = [] ∧ State.reset.pod = podSolo ∧
    (∀ p : Port, State.reset.reg (PORT_CFG_enable p) = 0) ∧ (∀ src, (State.reset.link src).st = .disabled) ∧
    (∀ cx, (State.reset.ctx cx).st = .idle) ∧ (∀ i : Ring, State.reset.reg (RING_SQ_CFG_en i) = 0 ∧ State.reset.reg (RING_CQ_CFG_en i) = 0) ∧
    State.reset.reg PWR_LIMIT_cap = 1100 ∧ State.reset.reg PWR_LIMIT_exc = 1400 ∧ State.reset.reg PWR_LIMIT_exc_ms = 20 ∧
    (List.range 8).map (fun i => bits (State.reset.reg PWR_PHASE_order) (3 * i) 3) = [0, 4, 2, 6, 1, 5, 3, 7]

/-- ECH headers and the codes of the number formats are read back as they were written. For every ECH header whose fields
fit their widths: reading the 32 bytes that are written of it, whatever follows, gives every field back with a good
CRC; any 32 bytes whose CRC is good are the bytes of the header read from them. In a whole frame (with or without a
VLAN tag, padded to the minimum) the header and the payload are read back, and the frame passes the header checks when
version is 1, the reserved fields are zero, the class fits, the opcode is one for its group and the payload is one to
65,535 words. For every float format (fp64, fp32, tf32, bf16, fp16, e4m3, e5m2, e3m2, e2m3, e2m1), every code of it
whose value is no NaN (zeros of both signs, subnormals, infinities), every rounding mode and every Sesame draw below
2^32, converting the value that the code stands for into the format gives the same code with no flag raised. The same
holds of every code of the integer formats i32, i16, i8 and i4, and of every number of UE8M0. A NaN converts to the
format's canonical NaN. (R208, R210, R211, R223, R224, R265, R266, R267, R268) -/
def Obligations.EncodingsRoundTrip : Prop :=
  (∀ (e : Ech) (rest : Bytes), e.fits → Ech.parse (e.bytes ++ rest) = { e with crcOk := true }) ∧
  (∀ b : Bytes, b.length = 32 → (Ech.parse b).crcOk = true → (Ech.parse b).fits ∧ (Ech.parse b).bytes = b) ∧
  (∀ (e : Ech) (da sa et : Nat) (tag : Option Nat) (payload : Bytes), e.fits → et < 2 ^ 16 → isTpid et = false → et ≠ 0x0800 → et ≠ 0x86DD →
    (∀ x, tag = some x → x < 2 ^ 16) → payload.length % 4 = 0 → payload.length < 4 * 2 ^ 16 →
    echOf (echFrame da sa et tag e payload) = { e with plen := payload.length / 4, crcOk := true } ∧
    echPayload (echFrame da sa et tag e payload) = payload ∧
    (parseFrame (echFrame da sa et tag e payload)).et = et ∧
    (e.version = 1 → e.flagsRsv = 0 → e.fmtRsv = 0 → opcodeKnown e = true → e.cls ≤ (if e.gid = 0 then 0 else 1) → payload ≠ [] →
      echHeaderOk (echFrame da sa et tag e payload) = true)) ∧
  (∀ (f rnd u c : Nat), rnd ≤ 4 → u < 2 ^ 32 →
    (∀ k, fmtOf f = some k → c < 2 ^ k.width → c % 2 ^ k.pad = 0 →
      (∀ q, decodeVal f c = .nan q → convert (decodeVal f c) f rnd u = (k.nanCode, if q then fInv else 0)) ∧
      ((decodeVal f c).isNan = false → convert (decodeVal f c) f rnd u = (c, 0))) ∧
    (∀ w, fmtOf f = none → intWidth f = some w → c < 2 ^ w → convert (decodeVal f c) f rnd u = (c, 0)) ∧
    (f = 14 → c < 255 → convert (decodeVal f c) f rnd u = (c, 0)))

/-- No command ends in a fault or a refusal: from every state the machine goes on for any number of steps. From every
state every command is carried out: exec answers a next state, so that a step goes on whatever waits in the queue, and
n steps go on for every n. That a command whose condition does not hold changes nothing, where the spec says no more,
is the model's form of it (log entry 6). (spec/95_what_each_step_holds.md) -/
def Obligations.EveryCommandIsCarriedOut : Prop :=
  (∀ (c : Instr) (s : State), ∃ t, exec c s = .next t) ∧ ∀ (n : Nat) (s : State), safeFor n s

/-- While a reset is held or the clocks are stopped, every step but a reset's, a trip's, a fatal error's or the board's
leaves the block as it is. A held reset, a thermal trip and PWRGOOD low stop the clocks. As long as no command that
waits is one of the resets', the trip comparators' or the board's, or an error that can be device-fatal (R446: with a
trip, it is logged), every step takes the front command off the queue and changes nothing else, the clocks stay
stopped, and no such command comes to wait. That a stopped block takes the commands and drops them is the model's form
(log entry 7). PWRGOOD falling and RESET_N falling lead into such a state from every state in which the device runs.
(R356, R438, R440, R446, R454) -/
def Obligations.StoppedClocksHoldTheState : Prop :=
  (∀ s t : State, s.stopped → step s = .next t → t.stopped ∧ t = { s with pending := s.pending.drop 1 }) ∧
  (∀ s : State, s.pending.all ordinary = true → Yields .pwrgoodFall s State.stopped ∧ (s.live = true → Yields (.warmReset .resetN) s State.stopped))
end

