-- ==== Sys2Proof/Laws/Tab.lean ====
section
/-! SUPPORT. Laws of sparse tables, of the register file and of byte memories: read after write, and the canonical form. -/

namespace Sys2Proof.Machine

variable {α : Type}

/-! ### Reading a table -/

theorem Tab.find?_none_of_all {m : Tab α} {k : Nat} (h : ∀ e ∈ m, e.1 ≠ k) : Tab.find? m k = none := by
  induction m with
  | nil => rfl
  | cons e r ih =>
    have h1 : k ≠ e.1 := fun x => h e (by simp) x.symm
    simp only [Tab.find?, if_neg h1]
    exact ih (fun x hx => h x (by simp [hx]))

theorem Tab.find?_erase_self (m : Tab α) (k : Nat) : Tab.find? (Tab.erase m k) k = none :=
  Tab.find?_none_of_all (by intro e he; simp [Tab.erase] at he; exact he.2)

theorem Tab.find?_erase_ne (m : Tab α) {k j : Nat} (h : j ≠ k) : Tab.find? (Tab.erase m k) j = Tab.find? m j := by
  induction m with
  | nil => rfl
  | cons e r ih =>
    by_cases hk : e.1 = k
    · have : j ≠ e.1 := by omega
      simp [Tab.erase, hk, Tab.find?, h] at ih ⊢
      simpa [Tab.erase] using ih
    · have hb : (e.1 != k) = true := by simpa using hk
      by_cases hj : j = e.1 <;> simp [Tab.erase, hb, Tab.find?, hj] at ih ⊢
      simpa [Tab.erase] using ih

theorem Tab.find?_place_ne (m : Tab α) {k j : Nat} (v : α) (h : j ≠ k) : Tab.find? (Tab.place m k v) j = Tab.find? m j := by
  induction m with
  | nil => simp [Tab.place, Tab.find?, h]
  | cons e r ih =>
    obtain ⟨k', v'⟩ := e
    by_cases hk : k < k'
    · simp [Tab.place, hk, Tab.find?, h]
    · by_cases hj : j = k' <;> simp [Tab.place, hk, Tab.find?, hj, ih]

theorem Tab.find?_place_self (m : Tab α) (k : Nat) (v : α) (h : ∀ e ∈ m, e.1 ≠ k) : Tab.find? (Tab.place m k v) k = some v := by
  induction m with
  | nil => simp [Tab.place, Tab.find?]
  | cons e r ih =>
    obtain ⟨k', v'⟩ := e
    have h1 : k ≠ k' := fun x => h (k', v') (by simp) x.symm
    by_cases hk : k < k'
    · simp [Tab.place, hk, Tab.find?]
    · simp only [Tab.place, if_neg hk, Tab.find?, if_neg h1]
      exact ih (fun x hx => h x (by simp [hx]))

@[simp] theorem Tab.find?_insert_self (m : Tab α) (k : Nat) (v : α) : Tab.find? (Tab.insert m k v) k = some v :=
  Tab.find?_place_self _ _ _ (by intro e he; simp [Tab.erase] at he; exact he.2)

theorem Tab.find?_insert_ne (m : Tab α) {k j : Nat} (v : α) (h : j ≠ k) : Tab.find? (Tab.insert m k v) j = Tab.find? m j := by
  rw [Tab.insert, Tab.find?_place_ne _ _ h, Tab.find?_erase_ne _ h]

@[simp] theorem Tab.get_put_self [DecidableEq α] (m : Tab α) (d : α) (k : Nat) (v : α) : Tab.get (Tab.put m d k v) d k = v := by
  unfold Tab.put Tab.get
  split
  · next h => simp [Tab.find?_erase_self, h]
  · simp

theorem Tab.get_put_ne [DecidableEq α] (m : Tab α) (d d' : α) {k j : Nat} (v : α) (h : j ≠ k) :
    Tab.get (Tab.put m d k v) d' j = Tab.get m d' j := by
  unfold Tab.put Tab.get
  split
  · rw [Tab.find?_erase_ne _ h]
  · rw [Tab.find?_insert_ne _ _ h]

/-! ### The canonical form -/

theorem Tab.rising_erase (m : Tab α) (k : Nat) (h : Tab.rising m = true) : Tab.rising (Tab.erase m k) = true := by
  induction m with
  | nil => rfl
  | cons e r ih =>
    obtain ⟨k', v⟩ := e
    simp only [Tab.rising, Bool.and_eq_true] at h
    by_cases hk : k' = k
    · simpa [Tab.erase, hk] using ih h.2
    · have hb : (k' != k) = true := by simpa using hk
      simp only [Tab.erase, List.filter_cons, hb, if_true, Tab.rising, Bool.and_eq_true]
      refine ⟨?_, ih h.2⟩
      have := h.1
      simp only [List.all_eq_true, decide_eq_true_eq] at this ⊢
      intro x hx
      exact this x (List.mem_of_mem_filter hx)

theorem Tab.mem_place {m : Tab α} {k : Nat} {v : α} {e : Nat × α} (h : e ∈ Tab.place m k v) : e = (k, v) ∨ e ∈ m := by
  induction m with
  | nil => simpa [Tab.place] using h
  | cons x r ih =>
    obtain ⟨k', v'⟩ := x
    by_cases hk : k < k'
    · simpa [Tab.place, hk] using h
    · simp only [Tab.place, if_neg hk, List.mem_cons] at h ⊢
      rcases h with h | h
      · exact .inr (.inl h)
      · rcases ih h with h | h
        · exact .inl h
        · exact .inr (.inr h)

theorem Tab.rising_place (m : Tab α) (k : Nat) (v : α) (h : Tab.rising m = true) (hk : ∀ e ∈ m, e.1 ≠ k) :
    Tab.rising (Tab.place m k v) = true := by
  induction m with
  | nil => simp [Tab.place, Tab.rising]
  | cons x r ih =>
    obtain ⟨k', v'⟩ := x
    have hne : k' ≠ k := hk (k', v') (by simp)
    simp only [Tab.rising, Bool.and_eq_true, List.all_eq_true, decide_eq_true_eq] at h
    by_cases hlt : k < k'
    · simp only [Tab.place, if_pos hlt, Tab.rising, Bool.and_eq_true, List.all_eq_true, decide_eq_true_eq, List.mem_cons]
      refine ⟨?_, h⟩
      rintro e (rfl | he)
      · exact hlt
      · exact Nat.lt_trans hlt (h.1 e he)
    · simp only [Tab.place, if_neg hlt, Tab.rising, Bool.and_eq_true, List.all_eq_true, decide_eq_true_eq]
      refine ⟨?_, ih (by simpa [Tab.rising] using h.2) (fun e he => hk e (by simp [he]))⟩
      intro e he
      rcases Tab.mem_place he with rfl | he
      · show k' < k; omega
      · exact h.1 e he

/-- Listing a value keeps keys strictly rising. -/
theorem Tab.rising_insert (m : Tab α) (k : Nat) (v : α) (h : Tab.rising m = true) : Tab.rising (Tab.insert m k v) = true :=
  Tab.rising_place _ _ _ (Tab.rising_erase m k h) (by intro e he; simp [Tab.erase] at he; exact he.2)

/-- Every write of a table keeps its canonical form. -/
theorem Tab.wf_put [DecidableEq α] (m : Tab α) (d : α) (k : Nat) (v : α) (h : Tab.wf m d = true) : Tab.wf (Tab.put m d k v) d = true := by
  simp only [Tab.wf, Bool.and_eq_true, List.all_eq_true, decide_eq_true_eq] at h ⊢
  unfold Tab.put
  split
  · exact ⟨Tab.rising_erase m k h.1, fun e he => h.2 e (List.mem_of_mem_filter he)⟩
  · next hv =>
    refine ⟨Tab.rising_insert m k v h.1, fun e he => ?_⟩
    rcases Tab.mem_place he with rfl | he
    · exact hv
    · exact h.2 e (List.mem_of_mem_filter he)

/-! ### The register file -/

/-- A field reads as what was written, cut to its width (R8). -/
@[simp] theorem Regs.get_set_self (r : Regs) (f : Fld) (v : Nat) : (r.set f v).get f = v % 2 ^ f.w := by
  simp [Regs.get, Regs.set]

/-- Writing one field leaves every other as it is. -/
theorem Regs.get_set_ne (r : Regs) (f g : Fld) (v : Nat) (h : g.key ≠ f.key) : (r.set f v).get g = r.get g := by
  simp [Regs.get, Regs.set, Tab.get_put_ne _ _ _ _ h]

/-! ### Memories of bytes -/

theorem Tab.rising_append {m n : Tab α} (hm : Tab.rising m = true) (hn : Tab.rising n = true) (h : ∀ a ∈ m, ∀ b ∈ n, a.1 < b.1) :
    Tab.rising (m ++ n) = true := by
  induction m with
  | nil => exact hn
  | cons x r ih =>
    obtain ⟨k, v⟩ := x
    simp only [Tab.rising, Bool.and_eq_true, List.all_eq_true, decide_eq_true_eq] at hm
    simp only [List.cons_append, Tab.rising, Bool.and_eq_true, List.all_eq_true, decide_eq_true_eq, List.mem_append]
    refine ⟨?_, ih (by simpa [Tab.rising] using hm.2) (fun a ha b hb => h a (by simp [ha]) b hb)⟩
    rintro e (he | he)
    · exact hm.1 e he
    · exact h (k, v) (by simp) e he

theorem Tab.rising_filter (m : Tab α) (p : Nat × α → Bool) (h : Tab.rising m = true) : Tab.rising (m.filter p) = true := by
  induction m with
  | nil => rfl
  | cons x r ih =>
    obtain ⟨k, v⟩ := x
    simp only [Tab.rising, Bool.and_eq_true, List.all_eq_true, decide_eq_true_eq] at h
    by_cases hp : p (k, v) = true
    · simp only [List.filter_cons, hp, if_true, Tab.rising, Bool.and_eq_true, List.all_eq_true, decide_eq_true_eq]
      exact ⟨fun e he => h.1 e (List.mem_of_mem_filter he), ih (by simpa [Tab.rising] using h.2)⟩
    · simp only [List.filter_cons, hp]
      exact ih (by simpa [Tab.rising] using h.2)

theorem Mem.mem_cells {a : Nat} {b : Bytes} {e : Nat × Byte} (h : e ∈ Mem.cells a b) : a ≤ e.1 ∧ e.1 < a + b.length ∧ e.2 ≠ 0 := by
  induction b generalizing a with
  | nil => simp [Mem.cells] at h
  | cons x r ih =>
    unfold Mem.cells at h
    split at h
    · have h2 := ih h
      have h3 := h2.1
      have h4 := h2.2.1
      exact ⟨by omega, by simp only [List.length_cons]; omega, h2.2.2⟩
    · next hx =>
      rcases List.mem_cons.mp h with rfl | h
      · exact ⟨Nat.le_refl _, by simp, hx⟩
      · have h2 := ih h
        have h3 := h2.1
        have h4 := h2.2.1
        exact ⟨by omega, by simp only [List.length_cons]; omega, h2.2.2⟩

theorem Mem.rising_cells (a : Nat) (b : Bytes) : Tab.rising (Mem.cells a b) = true := by
  induction b generalizing a with
  | nil => rfl
  | cons x r ih =>
    unfold Mem.cells
    split
    · exact ih _
    · simp only [Tab.rising, Bool.and_eq_true, List.all_eq_true, decide_eq_true_eq]
      exact ⟨fun e he => by have := (Mem.mem_cells he).1; omega, ih _⟩

/-- A write keeps a memory's canonical form (R439: an unlisted byte reads as zero). -/
theorem Mem.wf_write (m : Mem) (a : Nat) (b : Bytes) (h : Mem.wf m = true) : Mem.wf (Mem.write m a b) = true := by
  simp only [Mem.wf, Tab.wf, Bool.and_eq_true, List.all_eq_true, decide_eq_true_eq] at h ⊢
  unfold Mem.write
  refine ⟨?_, ?_⟩
  · rw [List.append_assoc]
    refine Tab.rising_append (Tab.rising_filter _ _ h.1) (Tab.rising_append (Mem.rising_cells _ _) (Tab.rising_filter _ _ h.1) ?_) ?_
    · intro x hx y hy
      have := (Mem.mem_cells hx).2.1
      have h2 := List.of_mem_filter hy
      simp only [decide_eq_true_eq] at h2; omega
    · intro x hx y hy
      have h1 := List.of_mem_filter hx
      simp only [decide_eq_true_eq] at h1
      rcases List.mem_append.mp hy with hy | hy
      · have := (Mem.mem_cells hy).1; omega
      · have h2 := List.of_mem_filter hy
        simp only [decide_eq_true_eq] at h2; omega
  · intro e he
    rcases List.mem_append.mp he with he | he
    · rcases List.mem_append.mp he with he | he
      · exact h.2 e (List.mem_of_mem_filter he)
      · exact (Mem.mem_cells he).2.2
    · exact h.2 e (List.mem_of_mem_filter he)

/-- Clearing a range keeps the canonical form. -/
theorem Mem.wf_clear (m : Mem) (a n : Nat) (h : Mem.wf m = true) : Mem.wf (Mem.clear m a n) = true := by
  simp only [Mem.wf, Tab.wf, Bool.and_eq_true, List.all_eq_true, decide_eq_true_eq] at h ⊢
  exact ⟨Tab.rising_filter _ _ h.1, fun e he => h.2 e (List.mem_of_mem_filter he)⟩

theorem Tab.find?_append (m n : Tab α) (k : Nat) : Tab.find? (m ++ n) k = (Tab.find? m k).or (Tab.find? n k) := by
  induction m with
  | nil => simp [Tab.find?]
  | cons x r ih => by_cases h : k = x.1 <;> simp [Tab.find?, h, ih]

theorem Tab.find?_filter (m : Tab α) (p : Nat → Bool) (k : Nat) (h : p k = true) :
    Tab.find? (m.filter (fun e => p e.1)) k = Tab.find? m k := by
  induction m with
  | nil => rfl
  | cons x r ih =>
    by_cases hx : k = x.1
    · have : p x.1 = true := hx ▸ h
      simp [this, Tab.find?, hx]
    · by_cases hp : p x.1 = true <;> simp [hp, Tab.find?, hx, ih]

theorem Mem.find?_cells (a : Nat) (b : Bytes) (k : Nat) :
    (Tab.find? (Mem.cells a b) k).getD 0 = if a ≤ k ∧ k < a + b.length then b.getD (k - a) 0 else 0 := by
  induction b generalizing a with
  | nil =>
    rw [if_neg (by simp only [List.length_nil]; omega)]; rfl
  | cons x r ih =>
    have hrest := ih (a + 1)
    unfold Mem.cells
    by_cases hk : k = a
    · subst hk
      by_cases hx : x = 0
      · simp only [if_pos hx, hrest]; simp [hx]
      · rw [if_neg hx]; simp [Tab.find?]
    · have e1 : (Tab.find? (if x = 0 then Mem.cells (a + 1) r else (a, x) :: Mem.cells (a + 1) r) k).getD 0 =
          (Tab.find? (Mem.cells (a + 1) r) k).getD 0 := by split <;> simp [Tab.find?, hk]
      rw [e1, hrest]
      by_cases hr : a + 1 ≤ k ∧ k < a + 1 + r.length
      · have : k - a = (k - (a + 1)) + 1 := by omega
        rw [if_pos hr, if_pos (by simp only [List.length_cons]; omega), this]; simp
      · rw [if_neg hr, if_neg (by simp only [List.length_cons]; omega)]

/-- A byte read after a write: the byte written, within its range; elsewhere what stood before. -/
theorem Mem.get_write (m : Mem) (a k : Nat) (b : Bytes) :
    Mem.get (Mem.write m a b) k = if a ≤ k ∧ k < a + b.length then b.getD (k - a) 0 else Mem.get m k := by
  unfold Mem.get Tab.get Mem.write
  rw [Tab.find?_append, Tab.find?_append]
  have hc := Mem.find?_cells a b k
  by_cases h : a ≤ k ∧ k < a + b.length
  · have h1 : Tab.find? (m.filter (fun c => decide (c.1 < a))) k = none :=
      Tab.find?_none_of_all (by intro e he; have := List.of_mem_filter he; simp at this; omega)
    have h2 : Tab.find? (m.filter (fun c => decide (a + b.length ≤ c.1))) k = none :=
      Tab.find?_none_of_all (by intro e he; have := List.of_mem_filter he; simp at this; omega)
    rw [if_pos h] at hc ⊢
    rw [h1, h2]; simpa using hc
  · have h3 : Tab.find? (Mem.cells a b) k = none :=
      Tab.find?_none_of_all (by intro e he; have := Mem.mem_cells he; omega)
    rw [if_neg h, h3]
    by_cases hl : k < a
    · rw [Tab.find?_filter m (fun i => decide (i < a)) k (by simpa using hl)]
      have : Tab.find? (m.filter (fun c => decide (a + b.length ≤ c.1))) k = none :=
        Tab.find?_none_of_all (by intro e he; have := List.of_mem_filter he; simp at this; omega)
      rw [this]; simp
    · have h4 : Tab.find? (m.filter (fun c => decide (c.1 < a))) k = none :=
        Tab.find?_none_of_all (by intro e he; have := List.of_mem_filter he; simp at this; omega)
      rw [h4, Tab.find?_filter m (fun i => decide (a + b.length ≤ i)) k (by simp; omega)]; simp

end Sys2Proof.Machine
end

