-- ==== Sys2Proof/Laws/State.lean ====
section
/-! SUPPORT. Laws of the state's updates: what each named update leaves alone, one lemma a field, and what reading gives after it. -/

namespace Sys2Proof.Machine

/-! ### setReg -/

@[simp] theorem State.setReg_latch (s : State) (f : Fld) (v : Nat) : (s.setReg f v).latch = s.latch := rfl
@[simp] theorem State.setReg_hw (s : State) (f : Fld) (v : Nat) : (s.setReg f v).hw = s.hw := rfl
@[simp] theorem State.setReg_sys (s : State) (f : Fld) (v : Nat) : (s.setReg f v).sys = s.sys := rfl
@[simp] theorem State.setReg_clk (s : State) (f : Fld) (v : Nat) : (s.setReg f v).clk = s.clk := rfl
@[simp] theorem State.setReg_links (s : State) (f : Fld) (v : Nat) : (s.setReg f v).links = s.links := rfl
@[simp] theorem State.setReg_ports (s : State) (f : Fld) (v : Nat) : (s.setReg f v).ports = s.ports := rfl
@[simp] theorem State.setReg_tables (s : State) (f : Fld) (v : Nat) : (s.setReg f v).tables = s.tables := rfl
@[simp] theorem State.setReg_frames (s : State) (f : Fld) (v : Nat) : (s.setReg f v).frames = s.frames := rfl
@[simp] theorem State.setReg_nextFrm (s : State) (f : Fld) (v : Nat) : (s.setReg f v).nextFrm = s.nextFrm := rfl
@[simp] theorem State.setReg_inbox (s : State) (f : Fld) (v : Nat) : (s.setReg f v).inbox = s.inbox := rfl
@[simp] theorem State.setReg_store (s : State) (f : Fld) (v : Nat) : (s.setReg f v).store = s.store := rfl
@[simp] theorem State.setReg_sbk (s : State) (f : Fld) (v : Nat) : (s.setReg f v).sbk = s.sbk := rfl
@[simp] theorem State.setReg_host (s : State) (f : Fld) (v : Nat) : (s.setReg f v).host = s.host := rfl
@[simp] theorem State.setReg_ctxs (s : State) (f : Fld) (v : Nat) : (s.setReg f v).ctxs = s.ctxs := rfl
@[simp] theorem State.setReg_chans (s : State) (f : Fld) (v : Nat) : (s.setReg f v).chans = s.chans := rfl
@[simp] theorem State.setReg_groups (s : State) (f : Fld) (v : Nat) : (s.setReg f v).groups = s.groups := rfl
@[simp] theorem State.setReg_grpTx (s : State) (f : Fld) (v : Nat) : (s.setReg f v).grpTx = s.grpTx := rfl
@[simp] theorem State.setReg_mir (s : State) (f : Fld) (v : Nat) : (s.setReg f v).mir = s.mir := rfl
@[simp] theorem State.setReg_pmc (s : State) (f : Fld) (v : Nat) : (s.setReg f v).pmc = s.pmc := rfl
@[simp] theorem State.setReg_sec (s : State) (f : Fld) (v : Nat) : (s.setReg f v).sec = s.sec := rfl
@[simp] theorem State.setReg_out (s : State) (f : Fld) (v : Nat) : (s.setReg f v).out = s.out := rfl
@[simp] theorem State.setReg_fresh (s : State) (f : Fld) (v : Nat) : (s.setReg f v).fresh = s.fresh := rfl
@[simp] theorem State.setReg_pending (s : State) (f : Fld) (v : Nat) : (s.setReg f v).pending = s.pending := rfl

/-! ### setRegInt -/

@[simp] theorem State.setRegInt_latch (s : State) (f : Fld) (v : Int) : (s.setRegInt f v).latch = s.latch := rfl
@[simp] theorem State.setRegInt_hw (s : State) (f : Fld) (v : Int) : (s.setRegInt f v).hw = s.hw := rfl
@[simp] theorem State.setRegInt_sys (s : State) (f : Fld) (v : Int) : (s.setRegInt f v).sys = s.sys := rfl
@[simp] theorem State.setRegInt_clk (s : State) (f : Fld) (v : Int) : (s.setRegInt f v).clk = s.clk := rfl
@[simp] theorem State.setRegInt_links (s : State) (f : Fld) (v : Int) : (s.setRegInt f v).links = s.links := rfl
@[simp] theorem State.setRegInt_ports (s : State) (f : Fld) (v : Int) : (s.setRegInt f v).ports = s.ports := rfl
@[simp] theorem State.setRegInt_tables (s : State) (f : Fld) (v : Int) : (s.setRegInt f v).tables = s.tables := rfl
@[simp] theorem State.setRegInt_frames (s : State) (f : Fld) (v : Int) : (s.setRegInt f v).frames = s.frames := rfl
@[simp] theorem State.setRegInt_nextFrm (s : State) (f : Fld) (v : Int) : (s.setRegInt f v).nextFrm = s.nextFrm := rfl
@[simp] theorem State.setRegInt_inbox (s : State) (f : Fld) (v : Int) : (s.setRegInt f v).inbox = s.inbox := rfl
@[simp] theorem State.setRegInt_store (s : State) (f : Fld) (v : Int) : (s.setRegInt f v).store = s.store := rfl
@[simp] theorem State.setRegInt_sbk (s : State) (f : Fld) (v : Int) : (s.setRegInt f v).sbk = s.sbk := rfl
@[simp] theorem State.setRegInt_host (s : State) (f : Fld) (v : Int) : (s.setRegInt f v).host = s.host := rfl
@[simp] theorem State.setRegInt_ctxs (s : State) (f : Fld) (v : Int) : (s.setRegInt f v).ctxs = s.ctxs := rfl
@[simp] theorem State.setRegInt_chans (s : State) (f : Fld) (v : Int) : (s.setRegInt f v).chans = s.chans := rfl
@[simp] theorem State.setRegInt_groups (s : State) (f : Fld) (v : Int) : (s.setRegInt f v).groups = s.groups := rfl
@[simp] theorem State.setRegInt_grpTx (s : State) (f : Fld) (v : Int) : (s.setRegInt f v).grpTx = s.grpTx := rfl
@[simp] theorem State.setRegInt_mir (s : State) (f : Fld) (v : Int) : (s.setRegInt f v).mir = s.mir := rfl
@[simp] theorem State.setRegInt_pmc (s : State) (f : Fld) (v : Int) : (s.setRegInt f v).pmc = s.pmc := rfl
@[simp] theorem State.setRegInt_sec (s : State) (f : Fld) (v : Int) : (s.setRegInt f v).sec = s.sec := rfl
@[simp] theorem State.setRegInt_out (s : State) (f : Fld) (v : Int) : (s.setRegInt f v).out = s.out := rfl
@[simp] theorem State.setRegInt_fresh (s : State) (f : Fld) (v : Int) : (s.setRegInt f v).fresh = s.fresh := rfl
@[simp] theorem State.setRegInt_pending (s : State) (f : Fld) (v : Int) : (s.setRegInt f v).pending = s.pending := rfl

/-! ### count -/

@[simp] theorem State.count_hw (s : State) (f : Fld) (n : Nat) : (s.count f n).hw = s.hw := rfl
@[simp] theorem State.count_sys (s : State) (f : Fld) (n : Nat) : (s.count f n).sys = s.sys := rfl
@[simp] theorem State.count_clk (s : State) (f : Fld) (n : Nat) : (s.count f n).clk = s.clk := rfl
@[simp] theorem State.count_links (s : State) (f : Fld) (n : Nat) : (s.count f n).links = s.links := rfl
@[simp] theorem State.count_ports (s : State) (f : Fld) (n : Nat) : (s.count f n).ports = s.ports := rfl
@[simp] theorem State.count_tables (s : State) (f : Fld) (n : Nat) : (s.count f n).tables = s.tables := rfl
@[simp] theorem State.count_frames (s : State) (f : Fld) (n : Nat) : (s.count f n).frames = s.frames := rfl
@[simp] theorem State.count_nextFrm (s : State) (f : Fld) (n : Nat) : (s.count f n).nextFrm = s.nextFrm := rfl
@[simp] theorem State.count_inbox (s : State) (f : Fld) (n : Nat) : (s.count f n).inbox = s.inbox := rfl
@[simp] theorem State.count_store (s : State) (f : Fld) (n : Nat) : (s.count f n).store = s.store := rfl
@[simp] theorem State.count_sbk (s : State) (f : Fld) (n : Nat) : (s.count f n).sbk = s.sbk := rfl
@[simp] theorem State.count_host (s : State) (f : Fld) (n : Nat) : (s.count f n).host = s.host := rfl
@[simp] theorem State.count_ctxs (s : State) (f : Fld) (n : Nat) : (s.count f n).ctxs = s.ctxs := rfl
@[simp] theorem State.count_chans (s : State) (f : Fld) (n : Nat) : (s.count f n).chans = s.chans := rfl
@[simp] theorem State.count_groups (s : State) (f : Fld) (n : Nat) : (s.count f n).groups = s.groups := rfl
@[simp] theorem State.count_grpTx (s : State) (f : Fld) (n : Nat) : (s.count f n).grpTx = s.grpTx := rfl
@[simp] theorem State.count_mir (s : State) (f : Fld) (n : Nat) : (s.count f n).mir = s.mir := rfl
@[simp] theorem State.count_pmc (s : State) (f : Fld) (n : Nat) : (s.count f n).pmc = s.pmc := rfl
@[simp] theorem State.count_sec (s : State) (f : Fld) (n : Nat) : (s.count f n).sec = s.sec := rfl
@[simp] theorem State.count_out (s : State) (f : Fld) (n : Nat) : (s.count f n).out = s.out := rfl
@[simp] theorem State.count_fresh (s : State) (f : Fld) (n : Nat) : (s.count f n).fresh = s.fresh := rfl
@[simp] theorem State.count_pending (s : State) (f : Fld) (n : Nat) : (s.count f n).pending = s.pending := rfl

/-! ### setW1c -/

@[simp] theorem State.setW1c_hw (s : State) (f : Fld) (m : Nat) : (s.setW1c f m).hw = s.hw := rfl
@[simp] theorem State.setW1c_sys (s : State) (f : Fld) (m : Nat) : (s.setW1c f m).sys = s.sys := rfl
@[simp] theorem State.setW1c_clk (s : State) (f : Fld) (m : Nat) : (s.setW1c f m).clk = s.clk := rfl
@[simp] theorem State.setW1c_links (s : State) (f : Fld) (m : Nat) : (s.setW1c f m).links = s.links := rfl
@[simp] theorem State.setW1c_ports (s : State) (f : Fld) (m : Nat) : (s.setW1c f m).ports = s.ports := rfl
@[simp] theorem State.setW1c_tables (s : State) (f : Fld) (m : Nat) : (s.setW1c f m).tables = s.tables := rfl
@[simp] theorem State.setW1c_frames (s : State) (f : Fld) (m : Nat) : (s.setW1c f m).frames = s.frames := rfl
@[simp] theorem State.setW1c_nextFrm (s : State) (f : Fld) (m : Nat) : (s.setW1c f m).nextFrm = s.nextFrm := rfl
@[simp] theorem State.setW1c_inbox (s : State) (f : Fld) (m : Nat) : (s.setW1c f m).inbox = s.inbox := rfl
@[simp] theorem State.setW1c_store (s : State) (f : Fld) (m : Nat) : (s.setW1c f m).store = s.store := rfl
@[simp] theorem State.setW1c_sbk (s : State) (f : Fld) (m : Nat) : (s.setW1c f m).sbk = s.sbk := rfl
@[simp] theorem State.setW1c_host (s : State) (f : Fld) (m : Nat) : (s.setW1c f m).host = s.host := rfl
@[simp] theorem State.setW1c_ctxs (s : State) (f : Fld) (m : Nat) : (s.setW1c f m).ctxs = s.ctxs := rfl
@[simp] theorem State.setW1c_chans (s : State) (f : Fld) (m : Nat) : (s.setW1c f m).chans = s.chans := rfl
@[simp] theorem State.setW1c_groups (s : State) (f : Fld) (m : Nat) : (s.setW1c f m).groups = s.groups := rfl
@[simp] theorem State.setW1c_grpTx (s : State) (f : Fld) (m : Nat) : (s.setW1c f m).grpTx = s.grpTx := rfl
@[simp] theorem State.setW1c_mir (s : State) (f : Fld) (m : Nat) : (s.setW1c f m).mir = s.mir := rfl
@[simp] theorem State.setW1c_pmc (s : State) (f : Fld) (m : Nat) : (s.setW1c f m).pmc = s.pmc := rfl
@[simp] theorem State.setW1c_sec (s : State) (f : Fld) (m : Nat) : (s.setW1c f m).sec = s.sec := rfl
@[simp] theorem State.setW1c_out (s : State) (f : Fld) (m : Nat) : (s.setW1c f m).out = s.out := rfl
@[simp] theorem State.setW1c_fresh (s : State) (f : Fld) (m : Nat) : (s.setW1c f m).fresh = s.fresh := rfl
@[simp] theorem State.setW1c_pending (s : State) (f : Fld) (m : Nat) : (s.setW1c f m).pending = s.pending := rfl

/-! ### countSat -/

@[simp] theorem State.countSat_latch (s : State) (f : Fld) (n : Nat) : (s.countSat f n).latch = s.latch := rfl
@[simp] theorem State.countSat_hw (s : State) (f : Fld) (n : Nat) : (s.countSat f n).hw = s.hw := rfl
@[simp] theorem State.countSat_sys (s : State) (f : Fld) (n : Nat) : (s.countSat f n).sys = s.sys := rfl
@[simp] theorem State.countSat_clk (s : State) (f : Fld) (n : Nat) : (s.countSat f n).clk = s.clk := rfl
@[simp] theorem State.countSat_links (s : State) (f : Fld) (n : Nat) : (s.countSat f n).links = s.links := rfl
@[simp] theorem State.countSat_ports (s : State) (f : Fld) (n : Nat) : (s.countSat f n).ports = s.ports := rfl
@[simp] theorem State.countSat_tables (s : State) (f : Fld) (n : Nat) : (s.countSat f n).tables = s.tables := rfl
@[simp] theorem State.countSat_frames (s : State) (f : Fld) (n : Nat) : (s.countSat f n).frames = s.frames := rfl
@[simp] theorem State.countSat_nextFrm (s : State) (f : Fld) (n : Nat) : (s.countSat f n).nextFrm = s.nextFrm := rfl
@[simp] theorem State.countSat_inbox (s : State) (f : Fld) (n : Nat) : (s.countSat f n).inbox = s.inbox := rfl
@[simp] theorem State.countSat_store (s : State) (f : Fld) (n : Nat) : (s.countSat f n).store = s.store := rfl
@[simp] theorem State.countSat_sbk (s : State) (f : Fld) (n : Nat) : (s.countSat f n).sbk = s.sbk := rfl
@[simp] theorem State.countSat_host (s : State) (f : Fld) (n : Nat) : (s.countSat f n).host = s.host := rfl
@[simp] theorem State.countSat_ctxs (s : State) (f : Fld) (n : Nat) : (s.countSat f n).ctxs = s.ctxs := rfl
@[simp] theorem State.countSat_chans (s : State) (f : Fld) (n : Nat) : (s.countSat f n).chans = s.chans := rfl
@[simp] theorem State.countSat_groups (s : State) (f : Fld) (n : Nat) : (s.countSat f n).groups = s.groups := rfl
@[simp] theorem State.countSat_grpTx (s : State) (f : Fld) (n : Nat) : (s.countSat f n).grpTx = s.grpTx := rfl
@[simp] theorem State.countSat_mir (s : State) (f : Fld) (n : Nat) : (s.countSat f n).mir = s.mir := rfl
@[simp] theorem State.countSat_pmc (s : State) (f : Fld) (n : Nat) : (s.countSat f n).pmc = s.pmc := rfl
@[simp] theorem State.countSat_sec (s : State) (f : Fld) (n : Nat) : (s.countSat f n).sec = s.sec := rfl
@[simp] theorem State.countSat_out (s : State) (f : Fld) (n : Nat) : (s.countSat f n).out = s.out := rfl
@[simp] theorem State.countSat_fresh (s : State) (f : Fld) (n : Nat) : (s.countSat f n).fresh = s.fresh := rfl
@[simp] theorem State.countSat_pending (s : State) (f : Fld) (n : Nat) : (s.countSat f n).pending = s.pending := rfl

/-! ### emit -/

@[simp] theorem State.emit_regs (s : State) (o : Out) : (s.emit o).regs = s.regs := rfl
@[simp] theorem State.emit_latch (s : State) (o : Out) : (s.emit o).latch = s.latch := rfl
@[simp] theorem State.emit_hw (s : State) (o : Out) : (s.emit o).hw = s.hw := rfl
@[simp] theorem State.emit_sys (s : State) (o : Out) : (s.emit o).sys = s.sys := rfl
@[simp] theorem State.emit_clk (s : State) (o : Out) : (s.emit o).clk = s.clk := rfl
@[simp] theorem State.emit_links (s : State) (o : Out) : (s.emit o).links = s.links := rfl
@[simp] theorem State.emit_ports (s : State) (o : Out) : (s.emit o).ports = s.ports := rfl
@[simp] theorem State.emit_tables (s : State) (o : Out) : (s.emit o).tables = s.tables := rfl
@[simp] theorem State.emit_frames (s : State) (o : Out) : (s.emit o).frames = s.frames := rfl
@[simp] theorem State.emit_nextFrm (s : State) (o : Out) : (s.emit o).nextFrm = s.nextFrm := rfl
@[simp] theorem State.emit_inbox (s : State) (o : Out) : (s.emit o).inbox = s.inbox := rfl
@[simp] theorem State.emit_store (s : State) (o : Out) : (s.emit o).store = s.store := rfl
@[simp] theorem State.emit_sbk (s : State) (o : Out) : (s.emit o).sbk = s.sbk := rfl
@[simp] theorem State.emit_host (s : State) (o : Out) : (s.emit o).host = s.host := rfl
@[simp] theorem State.emit_ctxs (s : State) (o : Out) : (s.emit o).ctxs = s.ctxs := rfl
@[simp] theorem State.emit_chans (s : State) (o : Out) : (s.emit o).chans = s.chans := rfl
@[simp] theorem State.emit_groups (s : State) (o : Out) : (s.emit o).groups = s.groups := rfl
@[simp] theorem State.emit_grpTx (s : State) (o : Out) : (s.emit o).grpTx = s.grpTx := rfl
@[simp] theorem State.emit_mir (s : State) (o : Out) : (s.emit o).mir = s.mir := rfl
@[simp] theorem State.emit_pmc (s : State) (o : Out) : (s.emit o).pmc = s.pmc := rfl
@[simp] theorem State.emit_sec (s : State) (o : Out) : (s.emit o).sec = s.sec := rfl
@[simp] theorem State.emit_fresh (s : State) (o : Out) : (s.emit o).fresh = s.fresh := rfl
@[simp] theorem State.emit_pending (s : State) (o : Out) : (s.emit o).pending = s.pending := rfl

/-! ### draw -/

@[simp] theorem State.draw_regs (s : State) : (s.draw).2.regs = s.regs := rfl
@[simp] theorem State.draw_latch (s : State) : (s.draw).2.latch = s.latch := rfl
@[simp] theorem State.draw_hw (s : State) : (s.draw).2.hw = s.hw := rfl
@[simp] theorem State.draw_sys (s : State) : (s.draw).2.sys = s.sys := rfl
@[simp] theorem State.draw_clk (s : State) : (s.draw).2.clk = s.clk := rfl
@[simp] theorem State.draw_links (s : State) : (s.draw).2.links = s.links := rfl
@[simp] theorem State.draw_ports (s : State) : (s.draw).2.ports = s.ports := rfl
@[simp] theorem State.draw_tables (s : State) : (s.draw).2.tables = s.tables := rfl
@[simp] theorem State.draw_frames (s : State) : (s.draw).2.frames = s.frames := rfl
@[simp] theorem State.draw_nextFrm (s : State) : (s.draw).2.nextFrm = s.nextFrm := rfl
@[simp] theorem State.draw_inbox (s : State) : (s.draw).2.inbox = s.inbox := rfl
@[simp] theorem State.draw_store (s : State) : (s.draw).2.store = s.store := rfl
@[simp] theorem State.draw_sbk (s : State) : (s.draw).2.sbk = s.sbk := rfl
@[simp] theorem State.draw_host (s : State) : (s.draw).2.host = s.host := rfl
@[simp] theorem State.draw_ctxs (s : State) : (s.draw).2.ctxs = s.ctxs := rfl
@[simp] theorem State.draw_chans (s : State) : (s.draw).2.chans = s.chans := rfl
@[simp] theorem State.draw_groups (s : State) : (s.draw).2.groups = s.groups := rfl
@[simp] theorem State.draw_grpTx (s : State) : (s.draw).2.grpTx = s.grpTx := rfl
@[simp] theorem State.draw_mir (s : State) : (s.draw).2.mir = s.mir := rfl
@[simp] theorem State.draw_pmc (s : State) : (s.draw).2.pmc = s.pmc := rfl
@[simp] theorem State.draw_sec (s : State) : (s.draw).2.sec = s.sec := rfl
@[simp] theorem State.draw_out (s : State) : (s.draw).2.out = s.out := rfl
@[simp] theorem State.draw_pending (s : State) : (s.draw).2.pending = s.pending := rfl

/-! ### arrival -/

@[simp] theorem State.arrival_regs (s : State) (k : Nat) : (s.arrival k).2.regs = s.regs := rfl
@[simp] theorem State.arrival_latch (s : State) (k : Nat) : (s.arrival k).2.latch = s.latch := rfl
@[simp] theorem State.arrival_hw (s : State) (k : Nat) : (s.arrival k).2.hw = s.hw := rfl
@[simp] theorem State.arrival_sys (s : State) (k : Nat) : (s.arrival k).2.sys = s.sys := rfl
@[simp] theorem State.arrival_links (s : State) (k : Nat) : (s.arrival k).2.links = s.links := rfl
@[simp] theorem State.arrival_ports (s : State) (k : Nat) : (s.arrival k).2.ports = s.ports := rfl
@[simp] theorem State.arrival_tables (s : State) (k : Nat) : (s.arrival k).2.tables = s.tables := rfl
@[simp] theorem State.arrival_frames (s : State) (k : Nat) : (s.arrival k).2.frames = s.frames := rfl
@[simp] theorem State.arrival_nextFrm (s : State) (k : Nat) : (s.arrival k).2.nextFrm = s.nextFrm := rfl
@[simp] theorem State.arrival_inbox (s : State) (k : Nat) : (s.arrival k).2.inbox = s.inbox := rfl
@[simp] theorem State.arrival_store (s : State) (k : Nat) : (s.arrival k).2.store = s.store := rfl
@[simp] theorem State.arrival_sbk (s : State) (k : Nat) : (s.arrival k).2.sbk = s.sbk := rfl
@[simp] theorem State.arrival_host (s : State) (k : Nat) : (s.arrival k).2.host = s.host := rfl
@[simp] theorem State.arrival_ctxs (s : State) (k : Nat) : (s.arrival k).2.ctxs = s.ctxs := rfl
@[simp] theorem State.arrival_chans (s : State) (k : Nat) : (s.arrival k).2.chans = s.chans := rfl
@[simp] theorem State.arrival_groups (s : State) (k : Nat) : (s.arrival k).2.groups = s.groups := rfl
@[simp] theorem State.arrival_grpTx (s : State) (k : Nat) : (s.arrival k).2.grpTx = s.grpTx := rfl
@[simp] theorem State.arrival_mir (s : State) (k : Nat) : (s.arrival k).2.mir = s.mir := rfl
@[simp] theorem State.arrival_pmc (s : State) (k : Nat) : (s.arrival k).2.pmc = s.pmc := rfl
@[simp] theorem State.arrival_sec (s : State) (k : Nat) : (s.arrival k).2.sec = s.sec := rfl
@[simp] theorem State.arrival_out (s : State) (k : Nat) : (s.arrival k).2.out = s.out := rfl
@[simp] theorem State.arrival_fresh (s : State) (k : Nat) : (s.arrival k).2.fresh = s.fresh := rfl
@[simp] theorem State.arrival_pending (s : State) (k : Nat) : (s.arrival k).2.pending = s.pending := rfl

/-! ### stamped -/

@[simp] theorem State.stamped_regs (s : State) : (s.stamped).regs = s.regs := rfl
@[simp] theorem State.stamped_latch (s : State) : (s.stamped).latch = s.latch := rfl
@[simp] theorem State.stamped_hw (s : State) : (s.stamped).hw = s.hw := rfl
@[simp] theorem State.stamped_sys (s : State) : (s.stamped).sys = s.sys := rfl
@[simp] theorem State.stamped_links (s : State) : (s.stamped).links = s.links := rfl
@[simp] theorem State.stamped_ports (s : State) : (s.stamped).ports = s.ports := rfl
@[simp] theorem State.stamped_tables (s : State) : (s.stamped).tables = s.tables := rfl
@[simp] theorem State.stamped_frames (s : State) : (s.stamped).frames = s.frames := rfl
@[simp] theorem State.stamped_nextFrm (s : State) : (s.stamped).nextFrm = s.nextFrm := rfl
@[simp] theorem State.stamped_inbox (s : State) : (s.stamped).inbox = s.inbox := rfl
@[simp] theorem State.stamped_store (s : State) : (s.stamped).store = s.store := rfl
@[simp] theorem State.stamped_sbk (s : State) : (s.stamped).sbk = s.sbk := rfl
@[simp] theorem State.stamped_host (s : State) : (s.stamped).host = s.host := rfl
@[simp] theorem State.stamped_ctxs (s : State) : (s.stamped).ctxs = s.ctxs := rfl
@[simp] theorem State.stamped_chans (s : State) : (s.stamped).chans = s.chans := rfl
@[simp] theorem State.stamped_groups (s : State) : (s.stamped).groups = s.groups := rfl
@[simp] theorem State.stamped_grpTx (s : State) : (s.stamped).grpTx = s.grpTx := rfl
@[simp] theorem State.stamped_mir (s : State) : (s.stamped).mir = s.mir := rfl
@[simp] theorem State.stamped_pmc (s : State) : (s.stamped).pmc = s.pmc := rfl
@[simp] theorem State.stamped_sec (s : State) : (s.stamped).sec = s.sec := rfl
@[simp] theorem State.stamped_out (s : State) : (s.stamped).out = s.out := rfl
@[simp] theorem State.stamped_fresh (s : State) : (s.stamped).fresh = s.fresh := rfl
@[simp] theorem State.stamped_pending (s : State) : (s.stamped).pending = s.pending := rfl

/-! ### schedule -/

@[simp] theorem State.schedule_regs (s : State) (t : FT64) (e : Timed) : (s.schedule t e).regs = s.regs := rfl
@[simp] theorem State.schedule_latch (s : State) (t : FT64) (e : Timed) : (s.schedule t e).latch = s.latch := rfl
@[simp] theorem State.schedule_hw (s : State) (t : FT64) (e : Timed) : (s.schedule t e).hw = s.hw := rfl
@[simp] theorem State.schedule_sys (s : State) (t : FT64) (e : Timed) : (s.schedule t e).sys = s.sys := rfl
@[simp] theorem State.schedule_links (s : State) (t : FT64) (e : Timed) : (s.schedule t e).links = s.links := rfl
@[simp] theorem State.schedule_ports (s : State) (t : FT64) (e : Timed) : (s.schedule t e).ports = s.ports := rfl
@[simp] theorem State.schedule_tables (s : State) (t : FT64) (e : Timed) : (s.schedule t e).tables = s.tables := rfl
@[simp] theorem State.schedule_frames (s : State) (t : FT64) (e : Timed) : (s.schedule t e).frames = s.frames := rfl
@[simp] theorem State.schedule_nextFrm (s : State) (t : FT64) (e : Timed) : (s.schedule t e).nextFrm = s.nextFrm := rfl
@[simp] theorem State.schedule_inbox (s : State) (t : FT64) (e : Timed) : (s.schedule t e).inbox = s.inbox := rfl
@[simp] theorem State.schedule_store (s : State) (t : FT64) (e : Timed) : (s.schedule t e).store = s.store := rfl
@[simp] theorem State.schedule_sbk (s : State) (t : FT64) (e : Timed) : (s.schedule t e).sbk = s.sbk := rfl
@[simp] theorem State.schedule_host (s : State) (t : FT64) (e : Timed) : (s.schedule t e).host = s.host := rfl
@[simp] theorem State.schedule_ctxs (s : State) (t : FT64) (e : Timed) : (s.schedule t e).ctxs = s.ctxs := rfl
@[simp] theorem State.schedule_chans (s : State) (t : FT64) (e : Timed) : (s.schedule t e).chans = s.chans := rfl
@[simp] theorem State.schedule_groups (s : State) (t : FT64) (e : Timed) : (s.schedule t e).groups = s.groups := rfl
@[simp] theorem State.schedule_grpTx (s : State) (t : FT64) (e : Timed) : (s.schedule t e).grpTx = s.grpTx := rfl
@[simp] theorem State.schedule_mir (s : State) (t : FT64) (e : Timed) : (s.schedule t e).mir = s.mir := rfl
@[simp] theorem State.schedule_pmc (s : State) (t : FT64) (e : Timed) : (s.schedule t e).pmc = s.pmc := rfl
@[simp] theorem State.schedule_sec (s : State) (t : FT64) (e : Timed) : (s.schedule t e).sec = s.sec := rfl
@[simp] theorem State.schedule_out (s : State) (t : FT64) (e : Timed) : (s.schedule t e).out = s.out := rfl
@[simp] theorem State.schedule_fresh (s : State) (t : FT64) (e : Timed) : (s.schedule t e).fresh = s.fresh := rfl
@[simp] theorem State.schedule_pending (s : State) (t : FT64) (e : Timed) : (s.schedule t e).pending = s.pending := rfl

/-! ### unschedule -/

@[simp] theorem State.unschedule_regs (s : State) (e : Timed) : (s.unschedule e).regs = s.regs := rfl
@[simp] theorem State.unschedule_latch (s : State) (e : Timed) : (s.unschedule e).latch = s.latch := rfl
@[simp] theorem State.unschedule_hw (s : State) (e : Timed) : (s.unschedule e).hw = s.hw := rfl
@[simp] theorem State.unschedule_sys (s : State) (e : Timed) : (s.unschedule e).sys = s.sys := rfl
@[simp] theorem State.unschedule_links (s : State) (e : Timed) : (s.unschedule e).links = s.links := rfl
@[simp] theorem State.unschedule_ports (s : State) (e : Timed) : (s.unschedule e).ports = s.ports := rfl
@[simp] theorem State.unschedule_tables (s : State) (e : Timed) : (s.unschedule e).tables = s.tables := rfl
@[simp] theorem State.unschedule_frames (s : State) (e : Timed) : (s.unschedule e).frames = s.frames := rfl
@[simp] theorem State.unschedule_nextFrm (s : State) (e : Timed) : (s.unschedule e).nextFrm = s.nextFrm := rfl
@[simp] theorem State.unschedule_inbox (s : State) (e : Timed) : (s.unschedule e).inbox = s.inbox := rfl
@[simp] theorem State.unschedule_store (s : State) (e : Timed) : (s.unschedule e).store = s.store := rfl
@[simp] theorem State.unschedule_sbk (s : State) (e : Timed) : (s.unschedule e).sbk = s.sbk := rfl
@[simp] theorem State.unschedule_host (s : State) (e : Timed) : (s.unschedule e).host = s.host := rfl
@[simp] theorem State.unschedule_ctxs (s : State) (e : Timed) : (s.unschedule e).ctxs = s.ctxs := rfl
@[simp] theorem State.unschedule_chans (s : State) (e : Timed) : (s.unschedule e).chans = s.chans := rfl
@[simp] theorem State.unschedule_groups (s : State) (e : Timed) : (s.unschedule e).groups = s.groups := rfl
@[simp] theorem State.unschedule_grpTx (s : State) (e : Timed) : (s.unschedule e).grpTx = s.grpTx := rfl
@[simp] theorem State.unschedule_mir (s : State) (e : Timed) : (s.unschedule e).mir = s.mir := rfl
@[simp] theorem State.unschedule_pmc (s : State) (e : Timed) : (s.unschedule e).pmc = s.pmc := rfl
@[simp] theorem State.unschedule_sec (s : State) (e : Timed) : (s.unschedule e).sec = s.sec := rfl
@[simp] theorem State.unschedule_out (s : State) (e : Timed) : (s.unschedule e).out = s.out := rfl
@[simp] theorem State.unschedule_fresh (s : State) (e : Timed) : (s.unschedule e).fresh = s.fresh := rfl
@[simp] theorem State.unschedule_pending (s : State) (e : Timed) : (s.unschedule e).pending = s.pending := rfl

/-! ### setLink -/

@[simp] theorem State.setLink_regs (s : State) (k : Nat) (l : Link) : (s.setLink k l).regs = s.regs := rfl
@[simp] theorem State.setLink_latch (s : State) (k : Nat) (l : Link) : (s.setLink k l).latch = s.latch := rfl
@[simp] theorem State.setLink_hw (s : State) (k : Nat) (l : Link) : (s.setLink k l).hw = s.hw := rfl
@[simp] theorem State.setLink_sys (s : State) (k : Nat) (l : Link) : (s.setLink k l).sys = s.sys := rfl
@[simp] theorem State.setLink_clk (s : State) (k : Nat) (l : Link) : (s.setLink k l).clk = s.clk := rfl
@[simp] theorem State.setLink_ports (s : State) (k : Nat) (l : Link) : (s.setLink k l).ports = s.ports := rfl
@[simp] theorem State.setLink_tables (s : State) (k : Nat) (l : Link) : (s.setLink k l).tables = s.tables := rfl
@[simp] theorem State.setLink_frames (s : State) (k : Nat) (l : Link) : (s.setLink k l).frames = s.frames := rfl
@[simp] theorem State.setLink_nextFrm (s : State) (k : Nat) (l : Link) : (s.setLink k l).nextFrm = s.nextFrm := rfl
@[simp] theorem State.setLink_inbox (s : State) (k : Nat) (l : Link) : (s.setLink k l).inbox = s.inbox := rfl
@[simp] theorem State.setLink_store (s : State) (k : Nat) (l : Link) : (s.setLink k l).store = s.store := rfl
@[simp] theorem State.setLink_sbk (s : State) (k : Nat) (l : Link) : (s.setLink k l).sbk = s.sbk := rfl
@[simp] theorem State.setLink_host (s : State) (k : Nat) (l : Link) : (s.setLink k l).host = s.host := rfl
@[simp] theorem State.setLink_ctxs (s : State) (k : Nat) (l : Link) : (s.setLink k l).ctxs = s.ctxs := rfl
@[simp] theorem State.setLink_chans (s : State) (k : Nat) (l : Link) : (s.setLink k l).chans = s.chans := rfl
@[simp] theorem State.setLink_groups (s : State) (k : Nat) (l : Link) : (s.setLink k l).groups = s.groups := rfl
@[simp] theorem State.setLink_grpTx (s : State) (k : Nat) (l : Link) : (s.setLink k l).grpTx = s.grpTx := rfl
@[simp] theorem State.setLink_mir (s : State) (k : Nat) (l : Link) : (s.setLink k l).mir = s.mir := rfl
@[simp] theorem State.setLink_pmc (s : State) (k : Nat) (l : Link) : (s.setLink k l).pmc = s.pmc := rfl
@[simp] theorem State.setLink_sec (s : State) (k : Nat) (l : Link) : (s.setLink k l).sec = s.sec := rfl
@[simp] theorem State.setLink_out (s : State) (k : Nat) (l : Link) : (s.setLink k l).out = s.out := rfl
@[simp] theorem State.setLink_fresh (s : State) (k : Nat) (l : Link) : (s.setLink k l).fresh = s.fresh := rfl
@[simp] theorem State.setLink_pending (s : State) (k : Nat) (l : Link) : (s.setLink k l).pending = s.pending := rfl

/-! ### modLink -/

@[simp] theorem State.modLink_regs (s : State) (k : Nat) (g : Link → Link) : (s.modLink k g).regs = s.regs := rfl
@[simp] theorem State.modLink_latch (s : State) (k : Nat) (g : Link → Link) : (s.modLink k g).latch = s.latch := rfl
@[simp] theorem State.modLink_hw (s : State) (k : Nat) (g : Link → Link) : (s.modLink k g).hw = s.hw := rfl
@[simp] theorem State.modLink_sys (s : State) (k : Nat) (g : Link → Link) : (s.modLink k g).sys = s.sys := rfl
@[simp] theorem State.modLink_clk (s : State) (k : Nat) (g : Link → Link) : (s.modLink k g).clk = s.clk := rfl
@[simp] theorem State.modLink_ports (s : State) (k : Nat) (g : Link → Link) : (s.modLink k g).ports = s.ports := rfl
@[simp] theorem State.modLink_tables (s : State) (k : Nat) (g : Link → Link) : (s.modLink k g).tables = s.tables := rfl
@[simp] theorem State.modLink_frames (s : State) (k : Nat) (g : Link → Link) : (s.modLink k g).frames = s.frames := rfl
@[simp] theorem State.modLink_nextFrm (s : State) (k : Nat) (g : Link → Link) : (s.modLink k g).nextFrm = s.nextFrm := rfl
@[simp] theorem State.modLink_inbox (s : State) (k : Nat) (g : Link → Link) : (s.modLink k g).inbox = s.inbox := rfl
@[simp] theorem State.modLink_store (s : State) (k : Nat) (g : Link → Link) : (s.modLink k g).store = s.store := rfl
@[simp] theorem State.modLink_sbk (s : State) (k : Nat) (g : Link → Link) : (s.modLink k g).sbk = s.sbk := rfl
@[simp] theorem State.modLink_host (s : State) (k : Nat) (g : Link → Link) : (s.modLink k g).host = s.host := rfl
@[simp] theorem State.modLink_ctxs (s : State) (k : Nat) (g : Link → Link) : (s.modLink k g).ctxs = s.ctxs := rfl
@[simp] theorem State.modLink_chans (s : State) (k : Nat) (g : Link → Link) : (s.modLink k g).chans = s.chans := rfl
@[simp] theorem State.modLink_groups (s : State) (k : Nat) (g : Link → Link) : (s.modLink k g).groups = s.groups := rfl
@[simp] theorem State.modLink_grpTx (s : State) (k : Nat) (g : Link → Link) : (s.modLink k g).grpTx = s.grpTx := rfl
@[simp] theorem State.modLink_mir (s : State) (k : Nat) (g : Link → Link) : (s.modLink k g).mir = s.mir := rfl
@[simp] theorem State.modLink_pmc (s : State) (k : Nat) (g : Link → Link) : (s.modLink k g).pmc = s.pmc := rfl
@[simp] theorem State.modLink_sec (s : State) (k : Nat) (g : Link → Link) : (s.modLink k g).sec = s.sec := rfl
@[simp] theorem State.modLink_out (s : State) (k : Nat) (g : Link → Link) : (s.modLink k g).out = s.out := rfl
@[simp] theorem State.modLink_fresh (s : State) (k : Nat) (g : Link → Link) : (s.modLink k g).fresh = s.fresh := rfl
@[simp] theorem State.modLink_pending (s : State) (k : Nat) (g : Link → Link) : (s.modLink k g).pending = s.pending := rfl

/-! ### modEg -/

@[simp] theorem State.modEg_regs (s : State) (k : Nat) (g : Egress → Egress) : (s.modEg k g).regs = s.regs := rfl
@[simp] theorem State.modEg_latch (s : State) (k : Nat) (g : Egress → Egress) : (s.modEg k g).latch = s.latch := rfl
@[simp] theorem State.modEg_hw (s : State) (k : Nat) (g : Egress → Egress) : (s.modEg k g).hw = s.hw := rfl
@[simp] theorem State.modEg_sys (s : State) (k : Nat) (g : Egress → Egress) : (s.modEg k g).sys = s.sys := rfl
@[simp] theorem State.modEg_clk (s : State) (k : Nat) (g : Egress → Egress) : (s.modEg k g).clk = s.clk := rfl
@[simp] theorem State.modEg_ports (s : State) (k : Nat) (g : Egress → Egress) : (s.modEg k g).ports = s.ports := rfl
@[simp] theorem State.modEg_tables (s : State) (k : Nat) (g : Egress → Egress) : (s.modEg k g).tables = s.tables := rfl
@[simp] theorem State.modEg_frames (s : State) (k : Nat) (g : Egress → Egress) : (s.modEg k g).frames = s.frames := rfl
@[simp] theorem State.modEg_nextFrm (s : State) (k : Nat) (g : Egress → Egress) : (s.modEg k g).nextFrm = s.nextFrm := rfl
@[simp] theorem State.modEg_inbox (s : State) (k : Nat) (g : Egress → Egress) : (s.modEg k g).inbox = s.inbox := rfl
@[simp] theorem State.modEg_store (s : State) (k : Nat) (g : Egress → Egress) : (s.modEg k g).store = s.store := rfl
@[simp] theorem State.modEg_sbk (s : State) (k : Nat) (g : Egress → Egress) : (s.modEg k g).sbk = s.sbk := rfl
@[simp] theorem State.modEg_host (s : State) (k : Nat) (g : Egress → Egress) : (s.modEg k g).host = s.host := rfl
@[simp] theorem State.modEg_ctxs (s : State) (k : Nat) (g : Egress → Egress) : (s.modEg k g).ctxs = s.ctxs := rfl
@[simp] theorem State.modEg_chans (s : State) (k : Nat) (g : Egress → Egress) : (s.modEg k g).chans = s.chans := rfl
@[simp] theorem State.modEg_groups (s : State) (k : Nat) (g : Egress → Egress) : (s.modEg k g).groups = s.groups := rfl
@[simp] theorem State.modEg_grpTx (s : State) (k : Nat) (g : Egress → Egress) : (s.modEg k g).grpTx = s.grpTx := rfl
@[simp] theorem State.modEg_mir (s : State) (k : Nat) (g : Egress → Egress) : (s.modEg k g).mir = s.mir := rfl
@[simp] theorem State.modEg_pmc (s : State) (k : Nat) (g : Egress → Egress) : (s.modEg k g).pmc = s.pmc := rfl
@[simp] theorem State.modEg_sec (s : State) (k : Nat) (g : Egress → Egress) : (s.modEg k g).sec = s.sec := rfl
@[simp] theorem State.modEg_out (s : State) (k : Nat) (g : Egress → Egress) : (s.modEg k g).out = s.out := rfl
@[simp] theorem State.modEg_fresh (s : State) (k : Nat) (g : Egress → Egress) : (s.modEg k g).fresh = s.fresh := rfl
@[simp] theorem State.modEg_pending (s : State) (k : Nat) (g : Egress → Egress) : (s.modEg k g).pending = s.pending := rfl

/-! ### modPort -/

@[simp] theorem State.modPort_regs (s : State) (p : Nat) (g : PortSt → PortSt) : (s.modPort p g).regs = s.regs := rfl
@[simp] theorem State.modPort_latch (s : State) (p : Nat) (g : PortSt → PortSt) : (s.modPort p g).latch = s.latch := rfl
@[simp] theorem State.modPort_hw (s : State) (p : Nat) (g : PortSt → PortSt) : (s.modPort p g).hw = s.hw := rfl
@[simp] theorem State.modPort_sys (s : State) (p : Nat) (g : PortSt → PortSt) : (s.modPort p g).sys = s.sys := rfl
@[simp] theorem State.modPort_clk (s : State) (p : Nat) (g : PortSt → PortSt) : (s.modPort p g).clk = s.clk := rfl
@[simp] theorem State.modPort_links (s : State) (p : Nat) (g : PortSt → PortSt) : (s.modPort p g).links = s.links := rfl
@[simp] theorem State.modPort_tables (s : State) (p : Nat) (g : PortSt → PortSt) : (s.modPort p g).tables = s.tables := rfl
@[simp] theorem State.modPort_frames (s : State) (p : Nat) (g : PortSt → PortSt) : (s.modPort p g).frames = s.frames := rfl
@[simp] theorem State.modPort_nextFrm (s : State) (p : Nat) (g : PortSt → PortSt) : (s.modPort p g).nextFrm = s.nextFrm := rfl
@[simp] theorem State.modPort_inbox (s : State) (p : Nat) (g : PortSt → PortSt) : (s.modPort p g).inbox = s.inbox := rfl
@[simp] theorem State.modPort_store (s : State) (p : Nat) (g : PortSt → PortSt) : (s.modPort p g).store = s.store := rfl
@[simp] theorem State.modPort_sbk (s : State) (p : Nat) (g : PortSt → PortSt) : (s.modPort p g).sbk = s.sbk := rfl
@[simp] theorem State.modPort_host (s : State) (p : Nat) (g : PortSt → PortSt) : (s.modPort p g).host = s.host := rfl
@[simp] theorem State.modPort_ctxs (s : State) (p : Nat) (g : PortSt → PortSt) : (s.modPort p g).ctxs = s.ctxs := rfl
@[simp] theorem State.modPort_chans (s : State) (p : Nat) (g : PortSt → PortSt) : (s.modPort p g).chans = s.chans := rfl
@[simp] theorem State.modPort_groups (s : State) (p : Nat) (g : PortSt → PortSt) : (s.modPort p g).groups = s.groups := rfl
@[simp] theorem State.modPort_grpTx (s : State) (p : Nat) (g : PortSt → PortSt) : (s.modPort p g).grpTx = s.grpTx := rfl
@[simp] theorem State.modPort_mir (s : State) (p : Nat) (g : PortSt → PortSt) : (s.modPort p g).mir = s.mir := rfl
@[simp] theorem State.modPort_pmc (s : State) (p : Nat) (g : PortSt → PortSt) : (s.modPort p g).pmc = s.pmc := rfl
@[simp] theorem State.modPort_sec (s : State) (p : Nat) (g : PortSt → PortSt) : (s.modPort p g).sec = s.sec := rfl
@[simp] theorem State.modPort_out (s : State) (p : Nat) (g : PortSt → PortSt) : (s.modPort p g).out = s.out := rfl
@[simp] theorem State.modPort_fresh (s : State) (p : Nat) (g : PortSt → PortSt) : (s.modPort p g).fresh = s.fresh := rfl
@[simp] theorem State.modPort_pending (s : State) (p : Nat) (g : PortSt → PortSt) : (s.modPort p g).pending = s.pending := rfl

/-! ### modCtx -/

@[simp] theorem State.modCtx_regs (s : State) (k : Nat) (g : Ctx → Ctx) : (s.modCtx k g).regs = s.regs := rfl
@[simp] theorem State.modCtx_latch (s : State) (k : Nat) (g : Ctx → Ctx) : (s.modCtx k g).latch = s.latch := rfl
@[simp] theorem State.modCtx_hw (s : State) (k : Nat) (g : Ctx → Ctx) : (s.modCtx k g).hw = s.hw := rfl
@[simp] theorem State.modCtx_sys (s : State) (k : Nat) (g : Ctx → Ctx) : (s.modCtx k g).sys = s.sys := rfl
@[simp] theorem State.modCtx_clk (s : State) (k : Nat) (g : Ctx → Ctx) : (s.modCtx k g).clk = s.clk := rfl
@[simp] theorem State.modCtx_links (s : State) (k : Nat) (g : Ctx → Ctx) : (s.modCtx k g).links = s.links := rfl
@[simp] theorem State.modCtx_ports (s : State) (k : Nat) (g : Ctx → Ctx) : (s.modCtx k g).ports = s.ports := rfl
@[simp] theorem State.modCtx_tables (s : State) (k : Nat) (g : Ctx → Ctx) : (s.modCtx k g).tables = s.tables := rfl
@[simp] theorem State.modCtx_frames (s : State) (k : Nat) (g : Ctx → Ctx) : (s.modCtx k g).frames = s.frames := rfl
@[simp] theorem State.modCtx_nextFrm (s : State) (k : Nat) (g : Ctx → Ctx) : (s.modCtx k g).nextFrm = s.nextFrm := rfl
@[simp] theorem State.modCtx_inbox (s : State) (k : Nat) (g : Ctx → Ctx) : (s.modCtx k g).inbox = s.inbox := rfl
@[simp] theorem State.modCtx_store (s : State) (k : Nat) (g : Ctx → Ctx) : (s.modCtx k g).store = s.store := rfl
@[simp] theorem State.modCtx_sbk (s : State) (k : Nat) (g : Ctx → Ctx) : (s.modCtx k g).sbk = s.sbk := rfl
@[simp] theorem State.modCtx_host (s : State) (k : Nat) (g : Ctx → Ctx) : (s.modCtx k g).host = s.host := rfl
@[simp] theorem State.modCtx_chans (s : State) (k : Nat) (g : Ctx → Ctx) : (s.modCtx k g).chans = s.chans := rfl
@[simp] theorem State.modCtx_groups (s : State) (k : Nat) (g : Ctx → Ctx) : (s.modCtx k g).groups = s.groups := rfl
@[simp] theorem State.modCtx_grpTx (s : State) (k : Nat) (g : Ctx → Ctx) : (s.modCtx k g).grpTx = s.grpTx := rfl
@[simp] theorem State.modCtx_mir (s : State) (k : Nat) (g : Ctx → Ctx) : (s.modCtx k g).mir = s.mir := rfl
@[simp] theorem State.modCtx_pmc (s : State) (k : Nat) (g : Ctx → Ctx) : (s.modCtx k g).pmc = s.pmc := rfl
@[simp] theorem State.modCtx_sec (s : State) (k : Nat) (g : Ctx → Ctx) : (s.modCtx k g).sec = s.sec := rfl
@[simp] theorem State.modCtx_out (s : State) (k : Nat) (g : Ctx → Ctx) : (s.modCtx k g).out = s.out := rfl
@[simp] theorem State.modCtx_fresh (s : State) (k : Nat) (g : Ctx → Ctx) : (s.modCtx k g).fresh = s.fresh := rfl
@[simp] theorem State.modCtx_pending (s : State) (k : Nat) (g : Ctx → Ctx) : (s.modCtx k g).pending = s.pending := rfl

/-! ### modChan -/

@[simp] theorem State.modChan_regs (s : State) (k : Nat) (g : Chan → Chan) : (s.modChan k g).regs = s.regs := rfl
@[simp] theorem State.modChan_latch (s : State) (k : Nat) (g : Chan → Chan) : (s.modChan k g).latch = s.latch := rfl
@[simp] theorem State.modChan_hw (s : State) (k : Nat) (g : Chan → Chan) : (s.modChan k g).hw = s.hw := rfl
@[simp] theorem State.modChan_sys (s : State) (k : Nat) (g : Chan → Chan) : (s.modChan k g).sys = s.sys := rfl
@[simp] theorem State.modChan_clk (s : State) (k : Nat) (g : Chan → Chan) : (s.modChan k g).clk = s.clk := rfl
@[simp] theorem State.modChan_links (s : State) (k : Nat) (g : Chan → Chan) : (s.modChan k g).links = s.links := rfl
@[simp] theorem State.modChan_ports (s : State) (k : Nat) (g : Chan → Chan) : (s.modChan k g).ports = s.ports := rfl
@[simp] theorem State.modChan_tables (s : State) (k : Nat) (g : Chan → Chan) : (s.modChan k g).tables = s.tables := rfl
@[simp] theorem State.modChan_frames (s : State) (k : Nat) (g : Chan → Chan) : (s.modChan k g).frames = s.frames := rfl
@[simp] theorem State.modChan_nextFrm (s : State) (k : Nat) (g : Chan → Chan) : (s.modChan k g).nextFrm = s.nextFrm := rfl
@[simp] theorem State.modChan_inbox (s : State) (k : Nat) (g : Chan → Chan) : (s.modChan k g).inbox = s.inbox := rfl
@[simp] theorem State.modChan_store (s : State) (k : Nat) (g : Chan → Chan) : (s.modChan k g).store = s.store := rfl
@[simp] theorem State.modChan_sbk (s : State) (k : Nat) (g : Chan → Chan) : (s.modChan k g).sbk = s.sbk := rfl
@[simp] theorem State.modChan_host (s : State) (k : Nat) (g : Chan → Chan) : (s.modChan k g).host = s.host := rfl
@[simp] theorem State.modChan_ctxs (s : State) (k : Nat) (g : Chan → Chan) : (s.modChan k g).ctxs = s.ctxs := rfl
@[simp] theorem State.modChan_groups (s : State) (k : Nat) (g : Chan → Chan) : (s.modChan k g).groups = s.groups := rfl
@[simp] theorem State.modChan_grpTx (s : State) (k : Nat) (g : Chan → Chan) : (s.modChan k g).grpTx = s.grpTx := rfl
@[simp] theorem State.modChan_mir (s : State) (k : Nat) (g : Chan → Chan) : (s.modChan k g).mir = s.mir := rfl
@[simp] theorem State.modChan_pmc (s : State) (k : Nat) (g : Chan → Chan) : (s.modChan k g).pmc = s.pmc := rfl
@[simp] theorem State.modChan_sec (s : State) (k : Nat) (g : Chan → Chan) : (s.modChan k g).sec = s.sec := rfl
@[simp] theorem State.modChan_out (s : State) (k : Nat) (g : Chan → Chan) : (s.modChan k g).out = s.out := rfl
@[simp] theorem State.modChan_fresh (s : State) (k : Nat) (g : Chan → Chan) : (s.modChan k g).fresh = s.fresh := rfl
@[simp] theorem State.modChan_pending (s : State) (k : Nat) (g : Chan → Chan) : (s.modChan k g).pending = s.pending := rfl

/-! ### modCq -/

@[simp] theorem State.modCq_regs (s : State) (k : Nat) (g : CqSt → CqSt) : (s.modCq k g).regs = s.regs := rfl
@[simp] theorem State.modCq_latch (s : State) (k : Nat) (g : CqSt → CqSt) : (s.modCq k g).latch = s.latch := rfl
@[simp] theorem State.modCq_hw (s : State) (k : Nat) (g : CqSt → CqSt) : (s.modCq k g).hw = s.hw := rfl
@[simp] theorem State.modCq_sys (s : State) (k : Nat) (g : CqSt → CqSt) : (s.modCq k g).sys = s.sys := rfl
@[simp] theorem State.modCq_clk (s : State) (k : Nat) (g : CqSt → CqSt) : (s.modCq k g).clk = s.clk := rfl
@[simp] theorem State.modCq_links (s : State) (k : Nat) (g : CqSt → CqSt) : (s.modCq k g).links = s.links := rfl
@[simp] theorem State.modCq_ports (s : State) (k : Nat) (g : CqSt → CqSt) : (s.modCq k g).ports = s.ports := rfl
@[simp] theorem State.modCq_tables (s : State) (k : Nat) (g : CqSt → CqSt) : (s.modCq k g).tables = s.tables := rfl
@[simp] theorem State.modCq_frames (s : State) (k : Nat) (g : CqSt → CqSt) : (s.modCq k g).frames = s.frames := rfl
@[simp] theorem State.modCq_nextFrm (s : State) (k : Nat) (g : CqSt → CqSt) : (s.modCq k g).nextFrm = s.nextFrm := rfl
@[simp] theorem State.modCq_inbox (s : State) (k : Nat) (g : CqSt → CqSt) : (s.modCq k g).inbox = s.inbox := rfl
@[simp] theorem State.modCq_store (s : State) (k : Nat) (g : CqSt → CqSt) : (s.modCq k g).store = s.store := rfl
@[simp] theorem State.modCq_sbk (s : State) (k : Nat) (g : CqSt → CqSt) : (s.modCq k g).sbk = s.sbk := rfl
@[simp] theorem State.modCq_ctxs (s : State) (k : Nat) (g : CqSt → CqSt) : (s.modCq k g).ctxs = s.ctxs := rfl
@[simp] theorem State.modCq_chans (s : State) (k : Nat) (g : CqSt → CqSt) : (s.modCq k g).chans = s.chans := rfl
@[simp] theorem State.modCq_groups (s : State) (k : Nat) (g : CqSt → CqSt) : (s.modCq k g).groups = s.groups := rfl
@[simp] theorem State.modCq_grpTx (s : State) (k : Nat) (g : CqSt → CqSt) : (s.modCq k g).grpTx = s.grpTx := rfl
@[simp] theorem State.modCq_mir (s : State) (k : Nat) (g : CqSt → CqSt) : (s.modCq k g).mir = s.mir := rfl
@[simp] theorem State.modCq_pmc (s : State) (k : Nat) (g : CqSt → CqSt) : (s.modCq k g).pmc = s.pmc := rfl
@[simp] theorem State.modCq_sec (s : State) (k : Nat) (g : CqSt → CqSt) : (s.modCq k g).sec = s.sec := rfl
@[simp] theorem State.modCq_out (s : State) (k : Nat) (g : CqSt → CqSt) : (s.modCq k g).out = s.out := rfl
@[simp] theorem State.modCq_fresh (s : State) (k : Nat) (g : CqSt → CqSt) : (s.modCq k g).fresh = s.fresh := rfl
@[simp] theorem State.modCq_pending (s : State) (k : Nat) (g : CqSt → CqSt) : (s.modCq k g).pending = s.pending := rfl

/-! ### storeWrite -/

@[simp] theorem State.storeWrite_regs (s : State) (a : Nat) (b : Bytes) : (s.storeWrite a b).regs = s.regs := rfl
@[simp] theorem State.storeWrite_latch (s : State) (a : Nat) (b : Bytes) : (s.storeWrite a b).latch = s.latch := rfl
@[simp] theorem State.storeWrite_hw (s : State) (a : Nat) (b : Bytes) : (s.storeWrite a b).hw = s.hw := rfl
@[simp] theorem State.storeWrite_sys (s : State) (a : Nat) (b : Bytes) : (s.storeWrite a b).sys = s.sys := rfl
@[simp] theorem State.storeWrite_clk (s : State) (a : Nat) (b : Bytes) : (s.storeWrite a b).clk = s.clk := rfl
@[simp] theorem State.storeWrite_links (s : State) (a : Nat) (b : Bytes) : (s.storeWrite a b).links = s.links := rfl
@[simp] theorem State.storeWrite_ports (s : State) (a : Nat) (b : Bytes) : (s.storeWrite a b).ports = s.ports := rfl
@[simp] theorem State.storeWrite_tables (s : State) (a : Nat) (b : Bytes) : (s.storeWrite a b).tables = s.tables := rfl
@[simp] theorem State.storeWrite_frames (s : State) (a : Nat) (b : Bytes) : (s.storeWrite a b).frames = s.frames := rfl
@[simp] theorem State.storeWrite_nextFrm (s : State) (a : Nat) (b : Bytes) : (s.storeWrite a b).nextFrm = s.nextFrm := rfl
@[simp] theorem State.storeWrite_inbox (s : State) (a : Nat) (b : Bytes) : (s.storeWrite a b).inbox = s.inbox := rfl
@[simp] theorem State.storeWrite_sbk (s : State) (a : Nat) (b : Bytes) : (s.storeWrite a b).sbk = s.sbk := rfl
@[simp] theorem State.storeWrite_host (s : State) (a : Nat) (b : Bytes) : (s.storeWrite a b).host = s.host := rfl
@[simp] theorem State.storeWrite_ctxs (s : State) (a : Nat) (b : Bytes) : (s.storeWrite a b).ctxs = s.ctxs := rfl
@[simp] theorem State.storeWrite_chans (s : State) (a : Nat) (b : Bytes) : (s.storeWrite a b).chans = s.chans := rfl
@[simp] theorem State.storeWrite_groups (s : State) (a : Nat) (b : Bytes) : (s.storeWrite a b).groups = s.groups := rfl
@[simp] theorem State.storeWrite_grpTx (s : State) (a : Nat) (b : Bytes) : (s.storeWrite a b).grpTx = s.grpTx := rfl
@[simp] theorem State.storeWrite_mir (s : State) (a : Nat) (b : Bytes) : (s.storeWrite a b).mir = s.mir := rfl
@[simp] theorem State.storeWrite_pmc (s : State) (a : Nat) (b : Bytes) : (s.storeWrite a b).pmc = s.pmc := rfl
@[simp] theorem State.storeWrite_sec (s : State) (a : Nat) (b : Bytes) : (s.storeWrite a b).sec = s.sec := rfl
@[simp] theorem State.storeWrite_out (s : State) (a : Nat) (b : Bytes) : (s.storeWrite a b).out = s.out := rfl
@[simp] theorem State.storeWrite_fresh (s : State) (a : Nat) (b : Bytes) : (s.storeWrite a b).fresh = s.fresh := rfl
@[simp] theorem State.storeWrite_pending (s : State) (a : Nat) (b : Bytes) : (s.storeWrite a b).pending = s.pending := rfl

/-! ### Reading after an update -/

@[simp] theorem State.reg_setReg_self (s : State) (f : Fld) (v : Nat) : (s.setReg f v).reg f = v % 2 ^ f.w := by
  simp [State.reg, State.setReg]

theorem State.reg_setReg_ne (s : State) (f g : Fld) (v : Nat) (h : g.key ≠ f.key) : (s.setReg f v).reg g = s.reg g := by
  simp [State.reg, State.setReg, Regs.get_set_ne _ _ _ _ h]

@[simp] theorem State.reg_count_self (s : State) (f : Fld) (n : Nat) : (s.count f n).reg f = (s.reg f + n) % 2 ^ f.w := by
  simp [State.reg, State.count, Regs.count]

theorem State.reg_count_ne (s : State) (f g : Fld) (n : Nat) (h : g.key ≠ f.key) : (s.count f n).reg g = s.reg g := by
  simp [State.reg, State.count, Regs.count, Regs.get_set_ne _ _ _ _ h]

@[simp] theorem State.reg_setW1c_self (s : State) (f : Fld) (m : Nat) : (s.setW1c f m).reg f = (s.reg f ||| m) % 2 ^ f.w := by
  simp [State.reg, State.setW1c]

theorem State.reg_setW1c_ne (s : State) (f g : Fld) (m : Nat) (h : g.key ≠ f.key) : (s.setW1c f m).reg g = s.reg g := by
  simp [State.reg, State.setW1c, Regs.get_set_ne _ _ _ _ h]

@[simp] theorem State.reg_stamped (s : State) (g : Fld) : s.stamped.reg g = s.reg g := rfl
@[simp] theorem State.now_stamped (s : State) : s.stamped.now = s.now := rfl
@[simp] theorem State.now_setW1c (s : State) (f : Fld) (m : Nat) : (s.setW1c f m).now = s.now := rfl
@[simp] theorem State.reg_emit (s : State) (o : Out) (g : Fld) : (s.emit o).reg g = s.reg g := rfl
@[simp] theorem State.out_emit (s : State) (o : Out) : (s.emit o).out = s.out ++ [o] := rfl
@[simp] theorem State.reg_modLink (s : State) (k : Nat) (f : Link → Link) (g : Fld) : (s.modLink k f).reg g = s.reg g := rfl
@[simp] theorem State.reg_modEg (s : State) (k : Nat) (f : Egress → Egress) (g : Fld) : (s.modEg k f).reg g = s.reg g := rfl
@[simp] theorem State.reg_modPort (s : State) (k : Nat) (f : PortSt → PortSt) (g : Fld) : (s.modPort k f).reg g = s.reg g := rfl
@[simp] theorem State.reg_modCtx (s : State) (k : Nat) (f : Ctx → Ctx) (g : Fld) : (s.modCtx k f).reg g = s.reg g := rfl
@[simp] theorem State.reg_modChan (s : State) (k : Nat) (f : Chan → Chan) (g : Fld) : (s.modChan k f).reg g = s.reg g := rfl
@[simp] theorem State.reg_schedule (s : State) (t : FT64) (e : Timed) (g : Fld) : (s.schedule t e).reg g = s.reg g := rfl
@[simp] theorem State.reg_unschedule (s : State) (e : Timed) (g : Fld) : (s.unschedule e).reg g = s.reg g := rfl
@[simp] theorem State.reg_storeWrite (s : State) (a : Nat) (b : Bytes) (g : Fld) : (s.storeWrite a b).reg g = s.reg g := rfl
@[simp] theorem State.now_setReg (s : State) (f : Fld) (v : Nat) : (s.setReg f v).now = s.now := rfl
@[simp] theorem State.now_emit (s : State) (o : Out) : (s.emit o).now = s.now := rfl
@[simp] theorem State.now_count (s : State) (f : Fld) (n : Nat) : (s.count f n).now = s.now := rfl

/-- A logical port reads as it was changed. -/
@[simp] theorem State.link_modLink_self (s : State) (k : Nat) (f : Link → Link) : (s.modLink k f).link k = f (s.link k) := by
  simp [State.modLink, State.setLink, State.link]

theorem State.link_modLink_ne (s : State) (k j : Nat) (f : Link → Link) (h : j ≠ k) : (s.modLink k f).link j = s.link j := by
  simp [State.modLink, State.setLink, State.link, Tab.get_put_ne _ _ _ _ h]

@[simp] theorem State.port_modPort_self (s : State) (k : Nat) (f : PortSt → PortSt) : (s.modPort k f).port k = f (s.port k) := by
  simp [State.modPort, State.port]

@[simp] theorem State.ctx_modCtx_self (s : State) (k : Nat) (f : Ctx → Ctx) : (s.modCtx k f).ctx k = f (s.ctx k) := by
  simp [State.modCtx, State.ctx]

theorem State.ctx_modCtx_ne (s : State) (k j : Nat) (f : Ctx → Ctx) (h : j ≠ k) : (s.modCtx k f).ctx j = s.ctx j := by
  simp [State.modCtx, State.ctx, Tab.get_put_ne _ _ _ _ h]

@[simp] theorem State.chan_modChan_self (s : State) (k : Nat) (f : Chan → Chan) : (s.modChan k f).chan k = f (s.chan k) := by
  simp [State.modChan, State.chan]

@[simp] theorem State.cq_modCq_self (s : State) (k : Nat) (f : CqSt → CqSt) : (s.modCq k f).cq k = f (s.cq k) := by
  simp [State.modCq, State.cq]

/-! ### The store (R98, R114) -/

/-- A write to the store keeps its canonical form. -/
theorem State.storeWrite_wf (s : State) (a : Nat) (b : Bytes) (h : Mem.wf s.store.mem = true) : Mem.wf (s.storeWrite a b).store.mem = true :=
  Mem.wf_write _ _ _ h

/-- A byte of the store after a write. -/
theorem State.storeWrite_get (s : State) (a k : Nat) (b : Bytes) :
    Mem.get (s.storeWrite a b).store.mem k = if a ≤ k ∧ k < a + b.length then b.getD (k - a) 0 else Mem.get s.store.mem k :=
  Mem.get_write _ _ _ _

/-- The memory of the reset state is canonical. -/
theorem State.reset_mem_wf : Mem.wf State.reset.store.mem = true := rfl

/-! ### Events (R380) -/

/-- All that raising an event can do: its bit is set, and on its change an enabled one signals its vector. -/
theorem State.raise_cases (s : State) (e : Event) :
    s.raise e = s.setW1c e.st (2 ^ e.sub) ∨ ∃ v, s.raise e = (s.setW1c e.st (2 ^ e.sub)).signal v := by
  unfold State.raise
  split
  · exact .inr ⟨_, rfl⟩
  · exact .inl rfl

/-- Signalling a vector changes the pending array or sends a message (R378). -/
theorem State.signal_cases (s : State) (v : Nat) :
    s.signal v = s.setReg HUB_MSIX_PBA_pending (setBit (s.reg HUB_MSIX_PBA_pending) v) ∨
    s.signal v = s.emit (.msix (s.reg (HUB_MSIX_ADDR_addr v)) (s.reg (HUB_MSIX_DATA_data v))) := by
  unfold State.signal
  split
  · exact .inl rfl
  · exact .inr rfl

@[simp] theorem State.signal_latch (s : State) (v : Nat) : (s.signal v).latch = s.latch := by rcases s.signal_cases v with h | h <;> rw [h] <;> rfl
@[simp] theorem State.signal_hw (s : State) (v : Nat) : (s.signal v).hw = s.hw := by rcases s.signal_cases v with h | h <;> rw [h] <;> rfl
@[simp] theorem State.raise_hw (s : State) (e : Event) : (s.raise e).hw = s.hw := by
  rcases s.raise_cases e with h | ⟨v, h⟩ <;> simp [h]
@[simp] theorem State.signal_sys (s : State) (v : Nat) : (s.signal v).sys = s.sys := by rcases s.signal_cases v with h | h <;> rw [h] <;> rfl
@[simp] theorem State.raise_sys (s : State) (e : Event) : (s.raise e).sys = s.sys := by
  rcases s.raise_cases e with h | ⟨v, h⟩ <;> simp [h]
@[simp] theorem State.signal_clk (s : State) (v : Nat) : (s.signal v).clk = s.clk := by rcases s.signal_cases v with h | h <;> rw [h] <;> rfl
@[simp] theorem State.raise_clk (s : State) (e : Event) : (s.raise e).clk = s.clk := by
  rcases s.raise_cases e with h | ⟨v, h⟩ <;> simp [h]
@[simp] theorem State.signal_links (s : State) (v : Nat) : (s.signal v).links = s.links := by rcases s.signal_cases v with h | h <;> rw [h] <;> rfl
@[simp] theorem State.raise_links (s : State) (e : Event) : (s.raise e).links = s.links := by
  rcases s.raise_cases e with h | ⟨v, h⟩ <;> simp [h]
@[simp] theorem State.signal_ports (s : State) (v : Nat) : (s.signal v).ports = s.ports := by rcases s.signal_cases v with h | h <;> rw [h] <;> rfl
@[simp] theorem State.raise_ports (s : State) (e : Event) : (s.raise e).ports = s.ports := by
  rcases s.raise_cases e with h | ⟨v, h⟩ <;> simp [h]
@[simp] theorem State.signal_tables (s : State) (v : Nat) : (s.signal v).tables = s.tables := by rcases s.signal_cases v with h | h <;> rw [h] <;> rfl
@[simp] theorem State.raise_tables (s : State) (e : Event) : (s.raise e).tables = s.tables := by
  rcases s.raise_cases e with h | ⟨v, h⟩ <;> simp [h]
@[simp] theorem State.signal_frames (s : State) (v : Nat) : (s.signal v).frames = s.frames := by rcases s.signal_cases v with h | h <;> rw [h] <;> rfl
@[simp] theorem State.raise_frames (s : State) (e : Event) : (s.raise e).frames = s.frames := by
  rcases s.raise_cases e with h | ⟨v, h⟩ <;> simp [h]
@[simp] theorem State.signal_nextFrm (s : State) (v : Nat) : (s.signal v).nextFrm = s.nextFrm := by rcases s.signal_cases v with h | h <;> rw [h] <;> rfl
@[simp] theorem State.raise_nextFrm (s : State) (e : Event) : (s.raise e).nextFrm = s.nextFrm := by
  rcases s.raise_cases e with h | ⟨v, h⟩ <;> simp [h]
@[simp] theorem State.signal_inbox (s : State) (v : Nat) : (s.signal v).inbox = s.inbox := by rcases s.signal_cases v with h | h <;> rw [h] <;> rfl
@[simp] theorem State.raise_inbox (s : State) (e : Event) : (s.raise e).inbox = s.inbox := by
  rcases s.raise_cases e with h | ⟨v, h⟩ <;> simp [h]
@[simp] theorem State.signal_store (s : State) (v : Nat) : (s.signal v).store = s.store := by rcases s.signal_cases v with h | h <;> rw [h] <;> rfl
@[simp] theorem State.raise_store (s : State) (e : Event) : (s.raise e).store = s.store := by
  rcases s.raise_cases e with h | ⟨v, h⟩ <;> simp [h]
@[simp] theorem State.signal_sbk (s : State) (v : Nat) : (s.signal v).sbk = s.sbk := by rcases s.signal_cases v with h | h <;> rw [h] <;> rfl
@[simp] theorem State.raise_sbk (s : State) (e : Event) : (s.raise e).sbk = s.sbk := by
  rcases s.raise_cases e with h | ⟨v, h⟩ <;> simp [h]
@[simp] theorem State.signal_host (s : State) (v : Nat) : (s.signal v).host = s.host := by rcases s.signal_cases v with h | h <;> rw [h] <;> rfl
@[simp] theorem State.raise_host (s : State) (e : Event) : (s.raise e).host = s.host := by
  rcases s.raise_cases e with h | ⟨v, h⟩ <;> simp [h]
@[simp] theorem State.signal_ctxs (s : State) (v : Nat) : (s.signal v).ctxs = s.ctxs := by rcases s.signal_cases v with h | h <;> rw [h] <;> rfl
@[simp] theorem State.raise_ctxs (s : State) (e : Event) : (s.raise e).ctxs = s.ctxs := by
  rcases s.raise_cases e with h | ⟨v, h⟩ <;> simp [h]
@[simp] theorem State.signal_chans (s : State) (v : Nat) : (s.signal v).chans = s.chans := by rcases s.signal_cases v with h | h <;> rw [h] <;> rfl
@[simp] theorem State.raise_chans (s : State) (e : Event) : (s.raise e).chans = s.chans := by
  rcases s.raise_cases e with h | ⟨v, h⟩ <;> simp [h]
@[simp] theorem State.signal_groups (s : State) (v : Nat) : (s.signal v).groups = s.groups := by rcases s.signal_cases v with h | h <;> rw [h] <;> rfl
@[simp] theorem State.raise_groups (s : State) (e : Event) : (s.raise e).groups = s.groups := by
  rcases s.raise_cases e with h | ⟨v, h⟩ <;> simp [h]
@[simp] theorem State.signal_grpTx (s : State) (v : Nat) : (s.signal v).grpTx = s.grpTx := by rcases s.signal_cases v with h | h <;> rw [h] <;> rfl
@[simp] theorem State.raise_grpTx (s : State) (e : Event) : (s.raise e).grpTx = s.grpTx := by
  rcases s.raise_cases e with h | ⟨v, h⟩ <;> simp [h]
@[simp] theorem State.signal_mir (s : State) (v : Nat) : (s.signal v).mir = s.mir := by rcases s.signal_cases v with h | h <;> rw [h] <;> rfl
@[simp] theorem State.raise_mir (s : State) (e : Event) : (s.raise e).mir = s.mir := by
  rcases s.raise_cases e with h | ⟨v, h⟩ <;> simp [h]
@[simp] theorem State.signal_pmc (s : State) (v : Nat) : (s.signal v).pmc = s.pmc := by rcases s.signal_cases v with h | h <;> rw [h] <;> rfl
@[simp] theorem State.raise_pmc (s : State) (e : Event) : (s.raise e).pmc = s.pmc := by
  rcases s.raise_cases e with h | ⟨v, h⟩ <;> simp [h]
@[simp] theorem State.signal_sec (s : State) (v : Nat) : (s.signal v).sec = s.sec := by rcases s.signal_cases v with h | h <;> rw [h] <;> rfl
@[simp] theorem State.raise_sec (s : State) (e : Event) : (s.raise e).sec = s.sec := by
  rcases s.raise_cases e with h | ⟨v, h⟩ <;> simp [h]
@[simp] theorem State.signal_fresh (s : State) (v : Nat) : (s.signal v).fresh = s.fresh := by rcases s.signal_cases v with h | h <;> rw [h] <;> rfl
@[simp] theorem State.raise_fresh (s : State) (e : Event) : (s.raise e).fresh = s.fresh := by
  rcases s.raise_cases e with h | ⟨v, h⟩ <;> simp [h]
@[simp] theorem State.signal_pending (s : State) (v : Nat) : (s.signal v).pending = s.pending := by rcases s.signal_cases v with h | h <;> rw [h] <;> rfl
@[simp] theorem State.raise_pending (s : State) (e : Event) : (s.raise e).pending = s.pending := by
  rcases s.raise_cases e with h | ⟨v, h⟩ <;> simp [h]

/-! ### The gates of a command -/

/-- A command that acts only on running clocks answers its effect on them. -/
theorem State.does_live {s : State} (f : State → State) (h : s.live = true) : s.does f = .next (f s) := by simp [State.does, h]

/-- With the clocks stopped it leaves everything as it is. -/
theorem State.does_stopped {s : State} (f : State → State) (h : s.live = false) : s.does f = .next s := by simp [State.does, h]

/-- A command of a channel has its effect on a device without a fatal error. -/
theorem State.runs_live {s : State} (f : State → State) (h : s.live = true) (hf : s.sys.fatal = false) : s.runs f = .next (f s) := by
  simp [State.runs, State.does, h, hf]

/-- A fatal error stops every channel. -/
theorem State.runs_fatal {s : State} (f : State → State) (hf : s.sys.fatal = true) : s.runs f = .next s := by simp [State.runs, State.does, hf]

/-- Before ready a write of a closed block is ignored. -/
theorem State.whenReady_not {s : State} (f : State → State) (h : s.flag HUB_STATUS_ready = false) : s.whenReady f = s := by
  simp [State.whenReady, h]

theorem State.whenReady_ready {s : State} (f : State → State) (h : s.flag HUB_STATUS_ready = true) : s.whenReady f = f s := by
  simp [State.whenReady, h]

end Sys2Proof.Machine
end

