-- ==== Sys2Proof/WellFormed.lean ====
section
/-! DEFINITION. Which commands are well formed: operands within what the outside can send. A finite index type bounds the
rest. The machine gives an ill-formed command a meaning too; nothing but the statements that ask for it rests on this check. -/

namespace Sys2Proof

/-- Every operand is one that the outside can send. -/
def Instr.wf : Instr → Bool
  | .registerWrite off width val => decide (off < 0x4000000) && [8, 16, 32, 64].contains width && decide (val < 2 ^ width)
  | .scheduledEventFire _ => true
  | .timeSrcCfgWrite v => decide (v < 2 ^ 32)
  | .timeRateWrite v => decide (v < 2 ^ 32)
  | .beaconRx _ _ => true
  | .beaconTxTimer => true
  | .linkDelayReqTimer => true
  | .linkDelayReqRx _ _ => true
  | .linkDelayRespRx _ _ => true
  | .ptpSyncRx _ _ => true
  | .ptpFollowUpRx _ _ => true
  | .ptpPdelayReqRx _ _ => true
  | .ptpPdelayRespRx _ _ => true
  | .ptpAnnounceRx _ _ => true
  | .ftPpsEdge => true
  | .sourceLoss _ => true
  | .holdoverExpire => true
  | .laserLoss _ => true
  | .laserRestore _ => true
  | .portEnable _ _ => true
  | .portDisable _ _ => true
  | .portFcCfgWrite _ v => decide (v < 2 ^ 32)
  | .portClassCfgWrite _ v => decide (v < 2 ^ 32)
  | .signalDetect _ _ => true
  | .alignLockDone _ _ => true
  | .alignLossTimeout _ _ => true
  | .fecDegradeInterval _ c => decide (c.hist.length = 16)
  | .llrInitTimer _ _ => true
  | .llrInitRx _ _ => true
  | .llrInitTimeout _ _ => true
  | .creditInitRx _ _ => true
  | .llrAckRx _ _ => true
  | .llrNackRx _ _ => true
  | .llrRetryTimeout _ _ => true
  | .llrAckTimer _ _ => true
  | .pfcFrameRx _ _ => true
  | .pfcPauseExpire _ _ _ => true
  | .pfcRefreshTimer _ _ => true
  | .creditUpdateRx _ _ => true
  | .creditKeepaliveTimer _ _ => true
  | .creditTimeout _ _ => true
  | .portCounterClear _ => true
  | .frameRxStart _ _ pre => decide (pre.length = 6)
  | .frameDecision _ _ _ _ => true
  | .frameTail _ _ _ _ => true
  | .egressSelect _ _ => true
  | .frameTxEnd _ _ => true
  | .egressUnderrun _ _ => true
  | .shaperEligible _ _ _ => true
  | .gateCfgChange _ => true
  | .gateConfigApply _ => true
  | .gateChange _ => true
  | .policerRateWrite _ _ _ v => decide (v < 2 ^ 64)
  | .storeEnable _ => true
  | .storeDisable _ => true
  | .storeRegionCfgWrite v => decide (v < 2 ^ 32)
  | .poolCacheRefill _ _ bad => decide (bad.length ≤ 4096)
  | .poolCacheSpill _ _ => true
  | .ownerCommit _ => true
  | .eccRetryRead addr _ _ => decide (addr < 0x9000000000)
  | .scrubRead _ => true
  | .storeCounterClear => true
  | .chCoreCfgWrite _ v => decide (v < 2 ^ 32)
  | .imageLoadDone _ => true
  | .engineIssue _ => true
  | .loop _ => true
  | .brk _ => true
  | .cnt _ => true
  | .cmp _ => true
  | .pset _ => true
  | .psetMarkerComplete _ _ => true
  | .pclr _ => true
  | .pwait _ => true
  | .pwaitRelease _ => true
  | .bar _ => true
  | .barMarkerPass _ _ => true
  | .hint _ => true
  | .mma _ => true
  | .mmz _ => true
  | .cvt _ => true
  | .vop _ => true
  | .red _ => true
  | .srt _ => true
  | .tpk _ => true
  | .flt _ => true
  | .hst _ => true
  | .mov _ _ => true
  | .gat _ _ => true
  | .sct _ _ => true
  | .psend _ => true
  | .precv _ => true
  | .pfree _ => true
  | .programEnd _ => true
  | .drainComplete _ => true
  | .watchdogTimeout _ => true
  | .rampOpen _ => true
  | .tileStartAdmit _ _ => true
  | .spareRemapApply _ _ => true
  | .tileFail _ _ => true
  | .chCounterClear _ => true
  | .excRearm _ => true
  | .dataRx _ => true
  | .anchorUpRx _ => true
  | .anchorDownRx _ => true
  | .intUpRx _ => true
  | .sparseRx _ => true
  | .resultRx _ => true
  | .ackRx _ => true
  | .nackRx _ => true
  | .noticeRx _ => true
  | .abortReqRx _ => true
  | .abortRx _ => true
  | .retractReqRx _ => true
  | .retractRx _ => true
  | .stepDoneRx _ => true
  | .stepDoneSend gid => decide (gid < 65536)
  | .resendReqRx _ => true
  | .stepWindowEnd gid step => decide (gid < 65536) && decide (step < 2 ^ 32)
  | .chunkSlotFree gid step chunk => decide (gid < 65536) && decide (step < 2 ^ 32) && decide (chunk < 2 ^ 24)
  | .groupRelease gid => decide (gid < 65536)
  | .grpCounterClear => true
  | .tokenRx _ => true
  | .tokenEndRx _ => true
  | .batchFlushTimeout gid => decide (gid < 65536)
  | .batchReady gid => decide (gid < 65536)
  | .batchCommit gid => decide (gid < 65536)
  | .expertResultRx _ => true
  | .resultDeadline gid batch => decide (gid < 65536) && decide (batch < 256)
  | .tokenGoHome gid src => decide (gid < 65536) && decide (src < 4096)
  | .seedWrite _ v => decide (v < 2 ^ 64)
  | .sbkPolicyWrite v => decide (v < 2 ^ 32)
  | .recordStart _ => true
  | .recordStop _ => true
  | .recordMark _ => true
  | .replayStart _ _ => true
  | .replayStop _ => true
  | .sbkRecordWrite => true
  | .replayPresent => true
  | .sbkCounterClear => true
  | .pmcInterval act => decide (act.counts.length = 11) && decide (act.hbm.length = 24) && !act.sensors.isEmpty
  | .coreLevelChange => true
  | .droopTrip _ => true
  | .droopStretchEnd _ => true
  | .thermalTrip _ temp => decide (115 ≤ temp)
  | .pwrLimitWrite v => decide (v < 2 ^ 64)
  | .pwrPhaseWrite v => decide (v < 2 ^ 32)
  | .pwrCalWrite off v => (decide (off = 0x20005C) || decide (0x200100 ≤ off) && decide (off < 0x200160)) && decide (v < 2 ^ 32)
  | .pwrCounterClear => true
  | .sqTailDoorbell _ v => decide (v < 2 ^ 32)
  | .cqHeadDoorbell _ v => decide (v < 2 ^ 32)
  | .descriptorFetch _ _ => true
  | .completionWrite _ _ => true
  | .cqIrqDelayExpire _ => true
  | .sqEnable _ v => decide (v < 2 ^ 32)
  | .sqDisable _ v => decide (v < 2 ^ 32)
  | .cqEnable _ v => decide (v < 2 ^ 32)
  | .cqDisable _ v => decide (v < 2 ^ 32)
  | .ringCounterClear => true
  | .loadProgram _ _ => true
  | .startProgram _ => true
  | .groupUpdate _ _ => true
  | .tableWrite _ _ => true
  | .storeCopy _ _ => true
  | .fenceRing _ => true
  | .fenceContext _ => true
  | .stepFence _ => true
  | .queryDevice _ _ => true
  | .queryGroup _ _ => true
  | .queryTableEntry _ _ => true
  | .queryContext _ _ => true
  | .bar4Read addr len => decide (addr + len ≤ 2 ^ 40)
  | .bar4Write addr bytes => decide (addr + bytes.length ≤ 2 ^ 40)
  | .cxlLinkUp => true
  | .bundleChunk _ _ => true
  | .bundleFinish _ => true
  | .commitSvn _ => true
  | .bundleAbort _ => true
  | .getVersion => true
  | .getCapabilities => true
  | .negotiateAlgorithms _ _ => true
  | .getDigests => true
  | .getCertificate slot off len => decide (slot < 256) && decide (off < 65536) && decide (len < 65536)
  | .challenge slot nonce => decide (slot < 256) && decide (nonce.length = 32)
  | .getMeasurements index _ nonce => decide (index < 256) && decide (nonce.length = 32)
  | .keyExchange _ => true
  | .spdmFinish _ => true
  | .heartbeat => true
  | .keyUpdate => true
  | .endSession => true
  | .chunkGet seq => decide (seq < 65536)
  | .vendorDefinedRequest _ => true
  | .ncRequest _ => true
  | .ncSubmit => true
  | .ncRelock => true
  | .nonceExpire => true
  | .mirJoin => true
  | .mirLeave => true
  | .joinTimer => true
  | .joinTimeout => true
  | .joinRx _ => true
  | .mirrorFrameRx _ f _ => decide (f.pre.length = 6)
  | .hbRx => true
  | .groupRecordRx => true
  | .memberRecordRx => true
  | .cvecRecordRx => true
  | .homeRecordRx => true
  | .tableRecordRx => true
  | .regRecordRx => true
  | .sbkRecordRx => true
  | .syncEndRx => true
  | .hbTxTimer => true
  | .sbkMirrorTimer => true
  | .mirrorLinkDown _ => true
  | .twinHbTimeout => true
  | .aliveInSilent => true
  | .oobHbTimer => true
  | .oobHbRx _ => true
  | .oobHbTimeout => true
  | .selfFence => true
  | .oobLinkLoss _ => true
  | .leaseExpire gid member => decide (gid < 65536) && decide (member < 4096)
  | .rehearseLinkDrop _ => true
  | .rehearseMemberStall _ => true
  | .rehearseChunkCorrupt _ => true
  | .rehearseTwinLoss _ => true
  | .rehearseInject => true
  | .rehearseEnd => true
  | .mirCounterClear => true
  | .tableWordRepair _ => true
  | .blockError _ => true
  | .mcpWatchdog _ => true
  | .deviceFatal unit cause index => decide (unit < 256) && decide (cause < 256) && decide (index < 2 ^ 32)
  | .aonPowerUp => true
  | .coldReset => true
  | .warmReset _ => true
  | .flr => true
  | .portReset _ => true
  | .channelReset _ => true
  | .bringupPhaseComplete _ => true
  | .rasCounterClear => true
  | .pwrgoodFall => true
  | .laserModuleRemoved _ _ => true
  | .laserModuleInserted _ => true
  | .sidebandRead addr cmd off => decide (addr < 128) && decide (cmd < 256) && decide (off < 2 ^ 32)
  | .jtagIdcode => true
  | .alignmentLockLoss _ _ => true
  | .alignmentLockReturn _ _ => true
  | .resetEnd => true
  | .sbkRdPtrWrite v => decide (v < 2 ^ 64)
  | .mirPortCfgWrite v => decide (v < 2 ^ 32)
  | .mirOobCfgWrite v => decide (v < 2 ^ 32)
  | .oobLinkUp _ => true
  | .hbmHotRefresh _ temp => decide (85 ≤ temp)

end Sys2Proof
end

