-- ==== Sys2Proof/Tests/Slice0.lean ====
section
/-! SUPPORT. Tests: what well-formedness refuses, results worked out by hand from the spec, and for each statement a state and operands that
meet its hypotheses. -/

set_option Elab.async false

open Sys2Proof Sys2Proof.Machine

namespace Sys2Proof.Machine

/-- A logical port that is UP. -/
def State.withUp (s : State) (src : Nat) : State := s.modLink src (fun l => { l with st := .up, signal := true, lock := true })

/-- A control frame waits on a logical port. -/
def State.withCtl (s : State) (src : Nat) (stamp : FT64) (b : Bytes) : State :=
  s.modLink src (fun l => { l with ctl := l.ctl ++ [{ stamp := stamp, arr := 0, good := true, bytes := b }] })

/-- A time in whole ns. -/
def State.atNs (s : State) (n : Nat) : State := { s with clk := { s.clk with acc := BitVec.ofNat 96 (n * 2 ^ 40) } }

end Sys2Proof.Machine

namespace Sys2Proof.Tests

/-- After power-up, with a bundle running. -/
def run : State := State.reset.setReg HUB_STATUS_ready 1

/-- An ECH frame of group 0. -/
def ech0 (op stamp : Nat) (payload : Bytes) : Bytes := echFrame 0x0180C200000E 0x020000000001 0x88B5 none { opcode := op, gid := 0, stamp := stamp } payload

/-- What a search for a waiting control frame finds, and the state without it. -/
def found (o : Option (Ctl × State)) : Ctl := (o.map (·.1)).getD { stamp := 0, arr := 0, good := false, bytes := [] }
def after (o : Option (Ctl × State)) : State := (o.map (·.2)).getD State.reset

/-! ### Ill-formed commands -/

theorem test_ill_register : (Instr.registerWrite 0x4000000 32 0).wf = false ∧ (Instr.registerWrite 0 24 0).wf = false ∧
    (Instr.registerWrite 0 8 256).wf = false ∧ (Instr.registerWrite 0x3FFFFF8 64 (2 ^ 64 - 1)).wf = true := by decide +kernel

theorem test_ill_value_32 : (Instr.timeRateWrite (2 ^ 32)).wf = false ∧ (Instr.timeSrcCfgWrite (2 ^ 32)).wf = false ∧ (Instr.portFcCfgWrite 0 (2 ^ 32)).wf = false ∧
    (Instr.portClassCfgWrite 0 (2 ^ 32)).wf = false ∧ (Instr.storeRegionCfgWrite (2 ^ 32)).wf = false ∧ (Instr.chCoreCfgWrite 0 (2 ^ 32)).wf = false ∧
    (Instr.sbkPolicyWrite (2 ^ 32)).wf = false ∧ (Instr.pwrPhaseWrite (2 ^ 32)).wf = false ∧ (Instr.mirPortCfgWrite (2 ^ 32)).wf = false ∧
    (Instr.mirOobCfgWrite (2 ^ 32)).wf = false := by decide +kernel

theorem test_ill_value_ring : (Instr.sqTailDoorbell 0 (2 ^ 32)).wf = false ∧ (Instr.cqHeadDoorbell 0 (2 ^ 32)).wf = false ∧
    (Instr.sqEnable 0 (2 ^ 32)).wf = false ∧ (Instr.sqDisable 0 (2 ^ 32)).wf = false ∧ (Instr.cqEnable 0 (2 ^ 32)).wf = false ∧
    (Instr.cqDisable 0 (2 ^ 32)).wf = false := by decide +kernel

theorem test_ill_value_64 : (Instr.policerRateWrite 0 0 0 (2 ^ 64)).wf = false ∧
    (Instr.seedWrite 0 (2 ^ 64)).wf = false ∧ (Instr.pwrLimitWrite (2 ^ 64)).wf = false ∧ (Instr.sbkRdPtrWrite (2 ^ 64)).wf = false := by decide +kernel

theorem test_ill_power : (Instr.pwrCalWrite 0x200060 0).wf = false ∧ (Instr.pwrCalWrite 0x200160 0).wf = false ∧
    (Instr.pwrCalWrite 0x20005C (2 ^ 32)).wf = false ∧ (Instr.pwrCalWrite 0x200100 0).wf = true ∧ (Instr.thermalTrip 0 114).wf = false ∧
    (Instr.hbmHotRefresh 0 84).wf = false := by decide +kernel

theorem test_ill_store : (Instr.eccRetryRead 0x9000000000 (.channel 0 0) true).wf = false ∧ (Instr.poolCacheRefill 0 0 (List.replicate 4097 0)).wf = false ∧
    (Instr.bar4Read (2 ^ 40 - 7) 8).wf = false ∧ (Instr.bar4Write (2 ^ 40) [0]).wf = false := by
  decide +kernel

theorem test_ill_groups : (Instr.stepDoneSend 65536).wf = false ∧ (Instr.stepWindowEnd 65536 0).wf = false ∧ (Instr.stepWindowEnd 0 (2 ^ 32)).wf = false ∧
    (Instr.chunkSlotFree 65536 0 0).wf = false ∧ (Instr.chunkSlotFree 0 (2 ^ 32) 0).wf = false ∧ (Instr.chunkSlotFree 0 0 (2 ^ 24)).wf = false ∧
    (Instr.groupRelease 65536).wf = false ∧ (Instr.batchFlushTimeout 65536).wf = false ∧ (Instr.batchReady 65536).wf = false ∧
    (Instr.batchCommit 65536).wf = false ∧ (Instr.resultDeadline 65536 0).wf = false ∧ (Instr.resultDeadline 0 256).wf = false ∧
    (Instr.tokenGoHome 65536 0).wf = false ∧ (Instr.tokenGoHome 0 4096).wf = false ∧ (Instr.leaseExpire 65536 0).wf = false ∧
    (Instr.leaseExpire 0 4096).wf = false := by decide +kernel

theorem test_ill_security : (Instr.getCertificate 256 0 0).wf = false ∧ (Instr.getCertificate 0 65536 0).wf = false ∧
    (Instr.getCertificate 0 0 65536).wf = false ∧ (Instr.challenge 256 (List.replicate 32 0)).wf = false ∧ (Instr.challenge 0 [0]).wf = false ∧
    (Instr.getMeasurements 256 true (List.replicate 32 0)).wf = false ∧ (Instr.getMeasurements 0 true []).wf = false ∧ (Instr.chunkGet 65536).wf = false := by
  decide +kernel

theorem test_ill_board : (Instr.deviceFatal 256 0 0).wf = false ∧ (Instr.deviceFatal 0 256 0).wf = false ∧ (Instr.deviceFatal 0 0 (2 ^ 32)).wf = false ∧
    (Instr.sidebandRead 128 0 0).wf = false ∧ (Instr.sidebandRead 0 256 0).wf = false ∧ (Instr.sidebandRead 0 0 (2 ^ 32)).wf = false := by decide +kernel

theorem test_ill_lengths : (Instr.frameRxStart 0 0 (List.replicate 5 0)).wf = false ∧ (Instr.fecDegradeInterval 24 ⟨[], 0⟩).wf = false ∧
    (Instr.mirrorFrameRx 0 ⟨[], []⟩ true).wf = false ∧ (Instr.pmcInterval ⟨[], [(2, 60)], List.replicate 24 50⟩).wf = false ∧
    (Instr.pmcInterval ⟨List.replicate 11 0, [(2, 60)], []⟩).wf = false := by decide +kernel

/-! ### Results the spec works out in its examples -/

/-- The regions of the default configuration, and with 16 GiB of packets and a 16 GiB ring (the example of R93). -/
theorem test_regions : State.reset.pktEnd = 0x800000000 ∧ State.reset.progEnd = 0x8800000000 ∧ State.reset.sbkBase = 0x8800000000 ∧
    ((State.reset.setReg STORE_REGION_CFG_pkt_size 16).setReg STORE_REGION_CFG_sbk_size 16).progEnd = 0x8400000000 ∧
    ((State.reset.setReg STORE_REGION_CFG_pkt_size 16).setReg STORE_REGION_CFG_sbk_size 16).sbkBase = 0x8C00000000 := by decide +kernel

/-- The pool counts of the example layout of R99. -/
def exampleCounts : State := (((((run.setReg (POOL_CFG_count 0) 8388608).setReg (POOL_CFG_count 1) 4194304).setReg (POOL_CFG_count 2) 1048576).setReg
  (POOL_CFG_count 3) 393216).setReg (POOL_CFG_count 4) 131072).setReg (POOL_CFG_count 5) 4096

/-- The bases of the example layout of R99; its rings follow the metadata table with 0x6C08000 bytes in all. -/
theorem test_layout : exampleCounts.layout.1.map (·.2.1) = [0, 0x100000000, 0x300000000, 0x480000000, 0x580000000, 0x680000000] ∧
    exampleCounts.layout.1.map (·.2.2) = [0x70D810000, 0x70D818000, 0x70D918000, 0x70DC18000, 0x70E418000, 0x710418000] ∧
    exampleCounts.layout.2 = 0x714418000 := by decide +kernel

/-- The live list of five members and of six, hash 0x9E371C4A (the example of R84). -/
theorem test_ecmp : ecmpIndex 0x9E371C4A 5 = 3 ∧ ecmpIndex 0x9E371C4A 6 = 3 := by decide +kernel

/-- 450, 500 and −1,000 in E4M3 without a clip, and 448 (the example of R227). -/
theorem test_e4m3 : convert (.fin false 450 0) 5 0 0 = (0x7E, fInx) ∧ convert (.fin false 500 0) 5 0 0 = (0x7F, fOvf + fInx) ∧
    convert (.fin true 1000 0) 5 0 0 = (0x7F, fOvf + fInx) ∧ convert (.fin true 448 0) 5 0 0 = (0xFE, 0) := by decide +kernel

/-- 1.53125 × 2^271 and × 2^122 in BF16 (the example of R226). -/
theorem test_bf16 : convert (.fin false 49 266) 3 0 0 = (0x7F80, fOvf + fInx) ∧ convert (.fin false 49 117) 3 0 0 = (0x7CC4, 0) := by decide +kernel

/-- 1 + 2^-8 + 2^-10 in BF16 with SR: up from u = 0x60000000 on (the example of R221); with RNE it rounds up. -/
theorem test_stochastic : (convert (.fin false 1029 (-10)) 3 4 0x60000000, convert (.fin false 1029 (-10)) 3 4 0x5FFFFFFF,
    convert (.fin false 1029 (-10)) 3 0 0) = ((0x3F81, fInx), (0x3F80, fInx), (0x3F81, fInx)) := by decide +kernel

/-- Anchor codes of 3.0, −0.5 and the integers of 1.0 and 2^-8 under anchor 1 (the examples of R279 and R280). -/
theorem test_anchor : anchorOf 3 0x4040 = 0x7D ∧ anchorOf 3 0xBF00 = 0x7B ∧ anchorInt 3 0x3F80 124 = 2 ^ 78 ∧ anchorInt 3 0x3B80 124 = 2 ^ 70 := by
  decide +kernel

/-- 400 ns at 100 and 200 Gb/s: tc from 2,000 to 7,000 bytes, tp from 60,000 to 70,000; 9,000 bytes are yellow (the example of R124). -/
def filled : Policer := Policer.fill { tc := 2000 * 65536, tp := 60000 * 65536, last := some 0x200000000 } 0x200019000 100000 200000 65536 131072

theorem test_policer : filled.tc = 7000 * 65536 ∧ filled.tp = 70000 * 65536 ∧ filled.rc = 0 ∧ filled.rp = 0 ∧ filled.colour 9000 = 1 ∧
    debit filled.tp 9000 = 61000 * 65536 := by decide +kernel

/-- CRC-32C of 32 zero bytes and of 0 to 31 (RFC 3720), and the FCS of "123456789". -/
theorem test_crc : crc32c (List.replicate 32 0) = 0x8A9136AA ∧ crc32c ((List.range 32).map (BitVec.ofNat 8 ·)) = 0x46DD794E ∧
    fcsOf [0x31, 0x32, 0x33, 0x34, 0x35, 0x36, 0x37, 0x38, 0x39] = [0x26, 0x39, 0xF4, 0xCB] := by decide +kernel

/-- The source in use is `k`, LOCKED, steered by the host. -/
def locked (k : Nat) : State := ((run.setReg TIME_STATUS_src_active k).setReg TIME_STATUS_state 2).setReg TIME_CTRL_servo_en 0

def resetDue : State := { run.setReg HUB_RESET_STATUS_busy 1 with clk := { run.clk with sched := [⟨ns 4, 0, .resetDone⟩] } }

theorem test_wit_TimeAdvancesByTheRate :
    ((fun (s : State) (n : Nat) => (s.live = true) ∧ (s.clk.pips = []) ∧ ((s.clk.sched = [] ∨ (∃ e r, s.clk.sched = e :: r ∧ n < s.cyclesTo e.at_)))) (run.setRegInt TIME_RATE_rate (-5)) 7) ∧
    ((fun (s : State) (_ : Nat) => (s.live = true) ∧ (s.clk.pips = [])) (run.setRegInt TIME_RATE_rate (-5)) 7) ∧
    ((fun (s : State) (n : Nat) (e : Sched) (r : List Sched) (t : State) => (s.live = true) ∧ (s.clk.pips = []) ∧ (s.clk.sched = e :: r) ∧ (s.cyclesTo e.at_ = n) ∧ (t = (s.tick n).fireFirst e r) ∧ ((t.upcoming = none ∨ ∃ k f, t.upcoming = some (k, f) ∧ 0 < k))) resetDue (resetDue.cyclesTo (ns 4)) (⟨ns 4, 0, .resetDone⟩) ([]) ((resetDue.tick (resetDue.cyclesTo (ns 4))).fireFirst ⟨ns 4, 0, .resetDone⟩ [])) ∧
    ((fun (s : State) (n : Nat) (e : Sched) => (s.live = true) ∧ (s.clk.pips = []) ∧ (s.clk.sched = [e]) ∧ (e.ev = .resetDone) ∧ (s.cyclesTo e.at_ ≤ n)) resetDue 9 (⟨ns 4, 0, .resetDone⟩)) ∧
    ((fun (s : State) (_ : Nat) => (s.live = true) ∧ (s.flag TIME_CTRL_servo_en = false)) (run.setReg TIME_CTRL_servo_en 0) 0x7FFFFFFF) ∧
    ((fun (s : State) (_ : Nat) => (s.live = true) ∧ (s.flag TIME_CTRL_servo_en = true)) (run.setReg TIME_CTRL_servo_en 1) 0xFFFFFFFF) ∧
    ((fun (s : State) (v : Nat) => (s.live = true) ∧ (bits v 0 2 = 3)) run 3) ∧
    ((fun (s : State) (v : Nat) => (s.live = true) ∧ (bits v 0 2 ≠ 3) ∧ (bits v 0 2 ≠ s.srcActive)) run 1) ∧
    ((fun (s : State) (v : Nat) => (s.live = true) ∧ (bits v 0 2 ≠ 3) ∧ (bits v 0 2 = s.srcActive)) (run.setReg TIME_STATUS_src_active 0) 0) := by
  exact ⟨by beta_reduce; exact ⟨by decide +kernel, rfl, .inl rfl⟩, by beta_reduce; decide +kernel, by beta_reduce; exact ⟨by decide +kernel, rfl, by decide +kernel, by decide +kernel, rfl, .inl (by decide +kernel)⟩, by beta_reduce; decide +kernel, by beta_reduce; decide +kernel, by beta_reduce; decide +kernel, by beta_reduce; decide +kernel, by beta_reduce; decide +kernel, by beta_reduce; decide +kernel⟩

def beaconWith (hops : Nat) : State := (locked 0).withCtl 0 2560 (ech0 0x70 2304 (List.replicate 8 7 ++ BitVec.ofNat 8 hops :: List.replicate 7 0))
def beaconAt : State := beaconWith 15
/-- A PTP message of type `ty`, flags `fl`, in seconds and ns. -/
def ptpMsg (ty fl seq sec nsec : Nat) : Bytes :=
  beBytes 6 0x011B19000000 ++ beBytes 6 0x020000000001 ++ beBytes 2 0x88F7 ++ beBytes 1 ty ++ beBytes 1 2 ++ beBytes 2 44 ++ [0, 0] ++ beBytes 2 fl ++
    beBytes 8 512 ++ List.replicate 4 0 ++ List.replicate 10 1 ++ beBytes 2 seq ++ [0, 0] ++ beBytes 6 sec ++ beBytes 4 nsec ++ List.replicate 20 0
def ptpAt (b : Bytes) : State := (locked 1).withCtl 0 2560 b
def followAt : State := { ptpAt (ptpMsg 8 0 3 0 8) with clk := { (locked 1).clk with sync := some ⟨3, 2560, 1⟩ } }
def ppsAt : State := { ((locked 2).setReg TIME_PPS_NEXT_next (20 * 256)).atNs 21 with clk := { ((locked 2).atNs 21).clk with ppsWritten := true } }
/-- Unlocking takes an offset that no measurement here has. -/
def wideAt : State := ppsAt.setReg TIME_LOCK_CFG_unlock_thresh 0xFFFFFFFF
/-- Whatever error the capture has, it stays within 1 ns of device time 21 ns, and so far from the threshold. -/
theorem ppsAt_near (e : Int) : (ftDiff ((offBy 256 (ns 21) e >>> 8) <<< 8) (ns 20) + 0).natAbs ≤ 0xFFFF * 256 := by
  have h : ∀ i ∈ List.range 513, (ftDiff ((ns 21 + BitVec.ofInt 64 ((i : Int) - 256)) >>> 8 <<< 8) (ns 20) + 0).natAbs ≤ 0xFFFF * 256 := by
    decide +kernel
  have h1 : -256 ≤ max (-(256 : Int)) (min 256 e) := by omega
  have h2 : max (-(256 : Int)) (min 256 e) ≤ 256 := by omega
  have h3 := h (max (-(256 : Int)) (min 256 e) + 256).toNat (by simp only [List.mem_range]; omega)
  rw [Int.toNat_of_nonneg (by omega), Int.add_sub_cancel] at h3
  exact h3
theorem wideAt_off : (ftDiff wideAt.ppsCapture 5120 + wideAt.asymOf 2).natAbs ≤ wideAt.reg TIME_LOCK_CFG_unlock_thresh * 256 := by
  have h1 : wideAt.now = ns 21 := by decide +kernel
  have h2 : wideAt.asymOf 2 = 0 := by decide +kernel
  have h3 : wideAt.reg TIME_LOCK_CFG_unlock_thresh = 0xFFFF := by decide +kernel
  have h4 : (5120 : FT64) = ns 20 := by decide
  rw [State.ppsCapture, h1, h2, h3, h4]
  exact ppsAt_near _

theorem test_wit_MeasurementsInLocked :
    ((fun (s : State) (p : Port) (l : Lp) (c : Ctl) (u : State) (off : Int) => (s.live = true) ∧ (s.takeCtl (srcOf p l) (isEchOp 0x70) = some (c, u)) ∧ (u.designated 0 = srcOf p l) ∧ (echHeaderOk c.bytes = true) ∧ (byteAt (echPayload c.bytes) 8 ≤ 15) ∧ (off = ftDiff c.stamp (BitVec.ofNat 64 (echOf c.bytes).stamp) + u.pathDelay 0 + u.asymOf 0) ∧ (u.tracks 0 off)) beaconAt 0 0 (found (beaconAt.takeCtl 0 (isEchOp 0x70))) (after (beaconAt.takeCtl 0 (isEchOp 0x70))) (-256)) ∧
    ((fun (s : State) (p : Port) (l : Lp) (c : Ctl) (u : State) => (s.live = true) ∧ (s.takeCtl (srcOf p l) (isEchOp 0x70) = some (c, u)) ∧ (u.designated 0 = srcOf p l) ∧ (u.srcActive = 0) ∧ (((echOf c.bytes).crcOk = false ∨ 15 < byteAt (echPayload c.bytes) 8))) (beaconWith 16) 0 0 (found ((beaconWith 16).takeCtl 0 (isEchOp 0x70))) (after ((beaconWith 16).takeCtl 0 (isEchOp 0x70)))) ∧
    ((fun (s : State) (p : Port) (l : Lp) (c : Ctl) (u : State) => (s.live = true) ∧ (s.takeCtl (srcOf p l) (isPtp 0) = some (c, u)) ∧ (u.designated 1 = srcOf p l) ∧ (u.judged 1 = true) ∧ (u.clk.sync = none) ∧ (signed 64 (beAt (ptpBody c) 8 8) % 256 = 0) ∧ (bitOf (byteAt (ptpBody c) 6) 1 = true)) (ptpAt (ptpMsg 0 0x200 3 0 9)) 0 0 (found (State.takeCtl (ptpAt (ptpMsg 0 0x200 3 0 9)) 0 (isPtp 0))) (after (State.takeCtl (ptpAt (ptpMsg 0 0x200 3 0 9)) 0 (isPtp 0)))) ∧
    ((fun (s : State) (p : Port) (l : Lp) (c : Ctl) (u : State) (off : Int) => (s.live = true) ∧ (s.takeCtl (srcOf p l) (isPtp 0) = some (c, u)) ∧ (u.designated 1 = srcOf p l) ∧ (u.clk.sync = none) ∧ (signed 64 (beAt (ptpBody c) 8 8) % 256 = 0) ∧ (bitOf (byteAt (ptpBody c) 6) 1 = false) ∧ (off = ftDiff c.stamp (ptpStamp (ptpBody c) 34) + signed 64 (beAt (ptpBody c) 8 8) / 256 + u.pathDelay 1 + u.asymOf 1) ∧ (u.tracks 1 off)) (ptpAt (ptpMsg 0 0 3 0 9)) 0 0 (found (State.takeCtl (ptpAt (ptpMsg 0 0 3 0 9)) 0 (isPtp 0))) (after (State.takeCtl (ptpAt (ptpMsg 0 0 3 0 9)) 0 (isPtp 0))) (-254)) ∧
    ((fun (s : State) (p : Port) (l : Lp) (c : Ctl) (u : State) (y : PtpSync) (off : Int) => (s.live = true) ∧ (s.takeCtl (srcOf p l) (isPtp 8) = some (c, u)) ∧ (u.designated 1 = srcOf p l) ∧ (u.clk.sync = some y) ∧ (y.seq = beAt (ptpBody c) 30 2) ∧ (signed 64 (beAt (ptpBody c) 8 8) % 256 = 0) ∧ (off = ftDiff y.ingress (ptpStamp (ptpBody c) 34) + y.corr + signed 64 (beAt (ptpBody c) 8 8) / 256 + u.pathDelay 1 + u.asymOf 1) ∧ (u.tracks 1 off)) followAt 0 0 (found (followAt.takeCtl 0 (isPtp 8))) (after (followAt.takeCtl 0 (isPtp 8))) (⟨3, 2560, 1⟩) (-509)) ∧
    ((fun (s : State) (_ : Port) (_ : Lp) (_ : Ctl) (_ : State) (next : FT64) (off : Int) => (s.live = true) ∧ (next = BitVec.ofNat 64 (s.reg TIME_PPS_NEXT_next)) ∧ (s.clk.ppsWritten = true) ∧ (s.clk.refStop = none) ∧ (off = ftDiff s.ppsCapture next + s.asymOf 2) ∧ (s.tracks 2 off)) wideAt 0 0 (found none) run 5120 (ftDiff wideAt.ppsCapture 5120 + wideAt.asymOf 2)) := by
  exact ⟨by beta_reduce; decide +kernel, by beta_reduce; exact ⟨by decide +kernel, by decide +kernel, by decide +kernel, by decide +kernel, .inr (by decide +kernel)⟩, by beta_reduce; decide +kernel, by beta_reduce; decide +kernel, by beta_reduce; decide +kernel, by beta_reduce; exact ⟨by decide +kernel, by decide +kernel, by decide +kernel, by decide +kernel, rfl, by decide +kernel, by decide +kernel, by decide +kernel, by decide +kernel, wideAt_off⟩⟩

def dreqAt : State := run.withCtl 0 2560 (ech0 0x71 2304 (List.replicate 16 0))
def drespAt : State := { locked 0 with clk := { run.clk with linkReq := some 0 } }.withCtl 0 2560 (ech0 0x72 2304 (beBytes 8 1000 ++ beBytes 8 1100))
def pdreqAt : State := ptpAt (ptpMsg 2 0 3 0 9)
def pdrespAt : State := { ptpAt (ptpMsg 10 0 3 0 9) with clk := { (locked 1).clk with pdReq := some { seq := 3, t1 := some 1000, resp := some (2560, 4000, 0) } } }

theorem test_wit_DelayExchanges :
    ((fun (s : State) (p : Port) (l : Lp) (c : Ctl) (u : State) => (s.live = true) ∧ (s.takeCtl (srcOf p l) (isEchOp 0x71) = some (c, u)) ∧ (echHeaderOk c.bytes = true)) dreqAt 0 0 (found (dreqAt.takeCtl 0 (isEchOp 0x71))) (after (dreqAt.takeCtl 0 (isEchOp 0x71)))) ∧
    ((fun (s : State) (p : Port) (l : Lp) (c : Ctl) (u : State) => (s.live = true) ∧ (s.takeCtl (srcOf p l) (isPtp 2) = some (c, u)) ∧ (u.designated 1 = srcOf p l) ∧ (signed 64 (beAt (ptpBody c) 8 8) % 256 = 0)) pdreqAt 0 0 (found (pdreqAt.takeCtl 0 (isPtp 2))) (after (pdreqAt.takeCtl 0 (isPtp 2)))) ∧
    ((fun (s : State) (_ : Port) (_ : Lp) (_ : Ctl) (_ : State) => (s.live = true) ∧ (s.judged 0 = true) ∧ (s.judged 1 = false) ∧ (s.isUp (s.designated 0) = true) ∧ (s.clk.linkReq = none)) ((locked 0).withUp 0) 0 0 (found none) run) ∧
    ((fun (s : State) (_ : Port) (_ : Lp) (_ : Ctl) (_ : State) => (s.live = true) ∧ (s.judged 0 = false) ∧ (s.judged 1 = true) ∧ (s.isUp (s.designated 1) = true) ∧ (s.clk.pdReq = none)) ((locked 1).withUp 0) 0 0 (found none) run) ∧
    ((fun (s : State) (p : Port) (l : Lp) (c : Ctl) (u : State) (t1 : Int) (d : Int) => (s.live = true) ∧ (s.takeCtl (srcOf p l) (isEchOp 0x72) = some (c, u)) ∧ (echHeaderOk c.bytes = true) ∧ (u.clk.linkReq = some (srcOf p l)) ∧ (u.srcActive = 0) ∧ (t1 = ftDiff (BitVec.ofNat 64 (beAt (echPayload c.bytes) 0 8)) c.stamp - ftDiff (BitVec.ofNat 64 (beAt (echPayload c.bytes) 8 8)) (BitVec.ofNat 64 (echOf c.bytes).stamp)) ∧ (t1 = 2 * d)) drespAt 0 0 (found (drespAt.takeCtl 0 (isEchOp 0x72))) (after (drespAt.takeCtl 0 (isEchOp 0x72))) 356 178) ∧
    ((fun (s : State) (p : Port) (l : Lp) (c : Ctl) (u : State) (r : PtpPdelay) (t1 : FT64) (t2 : FT64) (t4 : FT64) (k1 : Int) (k2 : Int) (d : Int) => (s.live = true) ∧ (s.takeCtl (srcOf p l) (fun c => isPtp 3 c || isPtp 10 c) = some (c, u)) ∧ (isPtp 3 c = false) ∧ (u.designated 1 = srcOf p l) ∧ (u.srcActive = 1) ∧ (u.clk.pdReq = some r) ∧ (r.t1 = some t1) ∧ (r.resp = some (t2, t4, k1)) ∧ (r.seq = beAt (ptpBody c) 30 2) ∧ (signed 64 (beAt (ptpBody c) 8 8) = 256 * k2) ∧ (ftDiff t1 t4 - ftDiff t2 (ptpStamp (ptpBody c) 34) - (k1 + k2) = 2 * d)) pdrespAt 0 0 (found (pdrespAt.takeCtl 0 (isPtp 10))) (after (pdrespAt.takeCtl 0 (isPtp 10))) ({ seq := 3, t1 := some 1000, resp := some (2560, 4000, 0) }) 1000 2560 4000 0 2 1627) ∧
    ((fun (s : State) (p : Port) (l : Lp) (c : Ctl) (u : State) => (s.live = true) ∧ (s.takeCtl (srcOf p l) (isPtp 11) = some (c, u)) ∧ (u.designated 1 = srcOf p l)) (ptpAt (ptpMsg 11 0 3 0 9)) 0 0 (found (State.takeCtl (ptpAt (ptpMsg 11 0 3 0 9)) 0 (isPtp 11))) (after (State.takeCtl (ptpAt (ptpMsg 11 0 3 0 9)) 0 (isPtp 11)))) := by
  exact ⟨by beta_reduce; decide +kernel, by beta_reduce; decide +kernel, by beta_reduce; decide +kernel, by beta_reduce; decide +kernel, by beta_reduce; decide +kernel, by beta_reduce; decide +kernel, by beta_reduce; decide +kernel⟩

def beaconer : State := ((locked 0).withUp 3).setReg TIME_BEACON_CFG_tx_mask 1
def beaconBytes : Bytes := beBytes 8 0 ++ beBytes 1 1 ++ beBytes 1 0 ++ beBytes 1 0 ++ [0] ++ beBytes 4 0

theorem test_wit_BeaconsLeaveInLockedAndHoldover :
    ((fun (s : State) => (s.live = true) ∧ ((s.reg TIME_STATUS_state = 2 ∨ s.reg TIME_STATUS_state = 3))) beaconer) ∧
    ((fun (s : State) (src : Nat) (b : Bytes) => (s.live = true) ∧ (src < 192) ∧ ((∀ x, x < 192 → ((bitOf (s.reg TIME_BEACON_CFG_tx_mask) (x / 8) && s.isUp x) = true ↔ x = src))) ∧ ((s.reg TIME_STATUS_state = 2 ∨ s.reg TIME_STATUS_state = 3)) ∧ (b = beBytes 8 s.clk.rootId ++ beBytes 1 (s.clk.rootHops + 1) ++ beBytes 1 s.clk.rootQuality ++ beBytes 1 (if s.reg TIME_STATUS_state = 3 then 1 else 0) ++ [0] ++ beBytes 4 (s.clk.beaconSeq.get 0 src))) beaconer 3 beaconBytes) ∧
    ((fun (s : State) (src : Nat) (b : Bytes) => (s.live = true) ∧ (src < 192) ∧ ((∀ x, x < 192 → ((bitOf (s.reg TIME_BEACON_CFG_tx_mask) (x / 8) && s.isUp x) = true ↔ x = src))) ∧ ((s.reg TIME_STATUS_state = 2 ∨ s.reg TIME_STATUS_state = 3)) ∧ (b = beBytes 8 s.clk.rootId ++ beBytes 1 (s.clk.rootHops + 1) ++ beBytes 1 s.clk.rootQuality ++ beBytes 1 (if s.reg TIME_STATUS_state = 3 then 1 else 0) ++ [0] ++ beBytes 4 (s.clk.beaconSeq.get 0 src)) ∧ ((s.link src).eg.tx = none) ∧ ((s.link src).eg.ctlq = []) ∧ (s.llrOn src = false) ∧ (s.replaying = false)) beaconer 3 beaconBytes) ∧
    ((fun (s : State) => (s.live = true) ∧ ((s.reg TIME_STATUS_state = 0 ∨ s.reg TIME_STATUS_state = 1))) run) := by
  exact ⟨by beta_reduce; decide +kernel, by beta_reduce; decide +kernel, by beta_reduce; decide +kernel, by beta_reduce; decide +kernel⟩

theorem test_wit_LossOfTheSource :
    ((fun (s : State) (k : LossCause) => (s.live = true) ∧ (s.lossHolds k = true) ∧ (s.clk.lost = false) ∧ (s.reg TIME_STATUS_state = 2) ∧ (s.elapsed s.clk.lockedAt 10000000000 = true)) ((locked 2).atNs 10000000000) .pps) ∧
    ((fun (s : State) (k : LossCause) => (s.live = true) ∧ (s.lossHolds k = true) ∧ (s.clk.lost = false) ∧ ((s.reg TIME_STATUS_state = 1 ∨ (s.reg TIME_STATUS_state = 2 ∧ s.elapsed s.clk.lockedAt 10000000000 = false)))) ((locked 2).atNs 9999999999) .pps) ∧
    ((fun (s : State) (_ : LossCause) => (s.live = true) ∧ (s.reg TIME_STATUS_state = 3) ∧ (s.reg TIME_LIMIT_CFG_holdover_max ≤ s.holdMs)) ((run.setReg TIME_STATUS_state 3).setReg TIME_LIMIT_CFG_holdover_max 0) .pps) ∧
    ((fun (s : State) (_ : LossCause) => (s.live = true) ∧ (s.clk.refStop = none)) (locked 2) .pps) ∧
    ((fun (s : State) (_ : LossCause) => (s.live = true) ∧ (s.judged 2 = true) ∧ (s.refJustStopped = true)) ({ locked 2 with clk := { (locked 2).clk with refStop := some 0 } }) .pps) := by
  exact ⟨by beta_reduce; decide +kernel, by beta_reduce; decide +kernel, by beta_reduce; decide +kernel, by beta_reduce; decide +kernel, by beta_reduce; decide +kernel⟩

/-- Port 0 enabled, its logical port 0 in state `st`. -/
def linkAt (st : LinkSt) : State := (run.setReg (PORT_CFG_enable 0) 1).modLink 0 (fun l => { l with st := st })
def lit : State := { linkAt .down with hw := { (linkAt .down).hw with dark := [] } }
def retryAt (s : State) : State := (s.setReg (PORT_LLR_CFG_en 0) 1).setReg (PORT_STATUS_llr_active 0) 1
def heldAt (s : State) : State := s.modLink 0 (fun l => { l with held := [{ seq := 5, bytes := [1], good := true, stamp := 0 }] })

theorem test_wit_PortAdministration :
    ((fun (s : State) (p : Port) (_ : Fin 4) (_ : Nat) => (s.live = true) ∧ (s.flag HUB_STATUS_ready = true) ∧ (s.flag (PORT_CFG_enable p) = false)) run 23 3 0x1271) ∧
    ((fun (s : State) (p : Port) (_ : Fin 4) (_ : Nat) => (s.live = true) ∧ (s.flag HUB_STATUS_ready = true) ∧ (s.flag (PORT_CFG_enable p) = true) ∧ ((∀ l, l < 8 → (s.link (8 * p + l)).eg.q = [] ∧ (s.link (8 * p + l)).eg.tx = none))) (run.setReg (PORT_CFG_enable 23) 1) 23 3 0x1271) ∧
    ((fun (s : State) (_ : Port) (_ : Fin 4) (_ : Nat) => (s.live = true) ∧ (s.flag HUB_STATUS_ready = true)) run 23 3 0x1271) ∧
    ((fun (s : State) (p : Port) (_ : Fin 4) (v : Nat) => (s.live = true) ∧ (s.flag HUB_STATUS_ready = true) ∧ (bits v 0 2 ≠ 3) ∧ ((∀ l, l < 8 → (s.link (8 * p + l)).st = .disabled)) ∧ (s.store.usage = []) ∧ (s.store.bp = []) ∧ (s.store.bpPairs = [])) run 23 3 0x1271) ∧
    ((fun (s : State) (_ : Port) (_ : Fin 4) (_ : Nat) => (s.live = true) ∧ (s.flag HUB_STATUS_ready = true) ∧ (s.latchNow.counts = [])) run 23 3 0x1271) ∧
    ((fun (s : State) (p : Port) (_ : Fin 4) (_ : Nat) (l : Lp) (n : Nat) => (s.live = true) ∧ (s.flag HUB_STATUS_ready = true) ∧ (s.latchNow.counts = [((PORT_LCTR_rx_frames p l).key, n)]) ∧ (n < 2 ^ 64)) ({ run with latch := { run.latch with cyc := run.clk.cyc, counts := [((PORT_LCTR_rx_frames 23 4).key, 3)] } }) 23 3 0x1271 4 3) := by
  exact ⟨by beta_reduce; decide +kernel, by beta_reduce; decide +kernel, by beta_reduce; decide +kernel, by beta_reduce; decide +kernel, by beta_reduce; decide +kernel, by beta_reduce; decide +kernel⟩

theorem test_wit_LinkBringUpAndLoss :
    ((fun (s : State) (p : Port) (l : Lp) (_ : Nat) (_ : List Nat) (_ : Tile) => (s.live = true) ∧ ((s.link (8 * p + l)).st = .down) ∧ (l.val < s.lpCount p) ∧ (s.hw.dark.contains (p.val / 3) = false) ∧ ((s.port p).blocked = false) ∧ (s.sys.txDark = false) ∧ (s.mir.rehearsal = none)) lit 0 0 3 ([5, 1, 2]) 7) ∧
    ((fun (s : State) (p : Port) (l : Lp) (_ : Nat) (_ : List Nat) (_ : Tile) => (s.live = true) ∧ ((s.link (8 * p + l)).st = .align) ∧ (bitOf (s.reg (PORT_LLR_CFG_en p)) l = true)) ((linkAt .align).setReg (PORT_LLR_CFG_en 0) 1) 0 0 3 ([5, 1, 2]) 7) ∧
    ((fun (s : State) (p : Port) (l : Lp) (_ : Nat) (_ : List Nat) (_ : Tile) => (s.live = true) ∧ ((s.link (8 * p + l)).st = .align) ∧ (bitOf (s.reg (PORT_LLR_CFG_en p)) l = false)) (linkAt .align) 0 0 3 ([5, 1, 2]) 7) ∧
    ((fun (s : State) (p : Port) (l : Lp) (_ : Nat) (_ : List Nat) (_ : Tile) => (s.live = true) ∧ ((s.link (8 * p + l)).st ≠ .disabled) ∧ ((s.link (8 * p + l)).st ≠ .down) ∧ ((s.link (8 * p + l)).lostAt = none)) (linkAt .up) 0 0 3 ([5, 1, 2]) 7) ∧
    ((fun (s : State) (p : Port) (l : Lp) (_ : Nat) (_ : List Nat) (_ : Tile) (t0 : FT64) => (s.live = true) ∧ ((s.link (8 * p + l)).lostAt = some t0) ∧ (ftDiff t0 s.now ≤ 1024000)) (((linkAt .up).modLink 0 (fun l => { l with lostAt := some 0 })).atNs 4000) 0 0 3 ([5, 1, 2]) 7 0) ∧
    ((fun (s : State) (p : Port) (l : Lp) (_ : Nat) (_ : List Nat) (_ : Tile) (t0 : FT64) => (s.live = true) ∧ ((s.link (8 * p + l)).lostAt = some t0) ∧ (1024000 < ftDiff t0 s.now) ∧ ((s.link (8 * p + l)).eg.q = []) ∧ ((s.link (8 * p + l)).eg.tx = none)) (((linkAt .up).modLink 0 (fun l => { l with lostAt := some 0 })).atNs 4001) 0 0 3 ([5, 1, 2]) 7 0) ∧
    ((fun (s : State) (_ : Port) (_ : Lp) (_ : Nat) (h : List Nat) (_ : Tile) (sum : Nat) => (s.live = true) ∧ (sum = (List.range 16).foldl (fun a i => a + i * h.getD i 0) 0)) lit 0 0 3 ([5, 1, 2]) 7 5) ∧
    ((fun (s : State) (_ : Port) (_ : Lp) (_ : Nat) (_ : List Nat) (_ : Tile) (_ : Mlink) => (s.live = true)) lit 0 0 3 ([5, 1, 2]) 7 1) ∧
    ((fun (s : State) (_ : Port) (_ : Lp) (_ : Nat) (_ : List Nat) (k : Tile) => (s.live = true) ∧ (s.hw.dark.contains k.val = false) ∧ ((∀ q ∈ tilePorts k, ∀ j, j < 8 → (s.link (8 * q + j)).eg.q = [] ∧ (s.link (8 * q + j)).eg.tx = none))) lit 0 0 3 ([5, 1, 2]) 7) ∧
    ((fun (s : State) (_ : Port) (_ : Lp) (_ : Nat) (_ : List Nat) (k : Tile) => (s.live = true) ∧ (s.hw.dark.contains k.val = true) ∧ (s.sys.lasers.contains k.val = true) ∧ (bitOf (s.reg HUB_BOARD_STATUS_ls_run) k = true)) (run.setReg HUB_BOARD_STATUS_ls_run 128) 0 0 3 ([5, 1, 2]) 7) := by
  exact ⟨by beta_reduce; decide +kernel, by beta_reduce; decide +kernel, by beta_reduce; decide +kernel, by beta_reduce; decide +kernel, by beta_reduce; decide +kernel, by beta_reduce; decide +kernel, by beta_reduce; decide +kernel, by beta_reduce; decide +kernel, by beta_reduce; decide +kernel, by beta_reduce; decide +kernel⟩

def initRxAt : State := (linkAt .llrInit).withCtl 0 0 (ech0 0x74 0 [9, 1, 0, 0, 0, 0, 0, 0])
def ackAt : State := (heldAt (retryAt (linkAt .up))).withCtl 0 0 (ech0 0x75 0 [0, 0, 0, 6, 0, 0, 0, 0])
def nackAt : State := (heldAt (retryAt (linkAt .up))).withCtl 0 0 (ech0 0x76 0 [0, 0, 0, 5, 0, 0, 0, 0])
def mirAt (s : State) : State := s.withUp 193 |>.modLink 193 (fun l => { l with sentInit := some true })
def mirInitAt : State := (mirAt run).withCtl 193 0 (ech0 0x74 0 [9, 1, 0, 0, 0, 0, 0, 0])

theorem test_wit_LinkLevelRetry :
    ((fun (s : State) (p : LlrPort) (l : Lp) (_ : Ctl) (_ : State) => (s.live = true) ∧ ((s.link (srcOf p l)).st = .llrInit)) (linkAt .llrInit) 0 0 (found none) run) ∧
    ((fun (s : State) (p : LlrPort) (l : Lp) (c : Ctl) (u : State) => (s.live = true) ∧ (s.takeCtl (srcOf p l) (isEchOp 0x74) = some (c, u)) ∧ (srcOf p l < 192) ∧ ((u.link (srcOf p l)).st = .llrInit) ∧ (u.fcMode (srcOf p l) ≠ 2) ∧ ((u.link (srcOf p l)).eg.ctlq = [])) initRxAt 0 0 (found (initRxAt.takeCtl 0 (isEchOp 0x74))) (after (initRxAt.takeCtl 0 (isEchOp 0x74)))) ∧
    ((fun (s : State) (p : LlrPort) (l : Lp) (c : Ctl) (u : State) => (s.live = true) ∧ (s.takeCtl (srcOf p l) (isEchOp 0x74) = some (c, u)) ∧ (192 ≤ srcOf p l) ∧ (u.isUp (srcOf p l) = true) ∧ ((u.link (srcOf p l)).peerInit = none) ∧ ((u.link (srcOf p l)).sentInit ≠ none)) mirInitAt 24 1 (found (mirInitAt.takeCtl 193 (isEchOp 0x74))) (after (mirInitAt.takeCtl 193 (isEchOp 0x74)))) ∧
    ((fun (s : State) (p : LlrPort) (l : Lp) (_ : Ctl) (_ : State) => (s.live = true) ∧ ((s.link (srcOf p l)).st = .llrInit) ∧ (srcOf p l < 192) ∧ (s.elapsed (s.link (srcOf p l)).since 1000000 = true) ∧ (s.fcMode (srcOf p l) ≠ 2)) ((linkAt .llrInit).atNs 1000000) 0 0 (found none) run) ∧
    ((fun (s : State) (p : LlrPort) (l : Lp) (c : Ctl) (u : State) (left : List Held) => (s.live = true) ∧ (s.takeCtl (srcOf p l) (isEchOp 0x75) = some (c, u)) ∧ (u.llrOn (srcOf p l) = true) ∧ (byteAt (echPayload c.bytes) 0 = (u.link (srcOf p l)).peerSess) ∧ ((u.link (srcOf p l)).eg.ctlq = []) ∧ (left = (u.link (srcOf p l)).held.filter (fun h => !seqBefore h.seq (beAt (echPayload c.bytes) 2 2))) ∧ (left.length < (u.link (srcOf p l)).held.length)) ackAt 0 0 (found (ackAt.takeCtl 0 (isEchOp 0x75))) (after (ackAt.takeCtl 0 (isEchOp 0x75))) ([])) ∧
    ((fun (s : State) (p : LlrPort) (l : Lp) (c : Ctl) (u : State) => (s.live = true) ∧ (s.takeCtl (srcOf p l) (isEchOp 0x76) = some (c, u)) ∧ (u.llrOn (srcOf p l) = true) ∧ (byteAt (echPayload c.bytes) 0 = (u.link (srcOf p l)).peerSess) ∧ ((u.link (srcOf p l)).held ≠ []) ∧ ((u.link (srcOf p l)).resends < u.maxRetries (srcOf p l)) ∧ ((u.link (srcOf p l)).eg.tx = none)) nackAt 0 0 (found (nackAt.takeCtl 0 (isEchOp 0x76))) (after (nackAt.takeCtl 0 (isEchOp 0x76)))) ∧
    ((fun (s : State) (p : LlrPort) (l : Lp) (_ : Ctl) (_ : State) (h : Held) (r : List Held) => (s.live = true) ∧ ((s.link (srcOf p l)).held = h :: r) ∧ (s.llrOn (srcOf p l) = true) ∧ (s.elapsed (s.link (srcOf p l)).lastAck (s.retryNs (srcOf p l)) = true) ∧ ((s.link (srcOf p l)).resends < s.maxRetries (srcOf p l)) ∧ ((s.link (srcOf p l)).eg.tx = none)) ((heldAt (retryAt (linkAt .up))).atNs 10000000000) 0 0 (found none) run ({ seq := 5, bytes := [1], good := true, stamp := 0 }) ([])) ∧
    ((fun (s : State) (p : LlrPort) (l : Lp) (_ : Ctl) (_ : State) (h : Held) (r : List Held) => (s.live = true) ∧ ((s.link (srcOf p l)).held = h :: r) ∧ (s.llrOn (srcOf p l) = true) ∧ (s.elapsed (s.link (srcOf p l)).lastAck (s.retryNs (srcOf p l)) = true) ∧ (s.maxRetries (srcOf p l) ≤ (s.link (srcOf p l)).resends) ∧ ((s.link (srcOf p l)).eg.q = []) ∧ ((s.link (srcOf p l)).eg.tx = none)) ((((heldAt (retryAt (linkAt .up))).atNs 10000000000)).setReg (PORT_LLR_CFG_max_retries 0) 0) 0 0 (found none) run ({ seq := 5, bytes := [1], good := true, stamp := 0 }) ([])) ∧
    ((fun (s : State) (p : LlrPort) (l : Lp) (_ : Ctl) (_ : State) => (s.live = true) ∧ (s.llrOn (srcOf p l) = true) ∧ ((s.link (srcOf p l)).nextExp ≠ (s.link (srcOf p l)).acked) ∧ ((s.link (srcOf p l)).skipping = false)) ((retryAt (linkAt .up)).modLink 0 (fun l => { l with nextExp := 65535 })) 0 0 (found none) run) := by
  exact ⟨by beta_reduce; decide +kernel, by beta_reduce; decide +kernel, by beta_reduce; decide +kernel, by beta_reduce; decide +kernel, by beta_reduce; decide +kernel, by beta_reduce; decide +kernel, by beta_reduce; decide +kernel, by beta_reduce; decide +kernel, by beta_reduce; decide +kernel⟩

def pfcAt : State := ((linkAt .up).setReg (PORT_FC_CFG_mode 0) 1).withCtl 0 0 (pfcFrame 1 [(6, 9), (0, 0)])
def pfcOff : State := (linkAt .up).withCtl 0 0 (pfcFrame 1 [(6, 9), (0, 0)])
def credits : State := (((linkAt .fcInit).setReg (PORT_FC_CFG_mode 0) 2).setReg (PORT_CLASS_CFG_lossless_mask 0) 0x41)
def creditAt : State := credits.withCtl 0 0 (ech0 0x78 0 [0, 0x41, 0, 0, 0, 0, 0, 0])
def updateAt : State := credits.withCtl 0 0 (ech0 0x79 0 (List.replicate 32 5))

theorem test_wit_FlowControlFrames :
    ((fun (s : State) (p : Port) (l : Lp) (_ : Cls) (c : Ctl) (u : State) => (s.live = true) ∧ (s.takeCtl (srcOf p l) (fun c => isPfc c.bytes) = some (c, u)) ∧ (u.fcMode (srcOf p l) = 1)) pfcAt 0 0 6 (found (pfcAt.takeCtl 0 (fun c => isPfc c.bytes))) (after (pfcAt.takeCtl 0 (fun c => isPfc c.bytes)))) ∧
    ((fun (s : State) (p : Port) (l : Lp) (_ : Cls) (c : Ctl) (u : State) => (s.live = true) ∧ (s.takeCtl (srcOf p l) (fun c => isPfc c.bytes) = some (c, u)) ∧ (u.fcMode (srcOf p l) ≠ 1) ∧ (bitOf (beAt c.bytes ((parseFrame c.bytes).l3 + 2) 2) 7 = false)) pfcOff 0 0 6 (found (pfcOff.takeCtl 0 (fun c => isPfc c.bytes))) (after (pfcOff.takeCtl 0 (fun c => isPfc c.bytes)))) ∧
    ((fun (s : State) (p : Port) (l : Lp) (cl : Cls) (_ : Ctl) (_ : State) (t0 : FT64) => (s.live = true) ∧ ((s.link (srcOf p l)).pause.find? cl = some t0) ∧ (atOrBefore t0 s.now = true)) ((linkAt .up).modLink 0 (fun l => { l with pause := [(6, 0)] })) 0 0 6 (found (pfcAt.takeCtl 0 (fun c => isPfc c.bytes))) (after (pfcAt.takeCtl 0 (fun c => isPfc c.bytes))) 0) ∧
    ((fun (s : State) (p : Port) (l : Lp) (_ : Cls) (_ : Ctl) (_ : State) (fr : Bytes) => (s.live = true) ∧ (s.isUp (srcOf p l) = true) ∧ (s.fcMode (srcOf p l) = 1) ∧ (s.bpClasses (srcOf p l) ≠ []) ∧ (fr = pfcFrame (s.station (srcOf p l / 8)) ((s.bpClasses (srcOf p l)).map (fun i => (i, s.reg (PORT_PFC_CFG_xoff_quanta p)))))) ({ pfcAt with store := { pfcAt.store with bpPairs := [0] } }) 0 0 6 (found (pfcAt.takeCtl 0 (fun c => isPfc c.bytes))) (after (pfcAt.takeCtl 0 (fun c => isPfc c.bytes))) (pfcFrame (run.station 0) [(0, run.reg (PORT_PFC_CFG_xoff_quanta 0))])) ∧
    ((fun (s : State) (p : Port) (l : Lp) (_ : Cls) (c : Ctl) (u : State) => (s.live = true) ∧ (s.takeCtl (srcOf p l) (isEchOp 0x78) = some (c, u)) ∧ (u.fcMode (srcOf p l) = 2) ∧ (((u.link (srcOf p l)).st = .fcInit ∨ (u.link (srcOf p l)).st = .up))) creditAt 0 0 6 (found (creditAt.takeCtl 0 (isEchOp 0x78))) (after (creditAt.takeCtl 0 (isEchOp 0x78)))) ∧
    ((fun (s : State) (p : Port) (l : Lp) (_ : Cls) (c : Ctl) (u : State) => (s.live = true) ∧ (s.takeCtl (srcOf p l) (isEchOp 0x79) = some (c, u)) ∧ (u.fcMode (srcOf p l) = 2)) updateAt 0 0 6 (found (updateAt.takeCtl 0 (isEchOp 0x79))) (after (updateAt.takeCtl 0 (isEchOp 0x79)))) ∧
    ((fun (s : State) (p : Port) (l : Lp) (_ : Cls) (_ : Ctl) (_ : State) => (s.live = true) ∧ (s.isUp (srcOf p l) = true) ∧ (s.fcMode (srcOf p l) = 2)) ((credits.modLink 0 (fun l => { l with st := .up }))) 0 0 6 (found (pfcAt.takeCtl 0 (fun c => isPfc c.bytes))) (after (pfcAt.takeCtl 0 (fun c => isPfc c.bytes)))) ∧
    ((fun (s : State) (p : Port) (l : Lp) (_ : Cls) (_ : Ctl) (_ : State) (t0 : FT64) => (s.live = true) ∧ ((s.link (srcOf p l)).eg.creditSince = some t0) ∧ (s.fcMode (srcOf p l) = 2) ∧ (s.elapsed t0 (s.reg (PORT_CREDIT_CFG_timeout (srcOf p l / 8)) * 10000) = true) ∧ (s.elapsed (s.link (srcOf p l)).lastUpdate (s.reg (PORT_CREDIT_CFG_timeout (srcOf p l / 8)) * 10000) = true)) ((credits.modLink 0 (fun l => { l with st := .up, eg := { l.eg with creditSince := some 0 } })).atNs 10000000000) 0 0 6 (found (pfcAt.takeCtl 0 (fun c => isPfc c.bytes))) (after (pfcAt.takeCtl 0 (fun c => isPfc c.bytes))) 0) := by
  exact ⟨by beta_reduce; decide +kernel, by beta_reduce; decide +kernel, by beta_reduce; decide +kernel, by beta_reduce; decide +kernel, by beta_reduce; decide +kernel, by beta_reduce; decide +kernel, by beta_reduce; decide +kernel, by beta_reduce; decide +kernel⟩

/-- Port 1, logical port 0, UP with a reception `r` under way. -/
def rxAt (r : Option Rx) : State := (((run.setReg (PORT_CFG_enable 1) 1).withUp 8).modLink 8 (fun k => { k with rx := r }))
def plainFrame : Bytes := padTo 60 (beBytes 6 7 ++ beBytes 6 9 ++ [0x12, 0x34])
def timedRx : Rx := { stamp := 256, arr := 3 }
def tailRx (f : Fate) : Rx := { stamp := 256, arr := 3, decided := true, data := plainFrame, fate := f }
def ready5 : State := (rxAt (some timedRx)).setReg STORE_STATUS_ready 1
def slot5 : State := (ready5.lookupSlot 1 256).getD run
def cls5 : Nat := ready5.classify 1 (parseFrame (plainFrame.take 256))
def rx5 : Rx := { timedRx with decided := true, whole := false, data := plainFrame.take 256, cls := cls5, colour := 0, recorded := false }
def fate5 : Fate × State := slot5.decideFate 8 cls5 rx5 (plainFrame.take 256) (parseFrame (plainFrame.take 256)) false
def retryRx (q : Nat) (skip : Bool) : State :=
  (((rxAt none).setReg (PORT_LLR_CFG_en 1) 1).setReg (PORT_STATUS_llr_active 1) 1).modLink 8 (fun k => { k with nextExp := q, ownSess := 7, skipping := skip })
/-- A time frame of group 0. -/
def timeFrame : Bytes := ech0 0x70 0 (List.replicate 16 0)
def downRx : State := ready5.modLink 8 (fun k => { k with st := .llrInit })
/-- A lookup that is busy with more waiting bytes than it holds. -/
def busyRx : State := ready5.modPort 1 (fun q => { q with lookFree := 100, lookWait := [(100, 4096)] })
def d5 (b : Bytes) : Rx := { timedRx with decided := true, whole := false, data := b.take 256 }
/-- The store is ready, with one free buffer in each pool. -/
def fwdAt : State := { ready5.setReg STORE_SHARED_STATUS_total 4096 with store := { ready5.store with
  pools := (List.range 6).map (fun k => (k, { ring := [], caches := [(ready5.portHome 8, [⟨1000 * (k + 1), 1, 1⟩])] })) } }
def hops : State := { fwdAt with tables := { fwdAt.tables with endpoint := [(7 * 4096, 1 + 256 * 4)], nexthop := [(4, [16, 0] ++ List.replicate 14 3)] } }

theorem test_wit_FrameReception :
    ((fun (s : State) (p : Port) (l : Lp) (_ : Bytes) (_ : Rx) (_ : Bytes) => (s.live = true) ∧ (((s.link (8 * p + l)).st = .up ∨ (s.link (8 * p + l)).st = .llrInit ∨ (s.link (8 * p + l)).st = .fcInit)) ∧ (l.val < s.lpCount p) ∧ ((s.link (8 * p + l)).rx = none) ∧ (s.replaying = false) ∧ (s.llrOn (8 * p + l) = false)) (rxAt none) 1 0 plainFrame timedRx (llrTag 65535 7)) ∧
    ((fun (s : State) (p : Port) (l : Lp) (_ : Bytes) (_ : Rx) (pre : Bytes) => (s.live = true) ∧ (((s.link (8 * p + l)).st = .up ∨ (s.link (8 * p + l)).st = .llrInit ∨ (s.link (8 * p + l)).st = .fcInit)) ∧ (l.val < s.lpCount p) ∧ ((s.link (8 * p + l)).rx = none) ∧ (s.replaying = false) ∧ (s.llrOn (8 * p + l) = true) ∧ (readTag pre = .sequenced (s.link (8 * p + l)).nextExp (s.link (8 * p + l)).ownSess)) (retryRx 65535 false) 1 0 plainFrame timedRx (llrTag 65535 7)) ∧
    ((fun (s : State) (p : Port) (l : Lp) (_ : Bytes) (_ : Rx) (pre : Bytes) (q : Nat) (n : Nat) => (s.live = true) ∧ (((s.link (8 * p + l)).st = .up ∨ (s.link (8 * p + l)).st = .llrInit ∨ (s.link (8 * p + l)).st = .fcInit)) ∧ (l.val < s.lpCount p) ∧ ((s.link (8 * p + l)).rx = none) ∧ (s.replaying = false) ∧ (s.llrOn (8 * p + l) = true) ∧ (readTag pre = .sequenced q n) ∧ (q ≠ (s.link (8 * p + l)).nextExp) ∧ ((s.link (8 * p + l)).skipping = true)) (retryRx 0 true) 1 0 plainFrame timedRx (llrTag 65535 7) 65535 7) ∧
    ((fun (s : State) (p : Port) (l : Lp) (b : Bytes) (r : Rx) (w : Bool) (n : Nat) (hd : Bytes) (f : Parsed) (d : Rx) => (s.live = true) ∧ ((s.link (8 * p + l)).rx = some r) ∧ (r.decided = false) ∧ (r.dropped = false) ∧ (r.accept = true) ∧ (s.replaying = false) ∧ (hd = b.take (if w then 252 else 256)) ∧ (n = (if w then hd.length + 4 else 256)) ∧ (f = parseFrame hd) ∧ (d = { r with decided := true, whole := w, data := hd }) ∧ (w = true) ∧ (hd.length < 60)) (rxAt (some timedRx)) 1 0 ([1, 2]) timedRx true 6 ([1, 2]) (parseFrame [1, 2]) ({ timedRx with decided := true, whole := true, data := [1, 2] })) ∧
    ((fun (s : State) (p : Port) (l : Lp) (b : Bytes) (r : Rx) (w : Bool) (n : Nat) (hd : Bytes) (f : Parsed) (d : Rx) => (s.live = true) ∧ ((s.link (8 * p + l)).rx = some r) ∧ (r.decided = false) ∧ (r.dropped = false) ∧ (r.accept = true) ∧ (s.replaying = false) ∧ (hd = b.take (if w then 252 else 256)) ∧ (n = (if w then hd.length + 4 else 256)) ∧ (f = parseFrame hd) ∧ (d = { r with decided := true, whole := w, data := hd }) ∧ ((w = false ∨ 60 ≤ hd.length)) ∧ (s.portRow (8 * p + l) hd f = some 1)) (rxAt (some timedRx)) 1 0 (pfcFrame 1 [(3, 9)]) timedRx false 256 ((pfcFrame 1 [(3, 9)]).take 256) (parseFrame ((pfcFrame 1 [(3, 9)]).take 256)) (d5 (pfcFrame 1 [(3, 9)]))) ∧
    ((fun (s : State) (p : Port) (l : Lp) (b : Bytes) (r : Rx) (w : Bool) (n : Nat) (hd : Bytes) (f : Parsed) (d : Rx) (i : Nat) (u : State) => (s.live = true) ∧ ((s.link (8 * p + l)).rx = some r) ∧ (r.decided = false) ∧ (r.dropped = false) ∧ (r.accept = true) ∧ (s.replaying = false) ∧ (hd = b.take (if w then 252 else 256)) ∧ (n = (if w then hd.length + 4 else 256)) ∧ (f = parseFrame hd) ∧ (d = { r with decided := true, whole := w, data := hd }) ∧ ((w = false ∨ 60 ≤ hd.length)) ∧ (s.portRow (8 * p + l) hd f = some i) ∧ (i ≠ 1) ∧ (s.isUp (8 * p + l) = true) ∧ (s.lookupSlot p n = some u)) (rxAt (some timedRx)) 1 0 timeFrame timedRx false 256 (timeFrame.take 256) (parseFrame (timeFrame.take 256)) (d5 timeFrame) 3 (((rxAt (some timedRx)).lookupSlot 1 256).getD run)) ∧
    ((fun (s : State) (p : Port) (l : Lp) (b : Bytes) (r : Rx) (w : Bool) (n : Nat) (hd : Bytes) (f : Parsed) (d : Rx) => (s.live = true) ∧ ((s.link (8 * p + l)).rx = some r) ∧ (r.decided = false) ∧ (r.dropped = false) ∧ (r.accept = true) ∧ (s.replaying = false) ∧ (hd = b.take (if w then 252 else 256)) ∧ (n = (if w then hd.length + 4 else 256)) ∧ (f = parseFrame hd) ∧ (d = { r with decided := true, whole := w, data := hd }) ∧ ((w = false ∨ 60 ≤ hd.length)) ∧ (s.portRow (8 * p + l) hd f ≠ some 1) ∧ (s.isUp (8 * p + l) = false)) downRx 1 0 plainFrame timedRx false 256 (plainFrame.take 256) (parseFrame (plainFrame.take 256)) (d5 plainFrame)) ∧
    ((fun (s : State) (p : Port) (l : Lp) (b : Bytes) (r : Rx) (w : Bool) (n : Nat) (hd : Bytes) (f : Parsed) (d : Rx) (e : Rx) => (s.live = true) ∧ ((s.link (8 * p + l)).rx = some r) ∧ (r.decided = false) ∧ (r.dropped = false) ∧ (r.accept = true) ∧ (s.replaying = false) ∧ (hd = b.take (if w then 252 else 256)) ∧ (n = (if w then hd.length + 4 else 256)) ∧ (f = parseFrame hd) ∧ (d = { r with decided := true, whole := w, data := hd }) ∧ ((w = false ∨ 60 ≤ hd.length)) ∧ (s.portRow (8 * p + l) hd f = none) ∧ (s.isUp (8 * p + l) = true) ∧ (s.recording = false) ∧ (s.flag (PORT_POL_RATE_en p l (s.classify p f)) = false) ∧ (e = { d with cls := s.classify p f, colour := 0, recorded := false }) ∧ (s.flag STORE_STATUS_ready = false)) (rxAt (some timedRx)) 1 0 plainFrame timedRx false 256 (plainFrame.take 256) (parseFrame (plainFrame.take 256)) (d5 plainFrame) rx5) ∧
    ((fun (s : State) (p : Port) (l : Lp) (b : Bytes) (r : Rx) (w : Bool) (n : Nat) (hd : Bytes) (f : Parsed) (d : Rx) (e : Rx) => (s.live = true) ∧ ((s.link (8 * p + l)).rx = some r) ∧ (r.decided = false) ∧ (r.dropped = false) ∧ (r.accept = true) ∧ (s.replaying = false) ∧ (hd = b.take (if w then 252 else 256)) ∧ (n = (if w then hd.length + 4 else 256)) ∧ (f = parseFrame hd) ∧ (d = { r with decided := true, whole := w, data := hd }) ∧ ((w = false ∨ 60 ≤ hd.length)) ∧ (s.portRow (8 * p + l) hd f = none) ∧ (s.isUp (8 * p + l) = true) ∧ (s.recording = false) ∧ (s.flag (PORT_POL_RATE_en p l (s.classify p f)) = false) ∧ (e = { d with cls := s.classify p f, colour := 0, recorded := false }) ∧ (s.flag STORE_STATUS_ready = true) ∧ (s.lookupSlot p n = none)) busyRx 1 0 plainFrame timedRx false 256 (plainFrame.take 256) (parseFrame (plainFrame.take 256)) (d5 plainFrame) rx5) ∧
    ((fun (s : State) (p : Port) (l : Lp) (b : Bytes) (r : Rx) (w : Bool) (n : Nat) (hd : Bytes) (f : Parsed) (d : Rx) (e : Rx) (u : State) (ft : Fate) (v : State) => (s.live = true) ∧ ((s.link (8 * p + l)).rx = some r) ∧ (r.decided = false) ∧ (r.dropped = false) ∧ (r.accept = true) ∧ (s.replaying = false) ∧ (hd = b.take (if w then 252 else 256)) ∧ (n = (if w then hd.length + 4 else 256)) ∧ (f = parseFrame hd) ∧ (d = { r with decided := true, whole := w, data := hd }) ∧ ((w = false ∨ 60 ≤ hd.length)) ∧ (s.portRow (8 * p + l) hd f = none) ∧ (s.isUp (8 * p + l) = true) ∧ (s.recording = false) ∧ (s.flag (PORT_POL_RATE_en p l (s.classify p f)) = false) ∧ (e = { d with cls := s.classify p f, colour := 0, recorded := false }) ∧ (s.flag STORE_STATUS_ready = true) ∧ (s.lookupSlot p n = some u) ∧ (u.decideFate (8 * p + l) (s.classify p f) e hd f w = (ft, v))) ready5 1 0 plainFrame timedRx false 256 (plainFrame.take 256) (parseFrame (plainFrame.take 256)) (d5 plainFrame) rx5 slot5 fate5.1 fate5.2) ∧
    ((fun (s : State) (p : Port) (l : Lp) (b : Bytes) (r : Rx) (all : Bytes) => (s.live = true) ∧ ((s.link (8 * p + l)).rx = some r) ∧ (r.decided = true) ∧ ((s.link (8 * p + l)).lostAt = none) ∧ (r.cut = false) ∧ (all = r.data ++ (if r.whole then [] else b)) ∧ (all.length < 60) ∧ (r.sequenced = false)) (rxAt (some { tailRx .drop with data := [1, 2] })) 1 0 (List.replicate 57 0) ({ tailRx .drop with data := [1, 2] }) ([1, 2] ++ List.replicate 57 0)) ∧
    ((fun (s : State) (p : Port) (l : Lp) (b : Bytes) (r : Rx) (all : Bytes) => (s.live = true) ∧ ((s.link (8 * p + l)).rx = some r) ∧ (r.decided = true) ∧ ((s.link (8 * p + l)).lostAt = none) ∧ (r.cut = false) ∧ (all = r.data ++ (if r.whole then [] else b)) ∧ (all.length < 60) ∧ (r.sequenced = true) ∧ (r.dropped = false) ∧ (r.accept = true)) (rxAt (some { tailRx .drop with data := [1, 2], sequenced := true })) 1 0 (List.replicate 57 0) ({ tailRx .drop with data := [1, 2], sequenced := true }) ([1, 2] ++ List.replicate 57 0)) ∧
    ((fun (s : State) (p : Port) (l : Lp) (b : Bytes) (r : Rx) (all : Bytes) => (s.live = true) ∧ ((s.link (8 * p + l)).rx = some r) ∧ (r.decided = true) ∧ ((s.link (8 * p + l)).lostAt = none) ∧ (r.cut = false) ∧ (all = r.data ++ (if r.whole then [] else b)) ∧ (60 ≤ all.length) ∧ (all.length + 4 ≤ s.maxFrame p) ∧ (r.dropped = false) ∧ (r.accept = true) ∧ (r.recorded = false) ∧ (r.colour = 0) ∧ (s.fcMode (8 * p + l) ≠ 2) ∧ (r.fate = .drop)) (rxAt (some (tailRx .drop))) 1 0 ([]) (tailRx .drop) plainFrame) ∧
    ((fun (s : State) (p : Port) (l : Lp) (b : Bytes) (r : Rx) (all : Bytes) => (s.live = true) ∧ ((s.link (8 * p + l)).rx = some r) ∧ (r.decided = true) ∧ ((s.link (8 * p + l)).lostAt = none) ∧ (r.cut = false) ∧ (all = r.data ++ (if r.whole then [] else b)) ∧ (60 ≤ all.length) ∧ (all.length + 4 ≤ s.maxFrame p) ∧ (r.dropped = false) ∧ (r.accept = true) ∧ (r.recorded = false) ∧ (r.colour = 0) ∧ (s.fcMode (8 * p + l) ≠ 2) ∧ (r.fate = .port) ∧ (isPfc all = true)) (rxAt (some { tailRx .port with data := pfcFrame 1 [(3, 9)] })) 1 0 ([]) ({ tailRx .port with data := pfcFrame 1 [(3, 9)] }) (pfcFrame 1 [(3, 9)])) ∧
    ((fun (s : State) (p : Port) (l : Lp) (b : Bytes) (r : Rx) (all : Bytes) (id : Nat) (gid : Nat) => (s.live = true) ∧ ((s.link (8 * p + l)).rx = some r) ∧ (r.decided = true) ∧ ((s.link (8 * p + l)).lostAt = none) ∧ (r.cut = false) ∧ (all = r.data ++ (if r.whole then [] else b)) ∧ (60 ≤ all.length) ∧ (all.length + 4 ≤ s.maxFrame p) ∧ (r.dropped = false) ∧ (r.accept = true) ∧ (r.recorded = false) ∧ (r.colour = 0) ∧ (s.fcMode (8 * p + l) ≠ 2) ∧ (r.fate = .group id gid)) (rxAt (some (tailRx (.group 4 5)))) 1 0 ([5]) (tailRx (.group 4 5)) (plainFrame ++ [5]) 4 5) := by
  exact ⟨by beta_reduce; decide +kernel, by beta_reduce; decide +kernel, by beta_reduce; decide +kernel, by beta_reduce; decide +kernel, by beta_reduce; decide +kernel, by beta_reduce; decide +kernel, by beta_reduce; decide +kernel, by beta_reduce; decide +kernel, by beta_reduce; decide +kernel, by beta_reduce; decide +kernel, by beta_reduce; decide +kernel, by beta_reduce; decide +kernel, by beta_reduce; decide +kernel, by beta_reduce; decide +kernel, by beta_reduce; decide +kernel⟩

/-- A frame to the station: ECH of group 5, IPv4 with its checksum right (`c` true), of `ttl`, to 10.1.2.3. -/
def toUs (et : Nat) (rest : Bytes) : Bytes := padTo 60 (beBytes 6 (run.station 1) ++ beBytes 6 9 ++ beBytes 2 et ++ rest)
def ip4 (ttl csum : Nat) : Bytes := [0x45, 0] ++ beBytes 2 40 ++ [0, 0, 0, 0] ++ [BitVec.ofNat 8 ttl, 17] ++ beBytes 2 csum ++ [10, 0, 0, 1, 10, 1, 2, 3] ++ List.replicate 20 0
def editOf (r : Route) : Edit := match r with | .copies _ [(_, e)] => e | _ => {}
def idOf (f : Fate) : Nat := match f with | .group i _ => i | _ => 0
def good4 : Bytes := toUs 0x0800 (ip4 1 0xA3C1)
def echUs : Bytes := padTo 60 (echFrame (run.station 1) 9 0x88B5 none { opcode := 1, gid := 5, stamp := 0 } [])
def route4 : State := { fwdAt with tables := { fwdAt.tables with v4 := [(16 * 2 ^ 32 + 0x0A010000, 77)] } }
def spread2 : State := { (hops.setReg (PORT_CFG_enable 2) 1).withUp 16 with tables := { hops.tables with ecmp := [(2, [2, 0, 0, 0, 0, 0, 0, 0, 4, 0, 4, 0])], repl := [(2, [1, 0, 0, 0, 0, 0, 0, 0, 4, 0])] } }

theorem test_wit_ForwardingTables :
    ((fun (s : State) (src : Nat) (b : Bytes) (f : Parsed) (_ : Nat) (_ : Rx) (_ : Bool) => (src < 192) ∧ (f.isEch (s.echType (src / 8)) = true) ∧ (f.dmac = s.station (src / 8)) ∧ (s.groups.find? (echOf b).gid = none)) fwdAt 8 echUs (parseFrame echUs) 2 rx5 false) ∧
    ((fun (s : State) (src : Nat) (b : Bytes) (f : Parsed) (_ : Nat) (_ : Rx) (_ : Bool) (u : State) => (src < 192) ∧ ((f.isEch (s.echType (src / 8)) = false ∨ f.dmac ≠ s.station (src / 8))) ∧ (s.lookup src true false b f = (.drop, u))) fwdAt 8 plainFrame (parseFrame plainFrame) 2 rx5 false (fwdAt.countL PORT_LCTR_lookup_miss_drops 8)) ∧
    ((fun (s : State) (src : Nat) (b : Bytes) (f : Parsed) (cls : Nat) (r : Rx) (_ : Bool) (u : State) (eg : Nat) (ed : Edit) (id : Nat) (v : State) => (src < 192) ∧ ((f.isEch (s.echType (src / 8)) = false ∨ f.dmac ≠ s.station (src / 8))) ∧ (s.lookup src true false b f = (.copies false [(eg, ed)], u)) ∧ (u.receive src (8 * (src / 8) + cls) cls r b f (some eg) = some (id, v))) hops 8 plainFrame (parseFrame plainFrame) 2 rx5 false hops 16 (editOf (hops.lookup 8 true false plainFrame (parseFrame plainFrame)).1) (((hops.receive 8 10 2 rx5 plainFrame (parseFrame plainFrame) (some 16)).map (·.1)).getD 0) (((hops.receive 8 10 2 rx5 plainFrame (parseFrame plainFrame) (some 16)).map (·.2)).getD run)) ∧
    ((fun (s : State) (src : Nat) (_ : Bytes) (f : Parsed) => (src < 192) ∧ (f.dmac ≠ s.station (src / 8)) ∧ (s.tables.endpoint.find? (f.dmac * 4096 + f.vid) = none)) fwdAt 8 plainFrame (parseFrame plainFrame)) ∧
    ((fun (s : State) (src : Nat) (_ : Bytes) (f : Parsed) (a : Nat) => (src < 192) ∧ (f.dmac ≠ s.station (src / 8)) ∧ (s.tables.endpoint.find? (f.dmac * 4096 + f.vid) = some a)) hops 8 plainFrame (parseFrame plainFrame) (1 + 256 * 4)) ∧
    ((fun (s : State) (src : Nat) (_ : Bytes) (f : Parsed) => (src < 192) ∧ (f.dmac = s.station (src / 8)) ∧ (f.et ≠ 0x0800) ∧ (f.et ≠ 0x86DD)) fwdAt 8 (toUs 0x1234 []) (parseFrame (toUs 0x1234 []))) ∧
    ((fun (s : State) (src : Nat) (_ : Bytes) (f : Parsed) => (src < 192) ∧ (f.dmac = s.station (src / 8)) ∧ ((f.et = 0x0800 ∨ f.et = 0x86DD)) ∧ ((f.ip = none ∨ ∃ ip, f.ip = some ip ∧ ip.csumOk = false))) fwdAt 8 (toUs 0x0800 []) (parseFrame (toUs 0x0800 []))) ∧
    ((fun (s : State) (src : Nat) (_ : Bytes) (f : Parsed) (ip : Ip) (t : Tab Nat) (w : Nat) => (src < 192) ∧ (f.dmac = s.station (src / 8)) ∧ ((f.et = 0x0800 ∨ f.et = 0x86DD)) ∧ (f.ip = some ip) ∧ (ip.csumOk = true) ∧ (t = (if ip.v6 then s.tables.v6 else s.tables.v4)) ∧ (w = (if ip.v6 then 128 else 32)) ∧ ((∀ n, n ≤ w → t.find? (n * 2 ^ w + beNat ip.dst / 2 ^ (w - n) * 2 ^ (w - n)) = none))) fwdAt 8 good4 (parseFrame good4) (((parseFrame good4).ip).get (by decide +kernel)) ([]) 32) ∧
    ((fun (s : State) (src : Nat) (_ : Bytes) (f : Parsed) (ip : Ip) (t : Tab Nat) (w : Nat) (n : Nat) (a : Nat) => (src < 192) ∧ (f.dmac = s.station (src / 8)) ∧ ((f.et = 0x0800 ∨ f.et = 0x86DD)) ∧ (f.ip = some ip) ∧ (ip.csumOk = true) ∧ (t = (if ip.v6 then s.tables.v6 else s.tables.v4)) ∧ (w = (if ip.v6 then 128 else 32)) ∧ (n ≤ w) ∧ (t.find? (n * 2 ^ w + beNat ip.dst / 2 ^ (w - n) * 2 ^ (w - n)) = some a) ∧ ((∀ m, m ≤ w → n < m → t.find? (m * 2 ^ w + beNat ip.dst / 2 ^ (w - m) * 2 ^ (w - m)) = none))) route4 8 good4 (parseFrame good4) (((parseFrame good4).ip).get (by decide +kernel)) route4.tables.v4 32 16 77) ∧
    ((fun (_ : State) (src : Nat) (_ : Bytes) (_ : Parsed) (a : Nat) => (src < 192) ∧ (bits a 0 3 = 0)) fwdAt 8 plainFrame (parseFrame plainFrame) 0) ∧
    ((fun (_ : State) (src : Nat) (_ : Bytes) (_ : Parsed) (a : Nat) => (src < 192) ∧ (bits a 0 3 = 4)) fwdAt 8 plainFrame (parseFrame plainFrame) (4 + 256 * 5)) ∧
    ((fun (s : State) (src : Nat) (_ : Bytes) (_ : Parsed) (a : Nat) => (src < 192) ∧ (bits a 0 3 = 1) ∧ (s.tables.nexthop.find? (bits a 8 16) = none)) fwdAt 8 plainFrame (parseFrame plainFrame) (1 + 256 * 5)) ∧
    ((fun (s : State) (src : Nat) (_ : Bytes) (_ : Parsed) (a : Nat) (e : Bytes) => (src < 192) ∧ (bits a 0 3 = 1) ∧ (s.tables.nexthop.find? (bits a 8 16) = some e) ∧ (byteAt e 0 = src) ∧ (bitOf (byteAt e 1) 0 = false)) hops 16 plainFrame (parseFrame plainFrame) (1 + 256 * 4) ([16, 0] ++ List.replicate 14 3)) ∧
    ((fun (s : State) (src : Nat) (_ : Bytes) (f : Parsed) (a : Nat) (e : Bytes) (ip : Ip) => (src < 192) ∧ (bits a 0 3 = 1) ∧ (s.tables.nexthop.find? (bits a 8 16) = some e) ∧ (byteAt e 0 ≠ src ∨ bitOf (byteAt e 1) 0 = true) ∧ (bitOf a 3 = true) ∧ (f.ip = some ip) ∧ (ip.ttl ≤ 1)) hops 8 good4 (parseFrame good4) (9 + 256 * 4) ([16, 0] ++ List.replicate 14 3) (((parseFrame good4).ip).get (by decide +kernel))) ∧
    ((fun (s : State) (src : Nat) (b : Bytes) (f : Parsed) (a : Nat) (e : Bytes) (len : Nat) => (src < 192) ∧ (bits a 0 3 = 1) ∧ (s.tables.nexthop.find? (bits a 8 16) = some e) ∧ (byteAt e 0 ≠ src ∨ bitOf (byteAt e 1) 0 = true) ∧ ((bitOf a 3 = false ∨ f.expired = false)) ∧ (headerLen b f (s.echType (src / 8)) = some len) ∧ (s.maxFrame (byteAt e 0 / 8) < max len ((len : Int) + vlanDelta (!f.tags.isEmpty) (bits (byteAt e 1) 1 2)).toNat)) (hops.setReg (PORT_FRAME_CFG_max_frame 2) 57) 8 good4 (parseFrame good4) (1 + 256 * 4) ([16, 0] ++ List.replicate 14 3) 58) ∧
    ((fun (s : State) (src : Nat) (b : Bytes) (f : Parsed) (a : Nat) (e : Bytes) => (src < 192) ∧ (bits a 0 3 = 1) ∧ (s.tables.nexthop.find? (bits a 8 16) = some e) ∧ (byteAt e 0 ≠ src ∨ bitOf (byteAt e 1) 0 = true) ∧ ((bitOf a 3 = false ∨ f.expired = false)) ∧ (((headerLen b f (s.echType (src / 8))).all fun len => decide (max len ((len : Int) + vlanDelta (!f.tags.isEmpty) (bits (byteAt e 1) 1 2)).toNat ≤ s.maxFrame (byteAt e 0 / 8))) = true)) hops 8 plainFrame (parseFrame plainFrame) (1 + 256 * 4) ([16, 0] ++ List.replicate 14 3)) ∧
    ((fun (s : State) (src : Nat) (_ : Bytes) (_ : Parsed) (a : Nat) (live : List Nat) => (src < 192) ∧ (bits a 0 3 = 2) ∧ (live = ((s.tables.ecmp.find? (bits a 8 16)).elim [] nhList).filter s.nhLive) ∧ (live = [])) fwdAt 8 plainFrame (parseFrame plainFrame) 2 ([])) ∧
    ((fun (s : State) (src : Nat) (_ : Bytes) (_ : Parsed) (a : Nat) (live : List Nat) => (src < 192) ∧ (bits a 0 3 = 2) ∧ (live = ((s.tables.ecmp.find? (bits a 8 16)).elim [] nhList).filter s.nhLive) ∧ (live ≠ [])) spread2 8 plainFrame (parseFrame plainFrame) (2 + 256 * 2) ([4, 4])) ∧
    ((fun (s : State) (src : Nat) (_ : Bytes) (_ : Parsed) (a : Nat) (g : Bytes) => (src < 192) ∧ (bits a 0 3 = 3) ∧ (s.tables.repl.find? (bits a 8 16) = some g)) spread2 8 plainFrame (parseFrame plainFrame) (3 + 256 * 2) ([1, 0, 0, 0, 0, 0, 0, 0, 4, 0])) ∧
    ((fun (s : State) (src : Nat) (_ : Bytes) (_ : Parsed) (a : Nat) => (src < 192) ∧ (bits a 0 3 = 3) ∧ (s.tables.repl.find? (bits a 8 16) = none)) fwdAt 8 plainFrame (parseFrame plainFrame) 3) := by
  exact ⟨by beta_reduce; decide +kernel, by beta_reduce; decide +kernel, by beta_reduce; decide +kernel, by beta_reduce; decide +kernel, by beta_reduce; decide +kernel, by beta_reduce; decide +kernel, by beta_reduce; exact ⟨by decide +kernel, by decide +kernel, .inl (by decide +kernel), .inl (by decide +kernel)⟩, by beta_reduce; decide +kernel, by beta_reduce; decide +kernel, by beta_reduce; decide +kernel, by beta_reduce; decide +kernel, by beta_reduce; decide +kernel, by beta_reduce; decide +kernel, by beta_reduce; decide +kernel, by beta_reduce; decide +kernel, by beta_reduce; decide +kernel, by beta_reduce; decide +kernel, by beta_reduce; decide +kernel, by beta_reduce; decide +kernel, by beta_reduce; decide +kernel⟩

def frame1 : Sys2Proof.Machine.Frm := { src := 8, stamp := 0, arr := 0, unit := 1, len := 60, tail := some .good, est := none, cls := 7, copies := 1 }
def copy1 (cut : Bool) : Copy := { frm := 1, edit := {}, cut := cut, rep := false }
def egressAt (f : Sys2Proof.Machine.Frm) (e : Egress) : State := { (rxAt none).modLink 8 (fun k => { k with eg := e }) with frames := [(1, f)] }
def sending (cut : Bool) : Tx := { copy := copy1 cut, sched := 64, stamp := 0, seq := none }
def arriving : Sys2Proof.Machine.Frm := { frame1 with tail := none, cls := 2, len := 256 }

theorem test_wit_EgressTransmission :
    ((fun (s : State) (p : Port) (l : Lp) (h : Copy) (r : List Copy) (f : Sys2Proof.Machine.Frm) => (s.live = true) ∧ (s.isUp (srcOf p l) = true) ∧ ((s.link (srcOf p l)).eg.tx = none) ∧ (srcOf p l % 8 < s.lpCount (srcOf p l / 8)) ∧ (s.gateOn (srcOf p l / 8) = false) ∧ (s.llrOn (srcOf p l) = false) ∧ (s.frm h.frm = some f) ∧ (s.frameUe f = none) ∧ ((f.tail.isSome && !h.cut && decide (s.maxFrame (srcOf p l / 8) < s.schedLen h (srcOf p l / 8))) = false) ∧ ((s.link (srcOf p l)).eg.queue 7 = h :: r) ∧ (s.tc7Ready (srcOf p l) = true)) (egressAt frame1 { q := [(7, [copy1 false])] }) 1 0 (copy1 false) ([]) frame1) ∧
    ((fun (s : State) (p : Port) (l : Lp) (h : Copy) (r : List Copy) (f : Sys2Proof.Machine.Frm) (c : Nat) => (s.live = true) ∧ (s.isUp (srcOf p l) = true) ∧ ((s.link (srcOf p l)).eg.tx = none) ∧ (srcOf p l % 8 < s.lpCount (srcOf p l / 8)) ∧ (s.gateOn (srcOf p l / 8) = false) ∧ (s.llrOn (srcOf p l) = false) ∧ (s.frm h.frm = some f) ∧ (s.frameUe f = none) ∧ ((f.tail.isSome && !h.cut && decide (s.maxFrame (srcOf p l / 8) < s.schedLen h (srcOf p l / 8))) = false) ∧ (c < 7) ∧ ((s.link (srcOf p l)).eg.queue 7 = []) ∧ ((s.link (srcOf p l)).eg.active = [c]) ∧ ((s.link (srcOf p l)).eg.queue c = h :: r) ∧ ((s.link (srcOf p l)).eg.visited = []) ∧ (s.canStart (srcOf p l) c h = true) ∧ (((s.schedLen h (srcOf p l / 8) : Nat) : Int) ≤ (s.link (srcOf p l)).eg.deficit.get 0 c + ((s.quantum (srcOf p l / 8) c : Nat) : Int))) (egressAt { frame1 with cls := 2 } { q := [(2, [copy1 false])], active := [2] }) 1 0 (copy1 false) ([]) ({ frame1 with cls := 2 }) 2) ∧
    ((fun (s : State) (p : Port) (l : Lp) (_ : Copy) (_ : List Copy) (f : Sys2Proof.Machine.Frm) (x : Tx) => (s.live = true) ∧ ((s.link (srcOf p l)).eg.tx = some x) ∧ (s.frm x.copy.frm = some f) ∧ (x.seq = none) ∧ (x.abort = false) ∧ (x.stopAt = none) ∧ (s.replaying = false) ∧ (f.tail = some .good) ∧ (f.cutAt = none) ∧ (x.copy.cut = false) ∧ ((s.link (srcOf p l)).resend = none)) (egressAt frame1 { tx := some (sending false) }) 1 0 (copy1 false) ([]) frame1 (sending false)) ∧
    ((fun (s : State) (p : Port) (l : Lp) (_ : Copy) (_ : List Copy) (f : Sys2Proof.Machine.Frm) (x : Tx) => (s.live = true) ∧ ((s.link (srcOf p l)).eg.tx = some x) ∧ (s.frm x.copy.frm = some f) ∧ (x.seq = none) ∧ (x.abort = false) ∧ (x.stopAt = none) ∧ (s.replaying = false) ∧ (x.copy.cut = true) ∧ (f.tail = none) ∧ ((s.link (srcOf p l)).resend = none)) (egressAt arriving { tx := some (sending true) }) 1 0 (copy1 false) ([]) arriving (sending true)) ∧
    ((fun (s : State) (p : Port) (l : Lp) (_ : Copy) (_ : List Copy) (_ : Sys2Proof.Machine.Frm) (c : Cls) => (s.live = true) ∧ (s.dueEvent (.shaper (srcOf p l) c) = true) ∧ ((s.reg (PORT_SHP_CFG_rate (srcOf p l / 8) (srcOf p l % 8) c) = 0 ∨ atOrBefore (BitVec.ofNat 64 (s.reg (PORT_SHP_STATE_e_time (srcOf p l / 8) (srcOf p l % 8) c))) s.now = true))) ({ rxAt none with clk := { (rxAt none).clk with sched := [⟨0, 0, .shaper 8 3⟩] } }) 1 0 (copy1 false) ([]) frame1 3) := by
  exact ⟨by beta_reduce; decide +kernel, by beta_reduce; decide +kernel, by beta_reduce; decide +kernel, by beta_reduce; decide +kernel, by beta_reduce; decide +kernel⟩

def gates : State := (((run.setReg (PORT_GATE_CTRL_admin_len 2) 2).setReg (PORT_GATE_CYCLE_cycle 2) 1000).setReg (PORT_GATE_ADMIN_interval 2 0) 400).setReg (PORT_GATE_ADMIN_interval 2 1) 600

theorem test_wit_GatesAndPolicers :
    ((fun (s : State) (p : Port) => (s.live = true) ∧ (s.flag HUB_STATUS_ready = true) ∧ (s.flag (PORT_GATE_CTRL_pending p) = false) ∧ (s.gateCheck p = false)) run 2) ∧
    ((fun (s : State) (p : Port) (base : FT64) (at_ : FT64) => (s.live = true) ∧ (s.flag HUB_STATUS_ready = true) ∧ (s.flag (PORT_GATE_CTRL_pending p) = false) ∧ (s.gateCheck p = true) ∧ (base = BitVec.ofNat 64 (s.reg (PORT_GATE_BASE_base p))) ∧ (at_ = base + BitVec.ofNat 64 (ceilDiv (ftDiff base (s.now + ns 1000)).toNat (s.reg (PORT_GATE_CYCLE_cycle p) * 256) * (s.reg (PORT_GATE_CYCLE_cycle p) * 256)))) (gates.atNs 10) 2 0 512000) ∧
    ((fun (s : State) (p : Port) => (s.live = true) ∧ (s.dueEvent (.gateApply p) = true) ∧ (s.reg (PORT_GATE_CTRL_admin_len p) ≤ 256)) ({ gates with clk := { gates.clk with sched := [⟨0, 0, .gateApply 2⟩] } }) 2) ∧
    ((fun (s : State) (p : Port) => (s.live = true) ∧ (s.dueEvent (.gateChange p) = true) ∧ (s.reg (PORT_GATE_CTRL_oper_len p) ≠ 0)) ({ gates.setReg (PORT_GATE_CTRL_oper_len 2) 1 with clk := { gates.clk with sched := [⟨0, 0, .gateChange 2⟩] } }) 2) ∧
    ((fun (s : State) (p : Port) (l : Lp) (c : Fin 7) (v : Nat) => (s.live = true) ∧ (s.flag HUB_STATUS_ready = true) ∧ (s.flag (PORT_POL_RATE_en (srcOf p l / 8) (srcOf p l % 8) c) = false) ∧ (bitOf v 31 = true)) run 2 7 6 (2 ^ 31 + 2 ^ 32 * 7 + 5)) ∧
    ((fun (s : State) (p : Port) (l : Lp) (c : Fin 7) (v : Nat) => (s.live = true) ∧ (s.flag HUB_STATUS_ready = true) ∧ ((s.flag (PORT_POL_RATE_en (srcOf p l / 8) (srcOf p l % 8) c) = true ∨ bitOf v 31 = false))) run 2 7 6 (2 ^ 32 * 7 + 5)) := by
  exact ⟨by beta_reduce; decide +kernel, by beta_reduce; decide +kernel, by beta_reduce; decide +kernel, by beta_reduce; decide +kernel, by beta_reduce; decide +kernel, by beta_reduce; decide +kernel⟩

theorem test_wit_StoreAdministration :
    ((fun (s : State) (sc : Bool) (_ : Nat) (_ : Nat) (_ : Fin 226) => (s.live = true) ∧ (s.flag HUB_STATUS_ready = true) ∧ (s.flag STORE_CTRL_enable = false) ∧ ((s.setReg STORE_CTRL_scrub_en (bit1 sc)).storeCheck = none)) ((List.range 6).foldl (fun s k => s.setReg (POOL_CFG_count k) 64) (run.setReg STORE_REGION_CFG_pkt_size 8)) true 0x1010 (storeEnd - 1) 225) ∧
    ((fun (s : State) (sc : Bool) (_ : Nat) (_ : Nat) (_ : Fin 226) (k : Nat) => (s.live = true) ∧ (s.flag HUB_STATUS_ready = true) ∧ (s.flag STORE_CTRL_enable = false) ∧ ((s.setReg STORE_CTRL_scrub_en (bit1 sc)).storeCheck = some k)) (run.setReg STORE_REGION_CFG_pkt_size 7) true 0x1010 (storeEnd - 1) 225 2) ∧
    ((fun (s : State) (_ : Bool) (_ : Nat) (_ : Nat) (_ : Fin 226) => (s.live = true) ∧ (s.flag HUB_STATUS_ready = true) ∧ (s.flag STORE_CTRL_enable = true)) ((run.setReg STORE_CTRL_enable 1).setReg STORE_STATUS_ready 1) true 0x1010 (storeEnd - 1) 225) ∧
    ((fun (s : State) (_ : Bool) (_ : Nat) (_ : Nat) (_ : Fin 226) => (s.live = true) ∧ (s.flag STORE_CTRL_enable = false) ∧ (s.bundleOpen = false)) run true 0x1010 (storeEnd - 1) 225) ∧
    ((fun (s : State) (_ : Bool) (_ : Nat) (_ : Nat) (o : Fin 226) => (s.live = true) ∧ (s.flag HUB_STATUS_ready = true) ∧ (s.store.usage = []) ∧ (s.store.bp = []) ∧ (s.store.bpPairs = []) ∧ (s.reg (POOL_OWN_MIN_min o) ≤ s.reg (POOL_OWN_XON_xon o)) ∧ (s.reg (POOL_OWN_XON_xon o) < s.reg (POOL_OWN_XOFF_xoff o)) ∧ (s.reg (POOL_OWN_XOFF_xoff o) ≤ s.reg (POOL_OWN_CEIL_ceil o)) ∧ (s.sumMin - (s.limits o).min + s.reg (POOL_OWN_MIN_min o) ≤ s.total)) run true 0x1010 (storeEnd - 1) 225) ∧
    ((fun (s : State) (_ : Bool) (_ : Nat) (_ : Nat) (o : Fin 226) => (s.live = true) ∧ (s.flag HUB_STATUS_ready = true) ∧ (s.reg (POOL_OWN_CEIL_ceil o) < s.reg (POOL_OWN_XOFF_xoff o))) (run.setReg (POOL_OWN_CEIL_ceil 225) 0) true 0x1010 (storeEnd - 1) 225) ∧
    ((fun (s : State) (_ : Bool) (_ : Nat) (addr : Nat) (_ : Fin 226) (_ : EccReq) => (s.live = true) ∧ (addr < storeEnd)) run true 0x1010 (storeEnd - 1) 225 .seedbank) ∧
    ((fun (s : State) (_ : Bool) (_ : Nat) (addr : Nat) (_ : Fin 226) => (s.live = true) ∧ (addr < storeEnd)) run true 0x1010 (storeEnd - 1) 225) ∧
    ((fun (s : State) (_ : Bool) (_ : Nat) (_ : Nat) (_ : Fin 226) => (s.live = true) ∧ (s.flag STORE_CTRL_scrub_en = true) ∧ ((s.store.scrubAt + 1) * 256 ≠ storeEnd)) (run.setReg STORE_CTRL_scrub_en 1) true 0x1010 (storeEnd - 1) 225) ∧
    ((fun (s : State) (_ : Bool) (_ : Nat) (_ : Nat) (_ : Fin 226) (i : Nat) => (s.live = true) ∧ (s.flag STORE_CTRL_scrub_en = true) ∧ ((s.store.scrubAt + 1) * 256 ≠ storeEnd) ∧ (i < 8)) (run.setReg STORE_CTRL_scrub_en 1) true 0x1010 (storeEnd - 1) 225 7) ∧
    ((fun (s : State) (_ : Bool) (_ : Nat) (_ : Nat) (_ : Fin 226) => (s.live = true) ∧ (s.flag HUB_STATUS_ready = true) ∧ (s.latchNow.counts = [])) run true 0x1010 (storeEnd - 1) 225) := by
  exact ⟨by beta_reduce; decide +kernel, by beta_reduce; decide +kernel, by beta_reduce; decide +kernel, by beta_reduce; decide +kernel, by beta_reduce; decide +kernel, by beta_reduce; decide +kernel, by beta_reduce; decide +kernel, by beta_reduce; decide +kernel, by beta_reduce; decide +kernel, by beta_reduce; decide +kernel, by beta_reduce; decide +kernel⟩

def pooled : State := { run with store := { run.store with pools := [(2, { ring := [⟨0, 100, 1⟩], caches := [(1, [⟨5000, 300, 2⟩])] })] } }

theorem test_wit_CachesKeepTheFreeBuffers :
    ((fun (s : State) (_ : Slice) (k : Pool) => (s.live = true) ∧ (Tab.wf (s.pool k).caches [] = true)) pooled 0 2) ∧
    ((fun (s : State) (_ : Slice) (k : Pool) => (s.live = true) ∧ (Tab.wf (s.pool k).caches [] = true)) pooled 1 2) := by
  exact ⟨by beta_reduce; decide +kernel, by beta_reduce; decide +kernel⟩

/-- An instruction word from its fields, each at its lowest bit. -/
def word (l : List (Nat × Nat)) : Nat := l.foldl (fun a x => a + x.2 * 2 ^ x.1) 0

/-- An operand slot: register, space 1, stride 0. -/
def slot (r : Nat) : Nat := r + 16

/-- Context 37 (channel 1) issues `w` now. -/
def issuing (w : Nat) : State := run.modCtx 37 (fun k => { k with st := .run, prog := [9, w, 9], pc := 1 })

/-- Context 37 runs with `e` at the head of queue `q`. -/
def entryAt (q : Nat) (e : Entry) : State :=
  (run.modCtx 37 (fun k => { k with st := .run, q := [(q, [e])], win := 4096, winLen := 2 ^ 20 })).modChan 1 (fun c =>
    { c with scratch := Mem.write [] 4096 ((List.range 300).map (fun i => BitVec.ofNat 8 (7 * i + i / 5))) })

def cntWord : Nat := word [(0, 3), (8, 1), (10, 7), (14, 1), (32, 2 ^ 32 - 1), (64, 65535)]
def loopWord : Nat := word [(0, 1), (8, 2), (11, 65535), (27, 0)]

theorem test_wit_SequencerRegistersAndFlow :
    ((fun (s : State) (cx : Cx) (w : Nat) (k : Ctx) (v : Nat) (u : Nat) => (k = { s.ctx cx with st := .run, waits := 0 }) ∧ (s.issues cx w 3) ∧ (v = (if bits w 14 2 < 2 then bits w 32 48 else k.reg (bits w 16 2) (bits w 18 4))) ∧ (u = (if bits w 8 2 = 0 then v else v % 2 ^ 32))) (issuing cntWord) 37 cntWord ((issuing cntWord).ctx 37) (2 ^ 48 - 1) (2 ^ 32 - 1)) ∧
    ((fun (s : State) (cx : Cx) (w : Nat) (k : Ctx) (x : Nat) (y : Nat) => (k = { s.ctx cx with st := .run, waits := 0 }) ∧ (s.issues cx w 4) ∧ (x = k.reg (if bitOf w 13 then 2 else 1) (bits w 14 4)) ∧ (y = (if bitOf w 18 then bits w 32 32 else k.reg (if bitOf w 19 then 2 else 1) (bits w 20 4)))) (issuing (word [(0, 4), (10, 2), (13, 1), (18, 1), (32, 5)])) 37 (word [(0, 4), (10, 2), (13, 1), (18, 1), (32, 5)]) ((issuing (word [(0, 4), (10, 2), (13, 1), (18, 1), (32, 5)])).ctx 37) 0 5) ∧
    ((fun (s : State) (cx : Cx) (w : Nat) (k : Ctx) (n : Nat) (last : Nat) => (k = { s.ctx cx with st := .run, waits := 0 }) ∧ (s.issues cx w 1) ∧ (n = (if bitOf w 10 then k.reg 1 (bits w 11 3) else bits w 11 16)) ∧ (last = k.pc + bits w 27 12 + 1)) (issuing loopWord) 37 loopWord ((issuing loopWord).ctx 37) 65535 2) ∧
    ((fun (s : State) (cx : Cx) (w : Nat) (k : Ctx) (l : Loop) (r : List Loop) => (k = { s.ctx cx with st := .run, waits := 0 }) ∧ (s.issues cx w 2) ∧ (leaveLoop (bits w 8 2) k.loops = some (l, r))) ((issuing (word [(0, 2), (8, 3)])).modCtx 37 (fun k => { k with loops := [⟨3, 0, 2, 5⟩], k := 1 })) 37 (word [(0, 2), (8, 3)]) ({ (issuing (word [(0, 2), (8, 3)])).ctx 37 with loops := [⟨3, 0, 2, 5⟩], k := 1 }) (⟨3, 0, 2, 5⟩) ([])) := by
  exact ⟨by beta_reduce; decide +kernel, by beta_reduce; decide +kernel, by beta_reduce; decide +kernel, by beta_reduce; decide +kernel⟩

def barEntry : Entry := { word := word [(0, 8), (8, 3), (56, 2)], pc := 1 }
def psetEntry : Entry := { word := word [(0, 5), (8, 47), (16, 1)], pc := 1 }

theorem test_wit_PipsBarriersAndHints :
    ((fun (s : State) (cx : Cx) (w : Nat) (core : Nat) (i : Nat) => (s.issues cx w 5) ∧ (4 < bits w 16 3) ∧ (core = bits w 14 2) ∧ (i = bits w 8 6) ∧ (core = coreOf cx) ∧ (bitOf (s.reg (CH_PIP_pips (chOf cx) core)) i = false)) (issuing (word [(0, 5), (8, 47), (16, 7)])) 37 (word [(0, 5), (8, 47), (16, 7)]) 0 47) ∧
    ((fun (s : State) (cx : Cx) (w : Nat) (core : Nat) (i : Nat) => (s.issues cx w 5) ∧ (4 < bits w 16 3) ∧ (core = bits w 14 2) ∧ (i = bits w 8 6) ∧ (core = coreOf cx) ∧ (bitOf (s.reg (CH_PIP_pips (chOf cx) core)) i = true) ∧ (i < 48)) ((issuing (word [(0, 5), (8, 47), (16, 7)])).setReg (CH_PIP_pips 1 0) (2 ^ 47)) 37 (word [(0, 5), (8, 47), (16, 7)]) 0 47) ∧
    ((fun (s : State) (cx : Cx) (w : Nat) (core : Nat) (i : Nat) => (s.issues cx w 5) ∧ (4 < bits w 16 3) ∧ (core = bits w 14 2) ∧ (i = bits w 8 6) ∧ (core ≠ coreOf cx)) (issuing (word [(0, 5), (8, 47), (14, 2), (16, 7)])) 37 (word [(0, 5), (8, 47), (14, 2), (16, 7)]) 2 47) ∧
    ((fun (s : State) (cx : Cx) (w : Nat) => (s.issues cx w 5) ∧ (bits w 16 3 ≤ 4) ∧ (((s.ctx cx).queue (bits w 16 3)).length < 64)) (issuing (word [(0, 5), (8, 47), (14, 2), (16, 4)])) 37 (word [(0, 5), (8, 47), (14, 2), (16, 4)])) ∧
    ((fun (s : State) (cx : Cx) (w : Nat) => (s.issues cx w 8) ∧ ((∀ q, q < 5 → ((s.ctx cx).queue q).length < 64))) (issuing (word [(0, 8), (8, 3), (56, 31)])) 37 (word [(0, 8), (8, 3), (56, 31)])) ∧
    ((fun (s : State) (cx : Cx) (w : Nat) => (s.issues cx w 6)) ((issuing (word [(0, 6), (8, 5)])).setReg (CH_PIP_pips 1 0) 7) 37 (word [(0, 6), (8, 5)])) ∧
    ((fun (s : State) (cx : Cx) (w : Nat) => (s.issues cx w 7) ∧ (s.pipsHold cx w = true)) ((issuing (word [(0, 7), (8, 5), (56, 1)])).setReg (CH_PIP_pips 1 0) 4) 37 (word [(0, 7), (8, 5), (56, 1)])) ∧
    ((fun (s : State) (cx : Cx) (w : Nat) => (s.issues cx w 7) ∧ (s.pipsHold cx w = false)) ((issuing (word [(0, 7), (8, 5)])).setReg (CH_PIP_pips 1 0) 4) 37 (word [(0, 7), (8, 5)])) ∧
    ((fun (s : State) (cx : Cx) (w : Nat) => (s.issues cx w 9)) (issuing (word [(0, 9), (8, 1)])) 37 (word [(0, 9), (8, 1)])) ∧
    ((fun (s : State) (cx : Cx) (_ : Nat) (q : Fin 5) (e : Entry) (r : List Entry) => (s.live = true) ∧ (s.sys.fatal = false) ∧ ((s.ctx cx).queue q = e :: r) ∧ ((s.ctx cx).st = .run) ∧ (iOp e.word = 5) ∧ (bits e.word 14 2 = coreOf cx) ∧ (bitOf (s.reg (CH_PIP_pips (chOf cx) (bits e.word 14 2))) (bits e.word 8 6) = false)) (entryAt 1 psetEntry) 37 0 1 psetEntry ([])) ∧
    ((fun (s : State) (cx : Cx) (_ : Nat) (q : Fin 5) (e : Entry) (r : List Entry) => (s.live = true) ∧ (s.sys.fatal = false) ∧ ((s.ctx cx).queue q = e :: r) ∧ ((s.ctx cx).st = .run) ∧ (iOp e.word = 8) ∧ (s.barBlocks cx e = false)) ((entryAt 1 barEntry).setReg (CH_PIP_pips 1 0) 3) 37 0 1 barEntry ([])) ∧
    ((fun (s : State) (cx : Cx) (w : Nat) => (s.live = true) ∧ (s.sys.fatal = false) ∧ (s.releasable (chOf cx) (coreOf cx) = [(cx.val, w)])) (((issuing (word [(0, 7), (8, 5), (57, 1)])).modCtx 37 (fun k => { k with st := .wait, waits := 1 })).setReg (CH_PIP_pips 1 0) 5) 37 (word [(0, 7), (8, 5), (57, 1)])) := by
  exact ⟨by beta_reduce; decide +kernel, by beta_reduce; decide +kernel, by beta_reduce; decide +kernel, by beta_reduce; decide +kernel, by beta_reduce; decide +kernel, by beta_reduce; decide +kernel, by beta_reduce; decide +kernel, by beta_reduce; decide +kernel, by beta_reduce; decide +kernel, by beta_reduce; decide +kernel, by beta_reduce; decide +kernel, by beta_reduce; decide +kernel⟩

def movWord : Nat := word [(0, 0x40), (35, slot 3 + 64 + 128 * 5), (33, 1), (81, slot 4), (17, 2)]

theorem test_wit_EngineInstructionsQueue :
    ((fun (s : State) (cx : Cx) (w : Nat) => (s.live = true) ∧ (s.sys.fatal = false) ∧ ((s.ctx cx).word = some w) ∧ (s.mayIssue cx = true) ∧ (isEngine (iOp w) = true) ∧ ((s.ctx cx).progUe.contains (s.ctx cx).pc = false) ∧ (((s.ctx cx).queue (iQueue w)).length < 64)) (issuing movWord) 37 movWord) ∧
    ((fun (s : State) (cx : Cx) (w : Nat) => (s.live = true) ∧ (s.sys.fatal = false) ∧ ((s.ctx cx).word = some w) ∧ (s.mayIssue cx = true) ∧ (isEngine (iOp w) = true) ∧ ((s.ctx cx).progUe.contains (s.ctx cx).pc = false) ∧ (64 ≤ ((s.ctx cx).queue (iQueue w)).length)) ((issuing movWord).modCtx 37 (fun k => { k with q := [(3, List.replicate 64 psetEntry)] })) 37 movWord) := by
  exact ⟨by beta_reduce; decide +kernel, by beta_reduce; decide +kernel⟩

def redTwice : Entry := { word := word [(0, 0x21), (8, 0xA), (12, 0xA), (35, slot 1), (81, slot 2), (17, 1)], pc := 1, a := 0, d := 256 }
def redFails : Entry := { redTwice with a := 2 ^ 30 }
def redMany (n : Nat) : Entry := { redTwice with word := redTwice.word + 2 ^ 16, cnt := n }
def waits : Entry := { word := word [(0, 0x51), (35, slot 1), (81, slot 2)], pc := 1 }
/-- A precv with an entry in the FIFO whose frame is gone. -/
def waitsAt : State := (entryAt 4 waits).modCtx 37 (fun k => { k with fifo := [{ frm := 9, tag := 0 }] })
def bodyOf (e : Entry) : Except Nat (Option Rep) × State := State.redBody 37 ((entryAt 1 e).ctx 37) e (entryAt 1 e)
def repOf (e : Entry) : Rep := match (bodyOf e).1 with | .ok (some p) => p | _ => { e := e }
def redWork : EngineWork := (State.redBody 37, fun _ s => s)
def precvWork : EngineWork := (State.precvBody 37, State.precvFin 37)
/-- Context 36 has a repeat for the combine engine too, and its turn comes first. -/
def otherTurn : State := (entryAt 1 redTwice).modCtx 36 (fun k => { k with st := .run, q := [(1, [redTwice])] })
def redLast : Entry := { redTwice with i := 1 }
def afterOf (e : Entry) : State :=
  (((bodyOf e).2.serve 37 1).event 1 1 (repeatEvents e.word).1 (repeatEvents e.word).2).noteFlags 37 1 (repOf e).e (repOf e).fl
def entryOf (e : Entry) : Entry := { (repOf e).e.gather (repOf e).fl with i := e.i + 1 }

theorem test_wit_EngineEntriesRepeat :
    ((fun (c : Instr) (s : State) (cx : Nat) (q : Nat) (op : Nat) (work : EngineWork) (e : Entry) (r : List Entry) => (engineRow c = some (cx, q, op, work)) ∧ (s.live = true) ∧ (s.sys.fatal = false) ∧ ((s.ctx cx).queue q = e :: r) ∧ ((s.ctx cx).running = true) ∧ (iOp e.word = op) ∧ (repeats e.word e.cnt = 0)) (.red 37) (entryAt 1 (redMany 0)) 37 1 0x21 redWork (redMany 0) ([])) ∧
    ((fun (c : Instr) (s : State) (cx : Nat) (q : Nat) (op : Nat) (work : EngineWork) (e : Entry) (r : List Entry) => (engineRow c = some (cx, q, op, work)) ∧ (s.live = true) ∧ (s.sys.fatal = false) ∧ ((s.ctx cx).queue q = e :: r) ∧ ((s.ctx cx).running = true) ∧ (iOp e.word = op) ∧ (65536 < repeats e.word e.cnt)) (.red 37) (entryAt 1 (redMany 65537)) 37 1 0x21 redWork (redMany 65537) ([])) ∧
    ((fun (c : Instr) (s : State) (cx : Nat) (q : Nat) (op : Nat) (work : EngineWork) (e : Entry) (r : List Entry) => (engineRow c = some (cx, q, op, work)) ∧ (s.live = true) ∧ (s.sys.fatal = false) ∧ ((s.ctx cx).queue q = e :: r) ∧ ((s.ctx cx).running = true) ∧ (iOp e.word = op) ∧ (0 < repeats e.word e.cnt) ∧ (repeats e.word e.cnt ≤ 65536) ∧ (s.engineTurn cx q = false)) (.red 37) otherTurn 37 1 0x21 redWork redTwice ([])) ∧
    ((fun (c : Instr) (s : State) (cx : Nat) (q : Nat) (op : Nat) (work : EngineWork) (e : Entry) (r : List Entry) (u : State) (p : Rep) (v : State) (f : Entry) => (engineRow c = some (cx, q, op, work)) ∧ (s.live = true) ∧ (s.sys.fatal = false) ∧ ((s.ctx cx).queue q = e :: r) ∧ ((s.ctx cx).running = true) ∧ (iOp e.word = op) ∧ (0 < repeats e.word e.cnt) ∧ (repeats e.word e.cnt ≤ 65536) ∧ (s.engineTurn cx q = true) ∧ (work.1 (s.ctx cx) e s = (.ok (some p), u)) ∧ (v = ((u.serve cx q).event (chOf cx) q (repeatEvents e.word).1 (repeatEvents e.word).2).noteFlags cx q p.e p.fl) ∧ (f = { p.e.gather p.fl with i := e.i + 1 }) ∧ (e.i + 1 ≠ repeats e.word e.cnt)) (.red 37) (entryAt 1 redTwice) 37 1 0x21 redWork redTwice ([]) ((bodyOf redTwice).2) (repOf redTwice) (afterOf redTwice) (entryOf redTwice)) ∧
    ((fun (c : Instr) (s : State) (cx : Nat) (q : Nat) (op : Nat) (work : EngineWork) (e : Entry) (r : List Entry) (u : State) (p : Rep) (v : State) (f : Entry) => (engineRow c = some (cx, q, op, work)) ∧ (s.live = true) ∧ (s.sys.fatal = false) ∧ ((s.ctx cx).queue q = e :: r) ∧ ((s.ctx cx).running = true) ∧ (iOp e.word = op) ∧ (0 < repeats e.word e.cnt) ∧ (repeats e.word e.cnt ≤ 65536) ∧ (s.engineTurn cx q = true) ∧ (work.1 (s.ctx cx) e s = (.ok (some p), u)) ∧ (v = ((u.serve cx q).event (chOf cx) q (repeatEvents e.word).1 (repeatEvents e.word).2).noteFlags cx q p.e p.fl) ∧ (f = { p.e.gather p.fl with i := e.i + 1 }) ∧ (e.i + 1 = repeats e.word e.cnt)) (.red 37) (entryAt 1 redLast) 37 1 0x21 redWork redLast ([]) ((bodyOf redLast).2) (repOf redLast) (afterOf redLast) (entryOf redLast)) ∧
    ((fun (c : Instr) (s : State) (cx : Nat) (q : Nat) (op : Nat) (work : EngineWork) (e : Entry) (r : List Entry) (u : State) => (engineRow c = some (cx, q, op, work)) ∧ (s.live = true) ∧ (s.sys.fatal = false) ∧ ((s.ctx cx).queue q = e :: r) ∧ ((s.ctx cx).running = true) ∧ (iOp e.word = op) ∧ (0 < repeats e.word e.cnt) ∧ (repeats e.word e.cnt ≤ 65536) ∧ (s.engineTurn cx q = true) ∧ (work.1 (s.ctx cx) e s = (.ok none, u))) (.precv 37) waitsAt 37 4 0x51 precvWork waits ([]) ((State.precvBody 37 (waitsAt.ctx 37) waits waitsAt).2)) ∧
    ((fun (c : Instr) (s : State) (cx : Nat) (q : Nat) (op : Nat) (work : EngineWork) (e : Entry) (r : List Entry) (u : State) (st : Nat) => (engineRow c = some (cx, q, op, work)) ∧ (s.live = true) ∧ (s.sys.fatal = false) ∧ ((s.ctx cx).queue q = e :: r) ∧ ((s.ctx cx).running = true) ∧ (iOp e.word = op) ∧ (0 < repeats e.word e.cnt) ∧ (repeats e.word e.cnt ≤ 65536) ∧ (s.engineTurn cx q = true) ∧ (work.1 (s.ctx cx) e s = (.error st, u))) (.red 37) (entryAt 1 redFails) 37 1 0x21 redWork redFails ([]) ((bodyOf redFails).2) 0x41) := by
  exact ⟨by beta_reduce; exact ⟨rfl, by decide +kernel⟩, by beta_reduce; exact ⟨rfl, by decide +kernel⟩, by beta_reduce; exact ⟨rfl, by decide +kernel⟩, by beta_reduce; exact ⟨rfl, by decide +kernel, by decide +kernel, by decide +kernel, by decide +kernel, by decide +kernel, by decide +kernel, by decide +kernel, by decide +kernel, rfl, rfl, rfl, by decide +kernel⟩, by beta_reduce; exact ⟨rfl, by decide +kernel, by decide +kernel, by decide +kernel, by decide +kernel, by decide +kernel, by decide +kernel, by decide +kernel, by decide +kernel, rfl, rfl, rfl, by decide +kernel⟩, by beta_reduce; exact ⟨rfl, by decide +kernel, by decide +kernel, by decide +kernel, by decide +kernel, by decide +kernel, by decide +kernel, by decide +kernel, by decide +kernel, rfl⟩, by beta_reduce; exact ⟨rfl, by decide +kernel, by decide +kernel, by decide +kernel, by decide +kernel, by decide +kernel, by decide +kernel, by decide +kernel, by decide +kernel, rfl⟩⟩

def movE : Entry := { word := word [(0, 0x40), (35, slot 1), (81, slot 2), (104, 1)], pc := 1, a := 32, d := 64 }
def srtE : Entry := { word := word [(0, 0x30), (35, slot 1), (81, slot 2), (104, 2), (108, 1)], pc := 1, a := 32, d := 32 }
def mmzE : Entry := { word := word [(0, 0x11), (104, 1), (120, 3), (17, 1)], pc := 1, i := 1 }
def pfreeE : Entry := { word := word [(0, 0x52), (35, 1 + 48)], pc := 1, a := 6 * 256 }
def buf6 : Buf := { pool := 0, gen := 0, shares := 1, owner := 196, units := 1, last := 0 }

theorem test_wit_EngineResultsInScratch :
    ((fun (s : State) (cx : Cx) (e : Entry) (r : List Entry) (src : Nat) (dst : Nat) (n : Nat) (_ : HostData) => (s.lastRepeat cx 3 0x40 e r) ∧ (n = moveLen e.word) ∧ (slSpace (slotA e.word) = 1) ∧ (slSpace (slotD e.word) = 1) ∧ ((locOf e.word (slotA e.word) e.a e.xa e.i 0).addr = (src : Int)) ∧ ((locOf e.word (slotD e.word) e.d e.xd e.i 0).addr = (dst : Int)) ∧ (src % 32 = 0) ∧ (dst % 32 = 0) ∧ (src + n ≤ (s.ctx cx).winLen) ∧ (dst + n ≤ (s.ctx cx).winLen) ∧ ((s.chan (chOf cx)).scratchUe = [])) (entryAt 3 movE) 37 movE ([]) 32 64 64 .error) ∧
    ((fun (s : State) (cx : Cx) (e : Entry) (r : List Entry) (src : Nat) (dst : Nat) (n : Nat) (kt : Nat) => (s.lastRepeat cx 2 0x30 e r) ∧ (n = 2 ^ bits e.word 104 4) ∧ (kt = bits e.word 108 2) ∧ (bitOf e.word 110 = false) ∧ (slSpace (slotA e.word) = 1) ∧ (slSpace (slotD e.word) = 1) ∧ ((locOf e.word (slotA e.word) e.a e.xa e.i 0).addr = (src : Int)) ∧ ((locOf e.word (slotD e.word) e.d e.xd e.i 0).addr = (dst : Int)) ∧ (src % 32 = 0) ∧ (dst % 32 = 0) ∧ (src + 8 * n ≤ (s.ctx cx).winLen) ∧ (dst + 8 * n ≤ (s.ctx cx).winLen) ∧ ((s.chan (chOf cx)).scratchUe = [])) (entryAt 2 srtE) 37 srtE ([]) 32 32 4 1) ∧
    ((fun (s : State) (cx : Cx) (e : Entry) (r : List Entry) (_ : Nat) (_ : Nat) => (s.lastRepeat cx 0 0x11 e r) ∧ (s.tilesOpen (chOf cx) (tilesOf (gmaskOf e.word)) = true)) ((entryAt 0 mmzE).modChan 1 (fun c => { c with banks := [(0, ⟨2, [5]⟩), (1, ⟨2, [5]⟩)], admitted := tilesOf 1 })) 37 mmzE ([]) 32 64) ∧
    ((fun (s : State) (cx : Cx) (e : Entry) (r : List Entry) (_ : Nat) (_ : Nat) (u : Nat) (b : Buf) => (s.lastRepeat cx 4 0x52 e r) ∧ ((locOf e.word (slotA e.word) e.a e.xa e.i 0).handle.bind s.handleUnit = some u) ∧ ((s.ctx cx).held.contains u = true) ∧ (s.store.bufs.find? u = some b) ∧ (b.shares ≤ 1)) ({ (entryAt 4 pfreeE).modCtx 37 (fun k => { k with held := [6] }) with store := { run.store with bufs := [(6, buf6)] } }) 37 pfreeE ([]) 32 64 6 buf6) := by
  exact ⟨by beta_reduce; decide +kernel, by beta_reduce; decide +kernel, by beta_reduce; decide +kernel, by beta_reduce; decide +kernel⟩

def image : Bytes := leBytes 4 1 ++ [0, 31] ++ List.replicate 58 0 ++ leBytes 16 (word [(0, 9), (8, 1)])
def loaded : State :=
  { run with
    ctxs := [(37, { st := .loading, header := image.take 64, args := 4096, d := some 5 })]
    host := { run.host with descs := [(5, { sq := 0, stamp := 0, arr := 0, cq := 0, bytes := [0, 0, 0, 0, 0, 0, 0, 0] ++ leBytes 6 0x2000 })] }
    store := { run.store with mem := Mem.write (Mem.write [] 0x2000 image) 4096 (leBytes 8 9) } }
def running (k : Ctx) : State := { run with ctxs := [(37, k)] }

theorem test_wit_ContextLife :
    ((fun (s : State) (cx : Cx) (k : Ctx) (img : Nat) (n : Nat) (ws : List Nat) (arg : Bytes) => (s.live = true) ∧ (s.sys.fatal = false) ∧ (k = s.ctx cx) ∧ (k.st = .loading) ∧ (img = (k.d.bind s.desc).elim 0 (fun x => leAt x.bytes 8 6)) ∧ (n = hLength k.header) ∧ (s.badWords img (64 + 16 * n) = []) ∧ (s.badWords k.args 256 = []) ∧ (ws = imageWords n (s.storeRead (img + 64) (16 * n))) ∧ (arg = s.storeRead k.args 256) ∧ (leAt arg 224 32 = 0) ∧ (imageOk k.header ws = true) ∧ (psetsOk k.header (coreOf cx) ws = true)) loaded 37 (loaded.ctx 37) 0x2000 1 ([word [(0, 9), (8, 1)]]) (padTo 256 [9])) ∧
    ((fun (s : State) (cx : Cx) (k : Ctx) => (s.live = true) ∧ (s.sys.fatal = false) ∧ (k = s.ctx cx) ∧ (k.st = .run) ∧ (k.word = none) ∧ (k.idleQueues = true) ∧ (k.held = []) ∧ (k.fifo = [])) (running { st := .run, step := 3 }) 37 ({ st := .run, step := 3 })) ∧
    ((fun (s : State) (cx : Cx) (k : Ctx) => (s.live = true) ∧ (s.sys.fatal = false) ∧ (k = s.ctx cx) ∧ (k.st = .drain) ∧ (k.idleQueues = true) ∧ (k.held = []) ∧ (k.fifo = [])) (running { st := .drain, step := 3 }) 37 ({ st := .drain, step := 3 })) ∧
    ((fun (s : State) (cx : Cx) (k : Ctx) (u : Nat) (p : Nat) (since : FT64) => (s.live = true) ∧ (s.sys.fatal = false) ∧ (k = s.ctx cx) ∧ (k.running = true) ∧ (k.fault = none) ∧ (0 < s.reg (CH_WDOG_CFG_timeout (chOf cx))) ∧ (k.timed.filter (fun x => decide ((((s.reg (CH_WDOG_CFG_timeout (chOf cx)) * 256000 : Nat)) : Int) < ftDiff x.2.2 s.now)) = [(u, p, since)])) (((running { st := .wait, waits := 1, pc := 6 }).setReg (CH_WDOG_CFG_timeout 1) 2).atNs 2001) 37 ({ st := .wait, waits := 1, pc := 6 }) 5 6 0) ∧
    ((fun (s : State) (cx : Cx) (k : Ctx) (ch : Ch) (_ : Nat) => (s.live = true) ∧ (s.sys.fatal = false) ∧ (k = s.ctx cx) ∧ (s.flag HUB_STATUS_ready = true) ∧ ((∀ j, j < 32 → (s.ctx (32 * ch + j)).st = .idle))) run 37 (run.ctx 37) 1 0xFF) ∧
    ((fun (s : State) (cx : Cx) (k : Ctx) (ch : Ch) (o : Nat) => (s.live = true) ∧ (s.sys.fatal = false) ∧ (k = s.ctx cx) ∧ (s.flag HUB_STATUS_ready = true) ∧ (s.latchNow.counts = []) ∧ (o = 0x800000 + 0x100000 * ch)) run 37 (run.ctx 37) 1 0x900000) ∧
    ((fun (s : State) (cx : Cx) (k : Ctx) (ch : Ch) => (s.live = true) ∧ (s.sys.fatal = false) ∧ (k = s.ctx cx) ∧ (s.flag HUB_STATUS_ready = true) ∧ ((s.chan ch).lastInv = none)) run 37 (run.ctx 37) 1) := by
  exact ⟨by beta_reduce; decide +kernel, by beta_reduce; decide +kernel, by beta_reduce; decide +kernel, by beta_reduce; decide +kernel, by beta_reduce; decide +kernel, by beta_reduce; decide +kernel, by beta_reduce; decide +kernel⟩

def startsWait : State := ((entryAt 0 mmzE).modCtx 37 (fun k => { k with header := List.replicate 16 255 })).modChan 1 (fun c => { c with admitted := [200] })
def failing : State := (((entryAt 0 mmzE).modCtx 37 (fun k => { k with header := List.replicate 16 255 })).setReg (HUB_CAPS_SPARE_ch 0 1) 1)

theorem test_wit_RampsAndTiles :
    ((fun (s : State) (ch : Ch) (_ : Fin 16) (all : List Nat) (now : Nat) (used : Nat) => (s.live = true) ∧ (s.sys.fatal = false) ∧ (all = s.startsWanted ch) ∧ (all ≠ []) ∧ (s.quietCh ch = false) ∧ (now = s.coreNow (ch / 2)) ∧ (used = (if (s.chan ch).window.1 = now / 8 then (s.chan ch).window.2 else 0))) startsWait 1 0 (startsWait.startsWanted 1) (startsWait.coreNow 0) 0) ∧
    ((fun (s : State) (ch : Ch) (_ : Fin 16) (all : List Nat) => (s.live = true) ∧ (s.sys.fatal = false) ∧ (all = s.startsWanted ch) ∧ (all ≠ []) ∧ (s.quietCh ch = true)) (entryAt 0 mmzE) 1 0 ((entryAt 0 mmzE).startsWanted 1)) ∧
    ((fun (s : State) (ch : Ch) (_ : Fin 16) (all : List Nat) => (s.live = true) ∧ (s.sys.fatal = false) ∧ (all = s.startsWanted ch) ∧ (all = [])) run 1 0 ([])) ∧
    ((fun (s : State) (ch : Ch) (_ : Fin 16) (all : List Nat) => (s.live = true) ∧ (s.sys.fatal = false) ∧ (all = s.startsWanted ch) ∧ (s.nextRamp = some ch.val) ∧ ((∀ c, s.pmc.ramp = some c → 129 ≤ s.coreNow 4 - c))) ({ run.modChan 1 (fun c => { c with rampWanted := some 5 }) with clk := { run.clk with cyc := 1000 } }) 1 0 ([])) ∧
    ((fun (s : State) (ch : Ch) (g : Fin 16) (all : List Nat) => (s.live = true) ∧ (s.sys.fatal = false) ∧ (all = s.startsWanted ch) ∧ ((∀ j, j < 32 → (s.ctx (32 * ch + j)).queue 0 = [])) ∧ (s.reg (CH_SPARE_STATUS_group ch g) = 0) ∧ (bitOf (s.reg (HUB_CAPS_SPARE_ch (ch / 4) (ch % 4))) g = true)) (run.setReg (HUB_CAPS_SPARE_ch 0 1) 1) 1 0 ([])) ∧
    ((fun (s : State) (ch : Ch) (g : Fin 16) (all : List Nat) => (s.live = true) ∧ (s.sys.fatal = false) ∧ (all = s.startsWanted ch) ∧ ((∀ j, j < 32 → (s.ctx (32 * ch + j)).queue 0 = [])) ∧ (bitOf (s.reg (HUB_CAPS_SPARE_ch (ch / 4) (ch % 4))) g = false)) (run.setReg (HUB_CAPS_SPARE_ch 0 1) 0xFFFE) 1 0 ([])) ∧
    ((fun (s : State) (ch : Ch) (g : Fin 16) (all : List Nat) (i : Nat) (e : Entry) (r : List Entry) => (s.live = true) ∧ (s.sys.fatal = false) ∧ (all = s.startsWanted ch) ∧ (i < 32) ∧ ((∀ j, j < 32 → j ≠ i → (s.ctx (32 * ch + j)).queue 0 = [])) ∧ ((s.ctx (32 * ch + i)).queue 0 = e :: r) ∧ ((s.ctx (32 * ch + i)).running = true) ∧ (isEngine (iOp e.word) = true) ∧ (bitOf (hTiles (s.ctx (32 * ch + i)).header) g = true) ∧ (bitOf (gmaskOf e.word) g = true)) failing 1 0 (failing.startsWanted 1) 5 mmzE ([])) ∧
    ((fun (s : State) (ch : Ch) (g : Fin 16) (all : List Nat) => (s.live = true) ∧ (s.sys.fatal = false) ∧ (all = s.startsWanted ch) ∧ (s.reg (CH_SPARE_STATUS_group ch g) = 2) ∧ (bitOf (s.reg (CH_TILE_HOLD_held ch)) g = false)) ((run.setReg (CH_SPARE_STATUS_group 1 0) 2).setReg (HUB_CAPS_SPARE_ch 0 1) 1) 1 0 ([])) := by
  exact ⟨by beta_reduce; decide +kernel, by beta_reduce; decide +kernel, by beta_reduce; decide +kernel, by beta_reduce; decide +kernel, by beta_reduce; decide +kernel, by beta_reduce; decide +kernel, by beta_reduce; decide +kernel, by beta_reduce; decide +kernel⟩

def mmzTwice : Entry := { word := word [(0, 0x11), (104, 0x8001), (120, 3), (17, 4)], pc := 1, i := 1 }

theorem test_wit_MmzZeroesItsBank :
    ((fun (s : State) (cx : Cx) (e : Entry) (r : List Entry) => (s.live = true) ∧ (s.sys.fatal = false) ∧ ((s.ctx cx).queue 0 = e :: r) ∧ ((s.ctx cx).running = true) ∧ (iOp e.word = 0x11) ∧ (e.i < repeats e.word e.cnt) ∧ (repeats e.word e.cnt ≤ 65536) ∧ (s.tilesOpen (chOf cx) (tilesOf (gmaskOf e.word)) = true)) ((entryAt 0 mmzTwice).modChan 1 (fun c => { c with banks := [(0, ⟨2, [5]⟩), (1, ⟨2, [5]⟩), (1020, ⟨1, [6]⟩)], admitted := tilesOf 0x8001 })) 37 mmzTwice ([])) := by
  beta_reduce; decide +kernel

def bigLoop : Nat := word [(0, 1), (8, 2), (10, 1), (11, 7), (27, 0)]
def counting (n : Nat) : State := (issuing bigLoop).modCtx 37 (fun k => { k with c := [(7, n)] })
/-- A context at the end of a body with `left` passes left. -/
def looping (left : Nat) : Ctx := { st := .run, pc := 5, loops := [⟨2, 3, 5, left⟩] }

theorem test_wit_LoopsCountFromACounter :
    ((fun (s : State) (cx : Cx) (w : Nat) (k : Ctx) (n : Nat) => (k = { s.ctx cx with st := .run, waits := 0 }) ∧ (s.issues cx w 1) ∧ (bitOf w 10 = true) ∧ (n = k.reg 1 (bits w 11 3)) ∧ (n ≠ 0)) (counting 65536) 37 bigLoop ((counting 65536).ctx 37) 65536) ∧
    ((fun (s : State) (cx : Cx) (w : Nat) (k : Ctx) (n : Nat) => (k = { s.ctx cx with st := .run, waits := 0 }) ∧ (s.issues cx w 1) ∧ (bitOf w 10 = true) ∧ (n = k.reg 1 (bits w 11 3)) ∧ (n = 0)) (issuing bigLoop) 37 bigLoop ((issuing bigLoop).ctx 37) 0) ∧
    ((fun (s : State) (cx : Cx) (w : Nat) (k : Ctx) => (k = { s.ctx cx with st := .run, waits := 0 }) ∧ (s.issues cx w 3) ∧ (bits w 8 2 = 1) ∧ ((∀ l r, k.loops = l :: r → k.pc ≠ l.last))) (issuing cntWord) 37 cntWord ((issuing cntWord).ctx 37)) := by
  exact ⟨by beta_reduce; decide +kernel, by beta_reduce; decide +kernel, by beta_reduce; exact ⟨rfl, by decide +kernel, by decide +kernel, fun l r h => nomatch (show ([] : List Loop) = l :: r from h)⟩⟩

theorem test_wit_LoopsCountFromACounter_passes :
    (∀ left, left < 3 → (looping left).loops = [⟨2, 3, 5, left⟩] ∧ (looping left).pc = (⟨2, 3, 5, left⟩ : Loop).last) ∧
    (looping 2).forward = { looping 2 with pc := 3, loops := [⟨2, 3, 5, 1⟩] } ∧ (looping 1).forward = { looping 1 with pc := 6, loops := [] } := by
  decide +kernel
def mmaE : Entry := { word := word [(0, 0x10), (8, 0xC), (12, 0xC), (35, slot 1), (58, slot 2), (104, 2), (120, 1)], pc := 1, a := 32, b := 64 }
def cvtE : Entry := { word := word [(0, 0x12), (8, 0xA), (12, 0xA), (81, slot 2), (104, 1), (120, 1), (127, 1)], pc := 1, d := 64 }
def vopE (op : Nat) : Entry := { word := word [(0, 0x20), (8, 0xA), (12, 0xA), (35, slot 1), (58, slot 2), (81, slot 3), (104, op)], pc := 1, a := 32, b := 64, d := 96 }
def redE : Entry := { word := word [(0, 0x21), (8, 0xA), (12, 0xA), (35, slot 1), (81, slot 2)], pc := 1, a := 0, d := 64 }
def banked (s : State) : State := s.modChan 1 (fun c => { c with admitted := tilesOf 3, banks := [(1, ⟨2, List.replicate 1024 (2 ^ 32 - 5)⟩), (65, ⟨2, (List.range 1024).map (fun i => 3 * i)⟩)] })

theorem test_wit_MatrixAndVectorResults :
    ((fun (s : State) (cx : Cx) (e : Entry) (r : List Entry) (a : Nat) (b : Nat) (_ : Nat) (ts : List Nat) (_ : Nat) => ((s.chan (chOf cx)).scratchUe = []) ∧ (ts = tilesOf (gmaskOf e.word)) ∧ (s.tilesOpen (chOf cx) ts = true) ∧ (s.bankBad (chOf cx) (bankOf e.word) ts = false) ∧ (s.lastRepeat cx 0 0x10 e r) ∧ (iFa e.word = 0xC) ∧ (iFd e.word = 0xC) ∧ (bits e.word 122 3 = 0) ∧ (s.inScratch cx e.word (slotA e.word) e.a e.xa e.i 1024 a) ∧ (s.inScratch cx e.word (slotB e.word) e.b e.xb e.i (1024 * ts.length) b) ∧ (s.kindClash (chOf cx) (bankOf e.word) 2 ts = false)) (banked (entryAt 0 mmaE)) 37 mmaE ([]) 32 64 96 (tilesOf 2) 9) ∧
    ((fun (s : State) (cx : Cx) (e : Entry) (r : List Entry) (_ : Nat) (_ : Nat) (d : Nat) (ts : List Nat) (n : Nat) => ((s.chan (chOf cx)).scratchUe = []) ∧ (ts = tilesOf (gmaskOf e.word)) ∧ (n = ts.length) ∧ (s.tilesOpen (chOf cx) ts = true) ∧ (s.bankBad (chOf cx) ((bankOf e.word + e.i) % 4) ts = false) ∧ (s.lastRepeat cx 0 0x12 e r) ∧ (iFa e.word = 0xA) ∧ (iFd e.word = 0xA) ∧ (bits e.word 122 5 = 0) ∧ (s.inScratch cx e.word (slotD e.word) e.d e.xd e.i (4096 * n) d) ∧ (s.kindClash (chOf cx) ((bankOf e.word + e.i) % 4) 2 ts = false)) (banked (entryAt 0 cvtE)) 37 cvtE ([]) 32 64 64 (tilesOf 1) 16) ∧
    ((fun (s : State) (cx : Cx) (e : Entry) (r : List Entry) (a : Nat) (b : Nat) (d : Nat) (op : Nat) => ((s.chan (chOf cx)).scratchUe = []) ∧ (op = bits e.word 104 5) ∧ (op = 0 ∨ op = 13) ∧ (s.lastRepeat cx 1 0x20 e r) ∧ (iFa e.word = 0xA) ∧ (iFd e.word = 0xA) ∧ (s.inScratch cx e.word (slotA e.word) e.a e.xa e.i 2048 a) ∧ (s.inScratch cx e.word (slotB e.word) e.b e.xb e.i 2048 b) ∧ (s.inScratch cx e.word (slotD e.word) e.d e.xd e.i 2048 d)) (entryAt 1 (vopE 0)) 37 (vopE 0) ([]) 32 64 96 0) ∧
    ((fun (s : State) (cx : Cx) (e : Entry) (r : List Entry) (a : Nat) (_ : Nat) (d : Nat) => ((s.chan (chOf cx)).scratchUe = []) ∧ (s.lastRepeat cx 1 0x21 e r) ∧ (iFa e.word = 0xA) ∧ (bits e.word 104 7 = 0) ∧ (s.inScratch cx e.word (slotA e.word) e.a e.xa e.i 256 a) ∧ (s.inScratch cx e.word (slotD e.word) e.d e.xd e.i 256 d)) (entryAt 1 redE) 37 redE ([]) 0 64 64) := by
  exact ⟨by beta_reduce; decide +kernel, by beta_reduce; decide +kernel, by beta_reduce; decide +kernel, by beta_reduce; decide +kernel⟩

def tpkE : Entry := { word := word [(0, 0x31), (8, 1), (35, slot 1), (81, slot 2), (107, 9)], pc := 1, a := 32, d := 64 }
def fltE : Entry := { word := word [(0, 0x32), (35, slot 1), (81, slot 2), (104, 2), (113, 7), (116, 3)], pc := 1, a := 32, d := 64, m1 := 0x80000000 }
def hstE : Entry := { word := word [(0, 0x33), (35, slot 1), (81, slot 2), (104, 9), (116, 3)], pc := 1, a := 512, d := 32 }
def gatE : Entry := { word := word [(0, 0x41), (33, 1), (35, slot 1 + 128), (58, slot 2), (81, slot 3), (104, 0)], pc := 1, a := 32, b := 8192, d := 64, m1 := 5 }
def sctE : Entry := { word := word [(0, 0x42), (33, 1), (35, slot 1), (58, slot 2), (81, slot 3 + 128), (104, 0)], pc := 1, a := 32, b := 8192, d := 64, m1 := 5 }
def psendE : Entry := { word := word [(0, 0x50), (35, slot 1), (58, slot 2), (107, 1), (117, 14)], pc := 1, a := 32, b := 64, m1 := 46, m2 := 8 }
def precvE : Entry := { word := word [(0, 0x51), (35, slot 1 + 32), (81, slot 2), (104, 1)], pc := 1, d := 64 }
def indexed (e : Entry) : State := (entryAt 3 e).modChan 1 (fun c => { c with scratch := Mem.write c.scratch (4096 + 8192) [4] })
/-- A pool with free buffers, and room for owner 196. -/
def stocked (s : State) : State := { s with store := { s.store with pools := [(0, { ring := [⟨9, 100, 1⟩], caches := [(0, [⟨8, 1, 1⟩])] })], limits := [(196, { min := 1000 })] } }
def psendAt : State := stocked (entryAt 4 psendE)
def sentBy : Sent × State := psendAt.originate 1 196 (psendAt.scr 37 32 14 ++ psendAt.scr 37 64 46) 0 false false (some 8)
def precvAt : State := { (entryAt 4 precvE).modCtx 37 (fun k => { k with fifo := [{ frm := 1, tag := 7 }] }) with frames := [(1, { frame1 with unit := 6 })], store := { run.store with bufs := [(6, buf6)] } }

theorem test_wit_SortFilterAndMoverResults :
    ((fun (s : State) (cx : Cx) (e : Entry) (r : List Entry) (a : Nat) (_ : Nat) (d : Nat) (n : Nat) (v : Nat → FVal) => ((s.chan (chOf cx)).scratchUe = []) ∧ (n = bits e.word 107 12 + 1) ∧ (s.lastRepeat cx 2 0x31 e r) ∧ (iFa e.word = 1) ∧ (bits e.word 104 3 = 0) ∧ (bitOf e.word 119 = false) ∧ (s.inScratch cx e.word (slotA e.word) e.a e.xa e.i (4 * n) a) ∧ (s.inScratch cx e.word (slotD e.word) e.d e.xd e.i 8 d) ∧ (v = (fun i => decodeVal 1 (leAt (s.scr cx a (4 * n)) (4 * i) 4)))) (entryAt 2 tpkE) 37 tpkE ([]) 32 64 64 10 (fun i => decodeVal 1 (leAt ((entryAt 2 tpkE).scr 37 32 40) (4 * i) 4))) ∧
    ((fun (s : State) (cx : Cx) (e : Entry) (r : List Entry) (a : Nat) (_ : Nat) (d : Nat) (n : Nat) (out : List Bytes) => ((s.chan (chOf cx)).scratchUe = []) ∧ (n = 2 ^ bits e.word 116 4) ∧ (s.lastRepeat cx 2 0x32 e r) ∧ (e.i = 0) ∧ (e.acc = 0) ∧ (bits e.word 104 3 = 2) ∧ (bits e.word 107 2 = 0) ∧ (s.inScratch cx e.word (slotA e.word) e.a e.xa e.i (8 * n) a) ∧ (s.inScratch cx e.word (slotD e.word) e.d e.xd e.i (8 * n) d) ∧ (out = (records n (s.scr cx a (8 * n))).filter (fun x => decide (leAt x 0 4 < e.m1)))) (entryAt 2 fltE) 37 fltE ([]) 32 64 64 8 ((records 8 ((entryAt 2 fltE).scr 37 32 64)).filter (fun x => decide (leAt x 0 4 < 0x80000000)))) ∧
    ((fun (s : State) (cx : Cx) (e : Entry) (r : List Entry) (a : Nat) (_ : Nat) (d : Nat) (n : Nat) (bins : Nat) (key : Nat → Nat) => ((s.chan (chOf cx)).scratchUe = []) ∧ (n = 2 ^ bits e.word 116 4) ∧ (bins = bits e.word 104 12 + 1) ∧ (s.lastRepeat cx 2 0x33 e r) ∧ (bitOf e.word 121 = false) ∧ (s.inScratch cx e.word (slotA e.word) e.a e.xa e.i (8 * n) a) ∧ (s.inScratch cx e.word (slotD e.word) e.d e.xd e.i (4 * bins) d) ∧ (key = (fun j => leAt (s.scr cx a (8 * n)) (8 * j + 4 * bits e.word 120 1) 4)) ∧ ((∀ j, j < n → key j < bins))) (entryAt 2 hstE) 37 hstE ([]) 512 64 32 8 10 (fun j => leAt ((entryAt 2 hstE).scr 37 512 64) (8 * j) 4)) ∧
    ((fun (s : State) (cx : Cx) (e : Entry) (r : List Entry) (a : Nat) (b : Nat) (d : Nat) (n : Nat) (v : Nat) (_ : HostData) => ((s.chan (chOf cx)).scratchUe = []) ∧ (n = moveLen e.word) ∧ (bitOf e.word 120 = false) ∧ (v = leNat (s.scr cx b 4)) ∧ (v < e.m1) ∧ (s.inScratch cx e.word (slotB e.word) e.b e.xb e.i 4 b) ∧ (s.lastRepeat cx 3 0x41 e r) ∧ (s.inScratch cx e.word (slotA e.word) e.a e.xa v n a) ∧ (s.inScratch cx e.word (slotD e.word) e.d e.xd e.i n d)) (indexed gatE) 37 gatE ([]) 160 8192 64 32 4 .error) ∧
    ((fun (s : State) (cx : Cx) (e : Entry) (r : List Entry) (a : Nat) (b : Nat) (d : Nat) (n : Nat) (v : Nat) (_ : HostData) => ((s.chan (chOf cx)).scratchUe = []) ∧ (n = moveLen e.word) ∧ (bitOf e.word 120 = false) ∧ (v = leNat (s.scr cx b 4)) ∧ (v < e.m1) ∧ (s.inScratch cx e.word (slotB e.word) e.b e.xb e.i 4 b) ∧ (s.lastRepeat cx 3 0x42 e r) ∧ (s.inScratch cx e.word (slotA e.word) e.a e.xa e.i n a) ∧ (s.inScratch cx e.word (slotD e.word) e.d e.xd v n d)) (indexed sctE) 37 sctE ([]) 32 8192 192 32 4 .error) ∧
    ((fun (s : State) (cx : Cx) (e : Entry) (r : List Entry) (a : Nat) (b : Nat) (_ : Nat) (hl : Nat) (x : Sent) (u : State) => ((s.chan (chOf cx)).scratchUe = []) ∧ (hl = bits e.word 117 6) ∧ (s.lastRepeat cx 4 0x50 e r) ∧ (60 ≤ hl + e.m1) ∧ (hl + e.m1 ≤ 65596) ∧ ((bitOf e.word 107 = true → e.m2 < 192)) ∧ (s.inScratch cx e.word (slotA e.word) e.a e.xa e.i hl a) ∧ (s.inScratch cx e.word (slotB e.word) e.b e.xb e.i e.m1 b) ∧ (s.originate (chOf cx) (ownerOf cx) (s.scr cx a hl ++ s.scr cx b e.m1) (bits e.word 104 3) false (bitOf e.word 116) (if bitOf e.word 107 then some e.m2 else none) = (x, u)) ∧ (x ≠ .refused)) psendAt 37 psendE ([]) 32 64 64 14 sentBy.1 sentBy.2) ∧
    ((fun (s : State) (cx : Cx) (e : Entry) (r : List Entry) (_ : Nat) (_ : Nat) (d : Nat) (x : RxItem) (q : List RxItem) (f : Sys2Proof.Machine.Frm) => ((s.chan (chOf cx)).scratchUe = []) ∧ (s.lastRepeat cx 4 0x51 e r) ∧ (bitOf e.word 104 = true) ∧ ((s.ctx cx).fifo = x :: q) ∧ (s.frm x.frm = some f) ∧ (s.inScratch cx e.word (slotD e.word) e.d e.xd e.i 32 d) ∧ (f.len < 2 ^ 32)) precvAt 37 precvE ([]) 32 64 64 ({ frm := 1, tag := 7 }) ([]) ({ frame1 with unit := 6 })) := by
  exact ⟨by beta_reduce; exact ⟨by decide +kernel, by decide +kernel, by decide +kernel, by decide +kernel, by decide +kernel, by decide +kernel, by decide +kernel, by decide +kernel, rfl⟩, by beta_reduce; decide +kernel, by beta_reduce; exact ⟨by decide +kernel, by decide +kernel, by decide +kernel, by decide +kernel, by decide +kernel, by decide +kernel, by decide +kernel, rfl, by decide +kernel⟩, by beta_reduce; decide +kernel, by beta_reduce; decide +kernel, by beta_reduce; exact ⟨by decide +kernel, by decide +kernel, by decide +kernel, by decide +kernel, by decide +kernel, by decide +kernel, by decide +kernel, by decide +kernel, rfl, by decide +kernel⟩, by beta_reduce; decide +kernel⟩

/-- A group entry: FP32, chunks of 256 bytes, epoch 1, two members whose list is at 0x100000, at step 7, with some fields set. -/
def grpEntry (l : List (Nat × Nat × Nat)) : Bytes :=
  ([(0, 2, 5), (2, 1, 3), (3, 1, 1), (6, 2, 1), (8, 2, 2), (12, 2, 0xFFFF), (16, 1, 8), (17, 1, 63), (19, 1, 2), (20, 5, 8), (32, 6, 0x100000), (44, 4, 7),
    (48, 4, 6)] ++ l).foldl (fun b (f : Nat × Nat × Nat) => overwrite b f.1 (leBytes f.2.1 f.2.2)) (List.replicate 64 0)

/-- Group 5 is `x`, its member 0 an endpoint, its member 1 a child device, its parent endpoint 40. -/
def grpAt (x : Grp) : State :=
  { run with groups := [(5, x)], tables := { run.tables with endpoint := [(endpointKey 0x020000000028 0, 40 * 2 ^ 32)] },
             store := { run.store with mem := Mem.write [] 0x100000 [10, 0, 2, 0, 0, 0, 0, 0, 11, 0, 3] } }

/-- A frame for group 5 waits. -/
def grpRx (x : Grp) (sa : Nat) (h : Ech) (p : Bytes) : State :=
  let b := echFrame 0x0180C200000E sa 0x88B5 none { h with gid := 5, epoch := 1 } p
  let s := (grpAt x).storeWrite 1536 (padTo (32 * ceilDiv b.length 32) b)
  { s with nextFrm := 2, frames := [(1, { src := 8, stamp := 2560, arr := 0, unit := 6, len := b.length, tail := some .good, est := none, cls := 3, copies := 0 })],
           inbox := [⟨1, 5, false⟩], store := { s.store with bufs := [(6, { pool := 0, gen := 0, shares := 1, owner := 8, units := 2, last := 8 })] } }

/-- The frame as its engine takes it, its group, and the state that has let it in. -/
def inFrame (s : State) (ok : GIn → Bool) : GIn :=
  (s.take 0 ok).1.getD { frm := 0, gid := 0, h := { opcode := 0, gid := 0 }, payload := [], stamp := 0, src := 0, smac := 0, len := 0, unit := 0 }
def group5 (s : State) : Grp := (s.grp 5).getD {}
def letIn (s : State) (ok : GIn → Bool) : State := ((s.take 0 ok).2.admit3 (group5 s).entry (inFrame s ok)).2
def isOp (n : Nat) (g : GIn) : Bool := g.h.opcode == n

def eager : Bytes := grpEntry []
def idleGrp : Grp := { entry := eager, cur := {} }
def gathering (l : List Contrib) : Chunk := { st := .gather, have_ := l }
def firstData : State := grpRx idleGrp 0x020000000001 { opcode := 1, gid := 5, member := 0, step := 7, fmt := 1, plen := 2 } [0, 0, 128, 63, 0, 0, 0, 64]
def secondData : State := (grpRx { entry := grpEntry [(8, 2, 3)], cur := { chunks := [(0, gathering [⟨1, 1, 0, true, false⟩])] } } 0x020000000001
  { opcode := 1, gid := 5, member := 0, step := 7, fmt := 1 } [0, 0, 128, 63, 0, 0, 0, 64]).modChan 0 (fun c => { c with scratch := Mem.write [] 0 [0, 0, 128, 63, 0, 0, 0, 65] })
def anchored : Bytes := grpEntry [(2, 1, 7)]
def codesUp : State := grpRx { entry := anchored, cur := { chunks := [(0, { st := .anchor })] } } 0x020000000001
  { opcode := 2, gid := 5, member := 1, step := 7, cls := 1, partial_ := true } [100, 130, 0, 0]
def partUp : State := grpRx { entry := anchored, cur := { chunks := [(0, { st := .gather })] } } 0x020000000001
  { opcode := 4, gid := 5, member := 1, step := 7, cls := 1, partial_ := true } (leBytes 12 7 ++ leBytes 12 9)
def sparseIn : State := grpRx { entry := grpEntry [(4, 1, 0x40)], cur := { chunks := [(0, { st := .gather, index := [(3, 5)] })] } } 0x020000000001
  { opcode := 0x0D, gid := 5, member := 0, step := 7, op := 0x40, fmt := 1 } (beBytes 4 2 ++ List.replicate 4 0 ++ leBytes 4 3 ++ [0, 0, 128, 63] ++ leBytes 4 9 ++ [0, 0, 128, 63])
def anchorData (st : ChunkSt) : State := grpRx { entry := anchored, cur := { chunks := [(0, { st := st })] } } 0x020000000001
  { opcode := 1, gid := 5, member := 0, step := 7, cls := 1, fmt := 1 } [0, 0, 128, 63, 0, 0, 0, 64]
def gatherAll : State := grpRx { entry := grpEntry [(4, 1, 0x20)], cur := {} } 0x020000000001
  { opcode := 1, gid := 5, member := 0, step := 7, op := 0x20, fmt := 1 } [0, 0, 128, 63, 0, 0, 0, 64]

theorem test_wit_ContributionsAreAdded :
    ((fun (s : State) (v : State) (k : Nat) (g : GIn) (x : Grp) (sc : Mem) (e : Bytes) (c : Nat) (a : Nat) (ck : Chunk) => (e = x.entry) ∧ (c = g.h.chunk) ∧ (a = gSlotAt e c) ∧ (sc = (s.chan (gCh e)).scratch) ∧ (ck = x.chunk g.h.step c) ∧ (s.contributes k 1 g x v) ∧ (gCls e = 0) ∧ (gKind e ≤ 1) ∧ (ck.st = .idle) ∧ (ck.frames = []) ∧ (slotFree x g.h.step c = true)) firstData (letIn firstData (isOp 1)) 0 (inFrame firstData (isOp 1)) (group5 firstData) ((firstData.chan 0).scratch) ((group5 firstData).entry) 0 0 ({})) ∧
    ((fun (s : State) (v : State) (k : Nat) (g : GIn) (x : Grp) (sc : Mem) (e : Bytes) (c : Nat) (a : Nat) (ck : Chunk) => (e = x.entry) ∧ (c = g.h.chunk) ∧ (a = gSlotAt e c) ∧ (sc = (s.chan (gCh e)).scratch) ∧ (ck = x.chunk g.h.step c) ∧ (s.contributes k 1 g x v) ∧ (gCls e = 0) ∧ (gKind e ≤ 1) ∧ (ck.st = .gather)) secondData (letIn secondData (isOp 1)) 0 (inFrame secondData (isOp 1)) (group5 secondData) ((secondData.chan 0).scratch) ((group5 secondData).entry) 0 0 (gathering [⟨1, 1, 0, true, false⟩])) ∧
    ((fun (s : State) (v : State) (k : Nat) (g : GIn) (x : Grp) (sc : Mem) (e : Bytes) (c : Nat) (a : Nat) (ck : Chunk) (old : Bytes) => (e = x.entry) ∧ (c = g.h.chunk) ∧ (a = gSlotAt e c) ∧ (sc = (s.chan (gCh e)).scratch) ∧ (ck = x.chunk g.h.step c) ∧ (s.contributes k 1 g x v) ∧ (gCls e = 1) ∧ (gKind e ≤ 1) ∧ (old = Mem.read sc a (16 * gElems e c)) ∧ (ck.st = .anchor)) (anchorData .anchor) (letIn (anchorData .anchor) (isOp 1)) 0 (inFrame (anchorData .anchor) (isOp 1)) (group5 (anchorData .anchor)) ([]) anchored 0 0 ({ st := .anchor }) (List.replicate 32 0)) ∧
    ((fun (s : State) (v : State) (k : Nat) (g : GIn) (x : Grp) (sc : Mem) (e : Bytes) (c : Nat) (a : Nat) (ck : Chunk) (old : Bytes) => (e = x.entry) ∧ (c = g.h.chunk) ∧ (a = gSlotAt e c) ∧ (sc = (s.chan (gCh e)).scratch) ∧ (ck = x.chunk g.h.step c) ∧ (s.contributes k 1 g x v) ∧ (gCls e = 1) ∧ (gKind e ≤ 1) ∧ (old = Mem.read sc a (16 * gElems e c)) ∧ (ck.st = .gather)) (anchorData .gather) (letIn (anchorData .gather) (isOp 1)) 0 (inFrame (anchorData .gather) (isOp 1)) (group5 (anchorData .gather)) ([]) anchored 0 0 ({ st := .gather }) (List.replicate 32 0)) ∧
    ((fun (s : State) (v : State) (k : Nat) (g : GIn) (x : Grp) (sc : Mem) (e : Bytes) (c : Nat) (a : Nat) (ck : Chunk) (body : Bytes) => (e = x.entry) ∧ (c = g.h.chunk) ∧ (a = gSlotAt e c) ∧ (sc = (s.chan (gCh e)).scratch) ∧ (ck = x.chunk g.h.step c) ∧ (s.contributes k 1 g x v) ∧ (gKind e = 2 ∨ gKind e = 3) ∧ (ck.st = .idle) ∧ (s.mir.rehearsal = none) ∧ (body = g.payload.take (gChunkBytes e c))) gatherAll (letIn gatherAll (isOp 1)) 0 (inFrame gatherAll (isOp 1)) (group5 gatherAll) ([]) ((group5 gatherAll).entry) 0 0 ({}) ([0, 0, 128, 63, 0, 0, 0, 64])) ∧
    ((fun (s : State) (v : State) (k : Nat) (g : GIn) (x : Grp) (sc : Mem) (e : Bytes) (c : Nat) (a : Nat) (ck : Chunk) (codes : List Nat) (old : Bytes) => (e = x.entry) ∧ (c = g.h.chunk) ∧ (a = gSlotAt e c) ∧ (sc = (s.chan (gCh e)).scratch) ∧ (ck = x.chunk g.h.step c) ∧ (s.contributes k 2 g x v) ∧ (gCls e = 1) ∧ (gKind e ≤ 1) ∧ (ck.st = .anchor) ∧ (codes = (g.payload.take (gElems e c)).map (·.toNat)) ∧ (old = Mem.read sc a (16 * codes.length))) codesUp (letIn codesUp (isOp 2)) 0 (inFrame codesUp (isOp 2)) (group5 codesUp) ((codesUp.chan 0).scratch) ((group5 codesUp).entry) 0 0 ({ st := .anchor }) ([100, 130]) (List.replicate 32 0)) ∧
    ((fun (s : State) (v : State) (k : Nat) (g : GIn) (x : Grp) (sc : Mem) (e : Bytes) (c : Nat) (a : Nat) (ck : Chunk) => (e = x.entry) ∧ (c = g.h.chunk) ∧ (a = gSlotAt e c) ∧ (sc = (s.chan (gCh e)).scratch) ∧ (ck = x.chunk g.h.step c) ∧ (s.contributes k 4 g x v) ∧ (gCls e = 1) ∧ (gKind e ≤ 1) ∧ (ck.st = .gather)) partUp (letIn partUp (isOp 4)) 0 (inFrame partUp (isOp 4)) (group5 partUp) ((partUp.chan 0).scratch) ((group5 partUp).entry) 0 0 ({ st := .gather })) ∧
    ((fun (s : State) (v : State) (k : Nat) (g : GIn) (x : Grp) (sc : Mem) (e : Bytes) (c : Nat) (a : Nat) (ck : Chunk) (r : Tab Nat × Bytes × Nat × List (Nat × Flags)) => (e = x.entry) ∧ (c = g.h.chunk) ∧ (a = gSlotAt e c) ∧ (sc = (s.chan (gCh e)).scratch) ∧ (ck = x.chunk g.h.step c) ∧ (s.contributes k 0x0D g x v) ∧ (gCls e = 0) ∧ (gKind e = 4) ∧ (ck.st = .gather) ∧ (r = sparseAdd (gFmt e) (gCap e) (sparseRecs g.payload) ck.index (Mem.read sc a (gSlot e)))) sparseIn (letIn sparseIn (isOp 13)) 0 (inFrame sparseIn (isOp 13)) (group5 sparseIn) ((sparseIn.chan 0).scratch) ((group5 sparseIn).entry) 0 0 ({ st := .gather, index := [(3, 5)] }) (sparseAdd 1 256 (sparseRecs (inFrame sparseIn (isOp 13)).payload) [(3, 5)] (List.replicate 512 0))) := by
  exact ⟨by beta_reduce; decide +kernel, by beta_reduce; decide +kernel, by beta_reduce; decide +kernel, by beta_reduce; decide +kernel, by beta_reduce; decide +kernel, by beta_reduce; decide +kernel, by beta_reduce; decide +kernel, by beta_reduce; decide +kernel⟩

def child : Bytes := grpEntry [(12, 2, 40)]
def fromParentRx (x : Grp) (h : Ech) (p : Bytes) : State := grpRx x 0x020000000028 { h with member := 0xFFF, step := 7 } p
def resultIn : State := fromParentRx { entry := child, cur := { chunks := [(0, { st := .awaitResult })] } } { opcode := 5, gid := 5, fmt := 1 }
  ([1, 2, 3, 4, 5, 6, 7, 8] ++ beBytes 4 (crc32c [1, 2, 3, 4, 5, 6, 7, 8]))
def anchorsIn : State := fromParentRx { entry := grpEntry [(2, 1, 7), (12, 2, 40)], cur := { chunks := [(0, { st := .awaitAnchor })] } } { opcode := 3, gid := 5, cls := 1 } [7, 130, 0, 0]
def heldChunk : State := ((grpAt { entry := grpEntry [(2, 1, 11), (18, 1, 9)], cur := { chunks := [(0, { st := .held })] } }).setReg (CH_PIP_pips 0 0) 513).modChan 0
  (fun c => { c with scratch := Mem.write [] 0 [1, 2, 3] })
def waitingAt : State := { (grpRx { entry := eager, cur := { chunks := [(0, { frames := [1], have_ := [⟨0, 1, 0, false, false⟩] })] } } 0x020000000001
  { opcode := 1, gid := 5, member := 0, step := 7, fmt := 1 } [0, 0, 128, 63, 0, 0, 0, 64]) with inbox := [] }

theorem test_wit_ResultsReleasedAndTaken :
    ((fun (s : State) (v : State) (k : Nat) (g : GIn) (x : Grp) => (s.forChunk k (fun o => o == 5 || o == 0x0E) g x v) ∧ (4 ≤ g.payload.length) ∧ (crc32c (g.payload.take (g.payload.length - 4)) = beAt g.payload (g.payload.length - 4) 4) ∧ ((x.step g.h.step).abortReq = false) ∧ ((x.chunk g.h.step g.h.chunk).st = .awaitResult)) resultIn (letIn resultIn (isOp 5)) 0 (inFrame resultIn (isOp 5)) (group5 resultIn)) ∧
    ((fun (s : State) (v : State) (k : Nat) (g : GIn) (x : Grp) => (s.forChunk k (· == 3) g x v) ∧ ((x.chunk g.h.step g.h.chunk).st = .awaitAnchor) ∧ ((x.chunk g.h.step g.h.chunk).frames = []) ∧ ((s.chan (gCh x.entry)).scratchUe = [])) anchorsIn (letIn anchorsIn (isOp 3)) 0 (inFrame anchorsIn (isOp 3)) (group5 anchorsIn)) ∧
    ((fun (s : State) (_ : State) (_ : Nat) (_ : GIn) (x : Grp) (gid : Nat) (c : Nat) (slot : Bytes) => (s.live = true) ∧ (s.grp gid = some x) ∧ (gOwn x.entry = true) ∧ (gKind x.entry ≤ 1) ∧ (x.cur.closed = false) ∧ (x.cur.abortReq = false) ∧ (x.cur.chunks.filterMap (fun z : Nat × Chunk => if z.2.st == .held then some z.1 else none) = [c]) ∧ ((x.cur.chunks.get {} c).st = .held) ∧ (x.next.chunks = []) ∧ ((s.chan (gCh x.entry)).scratchUe = []) ∧ (s.mir.rehearsal = none) ∧ (s.pipUsable (gCh x.entry) (gCore x.entry) (gRelPip x.entry)) ∧ (slot = Mem.read (s.chan (gCh x.entry)).scratch (gSlotAt x.entry c) (gChunkBytes x.entry c))) heldChunk run 0 (inFrame run (isOp 1)) (group5 heldChunk) 5 0 ([1, 2, 3, 0, 0, 0, 0, 0])) ∧
    ((fun (s : State) (_ : State) (_ : Nat) (g : GIn) (x : Grp) (gid : Nat) (n : Nat) (c : Nat) (id : Nat) => (s.live = true) ∧ (s.grp gid = some x) ∧ ((stepDiff n (gStep x.entry) = 0 ∨ stepDiff n (gStep x.entry) = 1)) ∧ ((x.chunk n c).st = .idle) ∧ ((x.chunk n c).frames = [id]) ∧ (slotFree x n c = true) ∧ (s.ginOf id gid = some g) ∧ (g.h.step = n) ∧ (g.h.chunk = c) ∧ (gCls x.entry = 0) ∧ (gKind x.entry ≤ 1) ∧ (s.readable g = true)) waitingAt run 0 ((waitingAt.ginOf 1 5).getD (inFrame run (isOp 1))) (group5 waitingAt) 5 7 0 1) := by
  exact ⟨by beta_reduce; decide +kernel, by beta_reduce; decide +kernel, by beta_reduce; decide +kernel, by beta_reduce; decide +kernel⟩

def doneChunk : Tab Chunk := [(0, { st := .done, resOp := 5, result := [1, 2, 3, 4, 5, 6, 7, 8, 9, 10, 11, 12] })]
def doneAt : State := grpAt { entry := eager, cur := { chunks := doneChunk } }
def stepDoneIn : State := fromParentRx { entry := child, cur := { chunks := doneChunk } } { opcode := 12, gid := 5, chunk := 1 } (List.replicate 8 0)
def abortIn : State := fromParentRx { entry := child, cur := { chunks := doneChunk } } { opcode := 9, gid := 5 } [0x32, 0, 0, 1, 0xFF, 0xFF, 0, 0]
def abortReqIn : State := grpRx idleGrp 0x020000000001 { opcode := 8, gid := 5, member := 1, step := 7 } [0x32, 0, 0, 1, 0, 3, 0, 0]
def retractIn : State := fromParentRx { entry := child, cur := { chunks := doneChunk } } { opcode := 11, gid := 5 } ([0x33, 0] ++ beBytes 2 2 ++ beBytes 4 7)
def retractReqIn : State := grpRx { entry := eager, cur := { chunks := doneChunk } } 0x020000000001 { opcode := 10, gid := 5, member := 1, step := 7 } [0x33, 0, 0, 0, 0, 0, 0, 0]
def windowAt : State := { grpAt { entry := grpEntry [(40, 4, 100)], cur := { opened := some 0, firsts := [(0, 0)] } } with
  clk := { (run.atNs 200).clk with sched := [⟨25600, 0, .windowEnd 5 7⟩] } }

theorem test_wit_StepsEnd :
    ((fun (s : State) (_ : State) (_ : Nat) (_ : GIn) (x : Grp) (gid : Nat) => (s.live = true) ∧ (s.grp gid = some x) ∧ (x.entry.length = 64) ∧ (s.flag MIR_DET_CFG_det_en = false) ∧ (gRoot x.entry = true) ∧ (gOwn x.entry = true) ∧ (gKind x.entry ≠ 5) ∧ (x.sfm = false) ∧ (x.cur.closed = false) ∧ (x.cur.ending = false) ∧ (x.next.closed = false) ∧ ((∀ c, c < gChunks x.entry → (x.cur.chunks.get {} c).st = .done)) ∧ (s.unmirrored)) doneAt run 0 (inFrame run (isOp 1)) (group5 doneAt) 5) ∧
    ((fun (s : State) (_ : State) (_ : Nat) (_ : GIn) (x : Grp) (gid : Nat) => (s.live = true) ∧ (s.grp gid = some x) ∧ (x.entry.length = 64) ∧ (s.flag MIR_DET_CFG_det_en = false) ∧ (gRoot x.entry = true) ∧ (gOwn x.entry = true) ∧ (gKind x.entry ≠ 5) ∧ (x.sfm = false) ∧ (x.cur.closed = false) ∧ (x.cur.ending = false) ∧ (x.next.closed = false) ∧ ((∀ c, c < gChunks x.entry → (x.cur.chunks.get {} c).st = .done)) ∧ (s.pod = podPaired) ∧ (s.mir.held = []) ∧ (s.mir.unconfirmed.length < 65536) ∧ (s.mir.ended = [])) (doneAt.setReg MIR_STATUS_state podPaired) run 0 (inFrame run (isOp 1)) (group5 doneAt) 5) ∧
    ((fun (s : State) (v : State) (k : Nat) (g : GIn) (x : Grp) => (s.fromAbove k (· == 0x0C) g x v) ∧ (s.flag MIR_DET_CFG_det_en = false) ∧ (x.next.closed = false) ∧ (x.cur.ending = false) ∧ (s.unmirrored) ∧ (g.h.step = gStep x.entry) ∧ (controlFits x.entry g = true)) stepDoneIn (letIn stepDoneIn (isOp 12)) 0 (inFrame stepDoneIn (isOp 12)) (group5 stepDoneIn)) ∧
    ((fun (s : State) (v : State) (k : Nat) (g : GIn) (x : Grp) => (s.fromAbove k (· == 9) g x v) ∧ (s.flag MIR_DET_CFG_det_en = false) ∧ (x.next.closed = false) ∧ (g.h.step = gStep x.entry) ∧ (controlFits x.entry g = true)) abortIn (letIn abortIn (isOp 9)) 0 (inFrame abortIn (isOp 9)) (group5 abortIn)) ∧
    ((fun (s : State) (v : State) (k : Nat) (g : GIn) (x : Grp) => (s.admits k (fun g => g.h.opcode == 8) g x v) ∧ ((v.stepOpen x g).1 = true) ∧ (v.fromParent x.entry g = false) ∧ (v.readable g = true) ∧ (controlFits x.entry g = true) ∧ (mChild ((v.memberEntry x.entry g.h.member).getD []) = true) ∧ (gRoot x.entry = true) ∧ (x.entry.length = 64) ∧ (s.flag MIR_DET_CFG_det_en = false) ∧ (x.next.closed = false) ∧ (g.h.step = gStep x.entry) ∧ ((byteAt g.payload 0 ≠ stCollectiveMismatch ∨ x.released g.h.step = false))) abortReqIn (letIn abortReqIn (isOp 8)) 0 (inFrame abortReqIn (isOp 8)) (group5 abortReqIn)) ∧
    ((fun (s : State) (v : State) (k : Nat) (g : GIn) (x : Grp) => (s.admits k (fun g => g.h.opcode == 0x0B) g x v) ∧ (v.fromParent x.entry g = true) ∧ (v.readable g = true) ∧ (controlFits x.entry g = true) ∧ (x.entry.length = 64)) retractIn (letIn retractIn (isOp 11)) 0 (inFrame retractIn (isOp 11)) (group5 retractIn)) ∧
    ((fun (s : State) (v : State) (k : Nat) (g : GIn) (x : Grp) => (s.admits k (fun g => g.h.opcode == 0x0A) g x v) ∧ ((v.stepOpen x g).1 = true) ∧ (v.fromParent x.entry g = false) ∧ (v.readable g = true) ∧ (controlFits x.entry g = true) ∧ (mChild ((v.memberEntry x.entry g.h.member).getD []) = true) ∧ (gRoot x.entry = true) ∧ (x.entry.length = 64)) retractReqIn (letIn retractReqIn (isOp 10)) 0 (inFrame retractReqIn (isOp 10)) (group5 retractReqIn)) ∧
    ((fun (s : State) (_ : State) (_ : Nat) (_ : GIn) (x : Grp) (gid : Nat) (n : Nat) => (s.live = true) ∧ (s.dueEvent (.windowEnd gid n) = true) ∧ (s.grp gid = some x) ∧ ((stepDiff n (gStep x.entry) = 0 ∨ stepDiff n (gStep x.entry) = 1)) ∧ ((x.step n).closed = false) ∧ (gWpol x.entry = 0)) windowAt run 0 (inFrame run (isOp 1)) (group5 windowAt) 5 7) := by
  exact ⟨by beta_reduce; decide +kernel, by beta_reduce; decide +kernel, by beta_reduce; decide +kernel, by beta_reduce; decide +kernel, by beta_reduce; decide +kernel, by beta_reduce; decide +kernel, by beta_reduce; decide +kernel, by beta_reduce; decide +kernel⟩

def ackIn : State := grpRx idleGrp 0x020000000001 { opcode := 6, gid := 5, member := 0, step := 7 } [0, 5, 0, 1, 0, 0, 0, 0]
def sentUp : EchHead × Bytes := (chunkHead child 1 7 0, [1, 2, 3, 4, 5, 6, 7, 8])
def nackIn : State := fromParentRx { entry := child, cur := { chunks := [(0, { st := .awaitResult, up := [sentUp] })] } } { opcode := 7, gid := 5 } [BitVec.ofNat 8 stMemUncorrectable, 1, 0, 1, 0, 0, 0, 0]
def resendIn : State := grpRx { entry := eager, cur := { chunks := doneChunk } } 0x020000000001 { opcode := 15, gid := 5, member := 0, step := 7 } (List.replicate 8 0)

theorem test_wit_GroupAnswers :
    ((fun (s : State) (v : State) (k : Nat) (g : GIn) (x : Grp) => (s.admits k (fun g => g.h.opcode == 6) g x v) ∧ (v.readable g = true) ∧ (controlFits x.entry g = true) ∧ (x.taken = none)) ackIn (letIn ackIn (isOp 6)) 0 (inFrame ackIn (isOp 6)) (group5 ackIn)) ∧
    ((fun (s : State) (v : State) (k : Nat) (g : GIn) (x : Grp) (u : EchHead × Bytes) => (s.admits k (fun g => g.h.opcode == 7 && byteAt g.payload 1 != 0) g x v) ∧ (v.readable g = true) ∧ (controlFits x.entry g = true) ∧ (v.fromParent x.entry g = true) ∧ (byteAt g.payload 0 = stMemUncorrectable) ∧ ((x.chunk g.h.step g.h.chunk).up = [u]) ∧ (u.1.opcode = byteAt g.payload 1) ∧ (u.1.part = g.h.part)) nackIn (letIn nackIn (isOp 7)) 0 (inFrame nackIn (isOp 7)) (group5 nackIn) sentUp) ∧
    ((fun (s : State) (v : State) (k : Nat) (g : GIn) (x : Grp) => (s.admits k (fun g => g.h.opcode == 0x0F) g x v) ∧ (v.readable g = true) ∧ (controlFits x.entry g = true) ∧ ((stepDiff g.h.step (gStep x.entry) = 0 ∨ stepDiff g.h.step (gStep x.entry) = -1)) ∧ ((x.chunk g.h.step g.h.chunk).st = .done) ∧ ((x.chunk g.h.step g.h.chunk).result ≠ [])) resendIn (letIn resendIn (isOp 15)) 0 (inFrame resendIn (isOp 15)) (group5 resendIn)) ∧
    ((fun (s : State) (_ : State) (_ : Nat) (_ : GIn) (_ : Grp) => (s.live = true) ∧ (s.flag HUB_STATUS_ready = true) ∧ (s.latchNow.counts = [])) run run 0 (inFrame run (isOp 1)) idleGrp) := by
  exact ⟨by beta_reduce; decide +kernel, by beta_reduce; decide +kernel, by beta_reduce; decide +kernel, by beta_reduce; decide +kernel⟩

/-- A dispatch group of one source: rows of 256 bytes in both directions, K 1, B 2, E 2, C 4, FP32, combine region at 0x4000, experts at 0x100100. -/
def tokEntry (l : List (Nat × Nat × Nat)) : Bytes :=
  grpEntry ([(4, 1, 0x5F), (3, 1, 0x11), (8, 2, 1), (10, 1, 1), (17, 1, 3), (18, 1, 4), (20, 2, 2), (22, 2, 2), (24, 2, 4), (26, 2, 1), (52, 6, 0x100100), (58, 4, 0x4000)] ++ l)
def tokGrp (d : Disp) : Grp := { entry := tokEntry [], disp := d }
def oneTok : Tok := { src := 0, num := 0, stamp := 256 }
def tokenIn : State := grpRx { entry := tokEntry [(20, 2, 3)], disp := { batches := [(0, { st := .filling, step := 7, toks := [oneTok] })], nextBatch := 1, srcs := [(0, { next := 1 })] } }
  0x020000000001 { opcode := 0x40, gid := 5, member := 0, step := 7, op := 0x5F, fmt := 1 } (beBytes 4 1 ++ List.replicate 4 0 ++ List.replicate 256 9)
def tokenEndIn : State := grpRx (tokGrp { srcs := [(0, { next := 2 })] }) 0x020000000001 { opcode := 0x41, gid := 5, member := 0, step := 7, op := 0x5F } (beBytes 4 2 ++ List.replicate 4 0)
def flushAt : State := { grpAt (tokGrp { batches := [(0, { st := .filling, step := 7, toks := [oneTok] })] }) with
  clk := { (run.atNs 2000).clk with sched := [⟨256256, 0, .flush 5⟩] } }
def queuedAt : State := grpAt (tokGrp { batches := [(0, { st := .committed }), (1, { st := .queued, seq := 1 })] })

theorem test_wit_TokensAreTakenIn :
    ((fun (s : State) (v : State) (k : Nat) (g : GIn) (x : Grp) (e : Bytes) (j : Nat) (b : Batch) (row : Bytes) (sc : Mem) (a : Nat) (i : Nat) => (e = x.entry) ∧ (s.sourced k 0x40 g x v) ∧ (v.readable g = true) ∧ (x.disp.waiting = []) ∧ (g.h.fmt = gFmt e) ∧ (g.payload.length % (8 + gCap e) = 0) ∧ (tokenList (gCap e) g.payload = [(((x.src g.h.step g.h.member).getD {}).next, row)]) ∧ (x.filling g.h.step = some j) ∧ (x.disp.batches.get {} j = b) ∧ (i = b.toks.length) ∧ (i + 1 < tkB e) ∧ (sc = (s.chan (gCh e)).scratch) ∧ (a = tkIntakeAt e j)) tokenIn (letIn tokenIn (isOp 64)) 0 (inFrame tokenIn (isOp 64)) (group5 tokenIn) ((group5 tokenIn).entry) 0 ({ st := .filling, step := 7, toks := [oneTok] }) (List.replicate 256 9) ((tokenIn.chan 0).scratch) 0 1) ∧
    ((fun (s : State) (v : State) (k : Nat) (g : GIn) (x : Grp) (e : Bytes) => (e = x.entry) ∧ (s.sourced k 0x41 g x v) ∧ (x.disp.waiting = []) ∧ (g.h.fmt = 0) ∧ (beAt g.payload 0 4 = ((x.src g.h.step g.h.member).getD {}).next)) tokenEndIn (letIn tokenEndIn (isOp 65)) 0 (inFrame tokenEndIn (isOp 65)) (group5 tokenEndIn) ((group5 tokenEndIn).entry)) ∧
    ((fun (s : State) (_ : State) (_ : Nat) (_ : GIn) (x : Grp) (e : Bytes) (gid : Nat) (j : Nat) (b : Batch) => (e = x.entry) ∧ (s.live = true) ∧ (s.dueEvent (.flush gid) = true) ∧ (s.grp gid = some x) ∧ (tkFlush e ≠ 0) ∧ (List.filter (fun z : Nat × Batch => z.2.st == .filling) x.disp.batches = [(j, b)]) ∧ (x.disp.batches.get {} j = b) ∧ (b.toks.length ≤ tkB e) ∧ (atOrBefore ((b.toks.head?.map (·.stamp)).getD 0 + ns (tkFlush e * 1000)) s.now = true)) flushAt run 0 (inFrame run (isOp 1)) (group5 flushAt) ((group5 flushAt).entry) 5 0 ({ st := .filling, step := 7, toks := [oneTok] })) ∧
    ((fun (s : State) (_ : State) (_ : Nat) (_ : GIn) (x : Grp) (e : Bytes) (gid : Nat) (j : Nat) (b : Batch) => (e = x.entry) ∧ (s.live = true) ∧ (s.grp gid = some x) ∧ (gOwn e = true) ∧ (gDonePip e < 48) ∧ (gDonePip e ≠ gRelPip e) ∧ (List.filter (fun z : Nat × Batch => z.2.st != .free && z.2.st != .committed) x.disp.batches = [(j, b)]) ∧ (b.st = .queued)) queuedAt run 0 (inFrame run (isOp 1)) (group5 queuedAt) ((group5 queuedAt).entry) 5 1 ({ st := .queued, seq := 1 })) := by
  exact ⟨by beta_reduce; decide +kernel, by beta_reduce; decide +kernel, by beta_reduce; decide +kernel, by beta_reduce; decide +kernel⟩

def relPip : State := ((grpAt { entry := tokEntry [(40, 4, 5000)], disp := { batches := [(1, { st := .ready, step := 7, toks := [oneTok] })] } }).setReg (CH_PIP_pips 0 0) 0x10).modChan 0
  (fun c => { c with scratch := Mem.write [] 0x4000 (List.replicate 8 1) })
def mappedTok : Tok := { oneTok with asn := [.mapped 5] }
def resultFrame : State := grpRx (tokGrp { batches := [(1, { st := .committed, step := 7, toks := [mappedTok] })] }) 0x020000000001
  { opcode := 0x43, gid := 5, member := 1, step := 7, part := 1, chunk := 5, op := 0x5F, fmt := 1 } (List.replicate 256 0)
def deadlineAt : State := { grpAt (tokGrp { batches := [(1, { st := .committed, step := 7, toks := [mappedTok], deadline := some 2560 })] }) with
  clk := { (run.atNs 20).clk with sched := [⟨2560, 0, .deadline 5 1⟩] } }
def homeAt : State := grpAt (tokGrp { batches := [(1, { st := .committed, step := 7, toks := [{ oneTok with asn := [.added 5] }] })], srcs := [(0, { next := 1 })] })

theorem test_wit_BatchesCommitAndGoHome :
    ((fun (s : State) (x : Grp) (gid : Nat) (e : Bytes) (j : Nat) (b : Batch) => (e = x.entry) ∧ (s.live = true) ∧ (s.grp gid = some x) ∧ (List.find? (fun z : Nat × Batch => z.2.st == .ready) x.disp.batches = some (j, b)) ∧ (gOwn e = true) ∧ (s.pipUsable (gCh e) (gCore e) (gRelPip e)) ∧ (b.early = []) ∧ ((∀ tk ∈ b.toks, tk.asn = []))) relPip (group5 relPip) 5 ((group5 relPip).entry) 1 ({ st := .ready, step := 7, toks := [oneTok] })) ∧
    ((fun (s : State) (x : Grp) (gid : Nat) (e : Bytes) (k : Nat) (g : GIn) (u : State) (i : Nat) (r : Nat) (tk : Tok) => (e = x.entry) ∧ (s.live = true) ∧ (s.grp gid = some x) ∧ (s.take k (fun g => g.h.opcode == 0x43 && s.turn [0x43] g) = (some g, u)) ∧ (g.gid = gid) ∧ (gKind e = 5) ∧ (gOwn e = true) ∧ (g.h.epoch = gEpoch e) ∧ (g.h.part < gSlots e) ∧ ((s.batch gid g.h.part).st = .committed) ∧ ((s.batch gid g.h.part).step = g.h.step) ∧ (g.payload.length = tkRo e) ∧ (g.h.member * tkC e ≤ g.h.chunk) ∧ (g.h.chunk + 1 ≤ g.h.member * tkC e + tkC e) ∧ ((s.batch gid g.h.part).deadline.any (fun d => atOrBefore d g.stamp) = false) ∧ (slotOwner (s.batch gid g.h.part).toks g.h.chunk = some (i, r)) ∧ ((s.batch gid g.h.part).toks[i]? = some tk) ∧ (tk.home = false) ∧ (g.frm < u.nextFrm) ∧ (u.readable g = true) ∧ ((s.chan (gCh e)).scratchUe = []) ∧ ((s.batch gid g.h.part).taken.contains g.h.chunk = false) ∧ (0 < tkK e) ∧ (nextRow (gWpol e == 0) (tk.asn.set r (.row g.h.chunk g.frm 0)) 0 = some (r, g.h.chunk, g.frm, 0))) resultFrame (group5 resultFrame) 5 ((group5 resultFrame).entry) 0 (inFrame resultFrame (isOp 67)) ((resultFrame.take 0 (isOp 67)).2) 0 0 mappedTok) ∧
    ((fun (s : State) (x : Grp) (gid : Nat) (e : Bytes) (j : Nat) (d : FT64) => (e = x.entry) ∧ (s.live = true) ∧ (s.grp gid = some x) ∧ (s.deadlineDue gid j = true) ∧ ((s.batch gid j).st = .committed) ∧ ((s.batch gid j).deadline = some d) ∧ (s.resultsDue gid d = false)) deadlineAt (group5 deadlineAt) 5 ((group5 deadlineAt).entry) 1 2560) ∧
    ((fun (s : State) (x : Grp) (gid : Nat) (e : Bytes) (m : Nat) (j : Nat) (i : Nat) (z : TokSrc) => (e = x.entry) ∧ (s.live = true) ∧ (s.grp gid = some x) ∧ (m < 4096) ∧ (gKind e = 5) ∧ (x.disp.closed = []) ∧ ((∀ b ∈ x.disp.batches, b.2.step = gStep e)) ∧ (x.src (gStep e) m = some z) ∧ (x.readyToks (gStep e) m (max 1 ((65536 - 4) / (8 + tkRo e))) z.home = [(j, i)]) ∧ (i < (x.disp.batches.get {} j).toks.length)) homeAt (group5 homeAt) 5 ((group5 homeAt).entry) 0 1 0 ({ next := 1 })) := by
  exact ⟨by beta_reduce; decide +kernel, by beta_reduce; decide +kernel, by beta_reduce; decide +kernel, by beta_reduce; decide +kernel⟩

/-- Descriptor 3 waits: its bytes from some fields. -/
def descOf (l : List (Nat × Nat × Nat)) : Desc :=
  { sq := 0, bytes := l.foldl (fun b (f : Nat × Nat × Nat) => overwrite b f.1 (leBytes f.2.1 f.2.2)) (List.replicate 64 0), stamp := 2560, arr := 4, cq := 1 }
def descAt (s : State) (x : Desc) : State := { s.setReg (RING_CQ_CFG_en 1) 1 with host := { s.host with descs := [(3, x)], next := 4 } }

/-- A ring of 1 GiB, and a recording. -/
def ringed : State := (run.setReg STORE_REGION_CFG_sbk_size 1).atNs 5000
def recOn : State := ringed.setReg SBK_STATUS_state 1
def ctl (op : Nat) : Desc := descOf [(0, 1, 8), (4, 4, 77), (8, 1, op)]
def stagedRec : SbkRec := { kind := 5, src := 194, stamp := 256, arr := 2, payload := List.replicate 16 3 }

theorem test_wit_SeedbankRecords :
    ((fun (s : State) (_ : Nat) (_ : Desc) (_ : Fin 16) (_ : Nat) => (s.live = true) ∧ (s.flag HUB_STATUS_ready = true) ∧ (s.replaying = false)) run 3 (ctl 0) 15 (2 ^ 64 - 1)) ∧
    ((fun (s : State) (_ : Nat) (_ : Desc) (v : Nat) => (s.live = true) ∧ (s.flag HUB_STATUS_ready = true) ∧ (s.replaying = false) ∧ ((∀ k ∈ s.ctxs, k.2.st = .idle)) ∧ ((∀ g ∈ s.groups, bitOf v 1 = true → refusedByAnchored g.2.entry = false))) run 3 (ctl 0) 3) ∧
    ((fun (s : State) (_ : Nat) (_ : Desc) (_ : Nat) => (s.live = true) ∧ ((∃ k ∈ s.ctxs, k.2.st ≠ .idle))) (run.modCtx 37 (fun k => { k with st := .run })) 3 (ctl 0) (2 ^ 64 - 1)) ∧
    ((fun (s : State) (_ : Nat) (_ : Desc) (_ : Nat) => (s.live = true) ∧ (s.flag HUB_STATUS_ready = true)) run 3 (ctl 0) (2 ^ 64 - 1)) ∧
    ((fun (s : State) (_ : Nat) (_ : Desc) => (s.live = true) ∧ (s.flag HUB_STATUS_ready = true) ∧ (s.latchNow.counts = [])) run 3 (ctl 0)) ∧
    ((fun (s : State) (d : Nat) (x : Desc) => (s.live = true) ∧ (s.serves d 8 x) ∧ (byteAt x.bytes 8 = 0) ∧ (s.reg SBK_STATUS_state = 0) ∧ (s.ringSize ≠ 0)) (descAt ringed (ctl 0)) 3 (ctl 0)) ∧
    ((fun (s : State) (d : Nat) (x : Desc) => (s.live = true) ∧ (s.serves d 8 x) ∧ (byteAt x.bytes 8 = 2) ∧ (s.recording = true) ∧ (s.sbk.stagedBytes + 64 ≤ 0x800000)) (descAt recOn (descOf [(0, 1, 8), (8, 1, 2), (16, 8, 99)])) 3 (descOf [(0, 1, 8), (8, 1, 2), (16, 8, 99)])) ∧
    ((fun (s : State) (d : Nat) (x : Desc) => (s.live = true) ∧ (s.serves d 8 x) ∧ (byteAt x.bytes 8 = 1) ∧ (s.recording = true)) (descAt recOn (ctl 1)) 3 (ctl 1)) ∧
    ((fun (s : State) (_ : Nat) (_ : Desc) (r : SbkRec) (rest : List SbkRec) (n : Nat) => (s.live = true) ∧ (s.sbk.staged = r :: rest) ∧ (s.reg SBK_STATUS_state = 1) ∧ (r.whole = true) ∧ (s.elapsed r.stamp 4000 = true) ∧ (s.sbk.lost = 0) ∧ (r.kind ≠ 10) ∧ (n = recBytes r.payload.length) ∧ (s.flag SBK_CFG_target = false) ∧ (s.ringRoom [n] = true) ∧ (s.reg SBK_WR_PTR_wr + n ≤ s.ringSize)) ({ recOn with sbk := { staged := [stagedRec] } }) 3 (ctl 0) stagedRec ([]) 64) := by
  exact ⟨by beta_reduce; decide +kernel, by beta_reduce; decide +kernel, by beta_reduce; exact ⟨by decide +kernel, by decide +kernel⟩, by beta_reduce; decide +kernel, by beta_reduce; decide +kernel, by beta_reduce; decide +kernel, by beta_reduce; decide +kernel, by beta_reduce; decide +kernel, by beta_reduce; decide +kernel⟩

def seedRec (seq kind : Nat) (p : Bytes) : Bytes := ringRecord kind 0 194 2560 2 seq (recBytes p.length / 32) p
def ringWith (b : Bytes) : State := let s := ringed; { s with store := { s.store with mem := Mem.write [] (s.sbkBase) b } }
def startRing : State := ringWith (seedRec 9 9 (leBytes 8 run.bitid ++ leBytes 8 ringed.bitTag ++ List.replicate 8 0))
/-- `s` replays from its ring, which begins with `b`; descriptor 3 is the REPLAY_START. -/
def replayIn (s : State) (b : Bytes) : State := ({ descAt { s with store := { s.store with mem := Mem.write s.store.mem s.sbkBase b } } { ctl 3 with started := true } with
  sbk := { replay := some { d := 3, pos := 0, end_ := 0, seq := 9 } } }).setReg SBK_STATUS_state 2
def replayAt (kind : Nat) (p : Bytes) : State := replayIn ringed (seedRec 9 kind p)
def recIn (s : State) : RingRec := match s.ringRec [] 0 with | .ok r => r | .error _ => ⟨0, 0, 0, 0, 0, 0, 0, []⟩
def descP : Bytes := leBytes 8 2 ++ (descOf [(0, 1, 6), (1, 1, 1)]).bytes
def timeP (k v : Nat) : Bytes := leBytes 8 k ++ leBytes 8 v
def listP : Bytes := leBytes 8 1 ++ leBytes 8 0x100000 ++ List.replicate 32 6
def entryP : Bytes := leBytes 2 0 ++ leBytes 6 5 ++ leBytes 8 0 ++ grpEntry [(48, 4, 6), (2, 1, 3)]
def entryAt7 : State := { replayAt 6 entryP with groups := [(5, { entry := grpEntry [] })] }
def frameP (b : Bytes) : Bytes := b ++ fcsOf b
/-- A frame that came on port 1 stands in the ring. -/
def frameIn (b : Bytes) : State := replayIn (({ fwdAt with groups := [(5, { entry := grpEntry [] })] }.setReg STORE_REGION_CFG_sbk_size 1).atNs 5000)
  (ringRecord 1 0 8 2560 2 9 (recBytes (b.length + 4) / 32) (frameP b))
def fIn (b : Bytes) : Parsed := parseFrame b
def eIn (b : Bytes) : Rx := { stamp := 2560, arr := 2, decided := true, whole := true, data := b, cls := (frameIn b).classify 1 (fIn b), recorded := false }
def wIn (b : Bytes) : State := ((frameIn b).replayPast (recIn (frameIn b))).modLink 8 (fun k => { k with rx := some { stamp := 2560, arr := 2 }, lostAt := none })
def uIn (b : Bytes) : State := ((wIn b).lookupSlot 1 64).getD run
def vIn (b : Bytes) : Fate × State := (uIn b).decideFate 8 ((frameIn b).classify 1 (fIn b)) (eIn b) b (fIn b) true

theorem test_wit_SeedbankReplays :
    ((fun (s : State) (d : Nat) (x : Desc) (ring : Bytes) (r : RingRec) => (s.live = true) ∧ (s.serves d 8 x) ∧ (byteAt x.bytes 8 = 3) ∧ (s.reg SBK_STATUS_state = 0) ∧ (s.ringSize ≠ 0) ∧ (s.groups = []) ∧ (s.clk.sched = []) ∧ (s.ringRec ring (leAt x.bytes 16 8) = .ok r) ∧ (r.kind = 9) ∧ (leAt r.payload 8 8 = s.bitTag) ∧ (endsWithin s.ringSize (leAt x.bytes 16 8) r.bytes (leAt x.bytes 24 8) = false)) (descAt startRing (ctl 3)) 3 (ctl 3) ([]) (recIn startRing)) ∧
    ((fun (s : State) (_ : Nat) (_ : Desc) (q : Replay) (r : RingRec) => (s.live = true) ∧ (s.sbk.replay = some q) ∧ (s.ringRec q.ring q.pos = .ok r) ∧ (r.seq = q.seq) ∧ (atOrBefore r.stamp s.now = true) ∧ (endsWithin s.ringSize q.pos r.bytes q.end_ = false) ∧ (r.kind = 5)) (replayAt 5 (timeP 4 1234)) 3 (ctl 3) ({ d := 3, pos := 0, end_ := 0, seq := 9 }) (recIn (replayAt 5 (timeP 4 1234)))) ∧
    ((fun (s : State) (_ : Nat) (_ : Desc) (q : Replay) (r : RingRec) (b : Bytes) => (s.live = true) ∧ (s.sbk.replay = some q) ∧ (s.ringRec q.ring q.pos = .ok r) ∧ (r.seq = q.seq) ∧ (atOrBefore r.stamp s.now = true) ∧ (endsWithin s.ringSize q.pos r.bytes q.end_ = false) ∧ (r.kind = 2) ∧ (b = slice (padTo 72 r.payload) 8 64) ∧ (descKnown b = true)) (replayAt 2 descP) 3 (ctl 3) ({ d := 3, pos := 0, end_ := 0, seq := 9 }) (recIn (replayAt 2 descP)) ((descOf [(0, 1, 6), (1, 1, 1)]).bytes)) ∧
    ((fun (s : State) (_ : Nat) (_ : Desc) (q : Replay) (r : RingRec) => (s.live = true) ∧ (s.sbk.replay = some q) ∧ (s.ringRec q.ring q.pos = .ok r) ∧ (r.seq = q.seq) ∧ (atOrBefore r.stamp s.now = true) ∧ (endsWithin s.ringSize q.pos r.bytes q.end_ = false) ∧ (r.kind = 3)) (replayAt 3 listP) 3 (ctl 3) ({ d := 3, pos := 0, end_ := 0, seq := 9 }) (recIn (replayAt 3 listP))) ∧
    ((fun (s : State) (_ : Nat) (_ : Desc) (q : Replay) (r : RingRec) => (s.live = true) ∧ (s.sbk.replay = some q) ∧ (s.ringRec q.ring q.pos = .ok r) ∧ (r.seq = q.seq) ∧ (atOrBefore r.stamp s.now = true) ∧ (endsWithin s.ringSize q.pos r.bytes q.end_ = false) ∧ (r.kind = 4) ∧ (byteAt r.payload 0 = 1)) (replayAt 4 (timeP 1 1000)) 3 (ctl 3) ({ d := 3, pos := 0, end_ := 0, seq := 9 }) (recIn (replayAt 4 (timeP 1 1000)))) ∧
    ((fun (s : State) (_ : Nat) (_ : Desc) (q : Replay) (r : RingRec) => (s.live = true) ∧ (s.sbk.replay = some q) ∧ (s.ringRec q.ring q.pos = .ok r) ∧ (r.seq = q.seq) ∧ (atOrBefore r.stamp s.now = true) ∧ (endsWithin s.ringSize q.pos r.bytes q.end_ = false) ∧ (r.kind = 4) ∧ (byteAt r.payload 0 = 0) ∧ (s.clk.sched = []) ∧ (s.groups = [])) (replayAt 4 (timeP 0 2560)) 3 (ctl 3) ({ d := 3, pos := 0, end_ := 0, seq := 9 }) (recIn (replayAt 4 (timeP 0 2560)))) ∧
    ((fun (s : State) (_ : Nat) (_ : Desc) (q : Replay) (r : RingRec) => (s.live = true) ∧ (s.sbk.replay = some q) ∧ (s.ringRec q.ring q.pos = .ok r) ∧ (r.seq = q.seq) ∧ (atOrBefore r.stamp s.now = true) ∧ (endsWithin s.ringSize q.pos r.bytes q.end_ = false) ∧ (r.kind = 6) ∧ (byteAt r.payload 0 ≠ 0) ∧ (s.badWords (leAt r.payload 8 6) (r.payload.length - 16) = [])) (replayAt 6 listP) 3 (ctl 3) ({ d := 3, pos := 0, end_ := 0, seq := 9 }) (recIn (replayAt 6 listP))) ∧
    ((fun (s : State) (_ : Nat) (_ : Desc) (q : Replay) (r : RingRec) (y : Grp) => (s.live = true) ∧ (s.sbk.replay = some q) ∧ (s.ringRec q.ring q.pos = .ok r) ∧ (r.seq = q.seq) ∧ (atOrBefore r.stamp s.now = true) ∧ (endsWithin s.ringSize q.pos r.bytes q.end_ = false) ∧ (r.kind = 6) ∧ (byteAt r.payload 0 = 0) ∧ (s.grp (leAt r.payload 2 2) = some y) ∧ (gEpoch y.entry = gEpoch (r.payload.drop 16)) ∧ (gValid (r.payload.drop 16) = true)) entryAt7 3 (ctl 3) ({ d := 3, pos := 0, end_ := 0, seq := 9 }) (recIn entryAt7) ({ entry := grpEntry [] })) ∧
    ((fun (s : State) (_ : Nat) (_ : Desc) (q : Replay) (r : RingRec) => (s.live = true) ∧ (s.sbk.replay = some q) ∧ (s.ringRec q.ring q.pos = .ok r) ∧ (r.seq = q.seq) ∧ (atOrBefore r.stamp s.now = true) ∧ (endsWithin s.ringSize q.pos r.bytes q.end_ = false) ∧ (r.kind = 8 ∨ r.kind = 0)) (replayAt 8 (leBytes 8 5)) 3 (ctl 3) ({ d := 3, pos := 0, end_ := 0, seq := 9 }) (recIn (replayAt 8 (leBytes 8 5)))) ∧
    ((fun (s : State) (_ : Nat) (_ : Desc) (q : Replay) (r : RingRec) (p : Port) (l : Lp) (b : Bytes) (f : Parsed) (w : State) (u : State) (v : State) (e : Rx) (ft : Fate) => (s.live = true) ∧ (s.sbk.replay = some q) ∧ (s.ringRec q.ring q.pos = .ok r) ∧ (r.seq = q.seq) ∧ (atOrBefore r.stamp s.now = true) ∧ (endsWithin s.ringSize q.pos r.bytes q.end_ = false) ∧ (r.kind = 1) ∧ (r.src = 8 * p + l) ∧ (r.flags = 0) ∧ (64 ≤ r.payload.length) ∧ (r.payload.length ≤ 256) ∧ (r.payload.length ≤ s.maxFrame p) ∧ (b = r.payload.take (r.payload.length - 4)) ∧ (f = parseFrame b) ∧ (s.portRow (8 * p + l) b f = none) ∧ (s.flag STORE_STATUS_ready = true) ∧ (s.recording = false) ∧ (s.fcMode (8 * p + l) ≠ 2) ∧ (s.flag (PORT_POL_RATE_en p l (s.classify p f)) = false) ∧ (e = { stamp := r.stamp, arr := r.arr, decided := true, whole := true, data := b, cls := s.classify p f, recorded := false }) ∧ (w = (s.replayPast r).modLink (8 * p + l) (fun k => { k with rx := some { stamp := r.stamp, arr := r.arr }, lostAt := none })) ∧ (w.lookupSlot p r.payload.length = some u) ∧ (u.decideFate (8 * p + l) (s.classify p f) e b f true = (ft, v)) ∧ (ft = .drop)) (frameIn plainFrame) 3 (ctl 3) ({ d := 3, pos := 0, end_ := 0, seq := 9 }) (recIn (frameIn plainFrame)) 1 0 plainFrame (fIn plainFrame) (wIn plainFrame) (uIn plainFrame) ((vIn plainFrame).2) (eIn plainFrame) ((vIn plainFrame).1)) ∧
    ((fun (s : State) (_ : Nat) (_ : Desc) (q : Replay) (r : RingRec) (p : Port) (l : Lp) (b : Bytes) (f : Parsed) (w : State) (u : State) (v : State) (e : Rx) (ft : Fate) (id : Nat) (gid : Nat) => (s.live = true) ∧ (s.sbk.replay = some q) ∧ (s.ringRec q.ring q.pos = .ok r) ∧ (r.seq = q.seq) ∧ (atOrBefore r.stamp s.now = true) ∧ (endsWithin s.ringSize q.pos r.bytes q.end_ = false) ∧ (r.kind = 1) ∧ (r.src = 8 * p + l) ∧ (r.flags = 0) ∧ (64 ≤ r.payload.length) ∧ (r.payload.length ≤ 256) ∧ (r.payload.length ≤ s.maxFrame p) ∧ (b = r.payload.take (r.payload.length - 4)) ∧ (f = parseFrame b) ∧ (s.portRow (8 * p + l) b f = none) ∧ (s.flag STORE_STATUS_ready = true) ∧ (s.recording = false) ∧ (s.fcMode (8 * p + l) ≠ 2) ∧ (s.flag (PORT_POL_RATE_en p l (s.classify p f)) = false) ∧ (e = { stamp := r.stamp, arr := r.arr, decided := true, whole := true, data := b, cls := s.classify p f, recorded := false }) ∧ (w = (s.replayPast r).modLink (8 * p + l) (fun k => { k with rx := some { stamp := r.stamp, arr := r.arr }, lostAt := none })) ∧ (w.lookupSlot p r.payload.length = some u) ∧ (u.decideFate (8 * p + l) (s.classify p f) e b f true = (ft, v)) ∧ (ft = .group id gid)) (frameIn echUs) 3 (ctl 3) ({ d := 3, pos := 0, end_ := 0, seq := 9 }) (recIn (frameIn echUs)) 1 0 echUs (fIn echUs) (wIn echUs) (uIn echUs) ((vIn echUs).2) (eIn echUs) ((vIn echUs).1) (idOf (vIn echUs).1) 5) ∧
    ((fun (s : State) (_ : Nat) (_ : Desc) (q : Replay) (r : RingRec) (y : Desc) => (s.live = true) ∧ (s.sbk.replay = some q) ∧ (s.ringRec q.ring q.pos = .ok r) ∧ (r.seq = q.seq) ∧ (atOrBefore r.stamp s.now = true) ∧ (s.desc q.d = some y) ∧ (r.kind = 10 ∨ (r.kind = 8 ∧ endsWithin s.ringSize q.pos r.bytes q.end_ = true))) (replayAt 10 []) 3 (ctl 3) ({ d := 3, pos := 0, end_ := 0, seq := 9 }) (recIn (replayAt 10 [])) ({ ctl 3 with started := true })) ∧
    ((fun (s : State) (_ : Nat) (_ : Desc) (q : Replay) (r : RingRec) (y : Desc) => (s.live = true) ∧ (s.sbk.replay = some q) ∧ (s.ringRec q.ring q.pos = .ok r) ∧ (r.seq = q.seq) ∧ (atOrBefore r.stamp s.now = true) ∧ (s.desc q.d = some y) ∧ (r.kind = 7)) (replayAt 7 (timeP 1 256)) 3 (ctl 3) ({ d := 3, pos := 0, end_ := 0, seq := 9 }) (recIn (replayAt 7 (timeP 1 256))) ({ ctl 3 with started := true })) ∧
    ((fun (s : State) (_ : Nat) (_ : Desc) (q : Replay) (r : RingRec) (y : Desc) => (s.live = true) ∧ (s.sbk.replay = some q) ∧ (s.ringRec q.ring q.pos = .ok r) ∧ (r.seq = q.seq) ∧ (atOrBefore r.stamp s.now = true) ∧ (s.desc q.d = some y) ∧ (r.kind = 1) ∧ (bitOf r.flags 2 = true)) (replayIn ringed (ringRecord 1 4 8 2560 2 9 (recBytes 64 / 32) (frameP plainFrame))) 3 (ctl 3) ({ d := 3, pos := 0, end_ := 0, seq := 9 }) (recIn (replayIn ringed (ringRecord 1 4 8 2560 2 9 (recBytes 64 / 32) (frameP plainFrame)))) ({ ctl 3 with started := true })) ∧
    ((fun (s : State) (_ : Nat) (_ : Desc) (q : Replay) (y : Desc) => (s.live = true) ∧ (s.sbk.replay = some q) ∧ (s.ringRec q.ring q.pos = .error none) ∧ (s.desc q.d = some y)) (replayIn ringed [1, 2, 3]) 3 (ctl 3) ({ d := 3, pos := 0, end_ := 0, seq := 9 }) ({ ctl 3 with started := true })) ∧
    ((fun (s : State) (d : Nat) (x : Desc) (q : Replay) => (s.live = true) ∧ (s.serves d 8 x) ∧ (byteAt x.bytes 8 = 4) ∧ (s.replaying = true) ∧ (s.sbk.replay = some q)) ({ (replayAt 5 []) with host := { (replayAt 5 []).host with descs := [(3, ctl 4), (9, { ctl 3 with started := true })] }, sbk := { replay := some { d := 9, pos := 0, end_ := 0, seq := 9 } } }) 3 (ctl 4) ({ d := 9, pos := 0, end_ := 0, seq := 9 })) := by
  exact ⟨by beta_reduce; decide +kernel, by beta_reduce; decide +kernel, by beta_reduce; decide +kernel, by beta_reduce; decide +kernel, by beta_reduce; decide +kernel, by beta_reduce; decide +kernel, by beta_reduce; decide +kernel, by beta_reduce; decide +kernel, by beta_reduce; exact ⟨by decide +kernel, by decide +kernel, by decide +kernel, by decide +kernel, by decide +kernel, by decide +kernel, .inl (by decide +kernel)⟩, by beta_reduce; decide +kernel, by beta_reduce; decide +kernel, by beta_reduce; exact ⟨by decide +kernel, by decide +kernel, by decide +kernel, by decide +kernel, by decide +kernel, by decide +kernel, .inl (by decide +kernel)⟩, by beta_reduce; decide +kernel, by beta_reduce; decide +kernel, by beta_reduce; decide +kernel, by beta_reduce; decide +kernel⟩

def sample0 : PmcSample := { counts := List.replicate 11 1000, sensors := [(2, 60), (0, 55)], hbm := List.replicate 24 50 }
def pmcAt : State := { run.atNs 10000 with pmc := { run.pmc with lastK := some 0 } }

theorem test_wit_PowerIntervalsAndLimits :
    ((fun (s : State) (act : PmcSample) (_ : Nat) (_ : Nat) (p : Nat) => (s.live = true) ∧ (s.flag HUB_STATUS_ready = true) ∧ (s.pmc.lastK ≠ some (s.now.toNat / 2560000)) ∧ (p = s.modelPower (if s.pmc.lastK.isNone then s.pwrBoundary else s.pmc.eff) (s.reg PWR_TJ_tj_max) (s.counted act.counts))) pmcAt sample0 (2 ^ 64 - 1) 3 (pmcAt.modelPower pmcAt.pmc.eff (pmcAt.reg PWR_TJ_tj_max) (pmcAt.counted sample0.counts))) ∧
    ((fun (s : State) (_ : PmcSample) (_ : Nat) (l : Nat) (_ : Nat) => (s.live = true) ∧ (s.pmc.req = some l) ∧ (s.pmc.deferred = false) ∧ (s.pmc.reqAt ≠ s.clk.cyc)) ({ run with clk := { run.clk with cyc := 5 }, pmc := { run.pmc with req := some 3 } }) sample0 (2 ^ 64 - 1) 3 0) ∧
    ((fun (s : State) (_ : PmcSample) (_ : Nat) (_ : Nat) (_ : Nat) => (s.live = true) ∧ (s.flag HUB_STATUS_ready = true)) run sample0 (2 ^ 64 - 1) 3 0) ∧
    ((fun (s : State) (_ : PmcSample) (v : Nat) (_ : Nat) (_ : Nat) => (s.live = true) ∧ (s.flag HUB_STATUS_ready = true) ∧ ((∀ c, c < 8 → ∃ i, i < 8 ∧ phaseAt v i = c))) run sample0 0xFAC688 3 0) ∧
    ((fun (s : State) (_ : PmcSample) (v : Nat) (_ : Nat) (_ : Nat) => (s.live = true) ∧ (s.flag HUB_STATUS_ready = true) ∧ ((∃ c, c < 8 ∧ ∀ i, i < 8 → phaseAt v i ≠ c))) run sample0 0 3 0) ∧
    ((fun (s : State) (_ : PmcSample) (_ : Nat) (_ : Nat) (_ : Nat) => (s.live = true) ∧ (s.flag HUB_STATUS_ready = true) ∧ (s.latchNow.counts = [])) run sample0 (2 ^ 64 - 1) 3 0) := by
  exact ⟨by beta_reduce; decide +kernel, by beta_reduce; decide +kernel, by beta_reduce; decide +kernel, by beta_reduce; decide +kernel, by beta_reduce; exact ⟨by decide +kernel, by decide +kernel, 1, by decide, by decide +kernel⟩, by beta_reduce; decide +kernel⟩

def stretched : State := { run with clk := { run.clk with cyc := 100000 }, pmc := { run.pmc with stretch := [(2, 40)], trip := [(2, (40, 40))] } }

theorem test_wit_DroopAndTemperature :
    ((fun (s : State) (_ : Ch) (depth : Nat) => (s.live = true) ∧ (s.reg PWR_DROOP_CFG_thresh < depth)) run 5 255) ∧
    ((fun (s : State) (_ : Ch) (depth : Nat) => (s.live = true) ∧ (depth ≤ s.reg PWR_DROOP_CFG_thresh)) run 5 0) ∧
    ((fun (s : State) (cd : Fin 4) (t0 : Nat) => (s.live = true) ∧ (s.pmc.stretch.find? cd = some t0) ∧ (s.reg PWR_DROOP_CFG_min_stretch ≤ s.coreNow cd - (s.pmc.trip.get (0, 0) cd).2)) stretched 2 40) ∧
    ((fun (s : State) (_ : Nat) (temp : Nat) => (115 ≤ temp) ∧ (s.sys.tripLow = false)) ({ run with sys := { run.sys with power := .down } }) 3 115) ∧
    ((fun (s : State) (_ : Nat) (temp : Nat) => ((temp < 115 ∨ s.sys.tripLow = true))) run 3 114) ∧
    ((fun (s : State) (stack : Fin 24) (temp : Nat) => (s.live = true) ∧ (85 ≤ temp) ∧ (s.pmc.hot.contains stack.val = false)) run 23 85) ∧
    ((fun (s : State) (_ : Fin 24) (temp : Nat) => (s.live = true) ∧ (temp < 85)) ({ run with pmc := { run.pmc with hot := [23], hbm := [(23, 90), (4, 85)] } }) 23 84) := by
  exact ⟨by beta_reduce; decide +kernel, by beta_reduce; decide +kernel, by beta_reduce; decide +kernel, by beta_reduce; decide +kernel, by beta_reduce; decide +kernel, by beta_reduce; decide +kernel, by beta_reduce; decide +kernel⟩

def ringV : Nat := 1 + 2 * 4 + 256 * 3
def sqOn : State := ((run.setReg (RING_SQ_CFG_en 1023) 1).setReg (RING_SQ_CFG_log_size 1023) 4).setReg (RING_SQ_STATE_tail 1023) 14
def cqOn : State := ((run.setReg (RING_CQ_CFG_en 1023) 1).setReg (RING_CQ_CFG_log_size 1023) 4).setReg (RING_CQ_STATE_tail 1023) 9
def rung (s : State) (v : Nat) : State := match exec (.sqTailDoorbell 1023 v) s with | .next t => t | _ => s
def sqLater : State := { sqOn with clk := { sqOn.clk with cyc := 5 } }
theorem rung_next (s : State) (v : Nat) (h : (match exec (.sqTailDoorbell 1023 v) s with | .next _ => true | _ => false) = true) :
    exec (.sqTailDoorbell 1023 v) s = .next (rung s v) := by
  unfold rung; split at h <;> simp_all

theorem test_wit_RingsAndDoorbells :
    ((fun (s : State) (i : Ring) (v : Nat) => (s.live = true) ∧ (s.flag (RING_SQ_CFG_en i) = false) ∧ (s.flag (RING_CQ_CFG_en (bits v 8 10)) = true) ∧ (4 ≤ bits v 1 4) ∧ (s.flag HUB_STATUS_ready = true)) (run.setReg (RING_CQ_CFG_en 3) 1) 1023 ringV) ∧
    ((fun (s : State) (i : Ring) (_ : Nat) => (s.live = true) ∧ (s.flag (RING_SQ_CFG_en i) = true)) sqOn 1023 3) ∧
    ((fun (s : State) (i : Ring) (v : Nat) => (s.live = true) ∧ (s.flag (RING_CQ_CFG_en i) = false) ∧ (4 ≤ bits v 1 4)) run 1023 ringV) ∧
    ((fun (s : State) (i : Ring) (_ : Nat) => (s.live = true) ∧ (s.flag (RING_CQ_CFG_en i) = true) ∧ ((s.cq i).waiting = [])) cqOn 1023 3) ∧
    ((fun (s : State) (i : Ring) (v : Nat) (n : Nat) => (s.live = true) ∧ (s.flag (RING_SQ_CFG_en i) = true) ∧ (s.flag (RING_SQ_STATE_error i) = false) ∧ (v < 65536) ∧ (v < sqSize s i) ∧ (s.sqHolds i v < sqSize s i) ∧ (s.flag HUB_STATUS_ready = true) ∧ (n = (sqSize s i + v - s.reg (RING_SQ_STATE_tail i)) % sqSize s i) ∧ (0 < n)) (sqOn.setReg (RING_SQ_STATE_head 1023) 14) 1023 3 5) ∧
    ((fun (s : State) (i : Ring) (v : Nat) (u : State) (_ : Nat) => (s.live = true) ∧ (s.flag (RING_SQ_CFG_en i) = true) ∧ (s.flag (RING_SQ_STATE_error i) = false) ∧ ((s.host.bells.get {} i).cyc ≠ s.clk.cyc) ∧ (exec (.sqTailDoorbell i v) s = .next u)) sqLater 1023 3 (rung sqLater 3) 0) ∧
    ((fun (s : State) (i : Ring) (v : Nat) => (s.live = true) ∧ (s.flag (RING_SQ_CFG_en i) = true) ∧ (s.flag (RING_SQ_STATE_error i) = false) ∧ (v < 65536) ∧ (sqSize s i ≤ v ∨ sqSize s i ≤ s.sqHolds i v)) sqOn 1023 16) ∧
    ((fun (s : State) (i : Ring) (_ : Nat) => (s.live = true) ∧ (s.flag (RING_SQ_CFG_en i) = false)) run 1023 3) ∧
    ((fun (s : State) (i : Ring) (v : Nat) => (s.live = true) ∧ (s.flag (RING_CQ_CFG_en i) = true) ∧ (s.flag (RING_CQ_STATE_error i) = false) ∧ (v < 65536) ∧ (v < cqSize s i) ∧ ((cqSize s i + v - s.reg (RING_CQ_STATE_head i)) % cqSize s i ≤ (cqSize s i + s.reg (RING_CQ_STATE_tail i) - s.reg (RING_CQ_STATE_head i)) % cqSize s i)) cqOn 1023 9) ∧
    ((fun (s : State) (_ : Ring) (_ : Nat) => (s.live = true) ∧ (s.latchNow.counts = [])) run 1023 3) := by
  exact ⟨by beta_reduce; decide +kernel, by beta_reduce; decide +kernel, by beta_reduce; decide +kernel, by beta_reduce; decide +kernel, by beta_reduce; decide +kernel, by beta_reduce; exact ⟨by decide +kernel, by decide +kernel, by decide +kernel, by decide +kernel, rung_next _ _ (by decide +kernel)⟩, by beta_reduce; decide +kernel, by beta_reduce; decide +kernel, by beta_reduce; decide +kernel, by beta_reduce; decide +kernel⟩

def fetchAt : State := { sqOn with sys := { sqOn.sys with phase := 7 }, host := { sqOn.host with sqs := [(1023, [⟨2, 512, 4⟩])] } }
def rec0 : CRec := { tag := 7, status := 0, opcode := 8, sq := 3, stamp := 2560 }
def recAt : State := { (((run.setReg (RING_CQ_CFG_en 1) 1).setReg (RING_CQ_CFG_log_size 1) 4).setReg (RING_CQ_STATE_tail 1) 15).setReg (RING_CQ_STATE_head 1) 3 with
  host := { run.host with cqs := [(1, { waiting := [rec0] })] } }
def irqAt : State := { (((run.atNs 9000).setReg (RING_CQ_MOD_delay 1) 5).setReg (RING_CQ_CFG_irq_en 1) 1).setReg (HUB_MSIX_CTRL_mask 0) 0 with
  host := { run.host with cqs := [(1, { count := 2, first := some 256 })] } }

theorem test_wit_DescriptorsFetchedAndRecordsWritten :
    ((fun (s : State) (i : Ring) (b : Bytes) (k : Visible) (rest : List Visible) => (s.live = true) ∧ (s.sqNext = some i.val) ∧ (s.host.sqs.get [] i = k :: rest) ∧ (b.length = 64) ∧ (descKnown b = true) ∧ (s.flag HUB_STATUS_ready = true) ∧ (s.recording = false) ∧ (s.replaying = false)) fetchAt 1023 ((descOf [(0, 1, 6), (1, 1, 1)]).bytes) (⟨2, 512, 4⟩) ([])) ∧
    ((fun (s : State) (i : Ring) (r : CRec) (rest : List CRec) => (s.live = true) ∧ ((s.cq i).waiting = r :: rest) ∧ (s.flag (RING_CQ_CFG_en i) = true) ∧ (s.flag (RING_CQ_STATE_error i) = false) ∧ (s.cqRoom i = true)) recAt 1 rec0 ([])) ∧
    ((fun (s : State) (i : Ring) (t0 : FT64) => (s.live = true) ∧ ((s.cq i).first = some t0) ∧ (s.reg (RING_CQ_MOD_delay i) ≠ 0) ∧ (s.elapsed t0 (s.reg (RING_CQ_MOD_delay i) * 1000) = true) ∧ (s.flag (RING_CQ_CFG_irq_en i) = true) ∧ (s.flag (HUB_MSIX_CTRL_mask (s.reg (RING_CQ_CFG_vector i))) = false)) irqAt 1 256) ∧
    ((fun (s : State) (i : Ring) (t0 : FT64) => (s.live = true) ∧ ((s.cq i).first = some t0) ∧ (s.reg (RING_CQ_MOD_delay i) ≠ 0) ∧ (s.elapsed t0 (s.reg (RING_CQ_MOD_delay i) * 1000) = true) ∧ (s.flag (RING_CQ_CFG_irq_en i) = false)) (irqAt.setReg (RING_CQ_CFG_irq_en 1) 0) 1 256) := by
  exact ⟨by beta_reduce; decide +kernel, by beta_reduce; decide +kernel, by beta_reduce; decide +kernel, by beta_reduce; decide +kernel⟩

/-- The program region starts at 32 GiB. -/
def progBase : Nat := 0x800000000
def hintWord : Nat := word [(0, 9), (8, 3)]
def image1 : Bytes := padTo 64 (leBytes 4 1 ++ [0, 0]) ++ leBytes 16 hintWord
def loadD : Desc := descOf [(0, 1, 1), (8, 8, 64), (16, 6, progBase), (24, 4, 80)]
def startD : Desc := descOf [(0, 1, 2), (8, 6, progBase), (16, 6, progBase + 256), (24, 1, 37), (28, 4, 32), (32, 4, 64), (40, 8, 5)]
def withImage (s : State) : State := { s with store := { s.store with mem := Mem.write [] progBase image1 } }
def copyD (dir : Nat) : Desc := descOf [(0, 1, 5), (8, 1, dir), (16, 8, progBase), (24, 8, progBase + 4096), (32, 8, 64)]
def startAt (e : State → State) : State := e ((descAt (withImage run) startD).setReg STORE_STATUS_ready 1)
def badSrc : Desc := descOf [(0, 1, 5), (8, 1, 2), (24, 8, progBase), (32, 8, 64)]
def badDst : Desc := descOf [(0, 1, 5), (8, 1, 2), (16, 8, progBase), (32, 8, 64)]
def copyAt (dir : Nat) : State := descAt (withImage run) (copyD dir)

theorem test_wit_ProgramsLoadAndStart :
    ((fun (s : State) (d : Nat) (x : Desc) (b : Bytes) (n : Nat) => (s.live = true) ∧ (s.serves d 1 x) ∧ (x.replayed = false) ∧ (leAt x.bytes 24 4 = 64 + 16 * n) ∧ (1 ≤ n) ∧ (n ≤ 16384) ∧ (b.length = 64 + 16 * n) ∧ (x.ide = true)) (descAt run { loadD with ide := true }) 3 ({ loadD with ide := true }) image1 1) ∧
    ((fun (s : State) (d : Nat) (x : Desc) (b : Bytes) (n : Nat) => (s.live = true) ∧ (s.serves d 1 x) ∧ (x.replayed = false) ∧ (leAt x.bytes 24 4 = 64 + 16 * n) ∧ (1 ≤ n) ∧ (n ≤ 16384) ∧ (b.length = 64 + 16 * n) ∧ (x.ide = false) ∧ (hLength b = n) ∧ (imageOk b (imageWords n (b.drop 64)) = true) ∧ (s.rangeCheck (leAt x.bytes 16 6) (64 + 16 * n) [.program] = none) ∧ (s.partialUe (leAt x.bytes 16 6) (64 + 16 * n) = none)) (descAt run loadD) 3 loadD image1 1) ∧
    ((fun (s : State) (d : Nat) (x : Desc) (img : Nat) (cx : Nat) (h : Bytes) (n : Nat) (w : Nat) (ws : List Nat) => (s.live = true) ∧ (s.serves d 2 x) ∧ (img = leAt x.bytes 8 6) ∧ (cx = byteAt x.bytes 24) ∧ (h = s.storeRead img 64) ∧ (n = hLength h) ∧ (s.rangeCheck img 64 [.program] = none) ∧ (s.rangeCheck (leAt x.bytes 16 6) 256 [.program] = none) ∧ (s.badWords img 64 = w :: ws)) (startAt (fun s => { s with store := { s.store with ue := [progBase / 32] } })) 3 startD progBase 37 (padTo 64 (leBytes 4 1 ++ [0, 0])) 1 (progBase / 32) ([])) ∧
    ((fun (s : State) (d : Nat) (x : Desc) (img : Nat) (cx : Nat) (h : Bytes) (n : Nat) => (s.live = true) ∧ (s.serves d 2 x) ∧ (img = leAt x.bytes 8 6) ∧ (cx = byteAt x.bytes 24) ∧ (h = s.storeRead img 64) ∧ (n = hLength h) ∧ (s.rangeCheck img 64 [.program] = none) ∧ (s.rangeCheck (leAt x.bytes 16 6) 256 [.program] = none) ∧ (s.badWords img 64 = []) ∧ (hMode h ≠ bit1 (s.solo cx) ∨ n < 1 ∨ (if s.solo cx then 16384 else 2048) < n)) (startAt (fun s => s.setReg (CH_CORE_CFG_solo 1) 15)) 3 startD progBase 37 (padTo 64 (leBytes 4 1 ++ [0, 0])) 1) ∧
    ((fun (s : State) (d : Nat) (x : Desc) (img : Nat) (cx : Nat) (h : Bytes) (n : Nat) => (s.live = true) ∧ (s.serves d 2 x) ∧ (img = leAt x.bytes 8 6) ∧ (cx = byteAt x.bytes 24) ∧ (h = s.storeRead img 64) ∧ (n = hLength h) ∧ (s.rangeCheck img 64 [.program] = none) ∧ (s.rangeCheck (leAt x.bytes 16 6) 256 [.program] = none) ∧ (s.badWords img 64 = []) ∧ (hMode h = bit1 (s.solo cx)) ∧ ((s.solo cx = true → cx % 8 = 0)) ∧ (1 ≤ n) ∧ (n ≤ (if s.solo cx then 16384 else 2048)) ∧ (s.rangeCheck img (64 + 16 * n) [.program] = none) ∧ ((∃ t ∈ tilesOf (hTiles h), s.reg (CH_SPARE_STATUS_group (chOf cx) (t / 16)) = 2) ∨ s.flag STORE_STATUS_ready = false)) (startAt (fun s => s.setReg STORE_STATUS_ready 0)) 3 startD progBase 37 (padTo 64 (leBytes 4 1 ++ [0, 0])) 1) ∧
    ((fun (s : State) (d : Nat) (x : Desc) (img : Nat) (cx : Nat) (h : Bytes) (n : Nat) => (s.live = true) ∧ (s.serves d 2 x) ∧ (img = leAt x.bytes 8 6) ∧ (cx = byteAt x.bytes 24) ∧ (h = s.storeRead img 64) ∧ (n = hLength h) ∧ (s.rangeCheck img 64 [.program] = none) ∧ (s.rangeCheck (leAt x.bytes 16 6) 256 [.program] = none) ∧ (s.badWords img 64 = []) ∧ (hMode h = bit1 (s.solo cx)) ∧ ((s.solo cx = true → cx % 8 = 0)) ∧ (1 ≤ n) ∧ (n ≤ (if s.solo cx then 16384 else 2048)) ∧ (s.rangeCheck img (64 + 16 * n) [.program] = none) ∧ ((∀ t ∈ tilesOf (hTiles h), s.reg (CH_SPARE_STATUS_group (chOf cx) (t / 16)) ≠ 2)) ∧ (s.flag STORE_STATUS_ready = true) ∧ ((s.chan (chOf cx)).blocked = true ∨ within (hTiles h) (s.present (chOf cx)) = false)) (startAt (fun s => s.modChan 1 (fun c => { c with blocked := true }))) 3 startD progBase 37 (padTo 64 (leBytes 4 1 ++ [0, 0])) 1) ∧
    ((fun (s : State) (d : Nat) (x : Desc) (img : Nat) (cx : Nat) (h : Bytes) (n : Nat) => (s.live = true) ∧ (s.serves d 2 x) ∧ (img = leAt x.bytes 8 6) ∧ (cx = byteAt x.bytes 24) ∧ (h = s.storeRead img 64) ∧ (n = hLength h) ∧ (s.rangeCheck img 64 [.program] = none) ∧ (s.rangeCheck (leAt x.bytes 16 6) 256 [.program] = none) ∧ (s.badWords img 64 = []) ∧ (hMode h = bit1 (s.solo cx)) ∧ ((s.solo cx = true → cx % 8 = 0)) ∧ (1 ≤ n) ∧ (n ≤ (if s.solo cx then 16384 else 2048)) ∧ (s.rangeCheck img (64 + 16 * n) [.program] = none) ∧ ((∀ t ∈ tilesOf (hTiles h), s.reg (CH_SPARE_STATUS_group (chOf cx) (t / 16)) ≠ 2)) ∧ (s.flag STORE_STATUS_ready = true) ∧ ((s.chan (chOf cx)).blocked = false) ∧ (within (hTiles h) (s.present (chOf cx)) = true) ∧ (s.startBusy cx h = true)) (startAt (fun s => s.modCtx 37 (fun k => { k with st := .run }))) 3 startD progBase 37 (padTo 64 (leBytes 4 1 ++ [0, 0])) 1) ∧
    ((fun (s : State) (d : Nat) (x : Desc) (img : Nat) (cx : Nat) (h : Bytes) (n : Nat) => (s.live = true) ∧ (s.serves d 2 x) ∧ (img = leAt x.bytes 8 6) ∧ (cx = byteAt x.bytes 24) ∧ (h = s.storeRead img 64) ∧ (n = hLength h) ∧ (s.rangeCheck img 64 [.program] = none) ∧ (s.rangeCheck (leAt x.bytes 16 6) 256 [.program] = none) ∧ (s.badWords img 64 = []) ∧ (hMode h = bit1 (s.solo cx)) ∧ ((s.solo cx = true → cx % 8 = 0)) ∧ (1 ≤ n) ∧ (n ≤ (if s.solo cx then 16384 else 2048)) ∧ (s.rangeCheck img (64 + 16 * n) [.program] = none) ∧ ((∀ t ∈ tilesOf (hTiles h), s.reg (CH_SPARE_STATUS_group (chOf cx) (t / 16)) ≠ 2)) ∧ (s.flag STORE_STATUS_ready = true) ∧ ((s.chan (chOf cx)).blocked = false) ∧ (within (hTiles h) (s.present (chOf cx)) = true) ∧ (s.startBusy cx h = false)) (startAt id) 3 startD progBase 37 (padTo 64 (leBytes 4 1 ++ [0, 0])) 1) ∧
    ((fun (s : State) (d : Nat) (x : Desc) (src : Nat) (dst : Nat) (n : Nat) (dir : Nat) (_ : HostData) (r : Report) => (s.live = true) ∧ (s.serves d 5 x) ∧ (src = leAt x.bytes 16 8) ∧ (dst = leAt x.bytes 24 8) ∧ (n = leAt x.bytes 32 8) ∧ (dir = byteAt x.bytes 8) ∧ (dir ≠ 0) ∧ (s.rangeFail src n [.program, .seedbank] = some r)) (descAt run badSrc) 3 badSrc 0 progBase 64 2 (.ok []) ((run.rangeFail 0 64 [.program, .seedbank]).getD { status := 0 })) ∧
    ((fun (s : State) (d : Nat) (x : Desc) (src : Nat) (dst : Nat) (n : Nat) (dir : Nat) (_ : HostData) (r : Report) => (s.live = true) ∧ (s.serves d 5 x) ∧ (src = leAt x.bytes 16 8) ∧ (dst = leAt x.bytes 24 8) ∧ (n = leAt x.bytes 32 8) ∧ (dir = byteAt x.bytes 8) ∧ (dir ≠ 1) ∧ ((dir ≠ 0 → s.rangeFail src n [.program, .seedbank] = none)) ∧ (s.rangeFail dst n [.program] = some r)) (descAt run badDst) 3 badDst progBase 0 64 2 (.ok []) ((run.rangeFail 0 64 [.program]).getD { status := 0 })) ∧
    ((fun (s : State) (d : Nat) (x : Desc) (src : Nat) (dst : Nat) (n : Nat) (dir : Nat) (_ : HostData) => (s.live = true) ∧ (s.serves d 5 x) ∧ (src = leAt x.bytes 16 8) ∧ (dst = leAt x.bytes 24 8) ∧ (n = leAt x.bytes 32 8) ∧ (dir = byteAt x.bytes 8) ∧ ((dir ≠ 0 → s.rangeFail src n [.program, .seedbank] = none)) ∧ ((dir ≠ 1 → s.rangeFail dst n [.program] = none)) ∧ ((s.hostBuffer n).1 = none)) ((copyAt 2).setReg STORE_STATUS_ready 1) 3 (copyD 2) progBase (progBase + 4096) 64 2 (.ok [])) ∧
    ((fun (s : State) (d : Nat) (x : Desc) (src : Nat) (dst : Nat) (n : Nat) (dir : Nat) (_ : HostData) (w : Nat) (ws : List Nat) => (s.live = true) ∧ (s.serves d 5 x) ∧ (src = leAt x.bytes 16 8) ∧ (dst = leAt x.bytes 24 8) ∧ (n = leAt x.bytes 32 8) ∧ (dir = byteAt x.bytes 8) ∧ ((dir ≠ 0 → s.rangeFail src n [.program, .seedbank] = none)) ∧ ((dir ≠ 1 → s.rangeFail dst n [.program] = none)) ∧ ((s.hostBuffer n).1.isSome = true) ∧ (dir ≠ 0) ∧ (s.badWords src n = w :: ws)) ({ copyAt 2 with store := { (copyAt 2).store with ue := [progBase / 32] } }) 3 (copyD 2) progBase (progBase + 4096) 64 2 (.ok []) (progBase / 32) ([])) ∧
    ((fun (s : State) (d : Nat) (x : Desc) (src : Nat) (dst : Nat) (n : Nat) (dir : Nat) (_ : HostData) => (s.live = true) ∧ (s.serves d 5 x) ∧ (src = leAt x.bytes 16 8) ∧ (dst = leAt x.bytes 24 8) ∧ (n = leAt x.bytes 32 8) ∧ (dir = byteAt x.bytes 8) ∧ ((dir ≠ 0 → s.rangeFail src n [.program, .seedbank] = none)) ∧ ((dir ≠ 1 → s.rangeFail dst n [.program] = none)) ∧ ((s.hostBuffer n).1.isSome = true) ∧ (dir = 2) ∧ (s.badWords src n = [])) (copyAt 2) 3 (copyD 2) progBase (progBase + 4096) 64 2 (.ok [])) ∧
    ((fun (s : State) (d : Nat) (x : Desc) (src : Nat) (dst : Nat) (n : Nat) (dir : Nat) (_ : Bytes) => (s.live = true) ∧ (s.serves d 5 x) ∧ (src = leAt x.bytes 16 8) ∧ (dst = leAt x.bytes 24 8) ∧ (n = leAt x.bytes 32 8) ∧ (dir = byteAt x.bytes 8) ∧ ((dir ≠ 0 → s.rangeFail src n [.program, .seedbank] = none)) ∧ ((dir ≠ 1 → s.rangeFail dst n [.program] = none)) ∧ ((s.hostBuffer n).1.isSome = true) ∧ (dir = 1) ∧ (s.badWords src n = []) ∧ (x.ide = false)) (copyAt 1) 3 (copyD 1) progBase (progBase + 4096) 64 1 ([])) ∧
    ((fun (s : State) (d : Nat) (x : Desc) (src : Nat) (dst : Nat) (n : Nat) (dir : Nat) (b : Bytes) => (s.live = true) ∧ (s.serves d 5 x) ∧ (src = leAt x.bytes 16 8) ∧ (dst = leAt x.bytes 24 8) ∧ (n = leAt x.bytes 32 8) ∧ (dir = byteAt x.bytes 8) ∧ ((dir ≠ 0 → s.rangeFail src n [.program, .seedbank] = none)) ∧ ((dir ≠ 1 → s.rangeFail dst n [.program] = none)) ∧ ((s.hostBuffer n).1.isSome = true) ∧ (dir = 0) ∧ (x.replayed = false) ∧ (x.ide = false) ∧ (b.length = n)) (copyAt 0) 3 (copyD 0) progBase (progBase + 4096) 64 0 (List.replicate 64 6)) := by
  exact ⟨by beta_reduce; decide +kernel, by beta_reduce; decide +kernel, by beta_reduce; decide +kernel, by beta_reduce; decide +kernel, by beta_reduce; decide +kernel, by beta_reduce; decide +kernel, by beta_reduce; decide +kernel, by beta_reduce; decide +kernel, by beta_reduce; decide +kernel, by beta_reduce; decide +kernel, by beta_reduce; decide +kernel, by beta_reduce; decide +kernel, by beta_reduce; decide +kernel, by beta_reduce; decide +kernel, by beta_reduce; decide +kernel⟩

def fenceD (m : Nat) : Desc := descOf [(0, 1, 6), (8, 1, m), (9, 1, 37 * (m % 2))]
def sfD : Desc := descOf [(0, 1, 6), (8, 1, 2), (9, 1, 1), (10, 2, 5), (12, 4, 6)]
def queryD (k : Nat) : Desc := descOf [(0, 1, 7), (8, 1, k), (16, 8, 4096)]
def queryG : Desc := descOf [(0, 1, 7), (8, 1, 1), (10, 2, 5), (16, 8, 4096)]
def queryT : Desc := descOf [(0, 1, 7), (8, 1, 2), (12, 1, 3), (16, 8, 4096), (24, 4, 12)]
def stepGrp : Grp := { entry := grpEntry [(48, 4, 3)] }

theorem test_wit_FencesAndQueries :
    ((fun (s : State) (d : Nat) (x : Desc) => (s.live = true) ∧ (s.serves d 6 x) ∧ (byteAt x.bytes 8 = 0)) (descAt run (fenceD 0)) 3 (fenceD 0)) ∧
    ((fun (s : State) (d : Nat) (x : Desc) => (s.live = true) ∧ (s.serves d 6 x) ∧ (byteAt x.bytes 8 = 1) ∧ ((s.ctx (byteAt x.bytes 9)).st = .idle)) (descAt run (fenceD 1)) 3 (fenceD 1)) ∧
    ((fun (s : State) (d : Nat) (x : Desc) => (s.live = true) ∧ (s.serves d 6 x) ∧ (byteAt x.bytes 8 = 1) ∧ ((s.ctx (byteAt x.bytes 9)).st = .run) ∧ ((s.ctx (byteAt x.bytes 9)).fault = none) ∧ ((s.ctx (byteAt x.bytes 9)).word.isSome = true)) (descAt (run.modCtx 37 (fun k => { k with st := .run, prog := [9] })) (fenceD 1)) 3 (fenceD 1)) ∧
    ((fun (s : State) (d : Nat) (x : Desc) (g : Grp) => (s.live = true) ∧ (s.serves d 6 x) ∧ (byteAt x.bytes 8 = 2) ∧ (s.grp (leAt x.bytes 10 2) = some g) ∧ (s.pod = podSolo) ∧ (g.entry.length = 64) ∧ (0 < stepDiff (leAt x.bytes 12 4) (gFence g.entry)) ∧ (stepDiff (leAt x.bytes 12 4) (gStep g.entry) < 0)) (descAt (grpAt stepGrp) sfD) 3 sfD stepGrp) ∧
    ((fun (s : State) (d : Nat) (x : Desc) => (s.live = true) ∧ (s.serves d 7 x) ∧ (x.ide = false) ∧ (byteAt x.bytes 8 = 0)) (descAt run (queryD 0)) 3 (queryD 0)) ∧
    ((fun (s : State) (d : Nat) (x : Desc) (g : Grp) => (s.live = true) ∧ (s.serves d 7 x) ∧ (x.ide = false) ∧ (byteAt x.bytes 8 = 1) ∧ (s.groups.find? (leAt x.bytes 10 2) = some g)) (descAt (grpAt stepGrp) queryG) 3 queryG stepGrp) ∧
    ((fun (s : State) (d : Nat) (x : Desc) (b : Bytes) => (s.live = true) ∧ (s.serves d 7 x) ∧ (x.ide = false) ∧ (byteAt x.bytes 8 = 2) ∧ (s.queryTable (byteAt x.bytes 12) (slice x.bytes 24 32) = some b)) (descAt { run with tables := { run.tables with nexthop := [(12, List.replicate 16 4)] } } queryT) 3 queryT ([12, 0, 0, 0, 0, 0, 0, 0] ++ List.replicate 16 4 ++ List.replicate 8 0)) ∧
    ((fun (s : State) (d : Nat) (x : Desc) => (s.live = true) ∧ (s.serves d 7 x) ∧ (x.ide = false) ∧ (byteAt x.bytes 8 = 3)) (descAt run (queryD 3)) 3 (queryD 3)) ∧
    ((fun (s : State) (d : Nat) (x : Desc) => (s.live = true) ∧ (s.serves d 7 x) ∧ (x.ide = true) ∧ (byteAt x.bytes 8 = 0)) (descAt run { queryD 0 with ide := true }) 3 ({ queryD 0 with ide := true })) := by
  exact ⟨by beta_reduce; decide +kernel, by beta_reduce; decide +kernel, by beta_reduce; decide +kernel, by beta_reduce; decide +kernel, by beta_reduce; decide +kernel, by beta_reduce; decide +kernel, by beta_reduce; decide +kernel, by beta_reduce; decide +kernel, by beta_reduce; decide +kernel⟩

def tableD : Desc := descOf [(0, 1, 4), (12, 4, 1), (16, 8, 4096)]
def epRec (op : Nat) : Bytes := leBytes 1 op ++ [0] ++ leBytes 2 7 ++ leBytes 4 0 ++ beBytes 6 0x020000000009 ++ [0, 0] ++ leBytes 8 0 ++ leBytes 8 0
def emptyT (s : State) : Tables × Nat := match s.tables.apply 0 [epRec 1] with | .ok x => x | .error _ => (s.tables, 99)
def groupD : Desc := descOf [(0, 1, 3), (8, 8, 4096), (16, 2, 1)]
def newEntry : Bytes := grpEntry [(18, 1, 63), (20, 5, 256), (32, 6, progBase)]
def noticeIn : State := grpRx idleGrp 0x020000000077 { opcode := 7, gid := 5, member := 0, step := 7 } [0x60, 0, 0, 1, 0, 0, 0, 0]
def noticeOp (g : GIn) : Bool := g.h.opcode == 7 && byteAt g.payload 1 == 0

theorem test_wit_UpdatesApplyAtOneStamp :
    ((fun (s : State) (d : Nat) (x : Desc) (b : Bytes) (t : Nat) (n : Nat) (recs : List Bytes) (T : Tables) (absent : Nat) => (s.live = true) ∧ (s.serves d 4 x) ∧ (s.pod = podSolo) ∧ (s.applyWaits = false) ∧ (x.replayed = false) ∧ (x.ide = false) ∧ (t = byteAt x.bytes 8) ∧ (n = leAt x.bytes 12 4) ∧ (b.length = recSize t * n) ∧ (recs = splitRecs (recSize t) n b) ∧ (s.tables.apply t recs = .ok (T, absent))) (descAt run tableD) 3 tableD (epRec 1) 0 1 ([epRec 1]) ((emptyT run).1) 1) ∧
    ((fun (s : State) (d : Nat) (x : Desc) (b : Bytes) (t : Nat) (n : Nat) (recs : List Bytes) (i : Nat) => (s.live = true) ∧ (s.serves d 4 x) ∧ (s.pod = podSolo) ∧ (s.applyWaits = false) ∧ (x.replayed = false) ∧ (x.ide = false) ∧ (t = byteAt x.bytes 8) ∧ (n = leAt x.bytes 12 4) ∧ (b.length = recSize t * n) ∧ (recs = splitRecs (recSize t) n b) ∧ (s.tables.apply t recs = .error i)) (descAt run tableD) 3 tableD (epRec 2) 0 1 ([epRec 2]) 0) ∧
    ((fun (s : State) (d : Nat) (x : Desc) (b : Bytes) => (s.live = true) ∧ (s.serves d 3 x) ∧ (s.pod = podSolo) ∧ (s.applyWaits = false) ∧ (x.replayed = false) ∧ (x.ide = false) ∧ (leAt x.bytes 16 2 = 1) ∧ (b.length = 64) ∧ (gValid b = true) ∧ (s.grp (gGid b) = none) ∧ (s.undelivered (gGid b) = false) ∧ (s.entryOk none b = true) ∧ (s.groups.length < 4096)) (descAt (run.setReg (HUB_CAPS_PRESENT_ch 0 0) 0xFFFF) groupD) 3 groupD newEntry) ∧
    ((fun (s : State) (_ : Nat) (_ : Desc) (_ : Bytes) (k : Nat) (g : GIn) (u : State) (y : Grp) (id : Nat) => (s.live = true) ∧ (s.take k (fun g => g.h.opcode == 7 && byteAt g.payload 1 == 0) = (some g, u)) ∧ (u.grp g.gid = some y) ∧ (u.readable g = true) ∧ (g.h.member < gCount y.entry) ∧ (g.h.member ≠ 0xFFF) ∧ ((u.memberEntry y.entry g.h.member).map mId = some id)) noticeIn 3 tableD ([]) 0 (inFrame noticeIn noticeOp) ((noticeIn.take 0 noticeOp).2) (group5 noticeIn) 10) := by
  exact ⟨by beta_reduce; decide +kernel, by beta_reduce; decide +kernel, by beta_reduce; decide +kernel, by beta_reduce; decide +kernel⟩

def windowOpen : State := withImage (run.setReg HUB_BAR4_CFG_en 1)

theorem test_wit_TheStoreWindow :
    ((fun (s : State) (a : Nat) (n : Nat) (_ : Bytes) => (s.live = true) ∧ (s.bar4Open = true) ∧ (s.rangeCheck a n [.program, .seedbank] = none) ∧ (s.badWords a n = [])) windowOpen progBase 64 (List.replicate 32 9)) ∧
    ((fun (s : State) (_ : Nat) (_ : Nat) (_ : Bytes) => (s.live = true) ∧ (s.bar4Open = false)) run progBase 64 (List.replicate 32 9)) ∧
    ((fun (s : State) (a : Nat) (_ : Nat) (b : Bytes) => (s.live = true) ∧ (s.bar4Open = true) ∧ (s.rangeCheck a b.length [.program] = none) ∧ (s.partialUe a b.length = none)) windowOpen progBase 64 (List.replicate 32 9)) ∧
    ((fun (s : State) (a : Nat) (_ : Nat) (b : Bytes) (st : Nat) => (s.live = true) ∧ (s.rangeCheck a b.length [.program] = some st)) windowOpen 0 64 (List.replicate 32 9) ((windowOpen.rangeCheck 0 32 [.program]).getD 0)) ∧
    ((fun (s : State) (_ : Nat) (_ : Nat) (_ : Bytes) => (s.live = true) ∧ (s.sys.cxlUp = false)) run progBase 64 (List.replicate 32 9)) := by
  exact ⟨by beta_reduce; decide +kernel, by beta_reduce; decide +kernel, by beta_reduce; decide +kernel, by beta_reduce; decide +kernel, by beta_reduce; decide +kernel⟩

/-- A bundle of 128 bytes by its header, of which 64 have come. -/
def half : Bytes := padTo 64 (List.replicate 8 0 ++ leBytes 8 128)
def loading (n : Nat) : State := { run.setReg SEC_STATUS_load_state n with sec := { run.sec with data := half, fw := [(0, [1])] } }
def chunkD : Desc := descOf [(0, 1, 10), (16, 8, 4096), (24, 8, 64), (32, 4, 64)]
def bundleD (op : Nat) : Desc := descOf [(0, 1, 10), (8, 1, op)]

theorem test_wit_BundlesLoadAndRelease :
    ((fun (s : State) (d : Nat) (x : Desc) (b : Bytes) => (s.live = true) ∧ (s.serves d 10 x) ∧ (byteAt x.bytes 8 = 0) ∧ (s.reg SEC_STATUS_load_state < 2) ∧ (x.replayed = false) ∧ (x.ide = false) ∧ (leAt x.bytes 24 8 = s.sec.data.length) ∧ (b.length = leAt x.bytes 32 4) ∧ ((s.sec.data ≠ [] → b.length % 64 = 0 ∧ s.sec.data.length + b.length ≤ bTotal s.sec.data)) ∧ ((b.length % 64 = 0 ∨ bTotal b = b.length))) (descAt (loading 1) chunkD) 3 chunkD (List.replicate 64 5)) ∧
    ((fun (s : State) (d : Nat) (x : Desc) => (s.live = true) ∧ (s.serves d 10 x) ∧ (byteAt x.bytes 8 = 1) ∧ (s.reg SEC_STATUS_load_state = 1) ∧ (s.sec.data.length = bTotal s.sec.data)) (descAt { loading 1 with sec := { run.sec with data := half ++ half } } (bundleD 1)) 3 (bundleD 1)) ∧
    ((fun (s : State) (d : Nat) (x : Desc) => (s.live = true) ∧ (s.serves d 10 x) ∧ (byteAt x.bytes 8 = 2) ∧ (s.reg SEC_STATUS_load_state = 3)) (descAt ((run.setReg SEC_STATUS_load_state 3).setReg SEC_BUNDLE_INFO_svn 9) (bundleD 2)) 3 (bundleD 2)) ∧
    ((fun (s : State) (d : Nat) (x : Desc) => (s.live = true) ∧ (s.serves d 10 x) ∧ (byteAt x.bytes 8 = 3) ∧ (s.reg SEC_STATUS_load_state < 2)) (descAt (loading 1) (bundleD 3)) 3 (bundleD 3)) := by
  exact ⟨by beta_reduce; decide +kernel, by beta_reduce; decide +kernel, by beta_reduce; decide +kernel, by beta_reduce; decide +kernel⟩

def spdmAt (p : Spdm) : State := { run with sys := { run.sys with cxlUp := true }, sec := { run.sec with spdm := p } }
def noKey (p : Spdm) : State := { spdmAt p with hw := { (spdmAt p).hw with erased := true } }
def inSession : Spdm := { stage := 3, session := some [7], finished := true }
theorem leBytes_two (n : Nat) : (leBytes 2 n).length = 2 := rfl
def chalRsp (s : State) : Bytes := spdmMsg 0x03 0 1 (sha3 s.certChain ++ (s.drawBytes 32).1 ++ leBytes 2 0)
def measRsp (s : State) (i : Nat) (l : List Nat) : Bytes := spdmMsg 0x60 (if i = 0 then 5 else 0) 0 (leBytes 1 l.length ++ leBytes 3 (l.flatMap s.measBlock).length ++
  l.flatMap s.measBlock ++ (s.drawBytes 32).1 ++ leBytes 2 0)
def talking : Spdm := { stage := 3, keyEx := true, session := some [7], finished := false, vca := [1], meas := [2] }

theorem test_wit_SpdmRequestsAnswered :
    ((fun (s : State) (p : Spdm) => (s.live = true) ∧ (s.sys.cxlUp = true) ∧ (p = s.sec.spdm)) (spdmAt { stage := 3 }) ({ stage := 3 })) ∧
    ((fun (s : State) (p : Spdm) => (s.live = true) ∧ (s.sys.cxlUp = true) ∧ (p = s.sec.spdm) ∧ (1 ≤ p.stage)) (spdmAt { stage := 3 }) ({ stage := 3 })) ∧
    ((fun (s : State) (p : Spdm) (hashes : List Nat) (offer : AlgOffer) => (s.live = true) ∧ (s.sys.cxlUp = true) ∧ (p = s.sec.spdm) ∧ (2 ≤ p.stage) ∧ (hashes.contains 0x29 = true) ∧ (offer.asyms.contains 1 = true)) (spdmAt { stage := 3 }) ({ stage := 3 }) ([0x29]) ({ asyms := [1, 2], dhes := [4], aeads := [1] })) ∧
    ((fun (s : State) (p : Spdm) (hashes : List Nat) (offer : AlgOffer) => (s.live = true) ∧ (s.sys.cxlUp = true) ∧ (p = s.sec.spdm) ∧ (2 ≤ p.stage) ∧ (hashes.contains 0x29 = false ∨ offer.asyms.contains 1 = false)) (spdmAt { stage := 3 }) ({ stage := 3 }) ([1]) ({ asyms := [1, 2], dhes := [4], aeads := [1] })) ∧
    ((fun (s : State) (p : Spdm) => (s.live = true) ∧ (s.sys.cxlUp = true) ∧ (p = s.sec.spdm) ∧ (3 ≤ p.stage)) (spdmAt { stage := 3 }) ({ stage := 3 })) ∧
    ((fun (s : State) (p : Spdm) (off : Nat) (_ : Nat) => (s.live = true) ∧ (s.sys.cxlUp = true) ∧ (p = s.sec.spdm) ∧ (3 ≤ p.stage) ∧ (off < s.certChain.length)) (spdmAt { stage := 3 }) ({ stage := 3 }) 3 8000) ∧
    ((fun (s : State) (p : Spdm) (_ : Bytes) (rsp : Bytes) => (s.live = true) ∧ (s.sys.cxlUp = true) ∧ (p = s.sec.spdm) ∧ (3 ≤ p.stage) ∧ (rsp = spdmMsg 0x03 0 1 (sha3 s.certChain ++ (s.drawBytes 32).1 ++ leBytes 2 0)) ∧ (s.hw.erased = true)) (noKey { stage := 3 }) ({ stage := 3 }) (List.replicate 32 1) (chalRsp (noKey { stage := 3 }))) ∧
    ((fun (s : State) (p : Spdm) (_ : Bytes) (rsp : Bytes) => (s.live = true) ∧ (s.sys.cxlUp = true) ∧ (p = s.sec.spdm) ∧ (3 ≤ p.stage) ∧ (rsp = spdmMsg 0x03 0 1 (sha3 s.certChain ++ (s.drawBytes 32).1 ++ leBytes 2 0)) ∧ (s.hw.erased = false)) (spdmAt { stage := 3 }) ({ stage := 3 }) (List.replicate 32 1) (chalRsp (spdmAt { stage := 3 }))) ∧
    ((fun (s : State) (p : Spdm) (_ : Bytes) (rsp : Bytes) (i : Nat) (l : List Nat) => (s.live = true) ∧ (s.sys.cxlUp = true) ∧ (p = s.sec.spdm) ∧ (3 ≤ p.stage) ∧ ((i ≤ 5 ∨ i = 0xFF)) ∧ (l = (if i = 0 then [] else if i = 0xFF then [1, 2, 3, 4, 5] else [i])) ∧ (rsp = spdmMsg 0x60 (if i = 0 then 5 else 0) 0 (leBytes 1 l.length ++ leBytes 3 (l.flatMap s.measBlock).length ++ l.flatMap s.measBlock ++ (s.drawBytes 32).1 ++ leBytes 2 0))) (spdmAt { stage := 3 }) ({ stage := 3 }) (List.replicate 32 1) (measRsp (spdmAt { stage := 3 }) 5 [5]) 5 ([5])) ∧
    ((fun (s : State) (p : Spdm) (_ : Bytes) (rsp : Bytes) (i : Nat) (l : List Nat) => (s.live = true) ∧ (s.sys.cxlUp = true) ∧ (p = s.sec.spdm) ∧ (3 ≤ p.stage) ∧ ((i ≤ 5 ∨ i = 0xFF)) ∧ (l = (if i = 0 then [] else if i = 0xFF then [1, 2, 3, 4, 5] else [i])) ∧ (rsp = spdmMsg 0x60 (if i = 0 then 5 else 0) 0 (leBytes 1 l.length ++ leBytes 3 (l.flatMap s.measBlock).length ++ l.flatMap s.measBlock ++ (s.drawBytes 32).1 ++ leBytes 2 0)) ∧ (s.hw.erased = true)) (noKey { stage := 3 }) ({ stage := 3 }) (List.replicate 32 1) (measRsp (noKey { stage := 3 }) 0xFF [1, 2, 3, 4, 5]) 0xFF ([1, 2, 3, 4, 5])) ∧
    ((fun (s : State) (p : Spdm) (_ : Bytes) (rsp : Bytes) (i : Nat) (l : List Nat) => (s.live = true) ∧ (s.sys.cxlUp = true) ∧ (p = s.sec.spdm) ∧ (3 ≤ p.stage) ∧ ((i ≤ 5 ∨ i = 0xFF)) ∧ (l = (if i = 0 then [] else if i = 0xFF then [1, 2, 3, 4, 5] else [i])) ∧ (rsp = spdmMsg 0x60 (if i = 0 then 5 else 0) 0 (leBytes 1 l.length ++ leBytes 3 (l.flatMap s.measBlock).length ++ l.flatMap s.measBlock ++ (s.drawBytes 32).1 ++ leBytes 2 0)) ∧ (s.hw.erased = false)) (spdmAt { stage := 3 }) ({ stage := 3 }) (List.replicate 32 1) (measRsp (spdmAt { stage := 3 }) 0 []) 0 ([])) ∧
    ((fun (s : State) (p : Spdm) (_ : Bytes) => (s.live = true) ∧ (s.sys.cxlUp = true) ∧ (p = s.sec.spdm) ∧ (3 ≤ p.stage) ∧ (p.keyEx = false)) (spdmAt { stage := 3 }) ({ stage := 3 }) ([5])) ∧
    ((fun (s : State) (p : Spdm) (_ : Bytes) => (s.live = true) ∧ (s.sys.cxlUp = true) ∧ (p = s.sec.spdm) ∧ (3 ≤ p.stage) ∧ (p.keyEx = true) ∧ (s.hw.erased = true)) (noKey talking) talking ([5])) ∧
    ((fun (s : State) (p : Spdm) (_ : Bytes) => (s.live = true) ∧ (s.sys.cxlUp = true) ∧ (p = s.sec.spdm) ∧ (3 ≤ p.stage) ∧ (p.keyEx = true) ∧ (s.hw.erased = false)) (spdmAt talking) talking ([5])) ∧
    ((fun (s : State) (p : Spdm) (k : Bytes) => (s.live = true) ∧ (s.sys.cxlUp = true) ∧ (p = s.sec.spdm) ∧ (3 ≤ p.stage) ∧ (p.session = some k) ∧ (p.finished = false)) (spdmAt talking) talking ([7])) ∧
    ((fun (s : State) (p : Spdm) (k : Bytes) (mac : Bytes) => (s.live = true) ∧ (s.sys.cxlUp = true) ∧ (p = s.sec.spdm) ∧ (3 ≤ p.stage) ∧ (p.session = some k) ∧ (p.finished = false) ∧ (mac ≠ s.finishMac k)) (spdmAt talking) talking ([7]) ((spdmAt talking).finishMac [7] ++ [0])) ∧
    ((fun (s : State) (p : Spdm) (k : Bytes) => (s.live = true) ∧ (s.sys.cxlUp = true) ∧ (p = s.sec.spdm) ∧ (3 ≤ p.stage) ∧ (p.session = some k) ∧ (p.finished = true)) (spdmAt { talking with finished := true }) ({ talking with finished := true }) ([7])) ∧
    ((fun (s : State) (p : Spdm) (k : Bytes) (_ : Bytes) => (s.live = true) ∧ (s.sys.cxlUp = true) ∧ (p = s.sec.spdm) ∧ (3 ≤ p.stage) ∧ (p.session = some k) ∧ (p.finished = true)) (spdmAt { talking with finished := true }) ({ talking with finished := true }) ([7]) ([1, 2])) ∧
    ((fun (s : State) (p : Spdm) => (s.live = true) ∧ (s.sys.cxlUp = true) ∧ (p = s.sec.spdm) ∧ (1 ≤ p.stage) ∧ (p.large ≠ [])) (spdmAt { stage := 3, large := [1, 2] }) ({ stage := 3, large := [1, 2] })) := by
  exact ⟨by beta_reduce; decide +kernel, by beta_reduce; decide +kernel, by beta_reduce; decide +kernel, by beta_reduce; decide +kernel, by beta_reduce; decide +kernel, by beta_reduce; exact ⟨by decide +kernel, by decide +kernel, rfl, by decide, Nat.lt_of_lt_of_le (by decide : 3 < 4) (by simp only [State.certChain, List.length_append, leBytes_two, List.length_cons]; omega)⟩, by beta_reduce; exact ⟨by decide +kernel, by decide +kernel, rfl, by decide, rfl, by decide +kernel⟩, by beta_reduce; exact ⟨by decide +kernel, by decide +kernel, rfl, by decide, rfl, by decide +kernel⟩, by beta_reduce; exact ⟨by decide +kernel, by decide +kernel, rfl, by decide, by decide, by decide, rfl⟩, by beta_reduce; exact ⟨by decide +kernel, by decide +kernel, rfl, by decide, by decide, by decide, rfl, by decide +kernel⟩, by beta_reduce; exact ⟨by decide +kernel, by decide +kernel, rfl, by decide, by decide, by decide, rfl, by decide +kernel⟩, by beta_reduce; decide +kernel, by beta_reduce; decide +kernel, by beta_reduce; decide +kernel, by beta_reduce; decide +kernel, by beta_reduce; exact ⟨by decide +kernel, by decide +kernel, rfl, by decide, rfl, rfl, fun h => by simpa using congrArg List.length h⟩, by beta_reduce; decide +kernel, by beta_reduce; decide +kernel, by beta_reduce; decide +kernel⟩

def drawn (t : Nat) : State := { run.atNs t with sec := { run.sec with nonce := List.replicate 64 9, ncLevel := 2 } }

theorem test_wit_NutcrackerGrantsAndLocks :
    ((fun (s : State) (level : Fin 4) => (s.live = true) ∧ (s.reg SEC_NC_STATUS_state ≠ 3) ∧ ((level.val = 2 ∨ level.val = 1 ∧ s.hw.ownerKey ≠ none))) run 2) ∧
    ((fun (s : State) => (s.live = true) ∧ (s.reg SEC_NC_STATUS_state ≠ 3) ∧ (s.sec.nonce ≠ []) ∧ (s.elapsed s.sec.nonceAt 60000000000 = false) ∧ (s.sec.ncLevel < 4) ∧ (s.reg SEC_STATUS_debug_level < 4) ∧ (s.reg SEC_NC_STATUS_nc_fail < 8)) ((drawn 59999999999).setReg SEC_NC_STATUS_nc_fail 7)) ∧
    ((fun (s : State) => (s.live = true)) (drawn 5)) ∧
    ((fun (s : State) => (s.live = true) ∧ (s.sec.nonce ≠ []) ∧ (s.elapsed s.sec.nonceAt 60000000000 = true)) (drawn 60000000000)) := by
  exact ⟨by beta_reduce; decide +kernel, by beta_reduce; decide +kernel, by beta_reduce; decide +kernel, by beta_reduce; decide +kernel⟩

theorem test_wit_FusesOnlyBlow :
    ((fun (s : State) (t : State) => (step s = .next t)) run run) ∧
    ((fun (h : Hw) (_ : Nat) (s : State) => (h.blownInto s.hw)) run.hw 3 run) := by
  exact ⟨by beta_reduce; rfl, by beta_reduce; exact ⟨rfl, rfl, rfl, rfl, rfl, rfl, rfl, rfl, rfl, Nat.le_refl _, fun _ h => h, fun _ => rfl⟩⟩

def mirIn (kind : Nat) (b : Bytes) : MirIn := { kind := kind, body := b, state := 2, role := 0, pod := 0, link := 1, stamp := 512 }
def podAt (n : Nat) (r : List MirIn) : State := { (run.atNs 9000).setReg MIR_STATUS_state n with mir := { run.mir with inRecs := r } }

def joinBody : Bytes := leBytes 2 0 ++ [0, 0] ++ leBytes 8 0
def joiningAt : State := { (podAt 0 [mirIn 9 joinBody]).setReg MIR_CFG_role 1 with mir := { run.mir with inRecs := [mirIn 9 joinBody], joinAt := some 0 } }

theorem test_wit_PodsJoinAndPair :
    ((fun (s : State) (_ : State) (_ : Mlink) (_ : MirIn) => (s.live = true) ∧ (s.flag HUB_STATUS_ready = true) ∧ (s.pod = podSolo) ∧ (s.sys.fatal = false)) (podAt 0 []) run 1 (mirIn 9 joinBody)) ∧
    ((fun (s : State) (_ : State) (_ : Mlink) (_ : MirIn) => (s.live = true) ∧ (s.flag HUB_STATUS_ready = true) ∧ (s.mir.waits = []) ∧ (s.mir.held = []) ∧ (s.mir.ended = [])) (podAt 2 []) run 1 (mirIn 9 joinBody)) ∧
    ((fun (s : State) (_ : State) (_ : Mlink) (_ : MirIn) => (s.live = true) ∧ (s.joining = true)) joiningAt run 1 (mirIn 9 joinBody)) ∧
    ((fun (s : State) (_ : State) (_ : Mlink) (_ : MirIn) (t0 : FT64) => (s.live = true) ∧ (s.mir.joinAt = some t0) ∧ (s.pod = podSolo) ∧ (s.elapsed t0 10000000 = true)) ({ (run.atNs 10000000) with mir := { run.mir with joinAt := some 0 } }) run 1 (mirIn 9 joinBody) 0) ∧
    ((fun (s : State) (_ : State) (m : Mlink) (r : MirIn) => (s.live = true) ∧ (s.mir.inRecs.find? (fun r => r.kind == 9 && r.link == m.val) = some r) ∧ (s.joining = true) ∧ (s.reg MIR_CFG_role = 1) ∧ (byteAt r.body 2 ≠ 1) ∧ (leAt r.body 0 2 = s.reg MIR_CFG_pod_id) ∧ (s.groups = []) ∧ (leAt r.body 4 8 = s.reg (HUB_BITID_BUNDLE_digest 0))) joiningAt run 1 (mirIn 9 joinBody)) ∧
    ((fun (s : State) (_ : State) (_ : Mlink) (r : MirIn) => (s.live = true) ∧ (s.mir.inRecs.find? (fun r => r.kind == 1) = some r) ∧ (s.pod = podPaired) ∧ (r.state = podPaired)) (podAt 2 [mirIn 1 (leBytes 8 700)]) run 1 (mirIn 1 (leBytes 8 700))) ∧
    ((fun (s : State) (u : State) (_ : Mlink) (r : MirIn) => (s.live = true) ∧ (s.nextMir 10 r u) ∧ (s.pod = podSync) ∧ (s.mir.target = true) ∧ (s.mir.source = false)) ({ podAt 1 [mirIn 10 []] with mir := { (podAt 1 [mirIn 10 []]).mir with target := true } }) ({ podAt 1 [] with mir := { (podAt 1 []).mir with target := true } }) 1 (mirIn 10 [])) := by
  exact ⟨by beta_reduce; decide +kernel, by beta_reduce; decide +kernel, by beta_reduce; decide +kernel, by beta_reduce; decide +kernel, by beta_reduce; decide +kernel, by beta_reduce; decide +kernel, by beta_reduce; decide +kernel⟩

def hbFrame : Bytes := beBytes 6 0x0180C200000E ++ List.replicate 6 0 ++ beBytes 2 0x88B6 ++ [1, 2] ++ List.replicate 14 0 ++ mirRec 1 (leBytes 8 700)
def twinGrp : Grp := { entry := grpEntry [(2, 1, 1)] }
def withRec (r : MirIn) (x : Grp) : State := { podAt 2 [r] with groups := [(5, x)] }
def groupIn : MirIn := mirIn 2 (grpEntry [(0, 2, 6)] ++ [1, 0] ++ leBytes 2 2)
def tableIn : MirIn := mirIn 6 ([0, 1, 0, 0] ++ leBytes 4 0 ++ epRec 1)
def ports0 : MirIn := mirIn 7 ([23, 0, 0, 0] ++ leBytes 4 0x2008 ++ leBytes 8 5)

theorem test_wit_MirrorRecordsApply :
    ((fun (s : State) (_ : State) (_ : MirIn) (m : Mlink) (pre : Bytes) (b : Bytes) (body : Bytes) => (s.live = true) ∧ (s.mirEnabled m = true) ∧ (s.mirLit = true) ∧ (s.pod ≠ podDetached) ∧ ((((s.mirPort m true).arrival (192 + m)).2.tagIn (192 + m) pre).2.1 = true) ∧ (parseMir 1 (b.drop 30) = some [(1, body)]) ∧ (beAt b 16 2 = 0) ∧ (beAt b 0 6 = 0x0180C200000E) ∧ (beAt b 6 6 = 0) ∧ (beAt b 12 2 = 0x88B6) ∧ (b.length + 4 ≤ 9216) ∧ (byteAt b 14 = 1) ∧ (byteAt b 15 < 16) ∧ (beAt b 28 2 = 0) ∧ (beAt b 26 2 = s.reg MIR_CFG_pod_id) ∧ (s.mir.unconfirmed = [])) ({ run.setReg MIR_PORT_CFG_m1_en 1 with hw := { run.hw with dark := [] } }) run groupIn 1 (llrTag 0 1) hbFrame (leBytes 8 700)) ∧
    ((fun (s : State) (_ : State) (_ : MirIn) (m : Mlink) (pre : Bytes) (_ : Bytes) (_ : Bytes) => (s.live = true) ∧ (s.mirEnabled m = true) ∧ (s.mirLit = true) ∧ (s.pod ≠ podDetached) ∧ ((((s.mirPort m true).arrival (192 + m)).2.tagIn (192 + m) pre).2.1 = true)) ({ run.setReg MIR_PORT_CFG_m1_en 1 with hw := { run.hw with dark := [] } }) run groupIn 1 (llrTag 0 1) hbFrame (leBytes 8 700)) ∧
    ((fun (s : State) (u : State) (r : MirIn) => (s.nextMir 2 r u) ∧ (s.mir.upds = []) ∧ (gValid (r.body.take 64) = true) ∧ (s.grp (gGid (r.body.take 64)) = none)) (withRec groupIn twinGrp) ({ podAt 2 [] with groups := [(5, twinGrp)] }) groupIn) ∧
    ((fun (s : State) (u : State) (r : MirIn) (g : Grp) => (s.nextMir 3 r u) ∧ (s.grp (leAt r.body 0 2) = some g) ∧ (s.partialUe (gList g.entry + 8 * leAt r.body 2 2 + 2) (slice r.body 4 1).length = none)) (withRec (mirIn 3 (leBytes 2 5 ++ leBytes 2 1 ++ [1, 0, 0, 0] ++ leBytes 8 9)) twinGrp) ({ podAt 2 [] with groups := [(5, twinGrp)] }) (mirIn 3 (leBytes 2 5 ++ leBytes 2 1 ++ [1, 0, 0, 0] ++ leBytes 8 9)) twinGrp) ∧
    ((fun (s : State) (u : State) (r : MirIn) (g : Grp) => (s.nextMir 4 r u) ∧ (s.grp (leAt r.body 0 2) = some g) ∧ (gOwn g.entry = false) ∧ (byteAt r.body 12 = 0)) (withRec (mirIn 4 (leBytes 2 5 ++ leBytes 4 7 ++ leBytes 3 0 ++ [2, 1, 0, 0])) twinGrp) ({ podAt 2 [] with groups := [(5, twinGrp)] }) (mirIn 4 (leBytes 2 5 ++ leBytes 4 7 ++ leBytes 3 0 ++ [2, 1, 0, 0])) twinGrp) ∧
    ((fun (s : State) (u : State) (r : MirIn) (g : Grp) => (s.nextMir 4 r u) ∧ (s.grp (leAt r.body 0 2) = some g) ∧ (gOwn g.entry = false) ∧ (byteAt r.body 12 ≠ 0) ∧ (leAt r.body 6 3 < gChunks g.entry)) (withRec (mirIn 4 (leBytes 2 5 ++ leBytes 4 7 ++ leBytes 3 0 ++ [0, 0xFF, 0xF, 1])) twinGrp) ({ podAt 2 [] with groups := [(5, twinGrp)] }) (mirIn 4 (leBytes 2 5 ++ leBytes 4 7 ++ leBytes 3 0 ++ [0, 0xFF, 0xF, 1])) twinGrp) ∧
    ((fun (s : State) (u : State) (r : MirIn) (g : Grp) => (s.nextMir 5 r u) ∧ (s.grp (leAt r.body 0 2) = some g) ∧ (gOwn g.entry = false)) (withRec (mirIn 5 (leBytes 2 5 ++ leBytes 2 1 ++ leBytes 4 7 ++ leBytes 4 3)) twinGrp) ({ podAt 2 [] with groups := [(5, twinGrp)] }) (mirIn 5 (leBytes 2 5 ++ leBytes 2 1 ++ leBytes 4 7 ++ leBytes 4 3)) twinGrp) ∧
    ((fun (s : State) (u : State) (r : MirIn) (T : Tables) (n : Nat) (recs : List Bytes) => (s.nextMir 6 r u) ∧ (s.mir.parts = []) ∧ (s.mir.upds = []) ∧ (bitOf (byteAt r.body 1) 0 = true) ∧ (recs = splitRecs (recSize (byteAt r.body 0)) ((r.body.drop 8).length / recSize (byteAt r.body 0)) (r.body.drop 8)) ∧ (s.tables.apply (byteAt r.body 0) recs = .ok (T, n))) (withRec tableIn twinGrp) ({ podAt 2 [] with groups := [(5, twinGrp)] }) tableIn ((emptyT run).1) 1 ([epRec 1])) ∧
    ((fun (s : State) (u : State) (r : MirIn) => (s.nextMir 7 r u) ∧ (byteAt r.body 0 < 24) ∧ (mirroredReg (leAt r.body 4 4) = true)) (withRec ports0 twinGrp) ({ podAt 2 [] with groups := [(5, twinGrp)] }) ports0) ∧
    ((fun (s : State) (u : State) (r : MirIn) => (s.nextMir 8 r u)) (withRec (mirIn 8 (leBytes 8 64 ++ leBytes 8 2)) twinGrp) ({ podAt 2 [] with groups := [(5, twinGrp)] }) (mirIn 8 (leBytes 8 64 ++ leBytes 8 2))) := by
  exact ⟨by beta_reduce; decide +kernel, by beta_reduce; decide +kernel, by beta_reduce; decide +kernel, by beta_reduce; decide +kernel, by beta_reduce; decide +kernel, by beta_reduce; decide +kernel, by beta_reduce; decide +kernel, by beta_reduce; decide +kernel, by beta_reduce; decide +kernel, by beta_reduce; decide +kernel⟩

def late : State := { (podAt 2 []).atNs 500000000 with groups := [(5, twinGrp)] }
def oobFrame : Bytes := List.replicate 12 0 ++ beBytes 2 0x88B6 ++ [1, 2] ++ List.replicate 14 0 ++ mirRec 1 (leBytes 8 700)

theorem test_wit_TwinsLostAndFenced :
    ((fun (s : State) (m : Mlink) (_ : Nat) => (s.live = true) ∧ (s.pod ≠ podSolo) ∧ (s.mirUp = [m.val]) ∧ ((s.link (192 + m)).eg.ctlq = []) ∧ ((s.link (192 + m)).eg.tx = none) ∧ (s.retryRoom (192 + m) 64 = true)) ((podAt 2 []).setReg MIR_STATUS_m1_up 1) 1 3) ∧
    ((fun (s : State) (_ : Mlink) (_ : Nat) => (s.live = true) ∧ (s.reg SBK_STATUS_state = 1) ∧ (s.pod = podPaired) ∧ (s.mir.held = []) ∧ (s.mir.unconfirmed.length < 65536)) ((podAt 2 []).setReg SBK_STATUS_state 1) 1 3) ∧
    ((fun (s : State) (m : Mlink) (_ : Nat) => (s.live = true) ∧ (s.mirUp = [m.val]) ∧ (s.pod = podPaired)) ((podAt 2 []).setReg MIR_STATUS_m1_up 1) 1 3) ∧
    ((fun (s : State) (_ : Mlink) (_ : Nat) => (s.live = true) ∧ (s.hbMissing = true) ∧ (s.pod = podPaired) ∧ (s.twinLost = true) ∧ (s.mir.inRecs = []) ∧ ((∀ e ∈ s.groups, e.2.entry.length = 64))) (late.setReg MIR_CFG_role 1) 1 3) ∧
    ((fun (s : State) (_ : Mlink) (_ : Nat) => (s.live = true) ∧ (s.flag MIR_CFG_alive_en = true) ∧ (s.hbMissing = false)) ({ (run.atNs 1000).setReg MIR_CFG_alive_en 1 with mir := { run.mir with hbAt := 250000 } }) 1 3) ∧
    ((fun (s : State) (_ : Mlink) (_ : Nat) => (s.live = true) ∧ (s.pod ≠ podSolo) ∧ (s.elapsed s.mir.hbTx (s.reg MIR_HB_CFG_hb_timeout * 500) = true) ∧ ((∀ e ∈ s.groups, e.2.entry.length = 64))) late 1 3) ∧
    ((fun (s : State) (_ : Mlink) (_ : Nat) => (s.live = true) ∧ (s.flag MIR_CFG_oob_hb_en = true) ∧ (s.flag MIR_STATUS_self_fenced = false) ∧ (bitOf (s.reg MIR_OOB_CFG_up) (s.reg MIR_OOB_CFG_active) = true)) (((podAt 2 []).setReg MIR_CFG_oob_hb_en 1).setReg MIR_OOB_CFG_up 1) 1 3) ∧
    ((fun (s : State) (_ : Mlink) (_ : Nat) (b : Bytes) => (s.live = true) ∧ (s.reg MIR_OOB_CFG_up ≠ 0) ∧ (beAt b 0 6 = s.reg MIR_OOB_MAC_mac) ∧ (beAt b 12 2 = 0x88B6) ∧ (byteAt b 14 = 1) ∧ (beAt b 16 2 = 0) ∧ (beAt b 26 2 = s.reg MIR_CFG_pod_id) ∧ (byteAt b 30 = 1) ∧ (byteAt b 15 % 8 ≠ podSurvivor)) (run.setReg MIR_OOB_CFG_up 2) 1 3 oobFrame) ∧
    ((fun (s : State) (_ : Mlink) (_ : Nat) => (s.live = true) ∧ (s.oobMissing = true) ∧ (s.pod = podSolo)) ({ run.atNs 900000000000 with mir := run.mir }) 1 3) ∧
    ((fun (s : State) (m : Mlink) (_ : Nat) => (s.live = true) ∧ (bitOf (s.reg MIR_OOB_CFG_en) m = true)) (run.setReg MIR_OOB_CFG_en 2) 1 3) ∧
    ((fun (s : State) (_ : Mlink) (_ : Nat) => (s.live = true)) (podAt 2 []) 1 3) ∧
    ((fun (s : State) (_ : Mlink) (_ : Nat) => (s.live = true) ∧ (s.flag HUB_STATUS_ready = true)) (podAt 2 []) 1 3) ∧
    ((fun (s : State) (_ : Mlink) (_ : Nat) => (s.live = true) ∧ (s.flag HUB_STATUS_ready = true) ∧ (s.latchNow.counts = [])) (podAt 2 []) 1 3) := by
  exact ⟨by beta_reduce; decide +kernel, by beta_reduce; decide +kernel, by beta_reduce; decide +kernel, by beta_reduce; decide +kernel, by beta_reduce; decide +kernel, by beta_reduce; decide +kernel, by beta_reduce; decide +kernel, by beta_reduce; decide +kernel, by beta_reduce; decide +kernel, by beta_reduce; decide +kernel, by beta_reduce; decide +kernel, by beta_reduce; decide +kernel, by beta_reduce; decide +kernel⟩

def leased : Grp := { entry := grpEntry [(8, 2, 1)], base := 1, lease := [(0, 0)] }
def leaseAt : State := { ((((grpAt leased).atNs 900000000000).setReg MIR_DET_CFG_det_en 1).setReg MIR_DET_CFG_evict_max 3).setReg MIR_DET_CFG_floor_pct 0 with groups := [(5, leased)] }
def stallD : Desc := descOf [(0, 1, 9), (8, 1, 1), (10, 2, 5), (16, 8, 2560 + 512000000), (24, 4, 1000)]
def pendingR : Rehearsal := { d := 3, kind := 1, gid := 5, at_ := 0, duration := 100 }
def rehearsing (e : Timed) (r : Rehearsal) : State := { descAt run { stallD with started := true } with mir := { run.mir with rehearsal := some r }, clk := { run.clk with sched := [⟨0, 0, e⟩] } }

theorem test_wit_LeasesAndRehearsals :
    ((fun (s : State) (gid : Nat) (m : Nat) (g : Grp) (t0 : FT64) => (s.live = true) ∧ (s.grp gid = some g) ∧ (g.entry.length = 64) ∧ (gOwn g.entry = true) ∧ (s.flag MIR_DET_CFG_det_en = true) ∧ (s.replaying = false) ∧ (s.mir.rehearsal = none) ∧ (s.pod = podSolo) ∧ (g.lease.find? m = some t0) ∧ ((s.actives g.entry).any (fun x => x.1 == m) = true) ∧ (s.elapsed t0 (s.reg MIR_DET_CFG_lease * 1000) = true) ∧ (s.detGroup g.entry = true) ∧ (s.evictRefused g = false)) leaseAt 5 0 leased 0) ∧
    ((fun (s : State) (c : Instr) (d : Nat) (k : Nat) (x : Desc) => (s.live = true) ∧ ((c, k) ∈ [(Instr.rehearseLinkDrop d, 0), (Instr.rehearseMemberStall d, 1), (Instr.rehearseChunkCorrupt d, 2), (Instr.rehearseTwinLoss d, 3)]) ∧ (s.serves d 9 x) ∧ (byteAt x.bytes 8 = k) ∧ (s.rehearseDenied x = false)) (descAt ((grpAt leased).setReg MIR_REHEARSE_CFG_allow 15) stallD) (.rehearseMemberStall 3) 3 1 stallD) ∧
    ((fun (s : State) (r : Rehearsal) => (s.live = true) ∧ (s.replaying = false) ∧ (s.dueEvent .rehearse = true) ∧ (s.mir.rehearsal = some r) ∧ (r.kind ≠ 2)) (rehearsing .rehearse pendingR) pendingR) ∧
    ((fun (s : State) (r : Rehearsal) => (s.live = true) ∧ (s.replaying = false) ∧ (s.dueEvent .rehearseEnd = true) ∧ (s.mir.rehearsal = some r) ∧ (r.kind ≠ 3)) (rehearsing .rehearseEnd { pendingR with injected := some 0, frames := [⟨4, 5, false⟩] }) ({ pendingR with injected := some 0, frames := [⟨4, 5, false⟩] })) ∧
    ((fun (s : State) (r : Rehearsal) => (s.live = true) ∧ (s.replaying = false) ∧ (s.dueEvent .rehearseEnd = true) ∧ (s.mir.rehearsal = some r) ∧ (r.kind = 3) ∧ (s.pod = podSolo) ∧ (s.sys.fatal = false)) (rehearsing .rehearseEnd { pendingR with kind := 3, injected := some 0 }) ({ pendingR with kind := 3, injected := some 0 })) := by
  exact ⟨by beta_reduce; decide +kernel, by beta_reduce; decide +kernel, by beta_reduce; decide +kernel, by beta_reduce; decide +kernel, by beta_reduce; decide +kernel⟩

def upPort (n : Nat) : State := (run.withUp (8 * n)).setReg (PORT_CFG_enable n) 1

theorem test_wit_ErrorsByClass :
    ((fun (s : State) => (s.live = true)) run) ∧
    ((fun (s : State) (p : Port) => (s.live = true) ∧ (s.justReset p = false) ∧ (s.quietPort p)) (upPort 23) 23) ∧
    ((fun (s : State) (ch : Ch) => (s.live = true) ∧ (s.justReset (24 + ch) = false) ∧ ((∀ j, j < 32 → (s.ctx (32 * ch + j)).st = .idle)) ∧ ((∀ g ∈ s.groups, gCh g.2.entry ≠ ch.val))) (grpAt idleGrp) 7) ∧
    ((fun (s : State) (_ : Fin 3) => (s.live = true)) run 2) ∧
    ((fun (s : State) (cx : Cx) (q : Fin 5) (e : Entry) (rest : List Entry) => (s.live = true) ∧ (0 < q.val) ∧ ((s.ctx cx).queue q = e :: rest) ∧ ((s.ctx cx).running = true) ∧ (isEngine (iOp e.word) = true) ∧ ((s.ctx cx).fault = none)) (run.modCtx 255 (fun k => { k with st := .run, q := [(1, [{ word := 0x20, pc := 7 }])] })) 255 1 ({ word := 0x20, pc := 7 }) ([])) ∧
    ((fun (s : State) (_ : Ch) (w : Nat) => (s.live = true) ∧ (w < 0x300000)) run 7 0x2FFFFF) ∧
    ((fun (s : State) (_ : Ch) (_ : Fin 256) (_ : Fin 4) => (s.live = true)) run 7 255 3) ∧
    ((fun (s : State) (cx : Cx) (n : Nat) => (s.live = true) ∧ (n < (s.ctx cx).prog.length)) (run.modCtx 255 (fun k => { k with prog := [1, 2] })) 255 1) ∧
    ((fun (s : State) (_ : Fin 4) => (s.live = true) ∧ (s.flag HUB_STATUS_ready = false)) State.reset 3) ∧
    ((fun (s : State) (core : Fin 4) => (s.live = true) ∧ (s.flag HUB_STATUS_ready = true) ∧ (s.sys.fatal = false) ∧ ((s.sys.mcpRestarts.filter (fun r => r.1 == core.val && !s.elapsed r.2 60000000000)).length < 2)) ({ run with sys := { run.sys with mcpRestarts := [(3, 5)] } }) 3) ∧
    ((fun (s : State) (_ : Nat) (_ : Nat) (_ : Nat) => (s.live = true) ∧ (s.sys.fatal = false) ∧ (s.flag HUB_FATAL_LOG_valid = false)) run 300 7 5) ∧
    ((fun (s : State) => (s.live = true) ∧ (s.latchNow.counts = [])) run) ∧
    ((fun (s : State) (unit : Nat) (cause : Nat) (index : Nat) (c : Instr) => (s.sys.power = .tripped) ∧ (s.flag HUB_FATAL_LOG_valid = false) ∧ ((c = .deviceFatal unit cause index ∨ (c = .tableWordRepair true ∧ unit = 32 ∧ cause = 2 ∧ index = 0) ∨ (∃ core : Fin 4, c = .mcpWatchdog core ∧ unit = 32 ∧ cause = 10 ∧ index = core.val ∧ s.flag HUB_STATUS_ready = true ∧ s.sys.fatal = false ∧ 2 ≤ (s.sys.mcpRestarts.filter (fun r => r.1 == core.val && !s.elapsed r.2 60000000000)).length)))) ({ run with sys := { run.sys with power := .tripped } }) 300 7 5 (.deviceFatal 300 7 5)) := by
  exact ⟨by beta_reduce; decide +kernel, by beta_reduce; decide +kernel, by beta_reduce; decide +kernel, by beta_reduce; decide +kernel, by beta_reduce; decide +kernel, by beta_reduce; decide +kernel, by beta_reduce; decide +kernel, by beta_reduce; decide +kernel, by beta_reduce; decide +kernel, by beta_reduce; decide +kernel, by beta_reduce; decide +kernel, by beta_reduce; decide +kernel, by beta_reduce; decide +kernel⟩

def used : State := { ((grpAt idleGrp).setReg SEC_STATUS_load_state 3).modCtx 37 (fun k => { k with st := .run }) with pending := [.flr], hw := { run.hw with erased := true, ownerKey := some [1] } }
def phaseAtN (n : Nat) : State := { used with sys := { used.sys with phase := n } }

theorem test_wit_ResetsAndBringUp :
    ((fun (s : State) => ((s.sys.power = .run ∨ s.sys.power = .tripped)) ∧ (s.reg SEC_STATUS_load_state ≠ 1) ∧ (s.reg SEC_STATUS_load_state ≠ 2)) used) ∧
    ((fun (s : State) => (s.live = true) ∧ (s.reg SEC_STATUS_load_state ≠ 1) ∧ (s.reg SEC_STATUS_load_state ≠ 2)) used) ∧
    ((fun (s : State) (key : Nat) => (s.live = true) ∧ (s.reg SEC_STATUS_load_state ≠ 1) ∧ (s.reg SEC_STATUS_load_state ≠ 2) ∧ (key % 256 = 0xC3)) used 0x1C3) ∧
    ((fun (s : State) (key : Nat) => (s.live = true) ∧ (s.reg SEC_STATUS_load_state ≠ 1) ∧ (s.reg SEC_STATUS_load_state ≠ 2) ∧ (key % 256 ≠ 0xC3)) used 0xC2) ∧
    ((fun (s : State) => (s.sys.power = .held)) ({ used with sys := { used.sys with power := .held } })) ∧
    ((fun (s : State) (n : Nat) => (s.live = true) ∧ (1 ≤ n) ∧ (n ≤ 3) ∧ (s.sys.phase = n)) (phaseAtN 3) 3) ∧
    ((fun (s : State) => (s.live = true) ∧ (s.sys.phase = 4)) (phaseAtN 4)) ∧
    ((fun (s : State) => (s.live = true) ∧ (s.sys.phase = 5)) (phaseAtN 5)) ∧
    ((fun (s : State) => (s.live = true) ∧ (s.sys.phase = 6)) (phaseAtN 6)) ∧
    ((fun (s : State) => (s.live = true) ∧ (s.sys.phase = 2)) (phaseAtN 2)) := by
  exact ⟨by beta_reduce; decide +kernel, by beta_reduce; decide +kernel, by beta_reduce; decide +kernel, by beta_reduce; decide +kernel, by beta_reduce; decide +kernel, by beta_reduce; decide +kernel, by beta_reduce; decide +kernel, by beta_reduce; decide +kernel, by beta_reduce; decide +kernel, by beta_reduce; decide +kernel⟩

theorem test_wit_PartialResets :
    ((fun (s : State) => (s.live = true)) used) ∧
    ((fun (s : State) (p : Port) (o : Nat) => (s.live = true) ∧ (o = 0x400000 + 0x20000 * p) ∧ (s.flag HUB_RESET_STATUS_busy = false) ∧ (s.quietPort p) ∧ ((∀ l, l < 8 → (s.link (8 * p + l)).rx = none))) (upPort 23) 23 0x6E0000) ∧
    ((fun (s : State) (ch : Ch) (o : Nat) => (s.live = true) ∧ (o = 0x800000 + 0x100000 * ch) ∧ (s.flag HUB_RESET_STATUS_busy = false) ∧ ((∀ g ∈ s.groups, gCh g.2.entry ≠ ch.val))) (used.modCtx 225 (fun k => { k with st := .run })) 7 0xF00000) ∧
    ((fun (s : State) (ch : Ch) => (s.live = true) ∧ ((∃ g ∈ s.groups, gCh g.2.entry = ch.val))) used 0) ∧
    ((fun (s : State) (_ : Port) (_ : Ch) => (s.live = true) ∧ (s.flag HUB_RESET_STATUS_busy = true)) (used.setReg HUB_RESET_STATUS_busy 1) 23 7) := by
  exact ⟨by beta_reduce; decide +kernel, by beta_reduce; decide +kernel, by beta_reduce; decide +kernel, by beta_reduce; decide +kernel, by beta_reduce; decide +kernel⟩

theorem test_wit_BoardSignals :
    ((fun (s : State) (k : Tile) => (s.live = true) ∧ (s.sys.lasers.contains k.val = false)) ({ run with sys := { run.sys with lasers := [1] } }) 8) ∧
    ((fun (s : State) (k : Tile) => (s.live = true) ∧ (k.val ≠ 8) ∧ (s.hw.dark.contains k.val = true)) ({ run with sys := { run.sys with lasers := [7] } }) 7) ∧
    ((fun (s : State) (off : Nat) (d : RegDef) => (sidebandOffsets.contains off = true) ∧ (s.sys.power = .run) ∧ (regAt regTable off = some d)) run (sidebandOffsets.getD 0 0) ((regAt regTable (sidebandOffsets.getD 0 0)).getD ⟨0, [], 0, []⟩)) ∧
    ((fun (s : State) (off : Nat) => (aonOffsets.contains off = false) ∧ (s.sys.power = .down)) ({ run with sys := { run.sys with power := .down } }) 4) ∧
    ((fun (s : State) (addr : Nat) (_ : Nat) (_ : Nat) => (addr ≠ (if s.hw.sbAddr then 0x4B else 0x4A))) run 0x4B 1 0x24) ∧
    ((fun (s : State) => (s.sys.power ≠ .down)) run) := by
  exact ⟨by beta_reduce; decide +kernel, by beta_reduce; decide +kernel, by beta_reduce; decide +kernel, by beta_reduce; decide +kernel, by beta_reduce; decide +kernel, by beta_reduce; decide +kernel⟩

def defAt (off : Nat) : RegDef := (regAt regTable off).getD ⟨0, [], 0, []⟩

theorem test_wit_RegisterWritesReachTheirBlock :
    ((fun (s : State) (off : Nat) (_ : Nat) (_ : Nat) => (s.live = true) ∧ (regAt regTable off = none) ∧ (inMsix off = false)) run 2 32 5) ∧
    ((fun (s : State) (off : Nat) (width : Nat) (_ : Nat) (d : RegDef) => (s.live = true) ∧ (regAt regTable off = some d) ∧ (d.width ≠ width) ∧ (inMsix off = false)) run 0x1600004 64 5 (defAt 0x1600004)) ∧
    ((fun (s : State) (off : Nat) (_ : Nat) (_ : Nat) (d : RegDef) => (s.live = true) ∧ (regAt regTable off = some d) ∧ (s.flag HUB_STATUS_ready = false) ∧ (openEarly off = false)) State.reset 0x1600004 32 5 (defAt 0x1600004)) ∧
    ((fun (s : State) (off : Nat) (width : Nat) (_ : Nat) (d : RegDef) => (s.live = true) ∧ (regAt regTable off = some d) ∧ ((s.flag HUB_STATUS_ready = true ∨ openEarly off = true)) ∧ (d.width = width) ∧ (plainReg off = true)) run 0x1600004 32 5 (defAt 0x1600004)) ∧
    ((fun (s : State) (_ : Nat) (_ : Nat) (v : Nat) (k : Fin 64) (o : Nat) => (s.live = true) ∧ (o = 0x8000 + 16 * k) ∧ (v < 2 ^ 64)) run 0x1600004 32 5 5 0x8050) ∧
    ((fun (s : State) (_ : Nat) (_ : Nat) (v : Nat) (k : Fin 64) (o : Nat) => (s.live = true) ∧ (o = 0x8000 + 16 * k) ∧ (v < 2 ^ 64) ∧ (bitOf v 0 = true)) run 0x1600004 32 5 5 0x8050) ∧
    ((fun (s : State) (_ : Nat) (_ : Nat) (v : Nat) (i : Ring) => (s.live = true) ∧ (v < 2 ^ 64) ∧ (s.flag (RING_SQ_CFG_en i) = true)) (run.setReg (RING_SQ_CFG_en 1023) 1) 0x1600004 32 5 1023) ∧
    ((fun (s : State) (_ : Nat) (_ : Nat) (v : Nat) (_ : Ring) => (s.live = true) ∧ (v < 2 ^ 32)) run 0x1600004 32 5 1023) ∧
    ((fun (s : State) (_ : Nat) (_ : Nat) (v : Nat) (_ : Port) => (s.live = true) ∧ (s.flag HUB_STATUS_ready = true) ∧ (v < 2 ^ 32)) run 0x1600004 32 5 23) ∧
    ((fun (s : State) (_ : Nat) (_ : Nat) (v : Nat) (_ : Ch) => (s.live = true) ∧ (s.flag HUB_STATUS_ready = true) ∧ (v < 2 ^ 32)) run 0x1600004 32 5 7) ∧
    ((fun (s : State) (_ : Nat) (_ : Nat) (v : Nat) => (s.live = true) ∧ (s.flag HUB_STATUS_ready = true) ∧ (v < 2 ^ 32)) run 0x1600004 32 5) ∧
    ((fun (s : State) (_ : Nat) (_ : Nat) (v : Nat) => (s.live = true) ∧ (s.flag HUB_STATUS_ready = true) ∧ (v < 2 ^ 64)) run 0x1600004 32 5) ∧
    ((fun (s : State) (_ : Nat) (_ : Nat) (v : Nat) (_ : Fin 16) => (s.live = true) ∧ (s.flag HUB_STATUS_ready = true) ∧ (v < 2 ^ 64)) run 0x1600004 32 5 15) ∧
    ((fun (s : State) (_ : Nat) (_ : Nat) (_ : Nat) => (s.live = true) ∧ (s.flag HUB_STATUS_ready = true)) run 0x1600004 32 5) ∧
    ((fun (s : State) (_ : Nat) (_ : Nat) (_ : Nat) (_ : Port) => (s.live = true) ∧ (s.flag HUB_STATUS_ready = true)) run 0x1600004 32 5 23) ∧
    ((fun (s : State) (_ : Nat) (_ : Nat) (_ : Nat) => (s.live = true) ∧ (s.flag HUB_STATUS_ready = true) ∧ (s.pod ≠ podSolo)) (run.setReg MIR_STATUS_state 2) 0x1600004 32 5) ∧
    ((fun (s : State) (_ : Nat) (_ : Nat) (_ : Nat) (_ : Pool) => (s.live = true) ∧ (s.flag HUB_STATUS_ready = true) ∧ (s.flag STORE_CTRL_enable = true)) (run.setReg STORE_CTRL_enable 1) 0x1600004 32 5 5) := by
  exact ⟨by beta_reduce; decide +kernel, by beta_reduce; decide +kernel, by beta_reduce; decide +kernel, by beta_reduce; decide +kernel, by beta_reduce; decide +kernel, by beta_reduce; decide +kernel, by beta_reduce; decide +kernel, by beta_reduce; decide +kernel, by beta_reduce; decide +kernel, by beta_reduce; decide +kernel, by beta_reduce; decide +kernel, by beta_reduce; decide +kernel, by beta_reduce; decide +kernel, by beta_reduce; decide +kernel, by beta_reduce; decide +kernel, by beta_reduce; decide +kernel, by beta_reduce; decide +kernel⟩

def echBig : Ech := { opcode := 0x43, gid := 65535, member := 4095, cls := 1, epoch := 65535, step := 2 ^ 32 - 1, chunk := 2 ^ 24 - 1, fmt := 15, op := 255, plen := 65535, part := 255, stamp := 2 ^ 64 - 1, partial_ := true }

theorem test_wit_EncodingsRoundTrip :
    ((fun (e : Ech) (_ : Bytes) => (e.fits)) echBig ([1])) ∧
    ((fun (b : Bytes) => (b.length = 32) ∧ ((Ech.parse b).crcOk = true)) echBig.bytes) ∧
    ((fun (e : Ech) (_ : Nat) (_ : Nat) (et : Nat) (tag : Option Nat) (payload : Bytes) => (e.fits) ∧ (et < 2 ^ 16) ∧ (isTpid et = false) ∧ (et ≠ 0x0800) ∧ (et ≠ 0x86DD) ∧ ((∀ x, tag = some x → x < 2 ^ 16)) ∧ (payload.length % 4 = 0) ∧ (payload.length < 4 * 2 ^ 16)) echBig 0x0180C200000E 1 0x88B5 (some 65535) ([1, 2, 3, 4, 5, 6, 7, 8])) ∧
    ((fun (e : Ech) (_ : Nat) (_ : Nat) (et : Nat) (tag : Option Nat) (payload : Bytes) => (e.fits) ∧ (et < 2 ^ 16) ∧ (isTpid et = false) ∧ (et ≠ 0x0800) ∧ (et ≠ 0x86DD) ∧ ((∀ x, tag = some x → x < 2 ^ 16)) ∧ (payload.length % 4 = 0) ∧ (payload.length < 4 * 2 ^ 16) ∧ (e.version = 1) ∧ (e.flagsRsv = 0) ∧ (e.fmtRsv = 0) ∧ (opcodeKnown e = true) ∧ (e.cls ≤ (if e.gid = 0 then 0 else 1)) ∧ (payload ≠ [])) echBig 0x0180C200000E 1 0x88B5 (some 65535) ([1, 2, 3, 4, 5, 6, 7, 8])) ∧
    ((fun (f : Nat) (rnd : Nat) (u : Nat) (c : Nat) (k : Fmt) (q : Bool) => (rnd ≤ 4) ∧ (u < 2 ^ 32) ∧ (fmtOf f = some k) ∧ (c < 2 ^ k.width) ∧ (c % 2 ^ k.pad = 0) ∧ (decodeVal f c = .nan q)) 5 4 (2 ^ 32 - 1) 0x7F ((fmtOf 5).get (by decide)) false) ∧
    ((fun (f : Nat) (rnd : Nat) (u : Nat) (c : Nat) (k : Fmt) => (rnd ≤ 4) ∧ (u < 2 ^ 32) ∧ (fmtOf f = some k) ∧ (c < 2 ^ k.width) ∧ (c % 2 ^ k.pad = 0) ∧ ((decodeVal f c).isNan = false)) 9 4 (2 ^ 32 - 1) 15 ((fmtOf 9).get (by decide))) ∧
    ((fun (f : Nat) (rnd : Nat) (u : Nat) (c : Nat) (w : Nat) => (rnd ≤ 4) ∧ (u < 2 ^ 32) ∧ (fmtOf f = none) ∧ (intWidth f = some w) ∧ (c < 2 ^ w)) 13 4 (2 ^ 32 - 1) 15 4) ∧
    ((fun (f : Nat) (rnd : Nat) (u : Nat) (c : Nat) => (rnd ≤ 4) ∧ (u < 2 ^ 32) ∧ (f = 14) ∧ (c < 255)) 14 4 (2 ^ 32 - 1) 254) := by
  exact ⟨by beta_reduce; decide +kernel, by beta_reduce; decide +kernel, by beta_reduce; exact ⟨by decide +kernel, by decide +kernel, by decide +kernel, by decide +kernel, by decide +kernel, fun x h => by cases h; decide, by decide +kernel, by decide +kernel⟩, by beta_reduce; exact ⟨by decide +kernel, by decide +kernel, by decide +kernel, by decide +kernel, by decide +kernel, fun x h => by cases h; decide, by decide +kernel, by decide +kernel, by decide +kernel, by decide +kernel, by decide +kernel, by decide +kernel, by decide +kernel, by decide +kernel⟩, by beta_reduce; decide +kernel, by beta_reduce; decide +kernel, by beta_reduce; decide +kernel, by beta_reduce; decide +kernel⟩

def heldAt0 : State := { run with sys := { run.sys with power := .held }, pending := [.flr, .mirJoin] }

theorem test_wit_StoppedClocksHoldTheState :
    ((fun (s : State) (t : State) => (s.stopped) ∧ (step s = .next t)) heldAt0 ({ heldAt0 with pending := [.mirJoin] })) ∧
    ((fun (s : State) => (s.pending.all ordinary = true)) run) ∧
    ((fun (s : State) => (s.pending.all ordinary = true) ∧ (s.live = true)) (run.setReg SEC_STATUS_load_state 2)) := by
  exact ⟨by beta_reduce; exact ⟨⟨by decide +kernel, by decide +kernel⟩, rfl⟩, by beta_reduce; decide +kernel, by beta_reduce; decide +kernel⟩

end Sys2Proof.Tests
end

section
/-! PROOFS. Writes of the registers of BAR0 (R7, R8, R360, R444): where a register lies, which write reaches its block, what the block does with it. -/

namespace Sys2Proof.Machine

/-! ### Where a register lies -/

/-- The width of the register at an offset, where there is one. -/
def regWidth (off : Nat) : Option Nat := (regAt regTable off).map RegDef.width

/-- How far the last element of an array lies behind its first. -/
def dimsSpan : List (Nat × Nat) → Nat
  | [] => 0
  | (n, st) :: ds => (n - 1) * st + dimsSpan ds

/-- Some element of the array of `d` may lie in [lo, hi). -/
def RegDef.meets (lo hi : Nat) (d : RegDef) : Bool := decide (d.base < hi) && decide (lo ≤ d.base + dimsSpan d.dims)

theorem arrayHit_bounds {dims : List (Nat × Nat)} {base off : Nat} (h : arrayHit base dims off = true) :
    base ≤ off ∧ off ≤ base + dimsSpan dims := by
  induction dims generalizing base with
  | nil =>
    have : off = base := by simpa [arrayHit] using h
    simp [dimsSpan, this]
  | cons d ds ih =>
    obtain ⟨n, st⟩ := d
    simp only [arrayHit, Bool.and_eq_true, decide_eq_true_eq] at h
    obtain ⟨⟨hlo, hn⟩, hrest⟩ := h
    have hle : (off - base) / st * st ≤ (n - 1) * st := Nat.mul_le_mul_right _ (by omega)
    have := ih hrest
    simp only [dimsSpan]
    omega

/-- To find the register at an offset of a range, the registers that meet the range are enough. -/
theorem regAt_filter_meets {tab : List RegDef} {lo hi off : Nat} (hlo : lo ≤ off) (hhi : off < hi) :
    regAt tab off = regAt (tab.filter (RegDef.meets lo hi)) off := by
  have hit (d : RegDef) (h : arrayHit d.base d.dims off = true) : d.meets lo hi = true := by
    have := arrayHit_bounds h
    simp only [RegDef.meets, Bool.and_eq_true, decide_eq_true_eq]
    omega
  simp only [regAt, List.find?_filter]
  congr 1
  funext d
  cases h : arrayHit d.base d.dims off with
  | false => simp
  | true => simp [hit d h]

/-- An offset `r` bytes behind element `i` of an array is an element of it only for `r = 0`. -/
theorem arrayHit_line {base n st i r : Nat} (hi : i < n) (hr : r < st) : arrayHit base [(n, st)] (base + r + st * i) = decide (r = 0) := by
  have hq : (base + r + st * i - base) / st = i := by
    rw [show base + r + st * i - base = r + st * i by omega, Nat.add_mul_div_left _ _ (by omega), Nat.div_eq_of_lt hr, Nat.zero_add]
  have hle : base ≤ base + r + st * i := by omega
  simp only [arrayHit, hq, hi, hle, decide_true, Bool.true_and, Nat.mul_comm i st]
  rw [Bool.eq_iff_iff]
  simp only [beq_iff_eq, decide_eq_true_eq]
  omega

theorem regTable_sq : regTable.filter (RegDef.meets 0x310000 0x320000) =
    [⟨0x310000, [(1024, 0x20)], 64, [⟨12, 52, .rw, 0x0⟩]⟩,
      ⟨0x310008, [(1024, 0x20)], 32, [⟨0, 1, .rw, 0x0⟩, ⟨1, 4, .rw, 0x4⟩, ⟨8, 10, .rw, 0x0⟩]⟩,
      ⟨0x310010, [(1024, 0x20)], 64, [⟨0, 16, .ro, 0x0⟩, ⟨16, 16, .ro, 0x0⟩, ⟨32, 1, .ro, 0x0⟩, ⟨33, 1, .ro, 0x0⟩, ⟨34, 1, .ro, 0x0⟩]⟩] := by
  decide +kernel

theorem regTable_cq : regTable.filter (RegDef.meets 0x320000 0x330000) =
    [⟨0x320000, [(1024, 0x20)], 64, [⟨12, 52, .rw, 0x0⟩]⟩,
      ⟨0x320008, [(1024, 0x20)], 32, [⟨0, 1, .rw, 0x0⟩, ⟨1, 4, .rw, 0x4⟩, ⟨8, 6, .rw, 0x0⟩, ⟨14, 1, .rw, 0x0⟩]⟩,
      ⟨0x32000c, [(1024, 0x20)], 32, [⟨0, 8, .rw, 0x1⟩, ⟨16, 16, .rw, 0x0⟩]⟩,
      ⟨0x320010, [(1024, 0x20)], 64, [⟨0, 16, .ro, 0x0⟩, ⟨16, 16, .ro, 0x0⟩, ⟨32, 1, .ro, 0x1⟩, ⟨33, 1, .ro, 0x0⟩, ⟨34, 1, .ro, 0x0⟩]⟩] := by
  decide +kernel

/-- RING_SQ_BASE and RING_SQ_CFG of a submission ring. -/
theorem regWidth_sq (i : Ring) : regWidth (0x310000 + 0x20 * i) = some 64 ∧ regWidth (0x310008 + 0x20 * i) = some 32 := by
  have base := arrayHit_line (base := 0x310000) (r := 0) i.isLt (st := 0x20) (by omega)
  have base' := arrayHit_line (base := 0x310000) (r := 8) i.isLt (st := 0x20) (by omega)
  have cfg := arrayHit_line (base := 0x310008) (r := 0) i.isLt (st := 0x20) (by omega)
  constructor <;> rw [regWidth, regAt_filter_meets (lo := 0x310000) (hi := 0x320000) (by omega) (by omega), regTable_sq]
  · simp [regAt, List.find?, base]
  · simp [regAt, List.find?, base', cfg]

/-- RING_CQ_CFG of a completion ring. -/
theorem regWidth_cqCfg (i : Ring) : regWidth (0x320008 + 0x20 * i) = some 32 := by
  have base := arrayHit_line (base := 0x320000) (r := 8) i.isLt (st := 0x20) (by omega)
  have cfg := arrayHit_line (base := 0x320008) (r := 0) i.isLt (st := 0x20) (by omega)
  rw [regWidth, regAt_filter_meets (lo := 0x320000) (hi := 0x330000) (by omega) (by omega), regTable_cq]
  simp [regAt, List.find?, base, cfg]

theorem regWidth_port : ∀ p : Port, regWidth (0x400000 + 0x20000 * p) = some 32 ∧ regWidth (0x400010 + 0x20000 * p) = some 32 ∧
    regWidth (0x400038 + 0x20000 * p) = some 32 ∧ regWidth (0x400100 + 0x20000 * p) = some 32 := by
  decide +kernel

theorem regWidth_ch : ∀ ch : Ch, regWidth (0x800000 + 0x100000 * ch) = some 32 := by decide +kernel

theorem regWidth_seed : ∀ n : Fin 16, regWidth (0x1500100 + 8 * n) = some 64 := by decide +kernel

theorem regWidth_pool : ∀ k : Pool, regWidth (0x1010000 + 0x40 * k) = some 32 := by decide +kernel

/-! ### A register write (R7, R8, R360, R444) -/

theorem exec_registerWrite {s : State} (off width v : Nat) (hl : s.live = true) :
    exec (.registerWrite off width v) s = .next (s.hostWriteReg off width v) :=
  State.does_live (fun s => s.hostWriteReg off width v) hl

/-- A register outside the MSI-X table is at an offset that the table does not take. -/
theorem inMsix_of_le {off : Nat} (h : 0x8400 ≤ off) : inMsix off = false := by
  simp only [inMsix, Bool.and_eq_false_iff, decide_eq_false_iff_not]
  omega

theorem openEarly_ge {off : Nat} (h : openEarly off = false) : 0x200000 ≤ off := by
  simp only [openEarly, Bool.or_eq_false_iff, decide_eq_false_iff_not] at h
  omega

/-- A write of the register's width that its block takes reaches the block. -/
theorem State.hostWriteReg_open {s : State} {off width v : Nat} (hm : inMsix off = false) (hw : regWidth off = some width)
    (ho : s.flag HUB_STATUS_ready = true ∨ openEarly off = true) : s.hostWriteReg off width v = s.writeBlock off (v % 2 ^ width) := by
  obtain ⟨d, hd, rfl⟩ := Option.map_eq_some_iff.mp hw
  unfold State.hostWriteReg
  rw [hm, hd]
  rcases ho with ho | ho <;> simp [ho]

/-- Before a bundle runs, and in another width than the register's, a write is ignored. -/
theorem State.hostWriteReg_ignored {s : State} {off width v : Nat} (hm : inMsix off = false)
    (h : regWidth off ≠ some width ∨ s.flag HUB_STATUS_ready = false ∧ openEarly off = false) : s.hostWriteReg off width v = s := by
  unfold State.hostWriteReg
  rw [hm]
  cases hd : regAt regTable off with
  | none => rfl
  | some d =>
    rcases h with h | ⟨hr, ho⟩
    · have : d.width ≠ width := by simpa [regWidth, hd] using h
      simp [this]
    · simp [hr, ho]

/-- REGISTER_WRITE of a register outside the MSI-X table, with a value of its width. -/
theorem exec_registerWrite_open {s : State} {off width v : Nat} (hl : s.live = true) (hoff : 0x8400 ≤ off ∨ inMsix off = false)
    (hw : regWidth off = some width) (ho : s.flag HUB_STATUS_ready = true ∨ openEarly off = true) (hv : v < 2 ^ width) :
    exec (.registerWrite off width v) s = .next (s.writeBlock off v) := by
  have hm : inMsix off = false := hoff.elim inMsix_of_le id
  rw [exec_registerWrite _ _ _ hl, State.hostWriteReg_open hm hw ho, Nat.mod_eq_of_lt hv]

theorem State.putReg_of_regAt {s : State} {off v : Nat} {d : RegDef} (hd : regAt regTable off = some d) :
    s.putReg off v = { s with regs := writeFields (fun f => s.latchNow.bits.get 0 f.key) s.regs off v d } := by
  rw [State.putReg, hd]

/-! ### The block that an offset belongs to (R360) -/

theorem State.writeBlock_ring (s : State) {off v : Nat} (h : 0x300000 ≤ off) (h' : off < 0x400000) : s.writeBlock off v = s.writeRing off v := by
  simp only [State.writeBlock]
  rw [if_neg (by omega), if_neg (by omega), if_neg (by omega), if_pos h']

theorem State.writeBlock_port (s : State) {off v : Nat} (h : 0x400000 ≤ off) (h' : off < 0x700000) : s.writeBlock off v = s.writePort off v := by
  simp only [State.writeBlock]
  rw [if_neg (by omega), if_neg (by omega), if_neg (by omega), if_neg (by omega), if_pos h']

theorem State.writeBlock_ch (s : State) {off v : Nat} (h : 0x800000 ≤ off) (h' : off < 0x1000000) : s.writeBlock off v = s.writeCh off v := by
  simp only [State.writeBlock]
  rw [if_neg (by omega), if_neg (by omega), if_neg (by omega), if_neg (by omega), if_neg (by omega), if_neg (by omega), if_pos h']

theorem State.writeBlock_store (s : State) {off v : Nat} (h : 0x1000000 ≤ off) (h' : off < 0x1400000) :
    s.writeBlock off v = s.writeStore off v := by
  simp only [State.writeBlock]
  rw [if_neg (by omega), if_neg (by omega), if_neg (by omega), if_neg (by omega), if_neg (by omega), if_neg (by omega), if_neg (by omega), if_pos h']

theorem State.writeBlock_sbk (s : State) {off v : Nat} (h : 0x1500000 ≤ off) (h' : off < 0x1600000) : s.writeBlock off v = s.writeSbk off v := by
  simp only [State.writeBlock]
  rw [if_neg (by omega), if_neg (by omega), if_neg (by omega), if_neg (by omega), if_neg (by omega), if_neg (by omega), if_neg (by omega),
    if_neg (by omega), if_neg (by omega), if_pos h']

/-! ### Plain registers: each block puts the value into the register -/

section Plain

variable (s : State) {off v : Nat}

theorem State.writeHub_plain (h : (off != 0x630 && off != 0x640 && !inMsix off) = true) : s.writeHub off v = s.putReg off v := by
  simp only [Bool.and_eq_true, bne_iff_ne] at h
  rw [State.writeHub, if_neg h.1.1, if_neg h.1.2]

theorem State.writeSec_plain (h : (off != 0x100100 && decide (off < 0x101000)) = true) : s.writeSec off v = s.putReg off v := by
  simp only [Bool.and_eq_true, bne_iff_ne, decide_eq_true_eq] at h
  rw [State.writeSec, if_neg h.1, if_neg (by omega)]

theorem State.writePwr_plain (h : (off != 0x200008 && off != 0x200020 && off != 0x200054) = true) : s.writePwr off v = s.putReg off v := by
  simp only [Bool.and_eq_true, bne_iff_ne] at h
  rw [State.writePwr, if_neg h.1.1, if_neg h.2, if_neg h.1.2]

theorem State.writeRing_plain (h : (off != 0x300008 && !(decide (0x310000 ≤ off) && decide (off < 0x330000))) = true) :
    s.writeRing off v = s.putReg off v := by
  simp only [Bool.and_eq_true, bne_iff_ne, Bool.not_eq_true', Bool.and_eq_false_iff, decide_eq_false_iff_not] at h
  rw [State.writeRing, if_neg h.1, if_neg (by omega), if_neg (by omega)]

theorem State.writePort_plain
    (h : (!([0, 0x10, 0x38, 0x100, 0x180, 0x188, 0x190].contains ((off - 0x400000) % 0x20000)) &&
      !(decide (0x4000 ≤ (off - 0x400000) % 0x20000) && decide ((off - 0x400000) % 0x20000 < 0x4400)) &&
      !mirroredReg ((off - 0x400000) % 0x20000)) = true) : s.writePort off v = s.putReg off v := by
  unfold State.writePort
  generalize (off - 0x400000) % 0x20000 = o at h ⊢
  simp only [List.contains_cons, List.contains_nil, Bool.or_false, Bool.and_eq_true, Bool.not_eq_true', Bool.or_eq_false_iff, beq_eq_false_iff_ne,
    Bool.and_eq_false_iff, decide_eq_false_iff_not] at h
  obtain ⟨⟨⟨h0, h10, h38, h100, h180, h188, h190⟩, hgate⟩, hmir⟩ := h
  rw [if_neg h0, if_neg h10, if_neg h38, if_neg h100, if_neg h180, if_neg (by omega), hmir, if_neg (by decide)]

theorem State.writeTime_plain (h : (off != 0x700004 && off != TIME_RATE_rate.off && off != 0x700038) = true) :
    s.writeTime off v = s.putReg off v := by
  simp only [Bool.and_eq_true, bne_iff_ne] at h
  rw [State.writeTime, if_neg h.1.1, if_neg h.1.2, if_neg h.2]

theorem State.writeCh_plain (h : (!([0, 0x14, 0x400].contains (off % 0x100000))) = true) : s.writeCh off v = s.putReg off v := by
  simp only [List.contains_cons, List.contains_nil, Bool.or_false, Bool.not_eq_true', Bool.or_eq_false_iff, beq_eq_false_iff_ne] at h
  rw [State.writeCh, if_neg h.1, if_neg h.2.1, if_neg h.2.2]

theorem State.writeStore_plain
    (h : (!([0x1000000, 0x1000008, 0x1000020, 0x100003C].contains off) && !(decide (0x1010000 ≤ off) && decide (off < 0x1010180)) &&
      decide (off < 0x1020000)) = true) : s.writeStore off v = s.putReg off v := by
  simp only [List.contains_cons, List.contains_nil, Bool.or_false, Bool.and_eq_true, Bool.not_eq_true', Bool.or_eq_false_iff, beq_eq_false_iff_ne,
    Bool.and_eq_false_iff, decide_eq_false_iff_not, decide_eq_true_eq] at h
  obtain ⟨⟨⟨hctrl, hregion, hxon, hclear⟩, hpool⟩, hown⟩ := h
  rw [State.writeStore, if_neg hctrl, if_neg hregion, if_neg hclear, if_neg hxon, if_neg (by omega), if_neg (by omega)]

theorem State.writeMir_plain (h : (!([0x1400000, 0x1400004, 0x1400014, 0x1400018, 0x1400060].contains off)) = true) :
    s.writeMir off v = s.putReg off v := by
  simp only [List.contains_cons, List.contains_nil, Bool.or_false, Bool.not_eq_true', Bool.or_eq_false_iff, beq_eq_false_iff_ne] at h
  obtain ⟨hcfg, hctrl, hclear, hport, hoob⟩ := h
  rw [State.writeMir, if_neg hcfg, if_neg hctrl, if_neg hclear, if_neg hport, if_neg hoob]

theorem State.writeSbk_plain
    (h : (!([0, 4, 0x10, 0x18, 0x20, 0x40, 0xF0].contains (off - 0x1500000)) && !(decide (0x1500100 ≤ off) && decide (off < 0x1500180))) = true) :
    s.writeSbk off v = s.putReg off v := by
  simp only [List.contains_cons, List.contains_nil, Bool.or_false, Bool.and_eq_true, Bool.not_eq_true', Bool.or_eq_false_iff, beq_eq_false_iff_ne,
    Bool.and_eq_false_iff, decide_eq_false_iff_not] at h
  obtain ⟨⟨h0, h4, h10, h18, h20, h40, hF0⟩, hseed⟩ := h
  have hidle : [0, 4, 0x18, 0x20, 0x40].contains (off - 0x1500000) = false := by simp [h0, h4, h18, h20, h40]
  simp only [State.writeSbk]
  rw [if_neg h10, if_neg hF0, if_neg (by omega), hidle, if_neg (by decide)]

theorem State.writeGrp_plain (h : (off != 0x160000C) = true) : s.writeGrp off v = s.putReg off v := by
  rw [State.writeGrp, if_neg (by simpa using h)]

theorem inMsix_of_plainReg (h : plainReg off = true) : inMsix off = false := by
  by_cases hoff : off < 0x100000
  · rw [plainReg, if_pos hoff] at h
    simp only [Bool.and_eq_true, Bool.not_eq_true'] at h
    exact h.2
  · exact inMsix_of_le (by omega)

/-- A plain register takes its fields as R8 says, in whichever block it lies. -/
theorem State.writeBlock_plain (h : plainReg off = true) : s.writeBlock off v = s.putReg off v := by
  unfold plainReg at h
  unfold State.writeBlock
  by_cases hhub : off < 0x100000
  · rw [if_pos hhub] at h ⊢
    exact s.writeHub_plain h
  rw [if_neg hhub] at h ⊢
  by_cases hsec : off < 0x200000
  · rw [if_pos hsec] at h ⊢
    exact s.writeSec_plain h
  rw [if_neg hsec] at h ⊢
  by_cases hpwr : off < 0x300000
  · rw [if_pos hpwr] at h ⊢
    exact s.writePwr_plain h
  rw [if_neg hpwr] at h ⊢
  by_cases hring : off < 0x400000
  · rw [if_pos hring] at h ⊢
    exact s.writeRing_plain h
  rw [if_neg hring] at h ⊢
  by_cases hport : off < 0x700000
  · rw [if_pos hport] at h ⊢
    exact s.writePort_plain h
  rw [if_neg hport] at h ⊢
  by_cases htime : off < 0x800000
  · rw [if_pos htime] at h ⊢
    exact s.writeTime_plain h
  rw [if_neg htime] at h ⊢
  by_cases hch : off < 0x1000000
  · rw [if_pos hch] at h ⊢
    exact s.writeCh_plain h
  rw [if_neg hch] at h ⊢
  by_cases hstore : off < 0x1400000
  · rw [if_pos hstore] at h ⊢
    exact s.writeStore_plain h
  rw [if_neg hstore] at h ⊢
  by_cases hmir : off < 0x1500000
  · rw [if_pos hmir] at h ⊢
    exact s.writeMir_plain h
  rw [if_neg hmir] at h ⊢
  by_cases hsbk : off < 0x1600000
  · rw [if_pos hsbk] at h ⊢
    exact s.writeSbk_plain h
  rw [if_neg hsbk] at h ⊢
  exact s.writeGrp_plain h

end Plain

/-! ### Registers that act as the row of their own (log entry 56) -/

/-- Registers of a port's block that act as rows: PORT_CFG, PORT_FC_CFG, PORT_CLASS_CFG, the counter clear. -/
theorem State.writeBlock_portRows (s : State) (p : Port) (v : Nat) :
    s.writeBlock (0x400000 + 0x20000 * p) v = (if bitOf v 0 then s.portEnable p (bits v 1 2) else s.portDisable p (bits v 1 2)) ∧
      s.writeBlock (0x400010 + 0x20000 * p) v = s.fcCfgWrite p v ∧ s.writeBlock (0x400100 + 0x20000 * p) v = s.classCfgWrite p v ∧
      s.writeBlock (0x400038 + 0x20000 * p) v = onBit0 v (fun s => s.portCtrClear p) s := by
  have place {o : Nat} (ho : o < 0x20000) :
      (0x400000 + o + 0x20000 * p.val - 0x400000) / 0x20000 = p ∧ (0x400000 + o + 0x20000 * p.val - 0x400000) % 0x20000 = o := by omega
  refine ⟨?_, ?_, ?_, ?_⟩ <;> rw [State.writeBlock_port s (by omega) (by omega)] <;> unfold State.writePort
  · simp only [place (o := 0) (by omega), if_true]
  · simp only [place (o := 0x10) (by omega)]
    rfl
  · simp only [place (o := 0x100) (by omega)]
    rfl
  · simp only [place (o := 0x38) (by omega)]
    rfl

/-- Single registers whose whole value goes to an operation. -/
theorem State.writeBlock_single (s : State) (v : Nat) :
    s.writeBlock 0x700004 v = s.srcCfgWrite v ∧ s.writeBlock 0x700020 v = s.rateWrite v ∧ s.writeBlock 0x200054 v = s.phaseWrite v ∧
      s.writeBlock 0x200008 v = s.limitWrite v ∧
      s.writeBlock 0x1000000 v = (if bitOf v 0 then s.storeEnable (bitOf v 1) else s.storeOff (bitOf v 1)) ∧
      s.writeBlock 0x1000008 v = s.regionWrite v ∧ s.writeBlock 0x1500010 v = s.policyWrite v ∧ s.writeBlock 0x1400018 v = s.mirPortCfg v ∧
      s.writeBlock 0x1400060 v = s.oobCfg v := by
  simp [State.writeBlock, State.writeTime, State.writePwr, State.writeStore, State.writeSbk, State.writeMir, TIME_RATE_rate]

/-- The counter clears, and the bits of MIR_CTRL and HUB_RESET_CTRL, as single writes set them. -/
theorem State.writeBlock_acts (s : State) :
    s.writeBlock 0x640 1 = s.rasCtrClear ∧ s.writeBlock 0x200020 1 = s.pwrCtrClear ∧ s.writeBlock 0x300008 1 = s.ringCtrClear ∧
      s.writeBlock 0x100003C 1 = s.storeCtrClear ∧ s.writeBlock 0x1400014 1 = s.mirCtrClear ∧ s.writeBlock 0x160000C 1 = s.grpCtrClear ∧
      s.writeBlock 0x1400004 1 = s.mirJoin ∧ s.writeBlock 0x1400004 2 = s.mirLeave ∧ s.writeBlock 0x630 0xC301 = s.warmReset (.ctrl 0xC3) := by
  simp [State.writeBlock, State.writeHub, State.writePwr, State.writeRing, State.writeStore, State.writeMir, State.writeGrp, onBit0,
    State.resetCtrl, bitOf, bits]

/-- HUB_RESET_CTRL with port_rst and a port. -/
theorem State.writeBlock_portReset (s : State) (p : Port) : s.writeBlock 0x630 (2 ^ 16 + 2 ^ 17 * p) = s.portReset p := by
  have hp := p.isLt
  generalize hv : 2 ^ 16 + 2 ^ 17 * p.val = v
  have h0 : bitOf v 0 = false := by simp [bitOf]; omega
  have h16 : bitOf v 16 = true := by simp [bitOf]; omega
  have h17 : bits v 17 5 = p := by simp [bits]; omega
  have h22 : bitOf v 22 = false := by simp [bitOf]; omega
  simp [State.writeBlock, State.writeHub, State.resetCtrl, h0, h16, h17, h22, hp]

section Rows

variable {s : State} {v : Nat} (hl : s.live = true)
include hl

/-- A write of a register of a running device acts as a row whose effect is what the register's block does with the value. -/
theorem exec_registerWrite_row {off width : Nat} {o : Host.Outcome State Fault Refusal} (hr : s.flag HUB_STATUS_ready = true)
    (hw : regWidth off = some width) (hoff : 0x8400 ≤ off ∨ inMsix off = false) (hv : v < 2 ^ width) (ho : o = .next (s.writeBlock off v)) :
    exec (.registerWrite off width v) s = o := by
  rw [exec_registerWrite_open hl hoff hw (.inl hr) hv, ho]

theorem State.does_whenReady (f : State → State) (hr : s.flag HUB_STATUS_ready = true) : s.does (fun s => s.whenReady f) = .next (f s) := by
  rw [State.does_live _ hl, State.whenReady_ready f hr]

/-- RING_SQ_BASE is not taken while its ring is enabled (R362). -/
theorem exec_registerWrite_sqBase (hv : v < 2 ^ 64) (i : Ring) (hen : s.flag (RING_SQ_CFG_en i) = true) :
    exec (.registerWrite (0x310000 + 0x20 * i) 64 v) s = .next s := by
  have ho : openEarly (0x310000 + 0x20 * i) = true := by
    simp [openEarly]
    omega
  have hi : (0x310000 + 0x20 * i.val - 0x310000) / 0x20 = i := by omega
  rw [exec_registerWrite_open hl (.inl (by omega)) (regWidth_sq i).1 (.inr ho) hv, State.writeBlock_ring _ (by omega) (by omega), State.writeRing,
    if_neg (by omega), if_pos (by omega), hi, if_neg (by omega), if_pos hen]

/-- RING_SQ_CFG and RING_CQ_CFG enable and disable their ring (R362). -/
theorem exec_registerWrite_ringCfg (hv : v < 2 ^ 32) (i : Ring) :
    exec (.registerWrite (0x310008 + 0x20 * i) 32 v) s = (if bitOf v 0 then exec (.sqEnable i v) s else exec (.sqDisable i v) s) ∧
      exec (.registerWrite (0x320008 + 0x20 * i) 32 v) s = (if bitOf v 0 then exec (.cqEnable i v) s else exec (.cqDisable i v) s) := by
  have early {o : Nat} (h : 0x300000 ≤ o) (h' : o < 0x400000) : openEarly o = true := by simp [openEarly, h, h']
  constructor
  · have hi : (0x310008 + 0x20 * i.val - 0x310000) / 0x20 = i := by omega
    rw [exec_registerWrite_open hl (.inl (by omega)) (regWidth_sq i).2 (.inr (early (by omega) (by omega))) hv,
      State.writeBlock_ring _ (by omega) (by omega), State.writeRing, if_neg (by omega), if_pos (by omega), hi, if_pos (by omega)]
    split
    · exact (State.does_live (fun s => s.sqEnable i v) hl).symm
    · exact (State.does_live (fun s => s.sqDisable i v) hl).symm
  · have hi : (0x320008 + 0x20 * i.val - 0x320000) / 0x20 = i := by omega
    rw [exec_registerWrite_open hl (.inl (by omega)) (regWidth_cqCfg i) (.inr (early (by omega) (by omega))) hv,
      State.writeBlock_ring _ (by omega) (by omega), State.writeRing, if_neg (by omega), if_neg (by omega), if_pos (by omega), hi, if_pos (by omega)]
    split
    · exact (State.does_live (fun s => s.cqEnable i v) hl).symm
    · exact (State.does_live (fun s => s.cqDisable i v) hl).symm

theorem exec_registerWrite_port (hr : s.flag HUB_STATUS_ready = true) (hv : v < 2 ^ 32) (p : Port) :
    exec (.registerWrite (0x400000 + 0x20000 * p) 32 v) s =
        (if bitOf v 0 then exec (.portEnable p (BitVec.ofNat 2 (v / 2)).toFin) s else exec (.portDisable p (BitVec.ofNat 2 (v / 2)).toFin) s) ∧
      exec (.registerWrite (0x400010 + 0x20000 * p) 32 v) s = exec (.portFcCfgWrite p v) s ∧
      exec (.registerWrite (0x400100 + 0x20000 * p) 32 v) s = exec (.portClassCfgWrite p v) s := by
  obtain ⟨hcfg, hfc, hcls, -⟩ := State.writeBlock_portRows s p v
  obtain ⟨wcfg, wfc, -, wcls⟩ := regWidth_port p
  refine ⟨exec_registerWrite_row hl hr wcfg (.inl (by omega)) hv ?_, exec_registerWrite_row hl hr wfc (.inl (by omega)) hv ?_,
    exec_registerWrite_row hl hr wcls (.inl (by omega)) hv ?_⟩
  · rw [hcfg]
    split
    · exact State.does_live (fun s => s.portEnable p (bits v 1 2)) hl
    · exact State.does_live (fun s => s.portDisable p (bits v 1 2)) hl
  · exact hfc ▸ State.does_live (fun s => s.fcCfgWrite p v) hl
  · exact hcls ▸ State.does_live (fun s => s.classCfgWrite p v) hl

theorem exec_registerWrite_ch (hr : s.flag HUB_STATUS_ready = true) (hv : v < 2 ^ 32) (ch : Ch) :
    exec (.registerWrite (0x800000 + 0x100000 * ch) 32 v) s = exec (.chCoreCfgWrite ch v) s := by
  have hch : (0x800000 + 0x100000 * ch.val - 0x800000) / 0x100000 = ch := by omega
  refine exec_registerWrite_row hl hr (regWidth_ch ch) (.inl (by omega)) hv ?_
  rw [State.writeBlock_ch s (by omega) (by omega), State.writeCh, hch, if_pos (by omega)]
  exact State.does_whenReady hl (fun s => s.coreCfgWrite ch v) hr

theorem exec_registerWrite_seed (hr : s.flag HUB_STATUS_ready = true) (hv : v < 2 ^ 64) (n : Fin 16) :
    exec (.registerWrite (0x1500100 + 8 * n) 64 v) s = exec (.seedWrite n v) s := by
  have hn : (0x1500100 + 8 * n.val - 0x1500000 - 0x100) / 8 = n := by omega
  refine exec_registerWrite_row hl hr (regWidth_seed n) (.inl (by omega)) hv ?_
  rw [State.writeBlock_sbk s (by omega) (by omega)]
  simp only [State.writeSbk]
  rw [if_neg (by omega), if_neg (by omega), if_pos (by omega), hn]
  exact State.does_whenReady hl (fun s => s.seedWrite n v) hr

/-- Single registers whose row takes the whole value. -/
theorem exec_registerWrite_single (hr : s.flag HUB_STATUS_ready = true) (hv : v < 2 ^ 32) :
    exec (.registerWrite 0x700004 32 v) s = exec (.timeSrcCfgWrite v) s ∧
      exec (.registerWrite 0x700020 32 v) s = exec (.timeRateWrite v) s ∧
      exec (.registerWrite 0x200054 32 v) s = exec (.pwrPhaseWrite v) s ∧
      exec (.registerWrite 0x1000000 32 v) s = (if bitOf v 0 then exec (.storeEnable (bitOf v 1)) s else exec (.storeDisable (bitOf v 1)) s) ∧
      exec (.registerWrite 0x1000008 32 v) s = exec (.storeRegionCfgWrite v) s ∧
      exec (.registerWrite 0x1500010 32 v) s = exec (.sbkPolicyWrite v) s ∧
      exec (.registerWrite 0x1400018 32 v) s = exec (.mirPortCfgWrite v) s ∧
      exec (.registerWrite 0x1400060 32 v) s = exec (.mirOobCfgWrite v) s := by
  obtain ⟨hsrc, hrate, hphase, -, hstore, hregion, hpolicy, hmir, hoob⟩ := State.writeBlock_single s v
  have row {off : Nat} {o : Host.Outcome State Fault Refusal} (hw : regWidth off = some 32) (hoff : 0x8400 ≤ off) :=
    exec_registerWrite_row (o := o) hl hr hw (.inl hoff) hv
  refine ⟨row (by decide +kernel) (by decide) ?_, row (by decide +kernel) (by decide) ?_, row (by decide +kernel) (by decide) ?_,
    row (by decide +kernel) (by decide) ?_, row (by decide +kernel) (by decide) ?_, row (by decide +kernel) (by decide) ?_,
    row (by decide +kernel) (by decide) ?_, row (by decide +kernel) (by decide) ?_⟩
  · exact hsrc ▸ State.does_live (fun s => s.srcCfgWrite v) hl
  · exact hrate ▸ State.does_live (fun s => s.rateWrite v) hl
  · exact hphase ▸ State.does_whenReady hl (fun s => s.phaseWrite v) hr
  · rw [hstore]
    split
    · exact State.does_whenReady hl (fun s => s.storeEnable (bitOf v 1)) hr
    · exact State.does_whenReady hl (fun s => s.storeOff (bitOf v 1)) hr
  · exact hregion ▸ State.does_live (fun s => s.regionWrite v) hl
  · exact hpolicy ▸ State.does_whenReady hl (fun s => s.policyWrite v) hr
  · exact hmir ▸ State.does_whenReady hl (fun s => s.mirPortCfg v) hr
  · exact hoob ▸ State.does_whenReady hl (fun s => s.oobCfg v) hr

theorem exec_registerWrite_limit (hr : s.flag HUB_STATUS_ready = true) (hv : v < 2 ^ 64) :
    exec (.registerWrite 0x200008 64 v) s = exec (.pwrLimitWrite v) s := by
  obtain ⟨-, -, -, hlimit, -⟩ := State.writeBlock_single s v
  refine exec_registerWrite_row hl hr (by decide +kernel) (.inl (by decide)) hv ?_
  exact hlimit ▸ State.does_whenReady hl (fun s => s.limitWrite v) hr

/-- Writes of the bits that act: the counter clears, the mirror's control, HUB_RESET_CTRL. -/
theorem exec_registerWrite_act (hr : s.flag HUB_STATUS_ready = true) :
    exec (.registerWrite 0x640 32 1) s = exec .rasCounterClear s ∧ exec (.registerWrite 0x200020 32 1) s = exec .pwrCounterClear s ∧
      exec (.registerWrite 0x300008 32 1) s = exec .ringCounterClear s ∧ exec (.registerWrite 0x100003C 32 1) s = exec .storeCounterClear s ∧
      exec (.registerWrite 0x1400014 32 1) s = exec .mirCounterClear s ∧ exec (.registerWrite 0x160000C 32 1) s = exec .grpCounterClear s ∧
      exec (.registerWrite 0x1400004 32 1) s = exec .mirJoin s ∧ exec (.registerWrite 0x1400004 32 2) s = exec .mirLeave s ∧
      exec (.registerWrite 0x630 32 0xC301) s = exec (.warmReset (.ctrl 0xC3)) s := by
  have row {off v : Nat} {o : Host.Outcome State Fault Refusal} (hw : regWidth off = some 32) (hoff : inMsix off = false) (hv : v < 2 ^ 32) :=
    exec_registerWrite_row (o := o) hl hr hw (.inr hoff) hv
  obtain ⟨hras, hpwr, hring, hstore, hmir, hgrp, hjoin, hleave, hwarm⟩ := State.writeBlock_acts s
  refine ⟨row (by decide +kernel) rfl (by decide) ?_, row (by decide +kernel) rfl (by decide) ?_, row (by decide +kernel) rfl (by decide) ?_,
    row (by decide +kernel) rfl (by decide) ?_, row (by decide +kernel) rfl (by decide) ?_, row (by decide +kernel) rfl (by decide) ?_,
    row (by decide +kernel) rfl (by decide) ?_, row (by decide +kernel) rfl (by decide) ?_, row (by decide +kernel) rfl (by decide) ?_⟩
  · exact hras ▸ State.does_live State.rasCtrClear hl
  · exact hpwr ▸ State.does_whenReady hl State.pwrCtrClear hr
  · exact hring ▸ State.does_live State.ringCtrClear hl
  · exact hstore ▸ State.does_whenReady hl State.storeCtrClear hr
  · exact hmir ▸ State.does_whenReady hl State.mirCtrClear hr
  · exact hgrp ▸ State.does_whenReady hl State.grpCtrClear hr
  · exact hjoin ▸ State.does_whenReady hl State.mirJoin hr
  · exact hleave ▸ State.does_whenReady hl State.mirLeave hr
  · exact hwarm ▸ rfl

/-- PORT_CTR_CTRL clears the port's counters; HUB_RESET_CTRL resets the port it names. -/
theorem exec_registerWrite_portAct (hr : s.flag HUB_STATUS_ready = true) (p : Port) :
    exec (.registerWrite (0x400038 + 0x20000 * p) 32 1) s = exec (.portCounterClear p) s ∧
      exec (.registerWrite 0x630 32 (2 ^ 16 + 2 ^ 17 * p)) s = exec (.portReset p) s := by
  obtain ⟨-, -, -, hclear⟩ := State.writeBlock_portRows s p 1
  obtain ⟨-, -, wclear, -⟩ := regWidth_port p
  refine ⟨exec_registerWrite_row hl hr wclear (.inl (by omega)) (by decide) ?_,
    exec_registerWrite_row hl hr (by decide +kernel) (.inr rfl) (by omega) ?_⟩
  · exact hclear ▸ State.does_whenReady hl (fun s => s.portCtrClear p) hr
  · exact State.writeBlock_portReset s p ▸ State.does_live (fun s => s.portReset p) hl

/-- MIR_CFG is not taken outside SOLO (R402). -/
theorem exec_registerWrite_mirCfg (hpod : s.pod ≠ podSolo) : exec (.registerWrite 0x1400000 32 v) s = .next s := by
  have hsolo : (s.pod == podSolo) = false := by simpa using hpod
  by_cases hr : s.flag HUB_STATUS_ready = true
  · rw [exec_registerWrite _ _ _ hl, State.hostWriteReg_open (by decide) (by decide +kernel) (.inl hr)]
    simp [State.writeBlock, State.writeMir, hsolo]
  · rw [exec_registerWrite _ _ _ hl, State.hostWriteReg_ignored (by decide) (.inr ⟨by simpa using hr, by decide⟩)]

/-- A pool's count is not taken while the store is enabled (R94). -/
theorem exec_registerWrite_poolCount (hr : s.flag HUB_STATUS_ready = true) (hen : s.flag STORE_CTRL_enable = true) (k : Pool) :
    exec (.registerWrite (0x1010000 + 0x40 * k) 32 v) s = .next s := by
  have hk := k.isLt
  rw [exec_registerWrite _ _ _ hl, State.hostWriteReg_open (inMsix_of_le (by omega)) (regWidth_pool k) (.inl hr),
    State.writeBlock_store s (by omega) (by omega), State.writeStore, if_neg (by omega), if_neg (by omega), if_neg (by omega), if_neg (by omega),
    if_pos (by omega), if_pos hen]

end Rows
/-! ### The MSI-X table (R378; the entry's layout is log entry 61) -/

/-- An access `r` bytes into entry `k` of the table reaches the table. -/
theorem exec_registerWrite_msix {s : State} (hl : s.live = true) (k : Fin 64) {r : Nat} (hr : r < 16) (width v : Nat) :
    exec (.registerWrite (0x8000 + 16 * k + r) width v) s = .next (s.msixWrite (0x8000 + 16 * k + r) width v) := by
  have hin : inMsix (0x8000 + 16 * k + r) = true := by simp [inMsix]; omega
  rw [exec_registerWrite _ _ _ hl, State.hostWriteReg, if_pos hin]

/-- Masking a vector sends nothing. -/
theorem State.msixMask_set (s : State) (k : Nat) {v : Nat} (h : bitOf v 0 = true) : s.msixMask k v = s.setReg (HUB_MSIX_CTRL_mask k) 1 := by
  have hb : bits v 0 1 = 1 := by simpa [bits, bitOf] using h
  simp [State.msixMask, h, hb]

/-- What an access does to entry `k` by its width and place: the address whole or a half of it, the data, the mask. -/
theorem State.msixWrite_entry (s : State) (k v : Nat) :
    s.msixWrite (0x8000 + 16 * k + 0) 64 v = s.setReg (HUB_MSIX_ADDR_addr k) v ∧
      s.msixWrite (0x8000 + 16 * k + 0) 32 v =
        s.setReg (HUB_MSIX_ADDR_addr k) (s.reg (HUB_MSIX_ADDR_addr k) / 2 ^ 32 * 2 ^ 32 + v % 2 ^ 32) ∧
      s.msixWrite (0x8000 + 16 * k + 4) 32 v =
        s.setReg (HUB_MSIX_ADDR_addr k) (s.reg (HUB_MSIX_ADDR_addr k) % 2 ^ 32 + v % 2 ^ 32 * 2 ^ 32) ∧
      s.msixWrite (0x8000 + 16 * k + 8) 32 v = s.setReg (HUB_MSIX_DATA_data k) v ∧ s.msixWrite (0x8000 + 16 * k + 12) 32 v = s.msixMask k v := by
  have place {r : Nat} (hr : r < 16) : (0x8000 + 16 * k + r - 0x8000) / 16 = k ∧ (0x8000 + 16 * k + r) % 16 = r := by omega
  refine ⟨?_, ?_, ?_, ?_, ?_⟩
  · simp only [State.msixWrite, place (r := 0) (by omega)]
  · simp only [State.msixWrite, place (r := 0) (by omega)]
  · simp only [State.msixWrite, place (r := 4) (by omega)]
  · simp only [State.msixWrite, place (r := 8) (by omega)]
  · simp only [State.msixWrite, place (r := 12) (by omega)]

theorem exec_registerWrite_msixEntry {s : State} (hl : s.live = true) (k : Fin 64) (v : Nat) :
    exec (.registerWrite (0x8000 + 16 * k) 64 v) s = .next (s.setReg (HUB_MSIX_ADDR_addr k) v) ∧
      Yields (.registerWrite (0x8000 + 16 * k) 32 v) s (fun t => t = { s with regs := t.regs } ∧
        t.reg (HUB_MSIX_ADDR_addr k) = (s.reg (HUB_MSIX_ADDR_addr k) / 2 ^ 32 * 2 ^ 32 + v % 2 ^ 32) % 2 ^ 64) ∧
      Yields (.registerWrite (0x8000 + 16 * k + 4) 32 v) s (fun t => t = { s with regs := t.regs } ∧
        t.reg (HUB_MSIX_ADDR_addr k) = (s.reg (HUB_MSIX_ADDR_addr k) % 2 ^ 32 + v % 2 ^ 32 * 2 ^ 32) % 2 ^ 64) ∧
      exec (.registerWrite (0x8000 + 16 * k + 8) 32 v) s = .next (s.setReg (HUB_MSIX_DATA_data k) v) ∧
      (bitOf v 0 = true → exec (.registerWrite (0x8000 + 16 * k + 12) 32 v) s = .next (s.setReg (HUB_MSIX_CTRL_mask k) 1)) := by
  obtain ⟨haddr, hlow, hhigh, hdata, hmask⟩ := s.msixWrite_entry k v
  have entry {r : Nat} (hr : r < 16) (width : Nat) := exec_registerWrite_msix hl k hr width v
  refine ⟨haddr ▸ entry (r := 0) (by omega) 64, ⟨_, hlow ▸ entry (r := 0) (by omega) 32, rfl, State.reg_setReg_self _ _ _⟩,
    ⟨_, hhigh ▸ entry (by omega) 32, rfl, State.reg_setReg_self _ _ _⟩, hdata ▸ entry (by omega) 32, fun hset => ?_⟩
  rw [entry (by omega) 32, hmask, State.msixMask_set s k hset]

/-! ### The statement -/

/-- What the width, the block's gate and the plainness of a register decide of a write. -/
theorem exec_registerWrite_register {s : State} {off width v : Nat} {d : RegDef} (hl : s.live = true) (hd : regAt regTable off = some d) :
    (d.width ≠ width → inMsix off = false → exec (.registerWrite off width v) s = .next s) ∧
      (s.flag HUB_STATUS_ready = false → openEarly off = false → exec (.registerWrite off width v) s = .next s) ∧
      ((s.flag HUB_STATUS_ready = true ∨ openEarly off = true) → d.width = width → plainReg off = true → exec (.registerWrite off width v) s =
        .next { s with regs := writeFields (fun f => s.latchNow.bits.get 0 f.key) s.regs off (v % 2 ^ width) d }) := by
  have hw : regWidth off = some d.width := by simp [regWidth, hd]
  refine ⟨fun hne hm => ?_, fun hr ho => ?_, fun ho hwidth hplain => ?_⟩
  · rw [exec_registerWrite _ _ _ hl, State.hostWriteReg_ignored hm (.inl (by simpa [hw] using hne))]
  · have := openEarly_ge ho
    rw [exec_registerWrite _ _ _ hl, State.hostWriteReg_ignored (inMsix_of_le (by omega)) (.inr ⟨hr, ho⟩)]
  · rw [exec_registerWrite _ _ _ hl, State.hostWriteReg_open (inMsix_of_plainReg hplain) (hwidth ▸ hw) ho, State.writeBlock_plain _ hplain,
      State.putReg_of_regAt hd]

/-- Settles O52. A write outside the MSI-X table is ignored or reaches its block (`State.hostWriteReg_ignored`, `State.hostWriteReg_open`); what the
block does with the value is a plain write (`State.writeBlock_plain`) or the operation of a row. -/
theorem registerWritesReachTheirBlock : Obligations.RegisterWritesReachTheirBlock := by
  intro s off width v hl
  refine ⟨fun hnone hm => ?_, fun d hd => exec_registerWrite_register hl hd, ?_, fun hv i => exec_registerWrite_sqBase hl hv i,
    fun hv i => exec_registerWrite_ringCfg hl hv i, fun hr hv => ⟨exec_registerWrite_port hl hr hv, exec_registerWrite_ch hl hr hv,
      exec_registerWrite_single hl hr hv⟩, fun hr hv => ⟨exec_registerWrite_limit hl hr hv, exec_registerWrite_seed hl hr hv⟩, fun hr => ?_,
    fun _ hpod => exec_registerWrite_mirCfg hl hpod, fun hr hen k => exec_registerWrite_poolCount hl hr hen k⟩
  · rw [exec_registerWrite _ _ _ hl, State.hostWriteReg_ignored hm (.inl (by simp [regWidth, hnone]))]
  · rintro k o rfl -
    exact exec_registerWrite_msixEntry hl k v
  · obtain ⟨hras, hpwr, hring, hstore, hmir, hgrp, hjoin, hleave, hwarm⟩ := exec_registerWrite_act hl hr
    exact ⟨hras, hpwr, hring, hstore, hmir, hgrp, hjoin, hleave, hwarm, exec_registerWrite_portAct hl hr⟩

end Sys2Proof.Machine
end

section
/-! PROOFS. Rings and doorbells (R363, R364, R381): the disable that prevails over a doorbell takes the error event back only where that doorbell
has set it. -/

namespace Sys2Proof.Machine

/-- Clocks running, SQ 0 enabled and empty, and a ring_err_ev field, one bit wide, that holds 2. Every write of the model cuts a value to its
field's width, so no command leaves such a value; the statement's states are not confined to those that commands leave. -/
def ringErrWide : State :=
  { regs := [(RING_INTR_STATUS_ring_err_ev.key, 2), ((RING_SQ_CFG_en 0).key, 1)], clk := { cyc := 1 } }

/-- SQ 0's first tail doorbell of the cycle, within the ring: one descriptor becomes visible. -/
def ringErrWideRung : State := ringErrWide.pageWrite 0 0 1

theorem exec_sqTailDoorbell_ringErrWide : exec (.sqTailDoorbell 0 1) ringErrWide = .next ringErrWideRung :=
  State.does_live (fun s => s.pageWrite 0 0 1) rfl

theorem exec_sqDisable_ringErrWideRung : exec (.sqDisable 0 0) ringErrWideRung = .next (ringErrWideRung.sqDisable 0 0) :=
  State.does_live (fun s => s.sqDisable 0 0) (by decide +kernel)

/-- The doorbell raised no error, so the disable has no error event to take back: the field keeps what it held. -/
theorem ringErr_after_disable : (ringErrWideRung.sqDisable 0 0).reg RING_INTR_STATUS_ring_err_ev = 2 := by decide +kernel

/-- Refutes O34: after a doorbell within the ring and the disable of its cycle the statement wants ring_err_ev as it was before, cut to one bit, but
such a doorbell does not touch the field, and where it held 2 it still holds 2. -/
theorem not_ringsAndDoorbells : ¬ Obligations.RingsAndDoorbells := by
  intro h
  obtain ⟨-, -, -, -, hbell, -⟩ := h ringErrWide 0 1 rfl
  obtain ⟨-, hdisable, -⟩ := hbell (by decide +kernel) (by decide +kernel)
  obtain ⟨t, ht, -, herr, -⟩ := hdisable ringErrWideRung 0 (by decide +kernel) exec_sqTailDoorbell_ringErrWide
  rw [exec_sqDisable_ringErrWideRung] at ht
  cases ht
  rw [ringErr_after_disable] at herr
  exact absurd herr (by decide +kernel)

end Sys2Proof.Machine
end

section
/-! PROOFS. What the resets of a function, a port and a channel leave (R441). A context that ends and a logical port that goes down reach far: buffers
are released, back-pressure and credit are judged anew, frames leave, records are posted, the time source may be lost. `State.Keeps` says what all of
that leaves alone, and is proved once for each operation on the way. -/

namespace Sys2Proof.Machine

/-! ### What stays -/

/-- The field is none of CH_SPARE_STATUS. -/
def Fld.apart (f : Fld) : Prop := ∀ n g, n < 8 → g < 16 → (CH_SPARE_STATUS_group n g).key ≠ f.key

/-- From `s` to `t` the fuses, the security block, device time, the groups and the spare status of every channel stay. -/
structure State.KeepsHub (s t : State) : Prop where
  hw : t.hw = s.hw
  sec : t.sec = s.sec
  acc : t.clk.acc = s.clk.acc
  groups : t.groups = s.groups
  spare : ∀ n g, n < 8 → g < 16 → t.reg (CH_SPARE_STATUS_group n g) = s.reg (CH_SPARE_STATUS_group n g)

/-- Beside these the contexts stay, the links of every port outside `P`, and no link without frames takes one to send. -/
structure State.Keeps (P : Nat → Prop) (s t : State) : Prop extends State.KeepsHub s t where
  ctxs : t.ctxs = s.ctxs
  links : ∀ src, ¬ P (src / 8) → t.link src = s.link src
  quiet : ∀ src, (s.link src).eg.q = [] → (s.link src).eg.tx = none → (t.link src).eg.q = [] ∧ (t.link src).eg.tx = none

theorem State.KeepsHub.refl (s : State) : s.KeepsHub s := ⟨rfl, rfl, rfl, rfl, fun _ _ _ _ => rfl⟩

theorem State.KeepsHub.trans {s t u : State} (h : s.KeepsHub t) (h' : t.KeepsHub u) : s.KeepsHub u where
  hw := h'.hw.trans h.hw
  sec := h'.sec.trans h.sec
  acc := h'.acc.trans h.acc
  groups := h'.groups.trans h.groups
  spare n g hn hg := (h'.spare n g hn hg).trans (h.spare n g hn hg)

section Keeps

variable {P : Nat → Prop} {s t u : State}

theorem State.KeepsHub.now (h : s.KeepsHub t) : t.now = s.now := by simp only [State.now, h.acc]

theorem State.Keeps.trans (h : s.Keeps P t) (h' : t.Keeps P u) : s.Keeps P u where
  toKeepsHub := h.toKeepsHub.trans h'.toKeepsHub
  ctxs := h'.ctxs.trans h.ctxs
  links src hp := (h'.links src hp).trans (h.links src hp)
  quiet src hq ht := h'.quiet src (h.quiet src hq ht).1 (h.quiet src hq ht).2

/-- An update of other parts of the state keeps all this. -/
theorem State.Keeps.of_rest (hhw : t.hw = s.hw := by rfl) (hsec : t.sec = s.sec := by rfl) (hacc : t.clk.acc = s.clk.acc := by rfl)
    (hgroups : t.groups = s.groups := by rfl) (hregs : t.regs = s.regs := by rfl) (hctxs : t.ctxs = s.ctxs := by rfl)
    (hlinks : t.links = s.links := by rfl) : s.Keeps P t where
  hw := hhw
  sec := hsec
  acc := hacc
  groups := hgroups
  spare _ _ _ _ := by simp only [State.reg, hregs]
  ctxs := hctxs
  links _ _ := by simp only [State.link, hlinks]
  quiet _ hq ht := by simpa only [State.link, hlinks] using ⟨hq, ht⟩

theorem State.Keeps.refl (s : State) : s.Keeps P s := .of_rest

theorem State.keeps_clk (s : State) (c : Clk) (h : c.acc = s.clk.acc) : s.Keeps P { s with clk := c } := .of_rest (hacc := h)

theorem State.Keeps.foldl {β : Type} {f : State → β → State} (l : List β) (h : ∀ (s : State), ∀ x ∈ l, s.Keeps P (f s x)) :
    s.Keeps P (l.foldl f s) :=
  List.foldlRecOn l f (.refl s) fun t ht x hx => ht.trans (h t x hx)

theorem State.Keeps.ite {c : Prop} [Decidable c] {t' : State} (h : c → s.Keeps P t) (h' : ¬ c → s.Keeps P t') : s.Keeps P (if c then t else t') := by
  split
  · exact h ‹_›
  · exact h' ‹_›

/-! ### Registers -/

theorem Fld.apart_of_off {f : Fld} (hoff : f.off < 0x800000 ∨ 0x1000000 ≤ f.off) (hlo : f.lo < 64) : f.apart := by
  intro n g hn hg
  simp only [Fld.key, CH_SPARE_STATUS_group]
  omega

theorem Fld.apart_of_lo {f : Fld} (hlo : 32 ≤ f.lo) (hlo' : f.lo < 64) : f.apart := by
  intro n g hn hg
  simp only [Fld.key, CH_SPARE_STATUS_group]
  omega

variable {f : Fld}

theorem State.keeps_setReg (s : State) (hf : f.apart) (v : Nat) : s.Keeps P (s.setReg f v) where
  hw := rfl
  sec := rfl
  acc := rfl
  groups := rfl
  spare n g hn hg := State.reg_setReg_ne _ _ _ _ (hf n g hn hg)
  ctxs := rfl
  links _ _ := rfl
  quiet _ hq ht := ⟨hq, ht⟩

theorem State.keeps_setRegInt (s : State) (hf : f.apart) (v : Int) : s.Keeps P (s.setRegInt f v) := s.keeps_setReg hf _

theorem State.keeps_count (s : State) (hf : f.apart) (n : Nat := 1) : s.Keeps P (s.count f n) :=
  (s.keeps_setReg hf _).trans .of_rest

theorem State.keeps_setW1c (s : State) (hf : f.apart) (m : Nat) : s.Keeps P (s.setW1c f m) :=
  (s.keeps_setReg hf _).trans .of_rest

theorem State.keeps_signal (s : State) (v : Nat) : s.Keeps P (s.signal v) := by
  rcases s.signal_cases v with h | h <;> rw [h]
  · exact s.keeps_setReg (Fld.apart_of_off (by decide) (by decide)) _
  · exact .of_rest

theorem State.keeps_raise (s : State) {e : Event} (he : e.st.apart) : s.Keeps P (s.raise e) := by
  rcases s.raise_cases e with h | ⟨v, h⟩ <;> rw [h]
  · exact s.keeps_setW1c he _
  · exact (s.keeps_setW1c he _).trans (State.keeps_signal _ v)

/-! ### Links -/

theorem State.keeps_modLink (s : State) {src : Nat} (hp : P (src / 8)) (f : Link → Link)
    (hf : ∀ l : Link, l.eg.q = [] → l.eg.tx = none → (f l).eg.q = [] ∧ (f l).eg.tx = none) : s.Keeps P (s.modLink src f) where
  hw := rfl
  sec := rfl
  acc := rfl
  groups := rfl
  spare _ _ _ _ := rfl
  ctxs := rfl
  links i hi := s.link_modLink_ne src i f (fun h => hi (h ▸ hp))
  quiet i hq ht := by
    by_cases h : i = src
    · subst h
      rw [State.link_modLink_self]
      exact hf _ hq ht
    · rw [s.link_modLink_ne src i f h]
      exact ⟨hq, ht⟩

/-- A change of what a link holds beside its queues and the copy under way. -/
theorem State.keeps_modLink_rest (s : State) {src : Nat} (hp : P (src / 8)) (f : Link → Link) (hq : ∀ l : Link, (f l).eg.q = l.eg.q := by intro; rfl)
    (ht : ∀ l : Link, (f l).eg.tx = l.eg.tx := by intro; rfl) : s.Keeps P (s.modLink src f) :=
  s.keeps_modLink hp f fun l h h' => ⟨(hq l).trans h, (ht l).trans h'⟩

/-! ### Frames that leave (R57, R64, R66) -/

theorem State.keeps_countL (s : State) {f : Nat → Nat → Fld} (hf : ∀ p l, p < 24 → l < 8 → (f p l).apart) (src : Nat) (n : Nat := 1) :
    s.Keeps P (s.countL f src n) :=
  .ite (fun h => s.keeps_count (hf _ _ (by omega) (by omega)) n) (fun _ => .refl s)

theorem State.keeps_countM (s : State) {f : Nat → Nat → Fld} {g : Nat → Fld} (hf : ∀ p l, p < 24 → l < 8 → (f p l).apart) (hg : ∀ m, (g m).apart)
    (src : Nat) (n : Nat := 1) : s.Keeps P (s.countM f g src n) :=
  .ite (fun _ => s.keeps_countL hf src n) (fun _ => s.keeps_count (hg _) n)

/-- Counters of logical ports and mirror ports lie outside the channels' blocks. -/
theorem portCounters_apart (p l : Nat) (hp : p < 24) (hl : l < 8) :
    (PORT_LCTR_tx_frames p l).apart ∧ (PORT_LCTR_tx_bytes p l).apart ∧ (PORT_LCTR_tx_pfc_frames p l).apart ∧
      (PORT_LCTR_credit_wait_ns p l).apart ∧ (PORT_LCTR_llr_lost_frames p l).apart := by
  refine ⟨?_, ?_, ?_, ?_, ?_⟩ <;> refine Fld.apart_of_off (.inl ?_) (Nat.zero_lt_succ _)
  · simp only [PORT_LCTR_tx_frames]; omega
  · simp only [PORT_LCTR_tx_bytes]; omega
  · simp only [PORT_LCTR_tx_pfc_frames]; omega
  · simp only [PORT_LCTR_credit_wait_ns]; omega
  · simp only [PORT_LCTR_llr_lost_frames]; omega

theorem mirCounters_apart (m : Nat) : (MIR_CTR_tx_frames m).apart ∧ (MIR_CTR_tx_bytes m).apart ∧ (MIR_CTR_llr_lost_frames m).apart := by
  refine ⟨?_, ?_, ?_⟩ <;> refine Fld.apart_of_off (.inr ?_) (Nat.zero_lt_succ _)
  · simp only [MIR_CTR_tx_frames]; omega
  · simp only [MIR_CTR_tx_bytes]; omega
  · simp only [MIR_CTR_llr_lost_frames]; omega

theorem State.keeps_putFrame (s : State) (src : Nat) (seq : Option Nat) (b : Bytes) (good : Bool) (stamp : FT64) :
    s.Keeps P (s.putFrame src seq b good stamp) := by
  have he : s.Keeps P (s.emit (.frame src (s.preamble src seq) b good stamp)) := .of_rest
  exact (he.trans (State.keeps_countM _ (fun p l hp hl => (portCounters_apart p l hp hl).1) (fun m => (mirCounters_apart m).1) src)).trans
    (State.keeps_countM _ (fun p l hp hl => (portCounters_apart p l hp hl).2.1) (fun m => (mirCounters_apart m).2.1) src _)

theorem State.keeps_sendNow (s : State) {src : Nat} (hp : P (src / 8)) (c : CtlTx) : s.Keeps P (s.sendNow src c) := by
  unfold State.sendNow
  split
  · exact s.keeps_count (Fld.apart_of_off (by decide) (by decide))
  extract_lets stamp b s1 s2
  have h1 : s.Keeps P s1 := .ite (fun _ => .of_rest) (fun _ => .refl s)
  have h2 : s1.Keeps P s2 := .ite
    (fun _ => ((s1.keeps_modLink_rest hp _).trans (State.keeps_putFrame _ src _ b true stamp)).trans (State.keeps_modLink_rest _ hp _))
    (fun _ => s1.keeps_putFrame src none b true stamp)
  refine (h1.trans h2).trans ?_
  split
  · exact .of_rest
  · exact s2.keeps_modLink_rest hp _
  · exact .refl s2

theorem State.keeps_flushCtl (s : State) {src : Nat} (hp : P (src / 8)) (n : Nat) : s.Keeps P (s.flushCtl src n) := by
  induction n generalizing s with
  | zero => exact .refl s
  | succ n ih =>
    unfold State.flushCtl
    split
    · exact .refl s
    · exact ((s.keeps_modLink_rest hp _).trans (State.keeps_sendNow _ hp _)).trans (ih _)

theorem State.keeps_sendCtl (s : State) {src : Nat} (hp : P (src / 8)) (c : CtlTx) : s.Keeps P (s.sendCtl src c) :=
  (s.keeps_modLink_rest hp _).trans (.ite (fun _ => .refl _) (fun _ => State.keeps_flushCtl _ hp _))

theorem State.keeps_sendPfc (s : State) {src : Nat} (hp : P (src / 8)) (cs : List (Nat × Nat)) : s.Keeps P (s.sendPfc src cs) :=
  .ite (fun _ => (s.keeps_sendCtl hp _).trans (State.keeps_countL _ (fun p l hp hl => (portCounters_apart p l hp hl).2.2.1) src))
    (fun _ => .refl s)

/-! ### Credit and back-pressure (R71, R111, R112) -/

theorem State.keeps_creditSync (s : State) {src : Nat} (hp : P (src / 8)) : s.Keeps P (s.creditSync src) := by
  unfold State.creditSync
  refine .ite (fun _ => ?_) (fun _ => .refl s)
  extract_lets l g
  refine .ite (fun _ => .refl s) (fun _ => ?_)
  have hset : s.Keeps P (s.setLink src { l with granted := g }) := s.keeps_modLink_rest hp (fun l => { l with granted := g })
  exact hset.trans (State.keeps_sendCtl _ hp _)

theorem State.keeps_creditPort (s : State) {p : Nat} (hp : P p) : s.Keeps P (s.creditPort p) :=
  .foldl _ fun s l hl => s.keeps_creditSync (by
    rw [show (8 * p + l) / 8 = p by have := List.mem_range.mp hl; omega]
    exact hp)

theorem State.keeps_creditClock (s : State) {src : Nat} (hp : P (src / 8)) : s.Keeps P (s.creditClock src) := by
  unfold State.creditClock
  refine .ite (fun _ => .refl s) (fun _ => ?_)
  extract_lets past waits s1
  have h1 : s.Keeps P s1 := .ite (fun _ => .refl s)
    (fun _ => s.keeps_countL (fun p l hp hl => (portCounters_apart p l hp hl).2.2.2.1) src past)
  exact h1.trans (s1.keeps_modLink_rest hp _)

/-- Back-pressure reaches every port, so any link may change. -/
theorem State.keeps_bpSync (s : State) : s.Keeps (fun _ => True) s.bpSync := by
  unfold State.bpSync
  extract_lets owners bp old new s1 st s2 on off s3
  have h1 : s.Keeps (fun _ => True) s1 := .foldl _ fun s o _ =>
    s.keeps_setReg (Fld.apart_of_off (.inr (by simp only [POOL_OWN_CTRL_bp]; omega)) (by simp [POOL_OWN_CTRL_bp])) _
  have h2 : s1.Keeps (fun _ => True) s2 := .of_rest
  have h3 : s2.Keeps (fun _ => True) s3 := .foldl _ fun s _ _ => s.keeps_sendPfc trivial _
  exact ((h1.trans h2).trans h3).trans (.foldl _ fun s _ _ => s.keeps_creditSync trivial)

theorem State.keeps_usageSync (s : State) (o : Nat) : s.Keeps (fun _ => True) (s.usageSync o) :=
  .ite (fun _ => s.keeps_bpSync.trans (State.keeps_creditPort _ trivial)) (fun _ => s.keeps_bpSync)

theorem State.keeps_setUsage (s : State) (o v : Nat) : s.Keeps P (s.setUsage o v) := by
  have h : s.Keeps P { s with store := { s.store with usage := s.store.usage.put 0 o v } } := .of_rest
  exact h.trans (State.keeps_setReg _ (Fld.apart_of_off (.inr (by simp only [POOL_OWN_PEAK_peak]; omega)) (Nat.zero_lt_succ _)) _)

/-- A buffer's release judges back-pressure anew (R105, R111). -/
theorem State.keeps_release (s : State) (unit home : Nat) : s.Keeps (fun _ => True) (s.release unit home) := by
  unfold State.release
  split
  · exact .refl s
  next b _ =>
    refine .ite (fun _ => .of_rest) (fun _ => ?_)
    extract_lets st s1 p s2
    refine .ite (fun _ => .of_rest) (fun _ => ?_)
    have h2 : s.Keeps (fun _ => True) s2 := .of_rest
    exact (h2.trans (s2.keeps_setUsage _ _)).trans (State.keeps_usageSync _ _)

theorem State.keeps_dropFrame (s : State) (id home : Nat) : s.Keeps (fun _ => True) (s.dropFrame id home) := by
  unfold State.dropFrame
  split
  · exact .refl s
  · exact (s.keeps_release _ _).trans .of_rest

/-! ### The time source (R34, R40, R41) -/

theorem State.keeps_recordNow (s : State) (kind src : Nat) (payload : Bytes) : s.Keeps P (s.recordNow kind src payload) := by
  unfold State.recordNow
  refine .ite (fun _ => ?_) (fun _ => .refl s)
  have ha : s.Keeps P (s.arrival src).2 := .of_rest
  refine ha.trans (.ite (fun _ => ?_) (fun _ => .of_rest))
  exact (State.keeps_count _ (f := SBK_CTR_records_lost) (Fld.apart_of_off (by decide) (by decide))).trans .of_rest

theorem State.keeps_setRate (s : State) (r : Int) : s.Keeps P (s.setRate r) :=
  .ite (fun _ => .refl s) (fun _ => (s.keeps_setRegInt (f := TIME_RATE_rate) (Fld.apart_of_off (by decide) (by decide)) _).trans
    (State.keeps_recordNow _ _ _ _))

theorem State.keeps_raiseTime (s : State) {f : Fld} (hoff : f.off < 0x800000 := by decide) (hlo : f.lo < 64 := by decide) :
    s.Keeps P (s.raise (evTime f)) := s.keeps_raise (Fld.apart_of_off (.inl hoff) hlo)

theorem State.keeps_enter (s : State) (new : Nat) : s.Keeps P (s.enter new) := by
  unfold State.enter
  extract_lets old s1 s2 c3 s3 c4 s4 s5
  refine .ite (fun _ => .refl s) (fun _ => ?_)
  have h1 : s.Keeps P s1 := .ite (fun _ => s.keeps_setReg (Fld.apart_of_off (by decide) (by decide)) _) (fun _ => .refl s)
  have h2 : s1.Keeps P s2 := (s1.keeps_setReg (Fld.apart_of_off (by decide) (by decide)) _).trans (State.keeps_recordNow _ _ _ _)
  have h3 : s2.Keeps P s3 := .of_rest
  refine ((h1.trans h2).trans h3).trans ?_
  refine .ite (fun _ => s3.keeps_raiseTime) (fun _ => .ite (fun _ => ?_) (fun _ => .ite (fun _ => ?_) (fun _ => .of_rest)))
  · exact (s3.keeps_clk { s3.clk with lockedAt := s3.now } rfl).trans (State.keeps_raiseTime _)
  · have h4 : s3.Keeps P s4 := s3.keeps_clk _ rfl
    have h5 : s4.Keeps P s5 := .ite (fun _ => s4.keeps_setRate _) (fun _ => .refl s4)
    exact (h4.trans h5).trans s5.keeps_raiseTime

theorem State.keeps_useSource (s : State) (k : Nat) : s.Keeps P (s.useSource k) := by
  unfold State.useSource
  extract_lets s1 s2
  have h1 : s.Keeps P s1 := s.keeps_setReg (Fld.apart_of_off (by decide) (by decide)) _
  have h2 : s1.Keeps P s2 := .ite
    (fun _ => .ite (fun _ => .refl s1) (fun _ => s1.keeps_setReg (Fld.apart_of_off (by decide) (by decide)) _)) (fun _ => .refl s1)
  exact (h1.trans h2).trans .of_rest

theorem State.keeps_sourceLost (s : State) : s.Keeps P s.sourceLost := by
  unfold State.sourceLost
  refine .ite (fun _ => .refl s) (fun _ => ?_)
  extract_lets c1 s1 st s2 s3 c3
  have h1 : s.Keeps P s1 := (s.keeps_clk { s.clk with lost := true } rfl).trans (State.keeps_raiseTime _)
  have h2 : s1.Keeps P s2 := .ite (fun _ => .ite (fun _ => s1.keeps_enter _) (fun _ => s1.keeps_enter _))
    (fun _ => .ite (fun _ => s1.keeps_enter _) (fun _ => .refl s1))
  have h3 : s2.Keeps P s3 := s2.keeps_useSource _
  exact (h1.trans h2).trans (.ite (fun _ => h3.trans (s3.keeps_clk _ rfl)) (fun _ => .refl s2))

theorem State.keeps_linkLoss (s : State) (src : Nat) : s.Keeps P (s.linkLoss src) := .ite (fun _ => s.keeps_sourceLost) (fun _ => .refl s)

/-! ### A logical port goes down (R54, R55) -/

theorem State.keeps_setStatusBit (s : State) {f : Fld} (hf : f.apart) (i : Nat) (b : Bool) : s.Keeps P (s.setStatusBit f i b) := s.keeps_setReg hf _

theorem portStatus_apart {p : Nat} (hp : p < 24) :
    (PORT_STATUS_link_up p).apart ∧ (PORT_STATUS_llr_active p).apart ∧ (PORT_INTR_STATUS_link_ev p).apart := by
  refine ⟨Fld.apart_of_off (.inl ?_) (Nat.zero_lt_succ _), Fld.apart_of_off (.inl ?_) (by simp [PORT_STATUS_llr_active]),
    Fld.apart_of_off (.inl ?_) (by simp [PORT_INTR_STATUS_link_ev])⟩
  · simp only [PORT_STATUS_link_up]; omega
  · simp only [PORT_STATUS_llr_active]; omega
  · simp only [PORT_INTR_STATUS_link_ev]; omega

theorem State.keeps_setLinkSt (s : State) {src : Nat} (hp : P (src / 8)) (st : LinkSt) : s.Keeps P (s.setLinkSt src st) := by
  unfold State.setLinkSt
  extract_lets old s1 s2
  have h1 : s.Keeps P s1 := s.keeps_modLink_rest hp _
  refine h1.trans (.ite (fun _ => .refl s1) (fun h => ?_))
  obtain ⟨hup, -, hev⟩ := portStatus_apart (p := src / 8) (by omega)
  have h2 : s1.Keeps P s2 := s1.keeps_setStatusBit hup _ _
  refine h2.trans (.ite (fun _ => .refl s2) (fun _ => ?_))
  exact (s2.keeps_raise (e := evLink (src / 8) (src % 8)) hev).trans (State.keeps_creditPort _ hp)

/-- A logical port with nothing queued goes down: links of other ports stay as they are. -/
theorem State.keeps_linkDown (s : State) {src : Nat} (hp : P (src / 8)) (hq : (s.link src).eg.q = []) (htx : (s.link src).eg.tx = none)
    (st : LinkSt) : s.Keeps P (s.linkDown src st) := by
  unfold State.linkDown
  rw [hq, htx]
  extract_lets wasUp queued lost s1 s2 s3 s4 s5 s6
  have h1 : s.Keeps P s1 := s.keeps_creditClock hp
  have h2 : s1.Keeps P s2 := s1.keeps_modLink hp _ (fun l _ _ => ⟨rfl, rfl⟩)
  have h3 : s2.Keeps P s3 := s2.keeps_setLinkSt hp st
  have h4 : s3.Keeps P s4 := .ite (fun _ => .refl s3) (fun h => s3.keeps_setStatusBit (portStatus_apart (by omega)).2.1 _ _)
  have h5 : s4.Keeps P s5 := s4.keeps_countM (fun p l hp hl => (portCounters_apart p l hp hl).2.2.2.2) (fun m => (mirCounters_apart m).2.2) src _
  have h6 : s5.Keeps P s6 := .refl s5
  exact (((((h1.trans h2).trans h3).trans h4).trans h5).trans h6).trans (.ite (fun _ => s6.keeps_linkLoss _) (fun _ => .refl s6))

/-! ### A context ends (R148, R366, R370) -/

theorem State.keeps_modChan (s : State) (ch : Nat) (f : Chan → Chan) : s.Keeps P (s.modChan ch f) := .of_rest

theorem State.keeps_modCq (s : State) (j : Nat) (f : CqSt → CqSt) : s.Keeps P (s.modCq j f) := .of_rest

theorem State.keeps_cqSync (s : State) (j : Nat) : s.Keeps P (s.cqSync j) := by
  unfold State.cqSync
  extract_lets full was s1 s2 s3 any
  refine .ite (fun _ => .refl s) (fun _ => ?_)
  have h1 : s.Keeps P s1 := s.keeps_setReg (Fld.apart_of_lo (by simp [RING_CQ_STATE_full]) (by simp [RING_CQ_STATE_full])) _
  have h2 : s1.Keeps P s2 := .foldl _ fun s i _ =>
    s.keeps_setReg (Fld.apart_of_lo (by simp [RING_SQ_STATE_stalled]) (by simp [RING_SQ_STATE_stalled])) _
  have h3 : s2.Keeps P s3 := .ite (fun _ => s2.keeps_raise (Fld.apart_of_off (by decide) (by decide))) (fun _ => .refl s2)
  refine ((h1.trans h2).trans h3).trans ?_
  split
  · exact .of_rest
  · have h4 : s3.Keeps P { s3 with host := { s3.host with fullSince := none } } := .of_rest
    exact h4.trans (State.keeps_count _ (Fld.apart_of_off (by decide) (by decide)) _)
  · exact .refl s3

theorem State.keeps_postRec (s : State) (j : Nat) (r : CRec) : s.Keeps P (s.postRec j r) :=
  .ite (fun _ => (s.keeps_modCq j _).trans (State.keeps_cqSync _ j)) (fun _ => s.keeps_count (Fld.apart_of_off (by decide) (by decide)))

theorem State.keeps_complete (s : State) (d : Nat) (r : Report) : s.Keeps P (s.complete d r) := by
  unfold State.complete
  split
  · exact .refl s
  next x _ =>
    extract_lets hs s1 always
    have h1 : s.Keeps P s1 := .of_rest
    refine h1.trans (.ite (fun _ => .refl s1) (fun _ => ?_))
    have h2 : s1.Keeps P s1.stamped := .of_rest
    exact h2.trans (State.keeps_postRec _ _ _)

theorem State.keeps_endGate (s : State) (cx : Nat) : s.Keeps P (s.endGate cx) := by
  refine .ite (fun _ => .refl s) (fun _ => s.keeps_count ?_ _)
  intro n g hn hg
  simp only [Fld.key, CH_SPARE_STATUS_group, CH_CTR_gated_cycles]
  omega

/-- What a context's end leaves of its registers and counters. -/
def Ctx.ended (k : Ctx) : Ctx := { step := k.step, pc := k.pc }

/-- An update of one context carries over what two states share beside it. -/
theorem State.Keeps.modCtx (h : s.Keeps P t) (cx : Nat) (f : Ctx → Ctx) : (s.modCtx cx f).Keeps P (t.modCtx cx f) where
  hw := h.hw
  sec := h.sec
  acc := h.acc
  groups := h.groups
  spare := h.spare
  ctxs := by simp only [State.modCtx, State.ctx, h.ctxs]
  links := h.links
  quiet := h.quiet

/-- The end of a context: the context itself is as `Ctx.ended` says, and all else stays that `State.Keeps` names. -/
theorem State.keeps_endCtx (s : State) (cx status : Nat) : (s.modCtx cx Ctx.ended).Keeps (fun _ => True) (s.endCtx cx status) := by
  unfold State.endCtx
  extract_lets k ch s1 s2 s3 s4 s5 s6 s7
  have h1 : s.Keeps (fun _ => True) s1 := s.keeps_endGate cx
  have h2 : s1.Keeps (fun _ => True) s2 := .foldl _ fun s u _ => s.keeps_release u _
  have h3 : s2.Keeps (fun _ => True) s3 := .foldl _ fun s x _ => s.keeps_dropFrame _ _
  have h4 : s3.Keeps (fun _ => True) s4 := by
    refine (s3.keeps_modChan ch _).trans (State.keeps_setReg _ ?_ _)
    intro n g hn hg
    simp only [Fld.key, CH_SPARE_STATUS_group, CH_TILE_HOLD_held]
    omega
  have h5 : s4.Keeps (fun _ => True) s5 := s4.keeps_modChan ch _
  have h6 : (s.modCtx cx Ctx.ended).Keeps (fun _ => True) s6 := ((((h1.trans h2).trans h3).trans h4).trans h5).modCtx cx _
  have h7 : s6.Keeps (fun _ => True) s7 := by
    unfold s7
    split
    · exact s6.keeps_complete _ _
    · exact .refl s6
  exact (h6.trans h7).trans (.foldl _ fun s d _ => s.keeps_complete d _)

end Keeps

/-! ### Pieces of a reset -/

/-- Registers of a range that is reset read as at reset (R10). -/
theorem Regs.get_resetRange_in (r : Regs) {lo hi : Nat} {f : Fld} (hlo : f.lo < 64) (h : offIn lo hi f.off = true) :
    (r.resetRange lo hi).get f = f.rst := by
  simp only [offIn, Bool.and_eq_true, decide_eq_true_eq] at h
  rw [Regs.get, Tab.get, Tab.find?_none_of_all, Option.getD_none]
  intro e he hk
  have hout := List.of_mem_filter he
  have hoff : e.1 / 64 = f.off := by
    rw [hk, Fld.key]
    omega
  simp [hoff, h] at hout

theorem offIn_eq_false {lo hi o : Nat} (h : o < lo ∨ hi ≤ o) : offIn lo hi o = false := by
  simp only [offIn, Bool.and_eq_false_iff, decide_eq_false_iff_not]
  omega

/-- Other registers stay. -/
theorem Regs.get_resetRange_out (r : Regs) {lo hi : Nat} {f : Fld} (hlo : f.lo < 64) (h : offIn lo hi f.off = false) :
    (r.resetRange lo hi).get f = r.get f := by
  have hoff : f.key / 64 = f.off := by
    rw [Fld.key]
    omega
  simp only [Regs.get, Tab.get, Regs.resetRange]
  rw [Tab.find?_filter r (fun k => !(decide (lo ≤ k / 64) && decide (k / 64 < hi)))]
  simpa only [hoff, offIn, Bool.not_eq_true'] using h

/-- What a step brings about and no later step undoes holds for every element of a list that has been gone through. -/
theorem foldl_establishes {σ β : Type} {f : σ → β → σ} {Q : β → σ → Prop} (hstep : ∀ s x, Q x (f s x)) (hkeep : ∀ s x y, Q y s → Q y (f s x))
    (l : List β) (s : σ) : ∀ x ∈ l, Q x (l.foldl f s) := by
  have keep (l : List β) (s : σ) (y : β) (hy : Q y s) : Q y (l.foldl f s) := List.foldlRecOn l f hy fun t ht x _ => hkeep t x y ht
  induction l generalizing s with
  | nil => simp
  | cons y r ih =>
    intro x hx
    rcases List.mem_cons.mp hx with rfl | hx
    · exact keep r _ x (hstep s x)
    · exact ih _ x hx

theorem pick_lt {n : Nat} (hn : 0 < n) (k : Nat) : pick n k < n := by
  unfold pick
  split
  · exact hn
  · exact Nat.mod_lt _ hn

theorem mem_insertSched (e : Sched) (l : List Sched) : e ∈ insertSched e l := by
  induction l with
  | nil => simp [insertSched]
  | cons x r ih =>
    unfold insertSched
    split
    · simp
    · simp [ih]

section Busy

variable (s : State) (block bound : Nat)

@[simp] theorem State.resetBusy_hw : (s.resetBusy block bound).hw = s.hw := rfl
@[simp] theorem State.resetBusy_sec : (s.resetBusy block bound).sec = s.sec := rfl
@[simp] theorem State.resetBusy_groups : (s.resetBusy block bound).groups = s.groups := rfl
@[simp] theorem State.resetBusy_link (src : Nat) : (s.resetBusy block bound).link src = s.link src := rfl
@[simp] theorem State.resetBusy_port (p : Nat) : (s.resetBusy block bound).port p = s.port p := rfl
@[simp] theorem State.resetBusy_ctx (cx : Nat) : (s.resetBusy block bound).ctx cx = s.ctx cx := rfl
@[simp] theorem State.resetBusy_chan (ch : Nat) : (s.resetBusy block bound).chan ch = s.chan ch := rfl

theorem State.reg_resetBusy_ne {f : Fld} (h : f.key ≠ HUB_RESET_STATUS_busy.key) : (s.resetBusy block bound).reg f = s.reg f :=
  s.reg_setReg_ne HUB_RESET_STATUS_busy f 1 h

/-- A reset in progress is shown, and its end is due within its bound (R441). -/
theorem State.resetBusy_due (hb : 0 < bound) : (s.resetBusy block bound).flag HUB_RESET_STATUS_busy = true ∧
    ∃ n, n ≤ bound ∧ ∃ e ∈ (s.resetBusy block bound).clk.sched, e.ev = .resetDone ∧ e.at_ = s.now + ns n := by
  refine ⟨?_, 1 + pick bound s.fresh, ?_, _, mem_insertSched _ _, rfl, rfl⟩
  · have hreg : (s.resetBusy block bound).regs.get HUB_RESET_STATUS_busy = 1 := s.reg_setReg_self HUB_RESET_STATUS_busy 1
    simp [State.flag, hreg]
  · have := pick_lt hb s.fresh
    omega

end Busy

/-! ### The nonce goes (R398) -/

/-- Besides the security block, voiding the nonce keeps what `State.Keeps` names: it is so of the state with the nonce gone. -/
theorem State.keeps_voidNonce {P : Nat → Prop} (s : State) : ({ s with sec := { s.sec with nonce := [] } } : State).Keeps P s.voidNonce :=
  .ite (fun _ => .refl _) (fun _ => State.keeps_setReg _ (Fld.apart_of_off (by decide) (by decide)) _)

theorem State.voidNonce_nonce (s : State) : s.voidNonce.sec.nonce = [] :=
  congrArg Sec.nonce (s.keeps_voidNonce (P := fun _ => True)).sec

/-! ### A function level reset -/

theorem State.ctx_endCtx_self (s : State) (cx st : Nat) : (s.endCtx cx st).ctx cx = (s.ctx cx).ended := by
  rw [← s.ctx_modCtx_self cx Ctx.ended, State.ctx, (s.keeps_endCtx cx st).ctxs, State.ctx]

theorem State.ctx_endCtx_ne (s : State) {cx c : Nat} (st : Nat) (h : c ≠ cx) : (s.endCtx cx st).ctx c = s.ctx c := by
  rw [← s.ctx_modCtx_ne cx c Ctx.ended h, State.ctx, (s.keeps_endCtx cx st).ctxs, State.ctx]

/-- A context that a reset meets ends with ST_FENCED, when it has not ended already. -/
def State.endFenced (s : State) (cx : Nat) : State := if (s.ctx cx).st == .idle then s else s.endCtx cx stFenced

theorem State.endFenced_idle (s : State) (cx : Nat) : ((s.endFenced cx).ctx cx).st = .idle := by
  unfold State.endFenced
  split
  next h => exact eq_of_beq h
  next => rw [State.ctx_endCtx_self, Ctx.ended]

theorem State.endFenced_keeps_idle (s : State) (cx c : Nat) (h : (s.ctx c).st = .idle) : ((s.endFenced cx).ctx c).st = .idle := by
  by_cases hc : c = cx
  · exact hc ▸ s.endFenced_idle cx
  · unfold State.endFenced
    split
    · exact h
    · rw [State.ctx_endCtx_ne _ _ hc, h]

theorem State.endFenced_sec (s : State) (cx : Nat) : (s.endFenced cx).sec = s.sec := by
  unfold State.endFenced
  split
  · rfl
  · exact (s.keeps_endCtx cx stFenced).sec

/-- The contexts of a list have ended, with no descriptor that could tell of it. -/
def State.flrEnds (s : State) (l : List Nat) : State :=
  l.foldl State.endFenced { s.voidNonce with host := { next := s.host.next, applied := s.host.applied } }

/-- What a function level reset leaves once contexts have ended. -/
def State.flrClears (s : State) : State :=
  { s with
    host := { next := s.host.next, applied := s.host.applied }
    regs := ((s.regs.resetRange 0x300000 0x400000).resetRange 0x8000 0x9008).resetRange 0x50 0x54 }

theorem State.flr_eq (s : State) : s.flr = (s.flrEnds (List.range 256)).flrClears := by
  unfold State.flr
  generalize List.range 256 = l
  rfl

theorem State.flrEnds_idle (s : State) (l : List Nat) : ∀ c ∈ l, ((s.flrEnds l).ctx c).st = .idle :=
  foldl_establishes (Q := fun (c : Nat) (s : State) => (s.ctx c).st = .idle) State.endFenced_idle State.endFenced_keeps_idle l _

theorem State.flrEnds_nonce (s : State) (l : List Nat) : (s.flrEnds l).sec.nonce = [] := by
  have hsec (u : State) : (l.foldl State.endFenced u).sec = u.sec :=
    List.foldlRecOn (motive := fun t : State => t.sec = u.sec) l _ rfl fun t ht cx _ => (t.endFenced_sec cx).trans ht
  rw [State.flrEnds, hsec]
  exact s.voidNonce_nonce

theorem State.reg_flrClears (s : State) {f : Fld} (hlo : f.lo < 64) (hf : offIn 0x300000 0x400000 f.off = true ∨ offIn 0x8000 0x9008 f.off = true) :
    s.flrClears.reg f = f.rst := by
  have hrange : 0x300000 ≤ f.off ∧ f.off < 0x400000 ∨ 0x8000 ≤ f.off ∧ f.off < 0x9008 := by simpa [offIn] using hf
  rw [State.reg, State.flrClears, Regs.get_resetRange_out _ hlo (offIn_eq_false (by omega))]
  rcases hf with hring | hmsix
  · have : f.off < 0x8000 ∨ 0x9008 ≤ f.off := by
      have : 0x300000 ≤ f.off ∧ f.off < 0x400000 := by simpa [offIn] using hring
      omega
    rw [Regs.get_resetRange_out _ hlo (offIn_eq_false this), Regs.get_resetRange_in _ hlo hring]
  · exact Regs.get_resetRange_in _ hlo hmsix

/-- FLR: descriptors go, contexts end, the host's registers and the nonce are as at reset (R398, R441). -/
theorem exec_flr {s : State} (hl : s.live = true) :
    Yields .flr s (fun t => t.host.descs = [] ∧ t.host.sqs = [] ∧ (∀ c, c < 256 → (t.ctx c).st = .idle) ∧ t.sec.nonce = [] ∧
      ∀ f : Fld, f.lo < 64 → offIn 0x300000 0x400000 f.off = true ∨ offIn 0x8000 0x9008 f.off = true → t.reg f = f.rst) := by
  have hidle (c : Nat) (hc : c < 256) := s.flrEnds_idle (List.range 256) c (List.mem_range.mpr hc)
  have hnonce := s.flrEnds_nonce (List.range 256)
  have hrun : exec .flr s = .next (s.flrEnds (List.range 256)).flrClears := s.flr_eq ▸ State.does_live State.flr hl
  generalize s.flrEnds (List.range 256) = u at hidle hnonce hrun
  exact ⟨_, hrun, rfl, rfl, hidle, hnonce, fun f hlo hf => u.reg_flrClears hlo hf⟩

/-! ### A port reset -/

/-- The logical ports of a fabric port that are not DISABLED go down. -/
def State.portDisabled (s : State) (p : Nat) (l : List Nat) : State :=
  l.foldl (fun s l => if (s.link (8 * p + l)).st == .disabled then s else s.linkDown (8 * p + l) .disabled) s

/-- The port's events, links, registers and its own state are as at reset. -/
def State.portClears (s : State) (p : Nat) : State :=
  let base := 0x400000 + 0x20000 * p
  let s := (s.unschedule (.gateApply p)).unschedule (.gateChange p)
  let s := (List.range 64).foldl (fun s k => s.unschedule (.shaper (8 * p + k / 8) (k % 8))) s
  let s := (List.range 8).foldl (fun s l => s.setLink (8 * p + l) {}) s
  let s := { s with regs := s.regs.resetRange base (base + 0x20000), ports := s.ports.erase p }
  s.setReg (PORT_STATUS_laser_ok p) (bit1 (!s.hw.dark.contains (p / 3)))

/-- With nothing received no tail is due. -/
theorem State.rxTail_of_none (s : State) (p l : Nat) (rest : Bytes) (fcs : Fcs) (h : (s.link (8 * p + l)).rx = none) :
    s.rxTail p l rest fcs = s := by
  unfold State.rxTail
  simp only [h]

/-- A port reset that is taken, of a port that has nothing received under way. -/
theorem State.portReset_eq (s : State) (p : Nat) (hbusy : s.flag HUB_RESET_STATUS_busy = false)
    (hrx : ∀ l, l < 8 → (s.link (8 * p + l)).rx = none) :
    s.portReset p = ((s.voidNonce.portDisabled p (List.range 8)).portClears p).resetBusy p 10000 := by
  have hlinks (src : Nat) : s.voidNonce.link src = s.link src := (s.keeps_voidNonce (P := fun _ => False)).links src id
  have htails : (List.range 8).foldl (fun s l => s.rxTail p l [] .abort) s.voidNonce = s.voidNonce :=
    List.foldlRecOn (motive := fun t : State => t = s.voidNonce) (List.range 8) _ rfl fun t ht l hl => by
      rw [ht, State.rxTail_of_none _ _ _ _ _ ((congrArg Link.rx (hlinks _)).trans (hrx l (List.mem_range.mp hl)))]
  unfold State.portReset State.portClears State.portDisabled
  rw [if_neg (by simp [hbusy]), htails]

/-- Links with nothing queued go down one after the other, and links of other ports stay. -/
theorem State.keeps_portDisabled (s : State) (p : Nat) (hq : s.quietPort p) {l : List Nat} (hl : ∀ x ∈ l, x < 8) :
    s.Keeps (· = p) (s.portDisabled p l) := by
  refine List.foldlRecOn (motive := fun t : State => s.Keeps (· = p) t) l _ (.refl s) fun t ht x hx => ht.trans ?_
  have hx := hl x hx
  obtain ⟨hqueue, htx⟩ := ht.quiet _ (hq x hx).1 (hq x hx).2
  exact .ite (fun _ => .refl t) (fun _ => t.keeps_linkDown (show (8 * p + x) / 8 = p by omega) hqueue htx .disabled)

theorem State.keeps_setLink (s : State) {P : Nat → Prop} {src : Nat} (hp : P (src / 8)) : s.Keeps P (s.setLink src {}) :=
  s.keeps_modLink hp (fun _ => {}) fun _ _ _ => ⟨rfl, rfl⟩

/-- What `portClears` leaves: the port as at reset, links of other ports, and the parts that `State.KeepsHub` names. -/
theorem State.portClears_spec (s : State) {p : Nat} (hp : p < 24) :
    s.KeepsHub (s.portClears p) ∧ (∀ l, l < 8 → (s.portClears p).link (8 * p + l) = {}) ∧ (∀ src, src / 8 ≠ p → (s.portClears p).link src = s.link src) ∧
      (s.portClears p).port p = {} ∧
      (∀ f : Fld, f.lo < 64 → offIn (0x400000 + 0x20000 * p) (0x400000 + 0x20000 * p + 0x20000) f.off = true →
        f.off ≠ (PORT_STATUS_laser_ok p).off → (s.portClears p).reg f = f.rst) ∧
      (s.portClears p).reg (PORT_STATUS_laser_ok p) = bit1 (!s.hw.dark.contains (p / 3)) := by
  unfold State.portClears
  extract_lets base s1 s2 s3 s4
  have h1 : s.Keeps (· = p) s1 := .of_rest
  have h2 : s1.Keeps (· = p) s2 := .foldl _ fun _ _ _ => .of_rest
  have h3 : s2.Keeps (· = p) s3 := .foldl _ fun s l hl => s.keeps_setLink (show (8 * p + l) / 8 = p by have := List.mem_range.mp hl; omega)
  have h := (h1.trans h2).trans h3
  have hcleared : ∀ l ∈ List.range 8, s3.link (8 * p + l) = {} := by
    refine foldl_establishes (Q := fun (l : Nat) (s : State) => s.link (8 * p + l) = {}) (fun s l => ?_) (fun s x y hy => ?_) _ _
    · exact s.link_modLink_self (8 * p + l) fun _ => {}
    · by_cases hxy : 8 * p + y = 8 * p + x
      · rw [hxy]
        exact s.link_modLink_self (8 * p + x) fun _ => {}
      · exact (s.link_modLink_ne (8 * p + x) (8 * p + y) (fun _ => {}) hxy).trans hy
  have hlaser : (PORT_STATUS_laser_ok p).apart :=
    Fld.apart_of_off (.inl (by simp only [PORT_STATUS_laser_ok]; omega)) (by simp [PORT_STATUS_laser_ok])
  clear_value s3
  refine ⟨⟨h.hw, h.sec, h.acc, h.groups, fun n g hn hg => ?_⟩, fun l hl => hcleared l (List.mem_range.mpr hl), h.links, ?_, fun f hlo hin hne => ?_, ?_⟩
  · rw [State.reg_setReg_ne _ _ _ _ (hlaser n g hn hg), ← h.spare n g hn hg]
    refine Regs.get_resetRange_out _ (by simp only [CH_SPARE_STATUS_group]; omega) (offIn_eq_false (.inr ?_))
    simp only [CH_SPARE_STATUS_group]
    omega
  · simp only [State.port, State.setReg_ports, s4, Tab.get, Tab.find?_erase_self, Option.getD_none]
  · rw [State.reg_setReg_ne _ _ _ _ (fun hkey => hne ?_)]
    · exact Regs.get_resetRange_in _ hlo hin
    · simp only [Fld.key, PORT_STATUS_laser_ok] at hkey ⊢
      omega
  · rw [State.reg_setReg_self, show s4.hw = s.hw from h.hw]
    cases s.hw.dark.contains (p / 3) <;> rfl

/-- A port reset that is taken (R441). -/
theorem exec_portReset {s : State} (hl : s.live = true) (p : Port) (hbusy : s.flag HUB_RESET_STATUS_busy = false) (hq : s.quietPort p)
    (hrx : ∀ l, l < 8 → (s.link (8 * p + l)).rx = none) : Yields (.portReset p) s (fun t =>
      (∀ l, l < 8 → t.link (8 * p + l) = {}) ∧ (t.port p).blocked = false ∧ t.sec.nonce = [] ∧
      (∀ f : Fld, f.lo < 64 → offIn (0x400000 + 0x20000 * p) (0x400000 + 0x20000 * p + 0x20000) f.off = true →
        f.off ≠ (PORT_STATUS_laser_ok p).off → t.reg f = f.rst) ∧
      t.reg (PORT_STATUS_laser_ok p) = bit1 (!s.hw.dark.contains (p / 3)) ∧
      (∀ src, src / 8 ≠ p.val → t.link src = s.link src) ∧ t.flag HUB_RESET_STATUS_busy = true ∧
      ∃ n, n ≤ 10000 ∧ ∃ e ∈ t.clk.sched, e.ev = .resetDone ∧ e.at_ = s.now + ns n) := by
  have hp := p.isLt
  have hvoid := s.keeps_voidNonce (P := (· = p.val))
  have hquiet : s.voidNonce.quietPort p := fun l hlt => hvoid.quiet _ (hq l hlt).1 (hq l hlt).2
  have hdown := s.voidNonce.keeps_portDisabled p hquiet (l := List.range 8) fun x hx => List.mem_range.mp hx
  have hrun : exec (.portReset p) s = .next (((s.voidNonce.portDisabled p (List.range 8)).portClears p).resetBusy p 10000) :=
    s.portReset_eq p hbusy hrx ▸ State.does_live (fun s => s.portReset p) hl
  generalize s.voidNonce.portDisabled p (List.range 8) = u at hdown hrun
  obtain ⟨hhub, hown, hother, hport, hregs, hlaser⟩ := u.portClears_spec hp
  generalize u.portClears p = w at *
  have hall := (hvoid.toKeepsHub.trans hdown.toKeepsHub).trans hhub
  have hpast (f : Fld) (hlo : f.lo < 64) (hoff : 0x400000 ≤ f.off) : (w.resetBusy p 10000).reg f = w.reg f :=
    w.reg_resetBusy_ne p 10000 (by simp only [Fld.key, HUB_RESET_STATUS_busy]; omega)
  obtain ⟨hshown, n, hn, e, he, hev, hat⟩ := w.resetBusy_due p 10000 (by omega)
  refine ⟨_, hrun, hown, ?_, ?_, fun f hlo hin hne => ?_, ?_, fun src hsrc => ?_, hshown, n, hn, e, he, hev, ?_⟩
  · rw [State.resetBusy_port, hport]
  · rw [State.resetBusy_sec, hall.sec]
  · rw [hpast f hlo ?_, hregs f hlo hin hne]
    simp only [offIn, Bool.and_eq_true, decide_eq_true_eq] at hin
    omega
  · rw [hpast _ (by simp [PORT_STATUS_laser_ok]) (by simp only [PORT_STATUS_laser_ok]; omega), hlaser, (hvoid.trans hdown).hw]
  · rw [State.resetBusy_link, hother src hsrc, (hvoid.trans hdown).links src hsrc]
    rfl
  · rw [hat, hall.now]
    rfl

/-! ### A channel reset -/

/-- The parts that `State.KeepsHub` names are no part of a context. -/
theorem State.keepsHub_modCtx (s : State) (cx : Nat) (f : Ctx → Ctx) : s.KeepsHub (s.modCtx cx f) := ⟨rfl, rfl, rfl, rfl, fun _ _ _ _ => rfl⟩

theorem State.keepsHub_flushHeads (s : State) (cx : Nat) : s.KeepsHub (s.flushHeads cx) := by
  refine List.foldlRecOn (motive := fun t : State => s.KeepsHub t) (List.range 5) _ (.refl s) fun t ht q _ => ht.trans ?_
  split
  · exact t.keepsHub_modCtx cx _
  · exact .refl t

/-- The contexts of a list end, with what their head entries have gathered. -/
def State.ctxsEnd (s : State) (ch : Nat) (l : List Nat) : State :=
  l.foldl (fun s c => if (s.ctx (32 * ch + c)).st == .idle then s else (s.flushHeads (32 * ch + c)).endCtx (32 * ch + c) stFenced) s

theorem State.keepsHub_ctxsEnd (s : State) (ch : Nat) (l : List Nat) : s.KeepsHub (s.ctxsEnd ch l) := by
  refine List.foldlRecOn (motive := fun t : State => s.KeepsHub t) l _ (.refl s) fun t ht c _ => ht.trans ?_
  split
  · exact .refl t
  · exact ((t.keepsHub_flushHeads _).trans (State.keepsHub_modCtx _ _ _)).trans (State.keeps_endCtx _ _ _).toKeepsHub

/-- The channel's registers, contexts, memories and pips on their way are as at reset. -/
def State.channelBlank (s : State) (ch : Nat) : State :=
  let base := 0x800000 + 0x100000 * ch
  { s with
    regs := s.regs.resetRange base (base + 0x100000), chans := s.chans.erase ch
    ctxs := s.ctxs.filter (fun k => k.1 / 32 != ch)
    clk := { s.clk with pips := s.clk.pips.filter (fun p => p.ch != ch) } }

/-- CH_SPARE_STATUS of a channel is written, group by group. -/
def State.putSpare (s : State) (ch : Nat) (v : Nat → Nat) (l : List Nat) : State := l.foldl (fun s g => s.setReg (CH_SPARE_STATUS_group ch g) (v g)) s

/-- The channel is blank but for its spare status. -/
def State.channelClear (s : State) (ch : Nat) : State :=
  (s.channelBlank ch).putSpare ch (fun g => s.reg (CH_SPARE_STATUS_group ch g)) (List.range 16)

/-- A channel reset that is taken: the spare status is kept over it. -/
theorem State.channelReset_eq (s : State) (ch : Nat) (hbusy : s.flag HUB_RESET_STATUS_busy = false) (hg : ∀ g ∈ s.groups, gCh g.2.entry ≠ ch) :
    s.channelReset ch = ((s.voidNonce.ctxsEnd ch (List.range 32)).channelClear ch).resetBusy (24 + ch) 50000 := by
  have hnone : s.groups.any (fun g => gCh g.2.entry == ch) = false := by simpa using hg
  have hzip (F : Nat → Nat) : ((List.range 16).map F).zipIdx = (List.range 16).map (fun g => (F g, g)) := rfl
  unfold State.channelReset State.channelClear State.putSpare State.channelBlank State.ctxsEnd
  rw [if_neg (by simp [hbusy, hnone])]
  simp only [hzip, List.foldl_map]

/-- The register of another group, or of another block, is not touched. -/
theorem State.reg_putSpare_ne (s : State) (ch : Nat) (v : Nat → Nat) {l : List Nat} {f : Fld}
    (h : ∀ g ∈ l, f.key ≠ (CH_SPARE_STATUS_group ch g).key) : (s.putSpare ch v l).reg f = s.reg f :=
  List.foldlRecOn (motive := fun t : State => t.reg f = s.reg f) l _ rfl fun t ht g hg => (t.reg_setReg_ne _ _ _ (h g hg)).trans ht

theorem State.reg_putSpare (s : State) (ch : Nat) (v : Nat → Nat) (l : List Nat) :
    ∀ g ∈ l, (s.putSpare ch v l).reg (CH_SPARE_STATUS_group ch g) = v g % 2 ^ 2 := by
  refine foldl_establishes (Q := fun (g : Nat) (s : State) => s.reg (CH_SPARE_STATUS_group ch g) = v g % 2 ^ 2) (fun s g => ?_) (fun s x y hy => ?_) l s
  · exact s.reg_setReg_self _ _
  · by_cases hxy : y = x
    · subst hxy
      exact s.reg_setReg_self _ _
    · rw [s.reg_setReg_ne _ _ _ (by simp only [Fld.key, CH_SPARE_STATUS_group]; omega), hy]

/-- Beside registers, `putSpare` changes nothing. -/
theorem State.putSpare_rest (s : State) (ch : Nat) (v : Nat → Nat) (l : List Nat) : s.putSpare ch v l = { s with regs := (s.putSpare ch v l).regs } :=
  List.foldlRecOn (motive := fun t : State => t = { s with regs := t.regs }) l _ rfl fun t ht g _ => by
    conv_lhs => rw [ht]
    rfl

/-- A channel reset that is taken (R441). -/
theorem exec_channelReset {s : State} (hl : s.live = true) (ch : Ch) (hbusy : s.flag HUB_RESET_STATUS_busy = false)
    (hg : ∀ g ∈ s.groups, gCh g.2.entry ≠ ch.val) : Yields (.channelReset ch) s (fun t => t.chan ch = {} ∧ (∀ j, j < 32 → t.ctx (32 * ch + j) = {}) ∧
      t.sec.nonce = [] ∧
      (∀ f : Fld, f.lo < 64 → offIn (0x800000 + 0x100000 * ch) (0x800000 + 0x100000 * ch + 0x100000) f.off = true →
        (∀ g : Fin 16, f.key ≠ (CH_SPARE_STATUS_group ch g).key) → t.reg f = f.rst) ∧
      (∀ g : Fin 16, t.reg (CH_SPARE_STATUS_group ch g) = s.reg (CH_SPARE_STATUS_group ch g) % 2 ^ 2) ∧ t.groups = s.groups ∧
      t.flag HUB_RESET_STATUS_busy = true ∧ ∃ n, n ≤ 50000 ∧ ∃ e ∈ t.clk.sched, e.ev = .resetDone ∧ e.at_ = s.now + ns n) := by
  have hch := ch.isLt
  have hends := (s.keeps_voidNonce (P := fun _ => True)).toKeepsHub.trans (s.voidNonce.keepsHub_ctxsEnd ch (List.range 32))
  have hrun : exec (.channelReset ch) s = .next (s.channelReset ch) := State.does_live (fun s => s.channelReset ch) hl
  rw [s.channelReset_eq ch hbusy hg] at hrun
  generalize s.voidNonce.ctxsEnd ch (List.range 32) = u at hends hrun
  have hrest := (u.channelBlank ch).putSpare_rest ch (fun g => u.reg (CH_SPARE_STATUS_group ch g)) (List.range 16)
  have hspare := (u.channelBlank ch).reg_putSpare ch (fun g => u.reg (CH_SPARE_STATUS_group ch g)) (List.range 16)
  have hregs {f : Fld} := (u.channelBlank ch).reg_putSpare_ne ch (fun g => u.reg (CH_SPARE_STATUS_group ch g)) (l := List.range 16) (f := f)
  rw [State.channelClear] at hrun
  generalize (u.channelBlank ch).putSpare ch (fun g => u.reg (CH_SPARE_STATUS_group ch g)) (List.range 16) = w at hrun hrest hspare hregs
  have hpast (f : Fld) (hlo : f.lo < 64) (hoff : 0x800000 ≤ f.off) : (w.resetBusy (24 + ch) 50000).reg f = w.reg f :=
    w.reg_resetBusy_ne (24 + ch) 50000 (by simp only [Fld.key, HUB_RESET_STATUS_busy]; omega)
  obtain ⟨hshown, n, hn, e, he, hev, hat⟩ := w.resetBusy_due (24 + ch) 50000 (by omega)
  refine ⟨_, hrun, ?_, fun j hj => ?_, ?_, fun f hlo hin hne => ?_, fun g => ?_, ?_, hshown, n, hn, e, he, hev, ?_⟩
  · rw [State.resetBusy_chan, hrest]
    simp only [State.chan, State.channelBlank, Tab.get, Tab.find?_erase_self, Option.getD_none]
  · rw [State.resetBusy_ctx, hrest]
    simp only [State.ctx, State.channelBlank, Tab.get]
    rw [Tab.find?_none_of_all, Option.getD_none]
    intro k hk hkey
    have := List.of_mem_filter hk
    simp only [bne_iff_ne] at this
    omega
  · rw [State.resetBusy_sec, hrest]
    exact congrArg Sec.nonce hends.sec
  · have hoff : 0x800000 ≤ f.off := by
      simp only [offIn, Bool.and_eq_true, decide_eq_true_eq] at hin
      omega
    rw [hpast f hlo hoff, hregs fun g hg => hne ⟨g, List.mem_range.mp hg⟩]
    exact Regs.get_resetRange_in _ hlo hin
  · rw [hpast (CH_SPARE_STATUS_group ch g) (by simp only [CH_SPARE_STATUS_group]; omega) (by simp only [CH_SPARE_STATUS_group]; omega), hspare g (List.mem_range.mpr g.isLt),
      hends.spare ch g hch g.isLt]
    rfl
  · rw [State.resetBusy_groups, hrest]
    exact hends.groups
  · rw [hat, hrest]
    exact congrArg (· + ns n) hends.now

/-! ### The statement -/

/-- While a port or channel reset is in progress another is refused and shown. -/
theorem exec_reset_refused {s : State} (hl : s.live = true) (p : Port) (ch : Ch) (hbusy : s.flag HUB_RESET_STATUS_busy = true) :
    exec (.portReset p) s = .next (s.setW1c HUB_RESET_STATUS_refused 1) ∧
      exec (.channelReset ch) s = .next (s.setW1c HUB_RESET_STATUS_refused 1) := by
  refine ⟨(State.does_live (fun s => s.portReset p) hl).trans ?_, (State.does_live (fun s => s.channelReset ch) hl).trans ?_⟩
  · rw [State.portReset, if_pos hbusy]
  · rw [State.channelReset, if_pos (by simp [hbusy])]

/-- A channel that a group names is not reset. -/
theorem exec_channelReset_named {s : State} (hl : s.live = true) (ch : Ch) (hg : ∃ g ∈ s.groups, gCh g.2.entry = ch.val) :
    exec (.channelReset ch) s = .next (s.setW1c HUB_RESET_STATUS_refused 1) := by
  have hany : s.groups.any (fun g => gCh g.2.entry == ch.val) = true := by simpa using hg
  refine (State.does_live (fun s => s.channelReset ch) hl).trans ?_
  rw [State.channelReset, if_pos (by simp [hany])]

/-- Settles O50. Contexts that end and links that go down leave alone what `State.Keeps` names, and what a reset clears it clears after them. -/
theorem partialResets : Obligations.PartialResets := by
  intro s hl
  refine ⟨exec_flr hl, ?_, ?_, exec_channelReset_named hl, exec_reset_refused hl⟩
  · rintro p o rfl hbusy hq hrx
    exact exec_portReset hl p hbusy hq hrx
  · rintro ch o rfl hbusy hg
    exact exec_channelReset hl ch hbusy hg

end Sys2Proof.Machine
end

section
/-! PROOFS. The reception of a frame (R21, R45, R57, R73, R74): its first bit, its decision and its tail, each as one equation a case. What the charge
of a stored frame's buffer sets off reaches far; `State.KeepsRx` says what of the reception it leaves alone. -/

namespace Sys2Proof.Machine

/-! ### A logical port changed twice -/

theorem Tab.erase_erase {α : Type} (m : Tab α) (k : Nat) : Tab.erase (Tab.erase m k) k = Tab.erase m k := by
  simp [Tab.erase]

theorem Tab.erase_place {α : Type} (m : Tab α) (k : Nat) (v : α) : Tab.erase (Tab.place m k v) k = Tab.erase m k := by
  induction m with
  | nil => simp [Tab.place, Tab.erase]
  | cons e r ih =>
    unfold Tab.place
    split
    · simp [Tab.erase]
    · simp only [Tab.erase, List.filter_cons] at ih ⊢
      rw [ih]

theorem Tab.erase_put {α : Type} [DecidableEq α] (m : Tab α) (d : α) (k : Nat) (v : α) : Tab.erase (Tab.put m d k v) k = Tab.erase m k := by
  unfold Tab.put
  split
  · exact Tab.erase_erase m k
  · rw [Tab.insert, Tab.erase_place, Tab.erase_erase]

/-- The later of two writes of a key stands alone. -/
theorem Tab.put_put {α : Type} [DecidableEq α] (m : Tab α) (d : α) (k : Nat) (v w : α) : Tab.put (Tab.put m d k v) d k w = Tab.put m d k w := by
  rw [Tab.put, Tab.insert, Tab.erase_put, Tab.put, Tab.insert]

theorem State.modLink_modLink (s : State) (src : Nat) (f g : Link → Link) : (s.modLink src f).modLink src g = s.modLink src (fun k => g (f k)) := by
  rw [State.modLink, State.link_modLink_self]
  simp only [State.modLink, State.setLink, Tab.put_put]

/-! ### The first bit (R45, R57, R59) -/

section Start

variable {s : State} {src : Nat} {pre : Bytes}

/-- Without retry every frame is taken as unsequenced. -/
theorem State.tagIn_llrOff (h : s.llrOn src = false) : s.tagIn src pre = (false, true, s) := by
  simp [State.tagIn, h]

/-- The expected sequence with the own session is accepted, and ends skipping. -/
theorem State.tagIn_expected (h : s.llrOn src = true) (htag : readTag pre = .sequenced (s.link src).nextExp (s.link src).ownSess) :
    s.tagIn src pre = (true, true, s.modLink src (fun k => { k with skipping := false })) := by
  simp [State.tagIn, h, htag]

/-- While skipping, another sequence is refused and counted. -/
theorem State.tagIn_skipping {q n : Nat} (h : s.llrOn src = true) (htag : readTag pre = .sequenced q n) (hq : q ≠ (s.link src).nextExp)
    (hskip : (s.link src).skipping = true) : s.tagIn src pre = (true, false, s.countL PORT_LCTR_llr_seq_discards src) := by
  have hskip' : ((s.countL PORT_LCTR_llr_seq_discards src).link src).skipping = true := by
    unfold State.countL
    split <;> exact hskip
  simp [State.tagIn, h, htag, hq, hskip']

/-- A frame begins on a logical port that exchanges frames and receives none: it is stamped and numbered, and retry reads its tag. -/
theorem State.rxStart_tagged {p l : Nat} {seqd ok : Bool} {u : State}
    (hst : (s.link (8 * p + l)).st = .up ∨ (s.link (8 * p + l)).st = .llrInit ∨ (s.link (8 * p + l)).st = .fcInit) (hl : l < s.lpCount p)
    (hrx : (s.link (8 * p + l)).rx = none) (hrep : s.replaying = false) (htag : (s.arrival (8 * p + l)).2.tagIn (8 * p + l) pre = (seqd, ok, u)) :
    s.rxStart p l pre = u.modLink (8 * p + l) (fun k => { k with
      rx := some { stamp := s.planeNow (8 * p + l), arr := (s.arrival (8 * p + l)).1, sequenced := seqd, accept := ok } }) := by
  have hcut : s.rxCut p l = s := by simp only [State.rxCut, hrx]
  have hopen : ((s.link (8 * p + l)).st == .up || (s.link (8 * p + l)).st == .llrInit || (s.link (8 * p + l)).st == .fcInit) = true := by
    simpa [or_assoc] using hst
  have hrep' : (s.arrival (8 * p + l)).2.replaying = false := hrep
  have hstamp : (s.arrival (8 * p + l)).2.planeNow (8 * p + l) = s.planeNow (8 * p + l) := rfl
  unfold State.rxStart
  simp only [hcut, hopen, hrx, htag, hrep', hstamp]
  simp [hl]

end Start

/-! ### The decision (R21, R74, R91, R94) -/

/-- What a decision knows of a frame before its fate: its first bytes, and whether they are all. -/
def Rx.seen (r : Rx) (b : Bytes) (whole : Bool) : Rx := { r with decided := true, whole := whole, data := b.take (if whole then 252 else 256) }

/-- The received frame of a logical port as a decision leaves it. -/
def State.putRx (s : State) (src : Nat) (r : Rx) : State := s.modLink src (fun k => { k with rx := some r })

/-- What becomes of a frame below rows 1 to 3 that is neither recorded nor policed; `n` of its bytes are present (R91, R94). -/
def State.forwardRx (s : State) (p l n : Nat) (e : Rx) (whole : Bool) : State :=
  let src := 8 * p + l
  if s.flag STORE_STATUS_ready = false then (s.count STORE_CTR_disabled_drops).putRx src { e with fate := .drop }
  else (s.lookupSlot p n).elim ((s.countL PORT_LCTR_lookup_overrun_drops src).putRx src { e with fate := .drop }) (fun u =>
    let d := u.decideFate src e.cls e e.data (parseFrame e.data) whole
    d.2.putRx src { e with fate := d.1 })

section Forward

variable {s u v : State} {p l n : Nat} {e : Rx} {whole : Bool} {ft : Fate}

theorem State.forwardRx_disabled (hready : s.flag STORE_STATUS_ready = false) :
    s.forwardRx p l n e whole = (s.count STORE_CTR_disabled_drops).putRx (8 * p + l) { e with fate := .drop } := by
  simp [State.forwardRx, hready]

theorem State.forwardRx_overrun (hready : s.flag STORE_STATUS_ready = true) (hslot : s.lookupSlot p n = none) :
    s.forwardRx p l n e whole = (s.countL PORT_LCTR_lookup_overrun_drops (8 * p + l)).putRx (8 * p + l) { e with fate := .drop } := by
  simp [State.forwardRx, hready, hslot]

theorem State.forwardRx_fate (hready : s.flag STORE_STATUS_ready = true) (hslot : s.lookupSlot p n = some u)
    (hfate : u.decideFate (8 * p + l) e.cls e e.data (parseFrame e.data) whole = (ft, v)) :
    s.forwardRx p l n e whole = v.putRx (8 * p + l) { e with fate := ft } := by
  simp [State.forwardRx, hready, hslot, hfate]

end Forward

section Decision

variable {s : State} {p l : Nat} {r : Rx} {b : Bytes} {whole : Bool}

/-- The decision comes once, of what was received when no replay is under way. -/
theorem State.decideFrame_first (hrx : (s.link (8 * p + l)).rx = some r) (hdec : r.decided = false) (hrep : s.replaying = false) :
    s.decideFrame p l b whole = s.judgeFrame p l b whole true := by
  simp [State.decideFrame, hrx, hdec, hrep]

/-- Outside a recording nothing is recorded. -/
theorem State.recordFrame_off {src cls arr : Nat} {stamp : FT64} (h : s.recording = false) : s.recordFrame src cls stamp arr b = (false, s) := by
  simp [State.recordFrame, h]

/-- A policer that is not enabled gives no colour. -/
theorem State.police_off {src cls est : Nat} {stamp : FT64} (h : s.flag (PORT_POL_RATE_en (src / 8) (src % 8) cls) = false) :
    s.police src cls stamp est = (0, s) := by
  simp [State.police, h]

variable (hdrop : r.dropped = false) (hacc : r.accept = true)
include hdrop hacc

/-- A frame that its tag admits, and that is not whole at less than 64 bytes, is one that gets a fate. -/
theorem Rx.hasFate (hlong : whole = false ∨ 60 ≤ (r.seen b whole).data.length) :
    ¬ (r.dropped || !r.accept || (whole && decide ((b.take (if whole = true then 252 else 256)).length < 60))) = true := by
  rcases hlong with h | h
  · simp [hdrop, hacc, h]
  · simpa [hdrop, hacc, Rx.seen] using fun _ => h

variable (hrx : (s.link (8 * p + l)).rx = some r)
include hrx

/-- A frame under 64 bytes that has come whole gets no fate. -/
theorem State.judgeFrame_runt (hwhole : whole = true) (hshort : (r.seen b whole).data.length < 60) :
    s.judgeFrame p l b whole true = s.putRx (8 * p + l) (r.seen b whole) := by
  unfold State.judgeFrame
  simp only [hrx]
  exact if_pos (by simpa [hdrop, hacc, hwhole, Rx.seen] using hshort)

variable (hlong : whole = false ∨ 60 ≤ (r.seen b whole).data.length)
include hlong

/-- Row 1: a PFC or link control frame is the port's (R74). -/
theorem State.judgeFrame_control (hrow : s.portRow (8 * p + l) (r.seen b whole).data (parseFrame (r.seen b whole).data) = some 1) :
    s.judgeFrame p l b whole true = s.putRx (8 * p + l) { r.seen b whole with fate := .port, cls := 7 } := by
  rw [Rx.seen] at hrow
  unfold State.judgeFrame
  simp only [hrx, hrow]
  exact if_neg (Rx.hasFate hdrop hacc hlong)

/-- A port that is not UP drops what is no row 1 frame. -/
theorem State.judgeFrame_notUp (hrow : s.portRow (8 * p + l) (r.seen b whole).data (parseFrame (r.seen b whole).data) ≠ some 1)
    (hup : s.isUp (8 * p + l) = false) : s.judgeFrame p l b whole true =
      s.putRx (8 * p + l) { r.seen b whole with cls := s.classify p (parseFrame (r.seen b whole).data), dropped := true } := by
  rw [Rx.seen] at hrow
  unfold State.judgeFrame
  simp only [hrx, hup]
  rw [if_neg (Rx.hasFate hdrop hacc hlong)]
  generalize s.portRow _ _ _ = row at hrow ⊢
  match row, hrow with
  | none, _ => rfl
  | some 0, _ => rfl
  | some 1, hrow => exact absurd rfl hrow
  | some (_ + 2), _ => rfl

/-- Rows 2 and 3: a PTP or time frame that finds a lookup slot is the port's (R74, R91). -/
theorem State.judgeFrame_time {i : Nat} {u : State}
    (hrow : s.portRow (8 * p + l) (r.seen b whole).data (parseFrame (r.seen b whole).data) = some i) (hi : i ≠ 1)
    (hup : s.isUp (8 * p + l) = true) (hslot : s.lookupSlot p (if whole then (r.seen b whole).data.length + 4 else 256) = some u) :
    s.judgeFrame p l b whole true =
      u.putRx (8 * p + l) { r.seen b whole with cls := s.classify p (parseFrame (r.seen b whole).data), fate := .port } := by
  rw [Rx.seen] at hrow hslot
  unfold State.judgeFrame
  simp only [hrx]
  rw [if_neg (Rx.hasFate hdrop hacc hlong)]
  split
  · exact absurd (Option.some.inj (hrow.symm.trans ‹_›)) hi
  · simp only [hup, hrow, hslot]
    rfl

/-- Below rows 1 to 3, a frame that is neither recorded nor policed is forwarded or discarded. -/
theorem State.judgeFrame_forward (hrow : s.portRow (8 * p + l) (r.seen b whole).data (parseFrame (r.seen b whole).data) = none)
    (hup : s.isUp (8 * p + l) = true) (hrec : s.recording = false)
    (hpol : s.flag (PORT_POL_RATE_en p l (s.classify p (parseFrame (r.seen b whole).data))) = false) (hl : l < 8) :
    s.judgeFrame p l b whole true = s.forwardRx p l (if whole then (r.seen b whole).data.length + 4 else 256)
      { r.seen b whole with cls := s.classify p (parseFrame (r.seen b whole).data), colour := 0, recorded := false } whole := by
  have hpol' : s.flag (PORT_POL_RATE_en ((8 * p + l) / 8) ((8 * p + l) % 8) (s.classify p (parseFrame (r.seen b whole).data))) = false := by
    rw [show (8 * p + l) / 8 = p by omega, show (8 * p + l) % 8 = l by omega, hpol]
  rw [Rx.seen] at hrow hpol'
  unfold State.judgeFrame
  simp only [hrx]
  rw [if_neg (Rx.hasFate hdrop hacc hlong)]
  simp only [hrow, hup, State.recordFrame_off hrec, State.police_off hpol']
  unfold State.forwardRx Rx.seen
  cases s.lookupSlot p (if whole then (b.take (if whole then 252 else 256)).length + 4 else 256) <;> simp [*, State.putRx]

end Decision

/-! ### What the charge of a buffer leaves alone (R105, R108, R111) -/

/-- From `s` to `t` the frames that wait for their owner stay, and what every logical port is receiving. -/
structure State.KeepsRx (s t : State) : Prop where
  inbox : t.inbox = s.inbox
  rx : ∀ src, (t.link src).rx = (s.link src).rx

section KeepsRx

variable {s t u : State}

theorem State.KeepsRx.trans (h : s.KeepsRx t) (h' : t.KeepsRx u) : s.KeepsRx u :=
  ⟨h'.inbox.trans h.inbox, fun src => (h'.rx src).trans (h.rx src)⟩

theorem State.KeepsRx.of_rest (hinbox : t.inbox = s.inbox := by rfl) (hlinks : t.links = s.links := by rfl) : s.KeepsRx t :=
  ⟨hinbox, fun src => by rw [State.link, hlinks, State.link]⟩

theorem State.KeepsRx.refl (s : State) : s.KeepsRx s := .of_rest

theorem State.KeepsRx.ite {c : Prop} [Decidable c] {t' : State} (h : s.KeepsRx t) (h' : s.KeepsRx t') : s.KeepsRx (if c then t else t') := by
  split
  · exact h
  · exact h'

theorem State.KeepsRx.foldl {β : Type} {f : State → β → State} (l : List β) (h : ∀ (s : State) (x : β), s.KeepsRx (f s x)) :
    s.KeepsRx (l.foldl f s) :=
  List.foldlRecOn l f (.refl s) fun t ht x _ => ht.trans (h t x)

theorem State.keepsRx_setReg (s : State) (f : Fld) (v : Nat) : s.KeepsRx (s.setReg f v) := .of_rest

theorem State.keepsRx_countL (s : State) (f : Nat → Nat → Fld) (src : Nat) (n : Nat := 1) : s.KeepsRx (s.countL f src n) :=
  .ite .of_rest (.refl s)

theorem State.keepsRx_countM (s : State) (f : Nat → Nat → Fld) (g : Nat → Fld) (src : Nat) (n : Nat := 1) : s.KeepsRx (s.countM f g src n) :=
  .ite (s.keepsRx_countL f src n) .of_rest

/-- A change of a logical port beside what it is receiving. -/
theorem State.keepsRx_modLink (s : State) (src : Nat) (f : Link → Link) (hf : ∀ k : Link, (f k).rx = k.rx := by intro; rfl) :
    s.KeepsRx (s.modLink src f) where
  inbox := rfl
  rx i := by
    by_cases h : i = src
    · rw [h, State.link_modLink_self, hf]
    · rw [State.link_modLink_ne _ _ _ _ h]

theorem State.keepsRx_modFrm (s : State) (id : Nat) (f : Frm → Frm) : s.KeepsRx (s.modFrm id f) := by
  unfold State.modFrm
  split <;> exact .of_rest

theorem State.keepsRx_putFrame (s : State) (src : Nat) (seq : Option Nat) (b : Bytes) (good : Bool) (stamp : FT64) :
    s.KeepsRx (s.putFrame src seq b good stamp) := by
  have hemit : s.KeepsRx (s.emit (.frame src (s.preamble src seq) b good stamp)) := .of_rest
  exact (hemit.trans (State.keepsRx_countM _ _ _ src)).trans (State.keepsRx_countM _ _ _ src _)

theorem State.keepsRx_sendNow (s : State) (src : Nat) (c : CtlTx) : s.KeepsRx (s.sendNow src c) := by
  unfold State.sendNow
  extract_lets stamp b s1 s2
  have hstamp : s.KeepsRx s1 := .ite .of_rest (.refl s)
  have hleave : s1.KeepsRx s2 := .ite
    (((s1.keepsRx_modLink src _).trans (State.keepsRx_putFrame _ src _ b true stamp)).trans (State.keepsRx_modLink _ src _))
    (s1.keepsRx_putFrame src none b true stamp)
  refine .ite .of_rest ((hstamp.trans hleave).trans ?_)
  split
  · exact .of_rest
  · exact s2.keepsRx_modLink src _
  · exact .refl s2

theorem State.keepsRx_flushCtl (s : State) (src n : Nat) : s.KeepsRx (s.flushCtl src n) := by
  induction n generalizing s with
  | zero => exact .refl s
  | succ n ih =>
    unfold State.flushCtl
    split
    · exact .refl s
    · exact ((s.keepsRx_modLink src _).trans (State.keepsRx_sendNow _ src _)).trans (ih _)

theorem State.keepsRx_sendCtl (s : State) (src : Nat) (c : CtlTx) : s.KeepsRx (s.sendCtl src c) :=
  (s.keepsRx_modLink src _).trans (.ite (.refl _) (State.keepsRx_flushCtl _ src _))

theorem State.keepsRx_sendPfc (s : State) (src : Nat) (cs : List (Nat × Nat)) : s.KeepsRx (s.sendPfc src cs) :=
  .ite ((s.keepsRx_sendCtl src _).trans (State.keepsRx_countL _ _ src)) (.refl s)

theorem State.keepsRx_creditSync (s : State) (src : Nat) : s.KeepsRx (s.creditSync src) := by
  unfold State.creditSync
  extract_lets l g
  have hset : s.KeepsRx (s.setLink src { l with granted := g }) := s.keepsRx_modLink src (fun l => { l with granted := g })
  exact .ite (.ite (.refl s) (hset.trans (State.keepsRx_sendCtl _ src _))) (.refl s)

theorem State.keepsRx_bpSync (s : State) : s.KeepsRx s.bpSync := by
  unfold State.bpSync
  extract_lets owners bp old new s1 st s2 on off s3
  have hown : s.KeepsRx s1 := .foldl _ fun s _ => s.keepsRx_setReg _ _
  have hbp : s1.KeepsRx s2 := .of_rest
  have hpfc : s2.KeepsRx s3 := .foldl _ fun s _ => s.keepsRx_sendPfc _ _
  exact ((hown.trans hbp).trans hpfc).trans (.foldl _ fun s _ => s.keepsRx_creditSync _)

theorem State.keepsRx_usageSync (s : State) (o : Nat) : s.KeepsRx (s.usageSync o) :=
  .ite (s.keepsRx_bpSync.trans (.foldl _ fun s _ => s.keepsRx_creditSync _)) s.keepsRx_bpSync

/-- The charge of a buffer is corrected (R108). -/
theorem State.keepsRx_recharge (s : State) (unit len : Nat) : s.KeepsRx (s.recharge unit len) := by
  unfold State.recharge
  split
  · exact .refl s
  next b _ =>
    extract_lets n st s1
    have hcharge : s.KeepsRx (s1.setUsage b.owner (s1.usage b.owner + n - b.units)) := .of_rest
    exact hcharge.trans (State.keepsRx_usageSync _ _)

/-- Bytes join a frame in the store (R114). -/
theorem State.keepsRx_frameAppend (s : State) (id : Nat) (b : Bytes) : s.KeepsRx (s.frameAppend id b) := by
  unfold State.frameAppend
  split
  · next f buf _ _ =>
    extract_lets room fit extra s1
    have hwrite : s.KeepsRx s1 := .of_rest
    exact hwrite.trans (s1.keepsRx_modFrm id _)
  · exact s.keepsRx_modFrm id _
  · exact .refl s

end KeepsRx

/-! ### The tail (R22, R59, R73, R76) -/

/-- All bytes of a received frame at its tail. -/
def Rx.all (r : Rx) (b : Bytes) : Bytes := r.data ++ (if r.whole then [] else b)

/-- A good frame that has been taken is counted with its length, and retry moves on with a sequenced one. -/
def State.tailTaken (s : State) (src : Nat) (r : Rx) (b : Bytes) : State :=
  (((s.modLink src (fun k => { k with rx := none })).countL PORT_LCTR_rx_frames src).countL PORT_LCTR_rx_bytes src ((r.all b).length + 4)).llrTail
    src r .good

/-- Where a port gives credit, a frame's units count as received (R69). -/
def State.creditTail (s : State) (p src : Nat) (r : Rx) (len : Nat) : State :=
  if s.fcMode src == 2 && s.lossless p r.cls && r.fate != .port then
    (s.modLink src (fun k => { k with rxUnits := k.rxUnits.put 0 r.cls (k.rxUnits.get 0 r.cls + ceilDiv len 256) })).creditSync src
  else s

/-- The bytes behind a stored frame's first ones join it in its buffer, which is charged for its length (R108). -/
def State.fillTail (s : State) (id : Nat) (cut : Bytes) (from_ len : Nat) : State :=
  let s := (s.frameAppend id (cut.drop from_)).traffic (unitsAt 0 cut.length) (2 * unitsAt 0 cut.length)
  match s.frm id with
  | some f => s.recharge f.unit len
  | none => s

/-- A good group frame waits for its group's owner. -/
def State.groupTail (s : State) (id gid : Nat) : State :=
  let s := s.modFrm id (fun f => { f with tail := some .good })
  { s with inbox := s.inbox ++ [{ frm := id, gid := gid, token := false }] }

section Tail

variable {s : State} {p l : Nat} {r : Rx} {b : Bytes}

/-- An unsequenced frame is none of retry's. -/
theorem State.llrTail_unsequenced {src : Nat} (fcs : Fcs) (h : r.sequenced = false) : s.llrTail src r fcs = s := by
  simp [State.llrTail, h]

/-- A good sequenced frame advances next_expected (R59). -/
theorem State.llrTail_sequenced {src : Nat} (h : r.sequenced = true) (hacc : r.accept = true) :
    s.llrTail src r .good = s.modLink src (fun k => { k with nextExp := (k.nextExp + 1) % 65536 }) := by
  simp [State.llrTail, h, hacc]

variable (hrx : (s.link (8 * p + l)).rx = some r) (hdec : r.decided = true) (hlost : (s.link (8 * p + l)).lostAt = none) (hcut : r.cut = false)
include hrx hdec hlost hcut

/-- A frame under 64 bytes counts as that alone (R56, R73). -/
theorem State.rxTail_runt (hshort : (r.all b).length < 60) : s.rxTail p l b .good =
    (if !r.dropped && r.accept then (s.modLink (8 * p + l) (fun k => { k with rx := none })).llrTail (8 * p + l) r .good
      else s.modLink (8 * p + l) (fun k => { k with rx := none })).countL PORT_LCTR_rx_undersize (8 * p + l) := by
  rw [Rx.all] at hshort
  unfold State.rxTail
  simp only [hrx, hdec, hlost, hcut]
  exact if_pos hshort

variable (hlen : 60 ≤ (r.all b).length) (hmax : (r.all b).length + 4 ≤ s.maxFrame p) (hdrop : r.dropped = false) (hacc : r.accept = true)
  (hrec : r.recorded = false) (hcol : r.colour = 0)
include hlen hmax hdrop hacc hrec hcol

/-- A good frame of a length that the port takes is counted and meets its fate. -/
theorem State.rxTail_good :
    (r.fate = .drop → s.rxTail p l b .good = (s.tailTaken (8 * p + l) r b).creditTail p (8 * p + l) r ((r.all b).length + 4)) ∧
    (r.fate = .port → s.rxTail p l b .good = (s.tailTaken (8 * p + l) r b).tailCtl (8 * p + l) r (r.all b)) ∧
    (∀ id gid, r.fate = .group id gid → s.rxTail p l b .good =
      (((s.tailTaken (8 * p + l) r b).fillTail id ((r.all b).take (s.maxFrame p)) r.data.length ((r.all b).length + 4)).groupTail id gid).creditTail
        p (8 * p + l) r ((r.all b).length + 4)) := by
  simp only [State.tailTaken, Rx.all] at *
  generalize hall : r.data ++ (if r.whole = true then [] else b) = all at *
  have hn : min (all.length + 4) (s.maxFrame p) = all.length + 4 := by omega
  have hlong : decide (s.maxFrame p < all.length + 4) = false := by simpa using hmax
  refine ⟨fun hfate => ?_, fun hfate => ?_, fun id gid hfate => ?_⟩
  all_goals
    unfold State.rxTail
    simp only [hrx, hdec, hlost, hcut, hdrop, hacc, hrec, hall, hn, hlong, hfate, State.policeTail, hcol, State.creditTail]
    rw [if_neg (by simp), if_neg (by omega)]
    rfl

end Tail

/-! ### What a tail leaves -/

section Leaves

variable {s t u : State} {r : Rx} {b : Bytes}

theorem linksOnly.trans (h : linksOnly s t) (h' : linksOnly t u) : linksOnly s u :=
  Eq.trans h' (by rw [h])

theorem State.linksOnly_modLink (s : State) (src : Nat) (f : Link → Link) : linksOnly s (s.modLink src f) := rfl

theorem State.linksOnly_countL (s : State) (f : Nat → Nat → Fld) (src : Nat) (n : Nat := 1) : linksOnly s (s.countL f src n) := by
  unfold State.countL
  split <;> rfl

@[simp] theorem State.link_countL (s : State) (f : Nat → Nat → Fld) (src n k : Nat) : (s.countL f src n).link k = s.link k := by
  unfold State.countL
  split <;> rfl

/-- All that a good tail does to retry: next_expected advances, or nothing. -/
theorem State.llrTail_good_cases (s : State) (src : Nat) (r : Rx) :
    s.llrTail src r .good = s ∨ s.llrTail src r .good = s.modLink src (fun k => { k with nextExp := (k.nextExp + 1) % 65536 }) := by
  unfold State.llrTail
  split
  · exact .inr rfl
  · exact .inl rfl

@[simp] theorem State.reg_llrTail_good (s : State) (src : Nat) (r : Rx) (f : Fld) : (s.llrTail src r .good).reg f = s.reg f := by
  rcases s.llrTail_good_cases src r with h | h <;> rw [h]
  rfl

theorem State.linksOnly_tailTaken (s : State) (src : Nat) (r : Rx) (b : Bytes) : linksOnly s (s.tailTaken src r b) := by
  have hcounted := ((s.linksOnly_modLink src fun k => { k with rx := none }).trans
    (State.linksOnly_countL _ PORT_LCTR_rx_frames src)).trans (State.linksOnly_countL _ PORT_LCTR_rx_bytes src ((r.all b).length + 4))
  unfold State.tailTaken
  rcases State.llrTail_good_cases _ src r with h | h <;> rw [h]
  · exact hcounted
  · exact hcounted.trans (State.linksOnly_modLink _ src _)

/-- The logical port is free to receive, with retry moved on by a sequenced frame. -/
theorem State.link_tailTaken (s : State) (src : Nat) (b : Bytes) (hacc : r.accept = true) :
    (s.tailTaken src r b).link src = { s.link src with
      rx := none
      nextExp := if r.sequenced then ((s.link src).nextExp + 1) % 65536 else (s.link src).nextExp } := by
  unfold State.tailTaken
  cases h : r.sequenced
  · rw [State.llrTail_unsequenced _ h]
    simp
  · rw [State.llrTail_sequenced h hacc]
    simp

/-- Beside rx_frames and rx_bytes no register changes. -/
theorem State.reg_tailTaken_ne (s : State) {src : Nat} (r : Rx) (b : Bytes) {f : Fld} (hsrc : src < 192)
    (hframes : f.key ≠ (PORT_LCTR_rx_frames (src / 8) (src % 8)).key) (hbytes : f.key ≠ (PORT_LCTR_rx_bytes (src / 8) (src % 8)).key) :
    (s.tailTaken src r b).reg f = s.reg f := by
  simp only [State.tailTaken, State.reg_llrTail_good, State.countL, hsrc, if_true]
  rw [State.reg_count_ne _ _ _ _ hbytes, State.reg_count_ne _ _ _ _ hframes, State.reg_modLink]

/-- rx_frames counts the frame, and rx_bytes its length (R73). -/
theorem State.reg_tailTaken (s : State) {p l : Nat} (r : Rx) (b : Bytes) (hp : p < 24) (hl : l < 8) :
    (s.tailTaken (8 * p + l) r b).reg (PORT_LCTR_rx_frames p l) = (s.reg (PORT_LCTR_rx_frames p l) + 1) % 2 ^ 64 ∧
      (s.tailTaken (8 * p + l) r b).reg (PORT_LCTR_rx_bytes p l) = (s.reg (PORT_LCTR_rx_bytes p l) + (r.all b).length + 4) % 2 ^ 64 := by
  have hne : (PORT_LCTR_rx_frames p l).key ≠ (PORT_LCTR_rx_bytes p l).key := by
    simp only [Fld.key, PORT_LCTR_rx_frames, PORT_LCTR_rx_bytes]
    omega
  simp only [State.tailTaken, State.reg_llrTail_good, State.countL, show 8 * p + l < 192 by omega, if_true, show (8 * p + l) / 8 = p by omega,
    show (8 * p + l) % 8 = l by omega]
  constructor
  · rw [State.reg_count_ne _ _ _ _ hne, State.reg_count_self, State.reg_modLink]
    rfl
  · rw [State.reg_count_self, State.reg_count_ne _ _ _ _ hne.symm, State.reg_modLink]
    rfl

theorem State.fcMode_tailTaken (s : State) {src : Nat} (r : Rx) (b : Bytes) (hsrc : src < 192) :
    (s.tailTaken src r b).fcMode src = s.fcMode src := by
  unfold State.fcMode
  rw [State.reg_tailTaken_ne s r b hsrc]
  · simp only [Fld.key, PORT_FC_CFG_mode, PORT_LCTR_rx_frames]
    omega
  · simp only [Fld.key, PORT_FC_CFG_mode, PORT_LCTR_rx_bytes]
    omega

/-- A PFC frame joins the control frames that wait at the port. -/
theorem State.tailCtl_pfc (s : State) (src : Nat) (r : Rx) {b : Bytes} (h : isPfc b = true) :
    s.tailCtl src r b = s.modLink src (fun k => { k with ctl := k.ctl ++ [{ stamp := r.stamp, arr := r.arr, good := true, bytes := b }] }) := by
  simp [State.tailCtl, h]

/-- Where the port gives no credit a tail grants none. -/
theorem State.creditTail_off (s : State) (p : Nat) {src : Nat} (r : Rx) (len : Nat) (h : s.fcMode src ≠ 2) : s.creditTail p src r len = s := by
  simp [State.creditTail, h]

theorem State.keepsRx_creditTail (s : State) (p src : Nat) (r : Rx) (len : Nat) : s.KeepsRx (s.creditTail p src r len) :=
  .ite ((s.keepsRx_modLink src _).trans (State.keepsRx_creditSync _ src)) (.refl s)

theorem State.keepsRx_fillTail (s : State) (id : Nat) (cut : Bytes) (from_ len : Nat) : s.KeepsRx (s.fillTail id cut from_ len) := by
  unfold State.fillTail
  extract_lets s1
  have happend : s.KeepsRx s1 := (s.keepsRx_frameAppend id _).trans .of_rest
  split
  · exact happend.trans (s1.keepsRx_recharge _ len)
  · exact happend

/-- One frame more waits for its owner; nothing else of what `State.KeepsRx` names changes. -/
theorem State.groupTail_spec (s : State) (id gid : Nat) :
    (s.groupTail id gid).inbox = s.inbox ++ [{ frm := id, gid := gid, token := false }] ∧
      ∀ src, ((s.groupTail id gid).link src).rx = (s.link src).rx := by
  have hfrm := s.keepsRx_modFrm id (fun f => { f with tail := some .good })
  exact ⟨congrArg (· ++ [_]) hfrm.inbox, hfrm.rx⟩

end Leaves

/-! ### The statement -/

section Commands

variable {s : State} (p : Port) (l : Lp) (b : Bytes)

theorem exec_frameRxStart (hlive : s.live = true) : exec (.frameRxStart p l b) s = .next (s.rxStart p l b) :=
  State.does_live (fun s => s.rxStart p l b) hlive

theorem exec_frameDecision (hlive : s.live = true) (whole : Bool) : exec (.frameDecision p l b whole) s = .next (s.decideFrame p l b whole) :=
  State.does_live (fun s => s.decideFrame p l b whole) hlive

theorem exec_frameTail (hlive : s.live = true) (fcs : Fcs) : exec (.frameTail p l b fcs) s = .next (s.rxTail p l b fcs) :=
  State.does_live (fun s => s.rxTail p l b fcs) hlive

end Commands

/-- Settles O11: the first bit, the decision and the tail in turn, each by what its lemmas say of the one reception. -/
theorem frameReception : Obligations.FrameReception := by
  intro s p l b r hlive
  have hp := p.isLt
  have hl := l.isLt
  refine ⟨fun hst hlp hrx hrep pre => ?_, fun hrx hdec hdrop hacc hrep w n hd f d hhd hn hf hd' => ?_, fun hrx hdec hlost hcut all hall => ?_⟩
  · rw [exec_frameRxStart p l pre hlive]
    refine ⟨fun hoff => ?_, fun hon htag => ?_, fun q n hon htag hq hskip => ?_⟩
    · rw [State.rxStart_tagged hst hlp hrx hrep (State.tagIn_llrOff hoff)]
    · rw [State.rxStart_tagged hst hlp hrx hrep (State.tagIn_expected hon htag), State.modLink_modLink]
    · rw [State.rxStart_tagged hst hlp hrx hrep (State.tagIn_skipping hon htag hq hskip)]
  · subst hhd hf hn hd'
    rw [exec_frameDecision p l b hlive w, State.decideFrame_first hrx hdec hrep]
    refine ⟨fun hw hshort => ?_, fun hlong hrow => ?_, fun i hlong hrow hi hup u hslot => ?_, fun hlong hrow hup => ?_,
      fun e hlong hrow hup hrec hpol he => ?_⟩
    · exact congrArg Host.Outcome.next (State.judgeFrame_runt hdrop hacc hrx hw hshort)
    · exact congrArg Host.Outcome.next (State.judgeFrame_control hdrop hacc hrx hlong hrow)
    · exact congrArg Host.Outcome.next (State.judgeFrame_time hdrop hacc hrx hlong hrow hi hup hslot)
    · exact congrArg Host.Outcome.next (State.judgeFrame_notUp hdrop hacc hrx hlong hrow hup)
    · subst he
      rw [State.judgeFrame_forward hdrop hacc hrx hlong hrow hup hrec hpol hl]
      refine ⟨fun hready => ?_, fun hready hslot => ?_, fun u ft v hready hslot hfate => ?_⟩
      · exact congrArg Host.Outcome.next (State.forwardRx_disabled hready)
      · exact congrArg Host.Outcome.next (State.forwardRx_overrun hready hslot)
      · exact congrArg Host.Outcome.next (State.forwardRx_fate hready hslot hfate)
  · obtain rfl : all = r.all b := hall
    have hrun := exec_frameTail p l b hlive .good
    refine ⟨fun hshort hseq => ?_, fun hshort hseq hdrop hacc => ?_, fun hlen hmax hdrop hacc hrec hcol hfc => ?_⟩
    · rw [hrun, State.rxTail_runt hrx hdec hlost hcut hshort, State.llrTail_unsequenced _ hseq, ite_self]
    · rw [hrun, State.rxTail_runt hrx hdec hlost hcut hshort, State.llrTail_sequenced hseq hacc, State.modLink_modLink, hdrop, hacc]
      rfl
    · obtain ⟨hdropped, hport, hgroup⟩ := State.rxTail_good hrx hdec hlost hcut hlen hmax hdrop hacc hrec hcol
      have hlink := s.link_tailTaken (8 * p + l) b hacc
      have honly := s.linksOnly_tailTaken (8 * p + l) r b
      refine ⟨fun hfate => ⟨_, hdropped hfate ▸ hrun, ?_⟩, fun hfate hpfc => ⟨_, hport hfate ▸ hrun, ?_⟩,
        fun id gid hfate => ⟨_, hgroup id gid hfate ▸ hrun, ?_⟩⟩
      · obtain ⟨hframes, hbytes⟩ := s.reg_tailTaken r b hp hl
        rw [State.creditTail_off _ _ _ _ (by rwa [State.fcMode_tailTaken _ _ _ (by omega)]), hlink]
        exact ⟨rfl, rfl, hframes, hbytes, honly⟩
      · rw [State.tailCtl_pfc _ _ _ hpfc]
        refine ⟨?_, ?_, honly.trans (State.linksOnly_modLink _ _ _)⟩ <;> rw [State.link_modLink_self, hlink]
      · have hfill := State.keepsRx_fillTail (s.tailTaken (8 * p + l) r b) id ((r.all b).take (s.maxFrame p)) r.data.length ((r.all b).length + 4)
        generalize State.fillTail _ _ _ _ _ = u at hfill ⊢
        obtain ⟨hinbox, hlinks⟩ := u.groupTail_spec id gid
        have hcredit := (u.groupTail id gid).keepsRx_creditTail p (8 * p + l) r ((r.all b).length + 4)
        constructor
        · rw [hcredit.rx, hlinks, hfill.rx, hlink]
        · rw [hcredit.inbox, hinbox, hfill.inbox, congrArg State.inbox honly]

end Sys2Proof.Machine
end

section
/-! PROOFS. Egress (R56, R87): a stored copy whose rewrite strips a tag may fit where the frame itself is too long. -/

namespace Sys2Proof.Machine

/-- What holds after a command holds of the state that the command leaves. -/
theorem Yields.holds {c : Instr} {s t : State} {P : State → Prop} (h : Yields c s P) (hrun : exec c s = .next t) : P t := by
  obtain ⟨u, hu, hp⟩ := h
  rw [hrun] at hu
  cases hu
  exact hp

/-- A whole frame of tc7 with a VLAN tag, 1,522 bytes long with its FCS. -/
def taggedLong : Frm := { src := 8, cnt := 8, stamp := 0, arr := 0, unit := 1, len := 1518, tail := some .good, est := none, cls := 7, copies := 1 }

/-- Its stored copy for an egress port that strips the tag (R82): 1,518 bytes. -/
def strippedCopy : Copy := { frm := 1, edit := { vlanOp := 1 }, cut := false, rep := false }

/-- Clocks running, logical port 0 UP with that copy at the head of tc7, and max_frame 1,518. Of the frame's bytes the store lists the first of its
EtherType, 0x8100; the others are zero. -/
def strippedAtHead : State :=
  { regs := [((PORT_FRAME_CFG_max_frame 0).key, 1518)]
    links := [(0, { st := .up, eg := { q := [(7, [strippedCopy])] } })]
    frames := [(1, taggedLong)]
    store := { mem := [(268, 0x81)] } }

/-- EGRESS_SELECT discards the head as too long, by the frame's length and not the copy's, and starts nothing. -/
theorem egressSelect_strippedAtHead :
    ((strippedAtHead.egressSelect (srcOf (0 : Port) 0)).link (srcOf (0 : Port) 0)).eg.tx = none ∧
      (strippedAtHead.egressSelect (srcOf (0 : Port) 0)).reg (PORT_LCTR_mtu_drops 1 0) = 1 := by
  decide +kernel

theorem exec_egressSelect_strippedAtHead :
    exec (.egressSelect 0 0) strippedAtHead = .next (strippedAtHead.egressSelect (srcOf (0 : Port) 0)) :=
  State.does_live (fun s => s.egressSelect (srcOf (0 : Port) 0)) rfl

/-- Refutes O13: its premise on length asks only that the copy's scheduling length lie within max_frame. A stored frame that is itself longer than
max_frame is discarded all the same (R87), so the head of tc7 of 1,522 bytes, 1,518 without its tag, does not start. -/
theorem not_egressTransmission : ¬ Obligations.EgressTransmission := by
  intro h
  obtain ⟨hselect, -, -⟩ := h strippedAtHead 0 0 strippedCopy [] taggedLong rfl
  obtain ⟨htc7, -⟩ := hselect (by decide +kernel) (by decide +kernel) (by decide +kernel) (by decide +kernel) (by decide +kernel)
    (by decide +kernel) (by decide +kernel) (by decide +kernel)
  have hstarts := htc7 (by decide +kernel) (by decide +kernel)
  obtain ⟨-, htx⟩ := hstarts.holds exec_egressSelect_strippedAtHead
  obtain ⟨hnone, -⟩ := egressSelect_strippedAtHead
  rw [hnone] at htx
  cases htx

end Sys2Proof.Machine
end

section
/-! PROOFS. Device time as it passes, and the choice of its source (R31, R34, R46, R441): what comes due in a command's cycles, one equation a case,
and what entering FREE leaves of the registers. -/

namespace Sys2Proof.Machine

/-! ### Registers read as numbers and flags -/

theorem State.regInt_congr {s t : State} {f : Fld} (h : t.reg f = s.reg f) : t.regInt f = s.regInt f := by
  have hget : t.regs.get f = s.regs.get f := h
  simp only [State.regInt, Regs.getInt, hget]

theorem State.flag_congr {s t : State} {f : Fld} (h : t.reg f = s.reg f) : t.flag f = s.flag f :=
  congrArg (· != 0) h

/-! ### What comes due (R46) -/

section Passing

variable {s : State} {n k : Nat} {f : State → State}

theorem State.upcoming_idle (hpips : s.clk.pips = []) (hsched : s.clk.sched = []) : s.upcoming = none := by
  simp only [State.upcoming, hpips, hsched]

theorem State.upcoming_event {e : Sched} {r : List Sched} (hpips : s.clk.pips = []) (hsched : s.clk.sched = e :: r) :
    s.upcoming = some (s.cyclesTo e.at_, fun s => s.fireFirst e r) := by
  simp only [State.upcoming, hpips, hsched]

theorem State.advance_idle (m : Nat) (h : s.upcoming = none) : State.advance m n s = s.tick n := by
  cases m with
  | zero => rfl
  | succ m => simp only [State.advance, h]

theorem State.advance_early (m : Nat) (h : s.upcoming = some (k, f)) (hk : n < k) : State.advance m n s = s.tick n := by
  cases m with
  | zero => rfl
  | succ m => simp only [State.advance, h, if_pos hk]

theorem State.advance_fires (m : Nat) (h : s.upcoming = some (k, f)) (hk : k ≤ n) :
    State.advance (m + 1) n s = State.advance m (n - k) (f (s.tick k)) := by
  simp only [State.advance, h, if_neg (Nat.not_lt.mpr hk)]

/-- A command allows for at least one event. -/
theorem State.rounds_succ (s : State) (n : Nat) : ∃ m, s.rounds n = m + 1 :=
  Nat.exists_eq_succ_of_ne_zero (Nat.mul_ne_zero (Nat.succ_ne_zero n) (Nat.succ_ne_zero _))

theorem exec_scheduledEventFire (hlive : s.live = true) (n : Nat) :
    exec (.scheduledEventFire n) s = .next (State.advance (s.rounds n) n s) :=
  State.does_live (fun s => State.advance (s.rounds n) n s) hlive

/-! ### Cycles that pass (R31) -/

@[simp] theorem State.tick_zero (s : State) : s.tick 0 = s := by
  simp [State.tick]

theorem State.perCycle_tick (s : State) (n : Nat) : (s.tick n).perCycle = s.perCycle := rfl

theorem State.tick_add (s : State) (k m : Nat) : (s.tick k).tick m = s.tick (k + m) := by
  rw [State.tick, State.perCycle_tick]
  simp only [State.tick, BitVec.add_assoc, ← BitVec.ofNat_add, ← Nat.add_mul, Nat.add_assoc]

/-- The end of a reset takes the schedule's last event out and clears busy (R441). -/
def State.resetEnds (s : State) : State := State.setReg { s with clk := { s.clk with sched := [] } } HUB_RESET_STATUS_busy 0

theorem State.fireFirst_resetDone (s : State) {e : Sched} (he : e.ev = .resetDone) : s.fireFirst e [] = s.resetEnds := by
  simp only [State.fireFirst, he, State.fire, State.resetEnds]

/-- The end of a reset leaves the rate, so the cycles after it are as long. -/
theorem State.tick_resetEnds (s : State) (m : Nat) : s.resetEnds.tick m = (s.tick m).resetEnds := by
  have hrate : s.resetEnds.regInt TIME_RATE_rate = s.regInt TIME_RATE_rate :=
    State.regInt_congr (State.reg_setReg_ne _ _ _ _ (by decide))
  have hper : s.resetEnds.perCycle = s.perCycle := by simp only [State.perCycle, hrate]
  simp only [State.tick, hper]
  rfl

end Passing

/-! ### What a record and an event leave of the registers (R329, R380) -/

theorem State.reg_raise_ne (s : State) (e : Event) {f : Fld} (h : f.key ≠ e.st.key) (h' : f.key ≠ HUB_MSIX_PBA_pending.key) :
    (s.raise e).reg f = s.reg f := by
  have hset := s.reg_setW1c_ne e.st f (2 ^ e.sub) h
  rcases s.raise_cases e with hr | ⟨v, hr⟩
  · rw [hr, hset]
  · rcases (s.setW1c e.st (2 ^ e.sub)).signal_cases v with hv | hv
    · rw [hr, hv, State.reg_setReg_ne _ _ _ _ h', hset]
    · rw [hr, hv, State.reg_emit, hset]

theorem State.reg_recordNow (s : State) (kind src : Nat) (payload : Bytes) {f : Fld} (h : f.key ≠ SBK_CTR_records_lost.key) :
    (s.recordNow kind src payload).reg f = s.reg f := by
  simp only [State.recordNow, State.record, State.recordLost]
  split
  · split
    · exact State.reg_count_ne _ _ _ _ h
    · rfl
  · rfl

/-! ### FREE (R41) -/

/-- The registers that entering FREE may write. -/
def freeWrites : List Fld := [TIME_STATUS_state, TIME_HOLDOVER_TIME_elapsed, SBK_CTR_records_lost, TIME_STATUS_free_ev, HUB_MSIX_PBA_pending]

/-- The discipline is in FREE, and every register that entering FREE does not write is as it was. -/
theorem State.enter_free_spec (s : State) : (s.enter dFree).reg TIME_STATUS_state = dFree ∧
    ∀ f : Fld, (∀ g ∈ freeWrites, f.key ≠ g.key) → (s.enter dFree).reg f = s.reg f := by
  unfold State.enter
  extract_lets old s1 s2 c3 s3
  rw [if_pos rfl]
  split
  · next h => exact ⟨h, fun _ _ => rfl⟩
  · refine ⟨?_, fun f hf => ?_⟩
    · rw [State.reg_raise_ne s3 _ (by decide) (by decide)]
      exact (State.reg_recordNow _ _ _ _ (by decide)).trans (s1.reg_setReg_self _ _)
    · simp only [freeWrites, List.forall_mem_cons] at hf
      obtain ⟨hstate, helapsed, hlost, hfree, hpba, -⟩ := hf
      have h1 : s1.reg f = s.reg f := by
        show State.reg (if _ then _ else _) f = _
        split
        · exact State.reg_setReg_ne _ _ _ _ helapsed
        · rfl
      rw [State.reg_raise_ne s3 _ hfree hpba]
      exact ((State.reg_recordNow _ _ _ _ hlost).trans (State.reg_setReg_ne s1 _ _ _ hstate)).trans h1

/-! ### TIME_RATE and TIME_SRC_CFG (R31, R34) -/

/-- The fields of TIME_SRC_CFG as a write gives them. -/
def State.srcFields (s : State) (v : Nat) : State :=
  (((((s.setReg TIME_SRC_CFG_src_sel (bits v 0 2)).setReg TIME_SRC_CFG_backup_sel (bits v 2 2)).setReg TIME_SRC_CFG_auto_switch (bits v 4 1)).setReg
    TIME_SRC_CFG_beacon_port (bits v 8 5)).setReg TIME_SRC_CFG_ptp_port (bits v 16 5)).setReg TIME_SRC_CFG_logical (bits v 24 3)

theorem State.reg_srcFields_ne (s : State) (v : Nat) {f : Fld}
    (hf : ∀ g ∈ [TIME_SRC_CFG_src_sel, TIME_SRC_CFG_backup_sel, TIME_SRC_CFG_auto_switch, TIME_SRC_CFG_beacon_port, TIME_SRC_CFG_ptp_port,
      TIME_SRC_CFG_logical], f.key ≠ g.key) : (s.srcFields v).reg f = s.reg f := by
  simp only [List.forall_mem_cons] at hf
  obtain ⟨hsel, hbackup, hauto, hbeacon, hptp, hlogical, -⟩ := hf
  simp only [State.srcFields, State.reg_setReg_ne _ _ _ _ hsel, State.reg_setReg_ne _ _ _ _ hbackup, State.reg_setReg_ne _ _ _ _ hauto,
    State.reg_setReg_ne _ _ _ _ hbeacon, State.reg_setReg_ne _ _ _ _ hptp, State.reg_setReg_ne _ _ _ _ hlogical]

theorem State.reg_srcFields_sel (s : State) (v : Nat) : (s.srcFields v).reg TIME_SRC_CFG_src_sel = bits v 0 2 := by
  simp only [State.srcFields]
  rw [State.reg_setReg_ne _ _ _ _ (by decide), State.reg_setReg_ne _ _ _ _ (by decide), State.reg_setReg_ne _ _ _ _ (by decide),
    State.reg_setReg_ne _ _ _ _ (by decide), State.reg_setReg_ne _ _ _ _ (by decide), State.reg_setReg_self]
  exact Nat.mod_mod ..

theorem State.srcActive_srcFields (s : State) (v : Nat) : (s.srcFields v).srcActive = s.srcActive := s.reg_srcFields_ne v (by decide)

/-- Source 3 has no delay to show. -/
theorem State.reg_useSource_none (s : State) (f : Fld) : (s.useSource 3).reg f = (s.setReg TIME_STATUS_src_active 3).reg f := rfl

section Sources

variable {s : State} {v : Nat}

theorem State.srcCfgWrite_none (h : bits v 0 2 = 3) : s.srcCfgWrite v =
    { ((s.srcFields v).useSource 3).enter dFree with
      clk := { (((s.srcFields v).useSource 3).enter dFree).clk with pending := none, onBackup := false } } :=
  if_pos h

theorem State.srcCfgWrite_inUse (h : bits v 0 2 ≠ 3) (huse : bits v 0 2 = s.srcActive) :
    s.srcCfgWrite v = { s.srcFields v with clk := { s.clk with pending := none, onBackup := false } } :=
  (if_neg h).trans (if_pos (huse.trans (s.srcActive_srcFields v).symm))

theorem State.srcCfgWrite_waits (h : bits v 0 2 ≠ 3) (huse : bits v 0 2 ≠ s.srcActive) :
    s.srcCfgWrite v = { s.srcFields v with clk := { s.clk with pending := some (bits v 0 2) } } :=
  (if_neg h).trans (if_neg fun hu => huse (hu.trans (s.srcActive_srcFields v)))

theorem exec_timeSrcCfgWrite (hlive : s.live = true) (v : Nat) : exec (.timeSrcCfgWrite v) s = .next (s.srcCfgWrite v) :=
  State.does_live (fun s => s.srcCfgWrite v) hlive

theorem exec_timeRateWrite (hlive : s.live = true) (v : Nat) : exec (.timeRateWrite v) s = .next (s.rateWrite v) :=
  State.does_live (fun s => s.rateWrite v) hlive

theorem State.rateWrite_host (h : s.flag TIME_CTRL_servo_en = false) : s.rateWrite v = s.setRegInt TIME_RATE_rate (rateLimit (signed 32 v)) := by
  simp only [State.rateWrite, h, Bool.false_eq_true, if_false]

theorem State.rateWrite_servo (h : s.flag TIME_CTRL_servo_en = true) : s.rateWrite v = s := by
  simp only [State.rateWrite, h, if_true]

/-- Source 3 acts at once: in use, with the discipline in FREE. -/
theorem State.srcCfgWrite_none_regs (h : bits v 0 2 = 3) :
    (s.srcCfgWrite v).reg TIME_SRC_CFG_src_sel = 3 ∧ (s.srcCfgWrite v).srcActive = 3 ∧ (s.srcCfgWrite v).reg TIME_STATUS_state = dFree := by
  obtain ⟨hfree, hrest⟩ := ((s.srcFields v).useSource 3).enter_free_spec
  rw [State.srcCfgWrite_none h]
  refine ⟨?_, ?_, hfree⟩
  · calc (((s.srcFields v).useSource 3).enter dFree).reg TIME_SRC_CFG_src_sel
      _ = ((s.srcFields v).useSource 3).reg TIME_SRC_CFG_src_sel := hrest _ (by decide)
      _ = (s.srcFields v).reg TIME_SRC_CFG_src_sel := (State.reg_useSource_none _ _).trans (State.reg_setReg_ne _ _ _ _ (by decide))
      _ = 3 := (s.reg_srcFields_sel v).trans h
  · calc (((s.srcFields v).useSource 3).enter dFree).reg TIME_STATUS_src_active
      _ = ((s.srcFields v).useSource 3).reg TIME_STATUS_src_active := hrest _ (by decide)
      _ = 3 := (State.reg_useSource_none _ _).trans (State.reg_setReg_self _ _ _)

end Sources

/-! ### The statement -/

/-- Settles O2: the cycles by what comes due in them, a write by the case of its source. -/
theorem timeAdvancesByTheRate : Obligations.TimeAdvancesByTheRate := by
  refine ⟨fun s n hlive hpips => ?_, fun s v hlive => ?_⟩
  · obtain ⟨m, hm⟩ := s.rounds_succ n
    have hrun := exec_scheduledEventFire hlive n
    refine ⟨fun hnone => ?_, rfl, fun e r t hsched hk ht hnext => ?_, fun e hsched hev hk => ?_⟩
    · rcases hnone with hsched | ⟨e, r, hsched, hk⟩
      · rw [hrun, State.advance_idle _ (State.upcoming_idle hpips hsched)]
      · rw [hrun, State.advance_early _ (State.upcoming_event hpips hsched) hk]
    · have hdone : State.advance m 0 t = t := by
        rcases hnext with hnone | ⟨k, f, hnext, hpos⟩
        · rw [State.advance_idle m hnone, State.tick_zero]
        · rw [State.advance_early m hnext hpos, State.tick_zero]
      rw [hrun, hm, State.advance_fires m (State.upcoming_event hpips hsched) (Nat.le_of_eq hk), hk, Nat.sub_self]
      exact congrArg Host.Outcome.next (ht ▸ hdone)
    · rw [hrun, hm, State.advance_fires m (State.upcoming_event hpips hsched) hk]
      refine congrArg Host.Outcome.next ?_
      have hidle : ((s.tick (s.cyclesTo e.at_)).resetEnds).upcoming = none := State.upcoming_idle hpips rfl
      rw [State.fireFirst_resetDone _ hev, State.advance_idle m hidle, State.tick_resetEnds, State.tick_add, Nat.add_sub_cancel' hk]
      rfl
  · have hrate := exec_timeRateWrite hlive v
    have hrun := exec_timeSrcCfgWrite hlive v
    refine ⟨fun hen => ?_, fun hen => ?_, fun h3 => ⟨_, hrun, ?_⟩, fun h3 huse => ⟨_, hrun, ?_⟩, fun h3 huse => ⟨_, hrun, ?_⟩⟩
    · rw [hrate, State.rateWrite_host hen]
      rfl
    · rw [hrate, State.rateWrite_servo hen]
    · obtain ⟨hsel, hact, hstate⟩ := State.srcCfgWrite_none_regs (s := s) h3
      refine ⟨hsel, hact, hstate, ?_⟩
      rw [State.srcCfgWrite_none h3]
      exact ⟨rfl, rfl⟩
    · rw [State.srcCfgWrite_waits h3 huse]
      exact ⟨s.reg_srcFields_sel v, s.srcActive_srcFields v, s.reg_srcFields_ne v (by decide), rfl⟩
    · rw [State.srcCfgWrite_inUse h3 huse]
      exact ⟨s.reg_srcFields_sel v, s.srcActive_srcFields v, s.reg_srcFields_ne v (by decide), rfl, rfl⟩

end Sys2Proof.Machine
end

section
/-! PROOFS. Frames that ports send of their own, and the beacons among them (R35, R37, R66): what a port's own frame leaves alone is proved once for
each operation on its way, and the beacons of one interval are a run over the logical ports. -/

namespace Sys2Proof.Machine

/-! ### What a port's own frame leaves alone (R66) -/

/-- From `s` to `t` ports have sent frames of their own: beside what `linksOnly` names, the registers of fabric time stay as they are, and every
logical port its state. -/
structure State.SendsOnly (s t : State) : Prop where
  only : linksOnly s t
  time : ∀ f : Fld, offIn 0x700000 0x800000 f.off = true → f.lo < 64 → t.reg f = s.reg f
  st : ∀ src, (t.link src).st = (s.link src).st

section SendsOnly

variable {s t u : State}

theorem State.SendsOnly.trans (h : s.SendsOnly t) (h' : t.SendsOnly u) : s.SendsOnly u where
  only := linksOnly.trans h.only h'.only
  time f hf hlo := (h'.time f hf hlo).trans (h.time f hf hlo)
  st src := (h'.st src).trans (h.st src)

/-- An update outside the registers and the logical ports. -/
theorem State.SendsOnly.of_rest (honly : linksOnly s t) (hregs : t.regs = s.regs := by rfl) (hlinks : t.links = s.links := by rfl) :
    s.SendsOnly t where
  only := honly
  time _ _ _ := by simp only [State.reg, hregs]
  st _ := by simp only [State.link, hlinks]

theorem State.SendsOnly.refl (s : State) : s.SendsOnly s := .of_rest rfl

theorem State.SendsOnly.ite {c : Prop} [Decidable c] {t' : State} (h : c → s.SendsOnly t) (h' : ¬ c → s.SendsOnly t') :
    s.SendsOnly (if c then t else t') := by
  split
  · exact h ‹_›
  · exact h' ‹_›

theorem State.sendsOnly_count (s : State) {f : Fld} (hoff : offIn 0x700000 0x800000 f.off = false) (hlo : f.lo < 64) (n : Nat := 1) :
    s.SendsOnly (s.count f n) where
  only := rfl
  time g hg hglo := by
    refine State.reg_count_ne s f g n ?_
    simp only [offIn, Bool.and_eq_true, Bool.and_eq_false_iff, decide_eq_true_eq, decide_eq_false_iff_not] at hoff hg
    simp only [Fld.key]
    omega
  st _ := rfl

theorem State.sendsOnly_modLink (s : State) (src : Nat) (f : Link → Link) (hf : ∀ l : Link, (f l).st = l.st := by intro; rfl) :
    s.SendsOnly (s.modLink src f) where
  only := rfl
  time _ _ _ := rfl
  st i := by
    by_cases h : i = src
    · rw [h, State.link_modLink_self, hf]
    · rw [s.link_modLink_ne src i f h]

/-- Counters of what a port transmits lie outside the block of fabric time. -/
theorem State.sendsOnly_countM (s : State) {f : Nat → Nat → Fld} {g : Nat → Fld}
    (hf : ∀ p l, p < 24 → l < 8 → (f p l).off < 0x700000 ∧ (f p l).lo < 64) (hg : ∀ m, 0x800000 ≤ (g m).off ∧ (g m).lo < 64) (src : Nat)
    (n : Nat := 1) : s.SendsOnly (s.countM f g src n) := by
  refine .ite (fun h => .ite (fun _ => ?_) fun _ => .refl s) fun _ => ?_
  · obtain ⟨hoff, hlo⟩ := hf (src / 8) (src % 8) (by omega) (by omega)
    exact s.sendsOnly_count (offIn_eq_false (.inl hoff)) hlo n
  · obtain ⟨hoff, hlo⟩ := hg (src - 192)
    exact s.sendsOnly_count (offIn_eq_false (.inr hoff)) hlo n

theorem State.sendsOnly_putFrame (s : State) (src : Nat) (seq : Option Nat) (b : Bytes) (good : Bool) (stamp : FT64) :
    s.SendsOnly (s.putFrame src seq b good stamp) := by
  have hemit : s.SendsOnly (s.emit (.frame src (s.preamble src seq) b good stamp)) := .of_rest rfl
  refine (hemit.trans (State.sendsOnly_countM _ (fun p l hp hl => ⟨?_, Nat.zero_lt_succ _⟩) (fun m => ⟨?_, Nat.zero_lt_succ _⟩) src)).trans
    (State.sendsOnly_countM _ (fun p l hp hl => ⟨?_, Nat.zero_lt_succ _⟩) (fun m => ⟨?_, Nat.zero_lt_succ _⟩) src _)
  · simp only [PORT_LCTR_tx_frames]; omega
  · simp only [MIR_CTR_tx_frames]; omega
  · simp only [PORT_LCTR_tx_bytes]; omega
  · simp only [MIR_CTR_tx_bytes]; omega

theorem State.sendsOnly_sendNow (s : State) (src : Nat) (c : CtlTx) : s.SendsOnly (s.sendNow src c) := by
  unfold State.sendNow
  split
  · exact s.sendsOnly_count rfl (by decide)
  extract_lets stamp b s1 s2
  have h1 : s.SendsOnly s1 := .ite (fun _ => .of_rest rfl) (fun _ => .refl s)
  have h2 : s1.SendsOnly s2 := .ite
    (fun _ => ((s1.sendsOnly_modLink src _).trans (State.sendsOnly_putFrame _ src _ b true stamp)).trans (State.sendsOnly_modLink _ src _))
    (fun _ => s1.sendsOnly_putFrame src none b true stamp)
  refine (h1.trans h2).trans ?_
  split
  · exact .of_rest rfl
  · exact s2.sendsOnly_modLink src _
  · exact .refl s2

theorem State.sendsOnly_flushCtl (s : State) (src n : Nat) : s.SendsOnly (s.flushCtl src n) := by
  induction n generalizing s with
  | zero => exact .refl s
  | succ n ih =>
    unfold State.flushCtl
    split
    · exact .refl s
    · exact ((s.sendsOnly_modLink src _).trans (State.sendsOnly_sendNow _ src _)).trans (ih _)

theorem State.sendsOnly_sendCtl (s : State) (src : Nat) (c : CtlTx) : s.SendsOnly (s.sendCtl src c) :=
  (s.sendsOnly_modLink src _).trans (.ite (fun _ => .refl _) (fun _ => State.sendsOnly_flushCtl _ src _))

theorem State.sendsOnly_sendTime (s : State) (src op : Nat) (b : Bytes) : s.SendsOnly (s.sendTime src op b) := s.sendsOnly_sendCtl src _

theorem State.SendsOnly.isUp (h : s.SendsOnly t) (src : Nat) : t.isUp src = s.isUp src := congrArg (· == .up) (h.st src)

end SendsOnly

/-! ### A time frame on an idle port (R35, R45, R66) -/

theorem State.countM_cases (s : State) (f : Nat → Nat → Fld) (g : Nat → Fld) (src n : Nat) : ∃ x, s.countM f g src n = s.count x n := by
  unfold State.countM State.countL
  split
  · exact ⟨_, rfl⟩
  · exact ⟨_, rfl⟩

/-- A frame leaves at the end of what has left, and its port holds what it held. -/
theorem State.putFrame_spec (s : State) (src : Nat) (seq : Option Nat) (b : Bytes) (good : Bool) (stamp : FT64) :
    (s.putFrame src seq b good stamp).out = s.out ++ [.frame src (s.preamble src seq) b good stamp] ∧
      (s.putFrame src seq b good stamp).links = s.links := by
  unfold State.putFrame
  obtain ⟨x, hx⟩ := (s.emit (.frame src (s.preamble src seq) b good stamp)).countM_cases PORT_LCTR_tx_frames MIR_CTR_tx_frames src 1
  obtain ⟨y, hy⟩ := (State.count (s.emit (.frame src (s.preamble src seq) b good stamp)) x).countM_cases PORT_LCTR_tx_bytes MIR_CTR_tx_bytes src
    (b.length + 4)
  rw [hx, hy]
  exact ⟨rfl, rfl⟩

section Idle

variable {s : State} {src : Nat} {c : CtlTx}

theorem State.llrOn_modEg (s : State) (src : Nat) (f : Egress → Egress) : (s.modEg src f).llrOn src = s.llrOn src := by
  simp only [State.llrOn, State.isUp, State.modEg, State.link_modLink_self]
  rfl

/-- A one-step frame leaves without a sequence number where retry is not active. -/
theorem State.sendNow_oneStep (hrep : s.replaying = false) (hllr : s.llrOn src = false) (hc : c.start = .oneStep) :
    s.sendNow src c = s.stamped.putFrame src none (restamp c.bytes (s.txStamp src)) true (s.txStamp src) := by
  have hllr' : s.stamped.llrOn src = false := hllr
  simp only [State.sendNow, hrep, hc, hllr', Bool.false_and, Bool.and_false, Bool.false_eq_true, if_false, if_true]

theorem State.flushCtl_empty (n : Nat) (hq : (s.link src).eg.ctlq = []) : s.flushCtl src n = s := by
  cases n with
  | zero => rfl
  | succ n => simp only [State.flushCtl, hq, firstReady]

theorem insertCtl_nil (c : CtlTx) : insertCtl c [] = [c] := by
  unfold insertCtl
  split
  · rfl
  · rfl

/-- The frame put among those that wait between frames, and taken out of them. -/
def State.queueCtl (s : State) (src : Nat) (c : CtlTx) : State := s.modEg src (fun e => { e with ctlq := insertCtl c e.ctlq })

def State.unqueueCtl (s : State) (src : Nat) (c : CtlTx) : State := s.modEg src (fun e => { e with ctlq := e.ctlq.erase c })

/-- What leaves with a one-step frame, and that its port holds what it held. -/
theorem State.sendNow_oneStep_spec (hrep : s.replaying = false) (hllr : s.llrOn src = false) (hc : c.start = .oneStep) :
    (s.sendNow src c).out = s.out ++ [.frame src stdPreamble (restamp c.bytes (s.txStamp src)) true (s.txStamp src)] ∧
      (s.sendNow src c).link src = s.link src := by
  obtain ⟨hout, hlinks⟩ := s.stamped.putFrame_spec src none (restamp c.bytes (s.txStamp src)) true (s.txStamp src)
  rw [State.sendNow_oneStep hrep hllr hc]
  exact ⟨hout, by simp only [State.link, hlinks, State.stamped_links]⟩

/-- The only frame that waits leaves while the link is free. -/
theorem State.flush_single (htx : (s.link src).eg.tx = none) (hq : (s.link src).eg.ctlq = [c]) (hllr : s.llrOn src = false)
    (hrep : s.replaying = false) (hc : c.start = .oneStep) : s.flush src = (s.unqueueCtl src c).sendNow src c := by
  have hready : firstReady (fun c => s.retryRoom src (c.bytes.length + 4)) [c] = some c := by
    simp only [firstReady, State.retryRoom, hllr, Bool.not_false, Bool.true_or, Bool.or_true, if_true]
  have hllr' : (s.unqueueCtl src c).llrOn src = false := (s.llrOn_modEg src _).trans hllr
  have hempty : (((s.unqueueCtl src c).sendNow src c).link src).eg.ctlq = [] := by
    rw [(State.sendNow_oneStep_spec (s := s.unqueueCtl src c) hrep hllr' hc).2]
    simp only [State.unqueueCtl, State.modEg, State.link_modLink_self, hq, List.erase_cons_head]
  simp only [State.flush, htx, hq, Option.isSome_none, Bool.false_eq_true, if_false, List.length_singleton, State.flushCtl, hready]
  exact State.flushCtl_empty 1 hempty

/-- On an idle port a one-step frame leaves at once, and nothing else does. -/
theorem State.out_sendCtl_idle (htx : (s.link src).eg.tx = none) (hq : (s.link src).eg.ctlq = []) (hllr : s.llrOn src = false)
    (hrep : s.replaying = false) (hc : c.start = .oneStep) :
    (s.sendCtl src c).out = s.out ++ [.frame src stdPreamble (restamp c.bytes (s.txStamp src)) true (s.txStamp src)] := by
  have hllr' : (s.queueCtl src c).llrOn src = false := (s.llrOn_modEg src _).trans hllr
  have hllr'' : ((s.queueCtl src c).unqueueCtl src c).llrOn src = false := (State.llrOn_modEg _ src _).trans hllr'
  have hqueue : ((s.queueCtl src c).link src).eg.ctlq = [c] := by
    simp only [State.queueCtl, State.modEg, State.link_modLink_self, hq, insertCtl_nil]
  have hidle : ((s.queueCtl src c).link src).eg.tx = none := by
    simp only [State.queueCtl, State.modEg, State.link_modLink_self, htx]
  calc ((s.queueCtl src c).flush src).out
    _ = (((s.queueCtl src c).unqueueCtl src c).sendNow src c).out := by rw [State.flush_single hidle hqueue hllr' hrep hc]
    _ = _ := (State.sendNow_oneStep_spec (s := (s.queueCtl src c).unqueueCtl src c) hrep hllr'' hc).1

end Idle

/-! ### The beacons of one interval (R37) -/

/-- A beacon goes out on this logical port: UP, of a fabric port in tx_mask. -/
def State.beacons (s : State) (src : Nat) : Bool := bitOf (s.reg TIME_BEACON_CFG_tx_mask) (src / 8) && s.isUp src

/-- The beacons of the logical ports `l`, in turn. -/
def State.sendBeacons (s : State) (l : List Nat) : State := l.foldl (fun s src => if s.beacons src then s.sendBeacon src else s) s

/-- The beacon sequences replaced. -/
def State.withSeqs (s : State) (m : Tab Nat) : State := { s with clk := { s.clk with beaconSeq := m } }

/-- A logical port's next beacon takes the next number of its sequence. -/
def nextSeq (m : Tab Nat) (src : Nat) : Tab Nat := m.put 0 src ((m.get 0 src + 1) % 2 ^ 32)

/-- The sequences after the logical ports of `l` that `sends` selects have each sent a beacon. -/
def seqsAfter (sends : Nat → Bool) (m : Tab Nat) (l : List Nat) : Tab Nat := l.foldl (fun m src => if sends src then nextSeq m src else m) m

/-- The payload of a logical port's next beacon (R35). -/
def State.beaconBytes (s : State) (src : Nat) : Bytes :=
  beBytes 8 s.clk.rootId ++ beBytes 1 (s.clk.rootHops + 1) ++ beBytes 1 s.clk.rootQuality ++
    beBytes 1 (if s.reg TIME_STATUS_state = dHoldover then 1 else 0) ++ [0] ++ beBytes 4 (s.clk.beaconSeq.get 0 src)

theorem seqsAfter_get (sends : Nat → Bool) (m : Tab Nat) {l : List Nat} (hl : l.Nodup) (src : Nat) :
    (seqsAfter sends m l).get 0 src = if src ∈ l ∧ sends src = true then (m.get 0 src + 1) % 2 ^ 32 else m.get 0 src := by
  induction l generalizing m with
  | nil => simp [seqsAfter]
  | cons x l ih =>
    obtain ⟨hx, hl⟩ := List.nodup_cons.mp hl
    have hrest : (seqsAfter sends m (x :: l)).get 0 src = _ := ih (if sends x then nextSeq m x else m) hl
    rw [hrest]
    by_cases hsrc : src = x
    · subst hsrc
      cases hs : sends src <;> simp [hx, nextSeq]
    · have hkeep : (if sends x then nextSeq m x else m).get 0 src = m.get 0 src := by
        split
        · exact Tab.get_put_ne _ _ _ _ hsrc
        · rfl
      simp only [hkeep, List.mem_cons, hsrc, false_or]

section Beacons

variable {s t : State}

theorem State.SendsOnly.withSeqs (h : s.SendsOnly t) (m : Tab Nat) : (s.withSeqs m).SendsOnly (t.withSeqs m) where
  only := congrArg (State.withSeqs · m) h.only
  time := h.time
  st := h.st

theorem State.SendsOnly.beaconSeq (h : s.SendsOnly t) : t.clk.beaconSeq = s.clk.beaconSeq := congrArg (·.clk.beaconSeq) h.only

theorem State.SendsOnly.beacons (h : s.SendsOnly t) : t.beacons = s.beacons := by
  funext src
  simp only [State.beacons, h.isUp, h.time TIME_BEACON_CFG_tx_mask rfl (by decide)]

theorem State.sendBeacon_eq (s : State) (src : Nat) :
    s.sendBeacon src = (s.withSeqs (nextSeq s.clk.beaconSeq src)).sendTime src 0x70 (s.beaconBytes src) := by
  have hflags : bit1 (s.reg TIME_STATUS_state == dHoldover) = if s.reg TIME_STATUS_state = dHoldover then 1 else 0 := by
    simp only [bit1, beq_iff_eq]
  simp only [State.beaconBytes, ← hflags]
  rfl

theorem State.sendsOnly_sendBeacon (s : State) (src : Nat) : (s.withSeqs (nextSeq s.clk.beaconSeq src)).SendsOnly (s.sendBeacon src) := by
  rw [State.sendBeacon_eq]
  exact State.sendsOnly_sendTime _ _ _ _

/-- Beside the sequences, the beacons of an interval are frames that ports send. -/
theorem State.sendsOnly_sendBeacons (s : State) (l : List Nat) :
    (s.withSeqs (seqsAfter s.beacons s.clk.beaconSeq l)).SendsOnly (s.sendBeacons l) := by
  induction l generalizing s with
  | nil => exact .refl s
  | cons x l ih =>
    have hfirst : (s.withSeqs (if s.beacons x then nextSeq s.clk.beaconSeq x else s.clk.beaconSeq)).SendsOnly
        (if s.beacons x then s.sendBeacon x else s) := by
      split
      · exact s.sendsOnly_sendBeacon x
      · exact .refl s
    have hrest := ih (if s.beacons x then s.sendBeacon x else s)
    rw [hfirst.beacons, hfirst.beaconSeq] at hrest
    exact (hfirst.withSeqs _).trans hrest

theorem State.sendBeacons_none {l : List Nat} (h : ∀ x ∈ l, s.beacons x = false) : s.sendBeacons l = s := by
  induction l with
  | nil => rfl
  | cons x l ih =>
    obtain ⟨hx, hl⟩ := List.forall_mem_cons.mp h
    simp only [State.sendBeacons, List.foldl_cons, hx, Bool.false_eq_true, if_false]
    exact ih hl

/-- Where one logical port alone sends, the interval is its beacon. -/
theorem State.sendBeacons_one {l : List Nat} (hl : l.Nodup) {src : Nat} (hsrc : src ∈ l) (h : ∀ x ∈ l, s.beacons x = true ↔ x = src) :
    s.sendBeacons l = s.sendBeacon src := by
  obtain ⟨l1, l2, rfl⟩ := List.append_of_mem hsrc
  have hnot : src ∉ l1 ++ l2 := (List.nodup_middle.mp hl).notMem
  have hothers : ∀ x ∈ l1 ++ l2, s.beacons x = false := fun x hx => by
    have hmem : x ∈ l1 ++ src :: l2 := by
      rw [List.mem_append, List.mem_cons]
      exact (List.mem_append.mp hx).imp_right .inr
    exact Bool.eq_false_iff.mpr fun hb => hnot ((h x hmem).mp hb ▸ hx)
  have hthis : s.beacons src = true := (h src hsrc).mpr rfl
  have hbefore : s.sendBeacons l1 = s := State.sendBeacons_none fun x hx => hothers x (List.mem_append_left _ hx)
  have hafter : (s.sendBeacon src).sendBeacons l2 = s.sendBeacon src := by
    refine State.sendBeacons_none fun x hx => ?_
    rw [(s.sendsOnly_sendBeacon src).beacons]
    exact hothers x (List.mem_append_right _ hx)
  calc s.sendBeacons (l1 ++ src :: l2)
    _ = (if (s.sendBeacons l1).beacons src then (s.sendBeacons l1).sendBeacon src else s.sendBeacons l1).sendBeacons l2 :=
      List.foldl_append ..
    _ = s.sendBeacon src := by rw [hbefore, if_pos hthis, hafter]

theorem State.beaconTimer_sends (h : s.reg TIME_STATUS_state = 2 ∨ s.reg TIME_STATUS_state = 3) :
    s.beaconTimer = s.sendBeacons (List.range 192) := if_pos h

theorem State.beaconTimer_quiet (h : s.reg TIME_STATUS_state = 0 ∨ s.reg TIME_STATUS_state = 1) : s.beaconTimer = s :=
  if_neg fun hs => by
    simp only [dLocked, dHoldover] at hs
    omega

theorem exec_beaconTxTimer (hlive : s.live = true) : exec .beaconTxTimer s = .next s.beaconTimer := State.does_live _ hlive

end Beacons

/-! ### The statement -/

/-- Settles O5: an interval's beacons are what the sequences say and frames that ports send; one beacon alone is its frame. -/
theorem beaconsLeaveInLockedAndHoldover : Obligations.BeaconsLeaveInLockedAndHoldover := by
  intro s hlive
  have hrun := exec_beaconTxTimer hlive
  refine ⟨fun hstate => ⟨_, hrun, ?_⟩, fun src b hsrc hone hstate hb => ?_, fun hstate => ?_⟩
  · have hsends := s.sendsOnly_sendBeacons (List.range 192)
    rw [State.beaconTimer_sends hstate]
    have hstore : (s.sendBeacons (List.range 192)).store = s.store := congrArg (·.store) hsends.only
    refine ⟨fun src hsrc => ?_, congrArg (·.clk.acc) hsends.only, hsends.time _ rfl (by decide), hstore, hsends.isUp⟩
    have hseq := seqsAfter_get s.beacons s.clk.beaconSeq (List.nodup_range (n := 192)) src
    simp only [List.mem_range, hsrc, true_and] at hseq
    exact (congrArg (Tab.get · 0 src) hsends.beaconSeq).trans hseq
  · have hbeacon : s.beaconTimer = (s.withSeqs (nextSeq s.clk.beaconSeq src)).sendTime src 0x70 b := by
      rw [State.beaconTimer_sends hstate, State.sendBeacons_one List.nodup_range (List.mem_range.mpr hsrc)
        (fun x hx => hone x (List.mem_range.mp hx)), State.sendBeacon_eq, hb]
      rfl
    rw [hbeacon] at hrun
    exact ⟨hrun, fun htx hq hllr hrep => ⟨_, hrun, State.out_sendCtl_idle htx hq hllr hrep rfl⟩⟩
  · rw [hrun, State.beaconTimer_quiet hstate]

end Sys2Proof.Machine
end

section
/-! PROOFS. Measurements of the source in use, and the exchanges that give the path delay (R35–R39, R41): what a waiting frame brings, one equation
a command, and what a measurement leaves in LOCKED. -/

namespace Sys2Proof.Machine

/-! ### A measurement in LOCKED (R31, R41) -/

theorem State.judged_active {s : State} {k : Nat} (h : s.srcActive = k) : s.judged k = true := by
  simp only [State.judged, h, beq_self_eq_true, Bool.true_or]

theorem State.judged_tracks {s : State} {k : Nat} {off : Int} (h : s.tracks k off) : s.judged k = true := by
  obtain ⟨hact, -⟩ := h
  exact State.judged_active hact

theorem State.servo_host {s : State} (off : Int) (h : s.flag TIME_CTRL_servo_en = false) : s.servo off = s := by
  simp only [State.servo, h, Bool.not_false, if_true]

/-- An offset within unlock_thresh ends a run of those beyond it. -/
theorem State.tracked_within {s : State} {off : Int} (hservo : s.flag TIME_CTRL_servo_en = false)
    (hoff : off.natAbs ≤ s.reg TIME_LOCK_CFG_unlock_thresh * 256) : s.tracked off = { s with clk := { s.clk with badRun := 0 } } := by
  simp only [State.tracked, if_neg (Nat.not_lt.mpr hoff)]
  exact State.servo_host off hservo

/-- A measurement in LOCKED restarts the loss supervision and is tracked. -/
theorem State.measure_locked {s : State} {k : Nat} (off : Int) (hact : s.srcActive = k) (hstate : s.reg TIME_STATUS_state = dLocked)
    (hrep : s.replaying = false) : s.measure k off =
      State.tracked { s.setRegInt TIME_OFFSET_offset off with clk := { s.clk with lastMeas := s.now, lost := false } } off := by
  have hreg : ∀ f : Fld, f.key ≠ TIME_OFFSET_offset.key → (s.setRegInt TIME_OFFSET_offset off).reg f = s.reg f :=
    fun f hf => s.reg_setReg_ne TIME_OFFSET_offset f _ hf
  have hrep' : ¬ (s.setRegInt TIME_OFFSET_offset off).replaying = true := by
    simpa only [State.replaying, hreg SBK_STATUS_state (by decide), Bool.not_eq_true] using hrep
  have hact' : ¬ ((s.setRegInt TIME_OFFSET_offset off).srcActive != k) = true := by
    simpa only [State.srcActive, hreg TIME_STATUS_src_active (by decide), bne_iff_ne, ne_eq, not_not] using hact
  exact (if_neg hrep').trans ((if_neg hact').trans (if_pos ((hreg TIME_STATUS_state (by decide)).trans hstate)))

theorem State.measure_tracks {s : State} {k : Nat} {off : Int} (h : s.tracks k off) : s.measure k off = s.trackedAt off := by
  obtain ⟨hact, hstate, hservo, hrep, hoff⟩ := h
  have hservo' : (s.setRegInt TIME_OFFSET_offset off).flag TIME_CTRL_servo_en = false :=
    (State.flag_congr (State.reg_setReg_ne _ _ _ _ (by decide))).trans hservo
  have hthresh : (s.setRegInt TIME_OFFSET_offset off).reg TIME_LOCK_CFG_unlock_thresh = s.reg TIME_LOCK_CFG_unlock_thresh :=
    State.reg_setReg_ne _ _ _ _ (by decide)
  rw [State.measure_locked off hact hstate hrep]
  exact State.tracked_within hservo' (hthresh ▸ hoff)

/-! ### Quotients without a remainder (R36, R38) -/

theorem State.divide_whole (s : State) {x : Int} {m : Nat} (h : x % m = 0) : s.divide x m = (x / m, s) := by
  simp only [State.divide, if_pos h]

theorem State.ptpCorr_whole (s : State) {b : Bytes} (h : signed 64 (beAt b 8 8) % 256 = 0) : s.ptpCorr b = (signed 64 (beAt b 8 8) / 256, s) :=
  s.divide_whole h

/-! ### Beacons, Syncs and Follow_Ups that wait (R35, R37, R38) -/

section Measured

variable {s u : State} {src : Nat} {c : Ctl}

theorem echHeaderOk_crc {b : Bytes} (h : echHeaderOk b = true) : (echOf b).crcOk = true := by
  simp only [echHeaderOk, Bool.and_eq_true, and_assoc] at h
  obtain ⟨hcrc, -⟩ := h
  exact hcrc

theorem State.beaconRx_measures (htake : s.takeCtl src (isEchOp 0x70) = some (c, u)) (hport : u.designated 0 = src) (hjudged : u.judged 0 = true)
    (hgood : echHeaderOk c.bytes = true) (hhops : byteAt (echPayload c.bytes) 8 ≤ 15) :
    s.beaconRx src = (u.rootFrom (echPayload c.bytes)).measure 0
      (ftDiff c.stamp (BitVec.ofNat 64 (echOf c.bytes).stamp) + u.pathDelay 0 + u.asymOf 0) := by
  have hfar : decide (15 < byteAt (echPayload c.bytes) 8) = false := decide_eq_false (Nat.not_lt.mpr hhops)
  simp only [State.beaconRx, htake, hport, hjudged, hgood, hfar, echHeaderOk_crc hgood, bne_self_eq_false, Bool.not_true, Bool.or_self,
    Bool.false_eq_true, if_false]
  rfl

theorem State.beaconRx_rejected (htake : s.takeCtl src (isEchOp 0x70) = some (c, u)) (hport : u.designated 0 = src) (huse : u.srcActive = 0)
    (hbad : (echOf c.bytes).crcOk = false ∨ 15 < byteAt (echPayload c.bytes) 8) : s.beaconRx src = u.countSat TIME_COUNTS_src_faults := by
  have hrejected : (!(echOf c.bytes).crcOk || decide (15 < byteAt (echPayload c.bytes) 8)) = true := by
    simpa only [Bool.or_eq_true, Bool.not_eq_true', decide_eq_true_eq] using hbad
  simp only [State.beaconRx, htake, hport, State.judged_active huse, huse, hrejected, bne_self_eq_false, Bool.not_true, Bool.or_self,
    Bool.false_eq_true, if_false, if_true]

theorem State.syncRx_twoStep (htake : s.takeCtl src (isPtp 0) = some (c, u)) (hport : u.designated 1 = src) (hjudged : u.judged 1 = true)
    (hsync : u.clk.sync = none) (hcorr : signed 64 (beAt (ptpBody c) 8 8) % 256 = 0) (htwo : bitOf (byteAt (ptpBody c) 6) 1 = true) :
    s.syncRx src = { u with clk := { u.clk with
      sync := some ⟨beAt (ptpBody c) 30 2, c.stamp, signed 64 (beAt (ptpBody c) 8 8) / 256⟩ } } := by
  simp only [State.syncRx, htake, hport, hjudged, hsync, u.ptpCorr_whole hcorr, htwo, Option.isSome_none, bne_self_eq_false, Bool.not_true,
    Bool.or_self, Bool.false_eq_true, if_false, if_true]

theorem State.syncRx_oneStep (htake : s.takeCtl src (isPtp 0) = some (c, u)) (hport : u.designated 1 = src) (hjudged : u.judged 1 = true)
    (hsync : u.clk.sync = none) (hcorr : signed 64 (beAt (ptpBody c) 8 8) % 256 = 0) (hone : bitOf (byteAt (ptpBody c) 6) 1 = false) :
    s.syncRx src = u.measure 1
      (ftDiff c.stamp (ptpStamp (ptpBody c) 34) + signed 64 (beAt (ptpBody c) 8 8) / 256 + u.pathDelay 1 + u.asymOf 1) := by
  have hnone : ({ u with clk := { u.clk with sync := none } } : State) = u := by rw [← hsync]
  simp only [State.syncRx, htake, hport, hjudged, hsync, u.ptpCorr_whole hcorr, hone, hnone, Option.isSome_none, bne_self_eq_false, Bool.not_true,
    Bool.or_self, Bool.false_eq_true, if_false]

theorem State.followUpRx_measures {y : PtpSync} (htake : s.takeCtl src (isPtp 8) = some (c, u)) (hport : u.designated 1 = src)
    (hjudged : u.judged 1 = true) (hsync : u.clk.sync = some y) (hseq : y.seq = beAt (ptpBody c) 30 2)
    (hcorr : signed 64 (beAt (ptpBody c) 8 8) % 256 = 0) :
    s.followUpRx src = State.measure { u with clk := { u.clk with sync := none } } 1
      (ftDiff y.ingress (ptpStamp (ptpBody c) 34) + y.corr + signed 64 (beAt (ptpBody c) 8 8) / 256 + u.pathDelay 1 + u.asymOf 1) := by
  simp only [State.followUpRx, htake, hport, hjudged, hsync, hseq, u.ptpCorr_whole hcorr, bne_self_eq_false, Bool.not_true, Bool.or_self,
    Bool.false_eq_true, if_false]
  rfl

end Measured

/-! ### Edges of FT_PPS_IN (R39) -/

/-- An edge that is used: TIME_PPS_NEXT is moved on to `v`, and the edge supervision starts again. -/
def State.ppsTaken (s : State) (v : Nat) : State :=
  { s.setReg TIME_PPS_NEXT_next v with clk := { s.clk with lastPps := s.now } }

section Edges

variable {s : State}

theorem State.reg_ppsTaken_ne (s : State) (v : Nat) {f : Fld} (h : f.key ≠ TIME_PPS_NEXT_next.key) : (s.ppsTaken v).reg f = s.reg f :=
  s.reg_setReg_ne TIME_PPS_NEXT_next f v h

theorem State.ppsCapture_ppsTaken (s : State) (v : Nat) : (s.ppsTaken v).ppsCapture = s.ppsCapture := rfl

theorem State.asymOf_ppsTaken (s : State) (v k : Nat) : (s.ppsTaken v).asymOf k = s.asymOf k := by
  have hact : (s.ppsTaken v).srcActive = s.srcActive := s.reg_ppsTaken_ne v (by decide)
  have hasym : (s.ppsTaken v).regInt TIME_ASYM_asym = s.regInt TIME_ASYM_asym := State.regInt_congr (s.reg_ppsTaken_ne v (by decide))
  have hbackup : (s.ppsTaken v).regInt TIME_ASYM_BACKUP_asym = s.regInt TIME_ASYM_BACKUP_asym :=
    State.regInt_congr (s.reg_ppsTaken_ne v (by decide))
  simp only [State.asymOf, State.asym, hact, hasym, hbackup]
  rfl

theorem State.tracks_ppsTaken {k : Nat} {off : Int} (v : Nat) (h : s.tracks k off) : (s.ppsTaken v).tracks k off := by
  obtain ⟨hact, hstate, hservo, hrep, hoff⟩ := h
  refine ⟨(s.reg_ppsTaken_ne v (by decide)).trans hact, (s.reg_ppsTaken_ne v (by decide)).trans hstate,
    (State.flag_congr (s.reg_ppsTaken_ne v (by decide))).trans hservo, ?_, ?_⟩
  · simpa only [State.replaying, s.reg_ppsTaken_ne v (f := SBK_STATUS_state) (by decide)] using hrep
  · rwa [s.reg_ppsTaken_ne v (by decide)]

/-- What an edge does as it moves TIME_PPS_NEXT from `next` on to `v`. -/
def State.ppsMoves (s : State) (next : FT64) (v : Nat) : State :=
  let s := s.setReg TIME_PPS_NEXT_next v
  if s.refJustStopped then s
  else
    let s := { s with clk := { s.clk with lastPps := s.now } }
    if !s.clk.ppsWritten then s.countSat TIME_COUNTS_src_faults
    else s.measure 2 (ftDiff s.ppsCapture next + s.asymOf 2)

theorem State.ppsEdge_judged {next : FT64} (hjudged : s.judged 2 = true) (hnext : next = BitVec.ofNat 64 (s.reg TIME_PPS_NEXT_next)) :
    s.ppsEdge = s.ppsMoves next (next + ns 1000000000).toNat := by
  rw [State.ppsEdge, hjudged, Bool.not_true, if_neg Bool.false_ne_true, hnext, State.ppsMoves]

/-- An edge is used when FT_REF runs and a time has been written for it. -/
theorem State.ppsMoves_used (next : FT64) (v : Nat) (hwritten : s.clk.ppsWritten = true) (href : s.clk.refStop = none) :
    s.ppsMoves next v = (s.ppsTaken v).measure 2 (ftDiff s.ppsCapture next + s.asymOf 2) := by
  have hruns : ¬ (s.setReg TIME_PPS_NEXT_next v).refJustStopped = true := by
    simp only [State.refJustStopped, State.setReg_clk, href, Option.any_none, Bool.false_eq_true, not_false_eq_true]
  have hused : ¬ (!(s.ppsTaken v).clk.ppsWritten) = true := by
    simp only [State.ppsTaken, hwritten, Bool.not_true, Bool.false_eq_true, not_false_eq_true]
  calc s.ppsMoves next v
    _ = (s.ppsTaken v).measure 2 (ftDiff (s.ppsTaken v).ppsCapture next + (s.ppsTaken v).asymOf 2) := (if_neg hruns).trans (if_neg hused)
    _ = _ := by rw [State.asymOf_ppsTaken, State.ppsCapture_ppsTaken]

end Edges

/-! ### The commands -/

section Commands

variable {s : State} (hlive : s.live = true)
include hlive

theorem exec_beaconRx (p : Port) (l : Lp) : exec (.beaconRx p l) s = .next (s.beaconRx (srcOf p l)) :=
  State.does_live (fun s => s.beaconRx (srcOf p l)) hlive

theorem exec_ptpSyncRx (p : Port) (l : Lp) : exec (.ptpSyncRx p l) s = .next (s.syncRx (srcOf p l)) :=
  State.does_live (fun s => s.syncRx (srcOf p l)) hlive

theorem exec_ptpFollowUpRx (p : Port) (l : Lp) : exec (.ptpFollowUpRx p l) s = .next (s.followUpRx (srcOf p l)) :=
  State.does_live (fun s => s.followUpRx (srcOf p l)) hlive

theorem exec_ftPpsEdge : exec .ftPpsEdge s = .next s.ppsEdge := State.does_live _ hlive

end Commands

/-- Settles O3: each command by what it measures, and the measurement by what LOCKED makes of it. -/
theorem measurementsInLocked : Obligations.MeasurementsInLocked := by
  intro s p l c u hlive
  refine ⟨fun htake hport hgood hhops off hoff htracks => ?_, fun htake hport huse hbad => ?_, fun htake hport hjudged hsync hcorr htwo => ?_,
    fun htake hport hsync hcorr hone off hoff htracks => ?_, fun y htake hport hsync hseq hcorr off hoff htracks => ?_,
    fun next hnext hwritten href off hoff htracks => ?_⟩
  · rw [exec_beaconRx hlive, State.beaconRx_measures htake hport (State.judged_tracks htracks) hgood hhops, ← hoff]
    exact congrArg Host.Outcome.next (State.measure_tracks (s := u.rootFrom (echPayload c.bytes)) htracks)
  · rw [exec_beaconRx hlive, State.beaconRx_rejected htake hport huse hbad]
  · rw [exec_ptpSyncRx hlive, State.syncRx_twoStep htake hport hjudged hsync hcorr htwo]
  · rw [exec_ptpSyncRx hlive, State.syncRx_oneStep htake hport (State.judged_tracks htracks) hsync hcorr hone, ← hoff,
      State.measure_tracks htracks]
  · rw [exec_ptpFollowUpRx hlive, State.followUpRx_measures htake hport (State.judged_tracks htracks) hsync hseq hcorr, ← hoff]
    exact congrArg Host.Outcome.next (State.measure_tracks (s := { u with clk := { u.clk with sync := none } }) htracks)
  · rw [exec_ftPpsEdge hlive, State.ppsEdge_judged (State.judged_tracks htracks) hnext, State.ppsMoves_used _ _ hwritten href, ← hoff,
      State.measure_tracks (State.tracks_ppsTaken _ htracks)]
    -- `rfl` must not compute with the units of a second.
    generalize (next + ns 1000000000).toNat = v
    rfl

end Sys2Proof.Machine
end

section
/-! PROOFS. Delay exchanges (R35, R36, R38): a request that waits is answered, a timer sends the request of the source in use, a response gives a
delay of its source's set. -/

namespace Sys2Proof.Machine

/-! ### Delays and their median (R36) -/

theorem State.delayOf_whole (s : State) {t1 t2 t3 t4 : FT64} {corr d : Int} (h : ftDiff t1 t4 - ftDiff t2 t3 - corr = 2 * d) :
    s.delayOf t1 t2 t3 t4 corr = (d.toNat, s) := by
  have hwhole : ftDiff t1 t4 - ftDiff t2 t3 - corr = ((2 : Nat) : Int) * d := h
  have hmod : (ftDiff t1 t4 - ftDiff t2 t3 - corr) % ((2 : Nat) : Int) = 0 := by rw [hwhole, Int.mul_emod_right]
  have hdiv : (ftDiff t1 t4 - ftDiff t2 t3 - corr) / ((2 : Nat) : Int) = d := by rw [hwhole, Int.mul_ediv_cancel_left _ (by decide)]
  simp only [State.delayOf, s.divide_whole hmod, hdiv]

/-- TIME_PATH_DELAY shows the delay of the source in use. -/
theorem State.reg_showDelay {s : State} {k : Nat} (h : s.srcActive = k) : (s.showDelay k).reg TIME_PATH_DELAY_delay = s.pathDelay k := by
  have hshown : s.showDelay k = s.setReg TIME_PATH_DELAY_delay (s.pathDelay k) := if_neg fun hother => hother.2 h
  rw [hshown, State.reg_setReg_self, Nat.mod_eq_of_lt]
  exact Nat.lt_of_le_of_lt (Nat.min_le_left _ _) (by decide)

theorem State.showDelay_clk (s : State) (k : Nat) : (s.showDelay k).clk = s.clk := by
  unfold State.showDelay
  split
  · rfl
  · rfl

section Results

variable {s : State} {t1 t2 t3 t4 : FT64} {d : Int}

/-- A link delay goes in front of at most eight, ends its exchange and, with beacons in use, is shown. -/
theorem State.linkDelay_spec (hact : s.srcActive = 0) (h : ftDiff t1 t4 - ftDiff t2 t3 = 2 * d) :
    (s.linkDelay t1 t2 t3 t4).clk.ldelay = (d.toNat :: s.clk.ldelay).take 8 ∧ (s.linkDelay t1 t2 t3 t4).clk.linkReq = none ∧
      (s.linkDelay t1 t2 t3 t4).reg TIME_PATH_DELAY_delay = min (2 ^ 32 - 1) (median (s.linkDelay t1 t2 t3 t4).clk.ldelay) := by
  have hdelay := s.delayOf_whole (corr := 0) ((Int.sub_zero _).trans h)
  simp only [State.linkDelay, hdelay, State.showDelay_clk, true_and]
  exact State.reg_showDelay hact

/-- A peer delay likewise, with PTP in use. -/
theorem State.peerDelay_spec {corr : Int} (hact : s.srcActive = 1) (h : ftDiff t1 t4 - ftDiff t2 t3 - corr = 2 * d) :
    (s.peerDelay t1 t2 t3 t4 corr).clk.pdelay = (d.toNat :: s.clk.pdelay).take 8 ∧ (s.peerDelay t1 t2 t3 t4 corr).clk.pdReq = none ∧
      (s.peerDelay t1 t2 t3 t4 corr).reg TIME_PATH_DELAY_delay = min (2 ^ 32 - 1) (median (s.peerDelay t1 t2 t3 t4 corr).clk.pdelay) := by
  simp only [State.peerDelay, s.delayOf_whole h, State.showDelay_clk, true_and]
  exact State.reg_showDelay hact

end Results

/-! ### Frames that wait -/

section Waiting

variable {s u : State} {src : Nat} {c : Ctl}

theorem State.linkReqRx_answers (htake : s.takeCtl src (isEchOp 0x71) = some (c, u)) (hgood : echHeaderOk c.bytes = true) :
    s.linkReqRx src = u.sendTime src 0x72 (beBytes 8 (echOf c.bytes).stamp ++ beBytes 8 c.stamp.toNat) := by
  simp only [State.linkReqRx, htake, hgood, Bool.not_true, Bool.false_eq_true, if_false]

theorem State.linkRespRx_result (htake : s.takeCtl src (isEchOp 0x72) = some (c, u)) (hgood : echHeaderOk c.bytes = true)
    (hreq : u.clk.linkReq = some src) :
    s.linkRespRx src = u.linkDelay (BitVec.ofNat 64 (beAt (echPayload c.bytes) 0 8)) (BitVec.ofNat 64 (beAt (echPayload c.bytes) 8 8))
      (BitVec.ofNat 64 (echOf c.bytes).stamp) c.stamp := by
  simp only [State.linkRespRx, htake, hreq, hgood, bne_self_eq_false, Bool.not_true, Bool.or_self, Bool.false_eq_true, if_false]

/-- The response to a Pdelay_Req, and behind it the follow-up with the time it left. -/
theorem State.pdelayReqRx_answers (htake : s.takeCtl src (isPtp 2) = some (c, u)) (hport : u.designated 1 = src)
    (hcorr : signed 64 (beAt (ptpBody c) 8 8) % 256 = 0) :
    s.pdelayReqRx src = u.sendCtl src
      { bytes := u.ptpFrame src (u.ptpHead 3 54 0x200 (-((c.stamp.toNat % 256 : Nat) : Int)) (src / 8) (beAt (ptpBody c) 30 2) ++
          ptpBytes c.stamp ++ slice (ptpBody c) 20 10),
        start := .pdelayResp (u.ptpFrame src (u.ptpHead 10 54 0 0 (src / 8) (beAt (ptpBody c) 30 2) ++ ptpBytes 0 ++
          slice (ptpBody c) 20 10)) (signed 64 (beAt (ptpBody c) 8 8) / 256), seqd := true } := by
  simp only [State.pdelayReqRx, htake, hport, u.ptpCorr_whole hcorr, bne_self_eq_false, Bool.false_eq_true, if_false]

theorem State.pdelayRespRx_follow (htake : s.takeCtl src (fun c => isPtp 3 c || isPtp 10 c) = some (c, u)) (hfollow : isPtp 3 c = false)
    (hport : u.designated 1 = src) : s.pdelayRespRx src = u.pdelayFollow c := by
  simp only [State.pdelayRespRx, htake, hport, hfollow, bne_self_eq_false, Bool.false_eq_true, if_false]

theorem State.pdelayFollow_result {r : PtpPdelay} {t1 t2 t4 : FT64} {k1 k2 : Int} (hreq : s.clk.pdReq = some r) (ht1 : r.t1 = some t1)
    (hresp : r.resp = some (t2, t4, k1)) (hseq : r.seq = beAt (ptpBody c) 30 2) (hcorr : signed 64 (beAt (ptpBody c) 8 8) = 256 * k2) :
    s.pdelayFollow c = s.peerDelay t1 t2 (ptpStamp (ptpBody c) 34) t4 (k1 + k2) := by
  obtain ⟨seq, t1', resp⟩ := r
  subst ht1 hresp hseq
  have hmod : signed 64 (beAt (ptpBody c) 8 8) % 256 = 0 := by rw [hcorr, Int.mul_emod_right]
  have hdiv : signed 64 (beAt (ptpBody c) 8 8) / 256 = k2 := by rw [hcorr, Int.mul_ediv_cancel_left _ (by decide)]
  simp only [State.pdelayFollow, hreq, s.ptpCorr_whole hmod, hdiv, bne_self_eq_false, Bool.false_eq_true, if_false]

theorem State.announceRx_identity (htake : s.takeCtl src (isPtp 11) = some (c, u)) (hport : u.designated 1 = src) :
    s.announceRx src = u.setReg TIME_PTP_GM_gm_identity (beAt (ptpBody c) 53 8) := by
  simp only [State.announceRx, htake, hport, bne_self_eq_false, Bool.false_eq_true, if_false]

end Waiting

/-! ### The requester (R36, R38) -/

section Requests

variable {s t : State}

theorem State.SendsOnly.judged (h : s.SendsOnly t) (k : Nat) : t.judged k = s.judged k := by
  have hact : t.srcActive = s.srcActive := h.time TIME_STATUS_src_active rfl (by decide)
  have hpending : t.clk.pending = s.clk.pending := congrArg (·.clk.pending) h.only
  simp only [State.judged, hact, hpending]

/-- A request with none outstanding. -/
theorem State.sendLinkReq_first {src : Nat} (hreq : s.clk.linkReq = none) :
    s.sendLinkReq src = State.sendTime { s with clk := { s.clk with linkReq := some src } } src 0x71 (List.replicate 16 0) := by
  simp only [State.sendLinkReq, hreq, Option.isSome_none, Bool.false_and, Bool.false_eq_true, if_false]

theorem State.sendPdelay_first {src : Nat} (hreq : s.clk.pdReq = none) :
    s.sendPdelay src = State.sendCtl { s with clk := { s.clk with pdSeq := (s.clk.pdSeq + 1) % 65536, pdReq := some { seq := s.clk.pdSeq } } } src
      { bytes := s.ptpFrame src (s.ptpHead 2 54 0 0 (src / 8) s.clk.pdSeq ++ List.replicate 20 0), start := .pdelayReq, seqd := true } := by
  simp only [State.sendPdelay, hreq, Option.isSome_none, Bool.false_and, Bool.false_eq_true, if_false]
  rfl

theorem State.judged_sendLinkReq (s : State) (src k : Nat) : (s.sendLinkReq src).judged k = s.judged k :=
  (State.sendsOnly_sendTime _ src 0x71 (List.replicate 16 0)).judged k

theorem State.delayTimer_beacons (h0 : s.judged 0 = true) (h1 : s.judged 1 = false) (hup : s.isUp (s.designated 0) = true) :
    s.delayTimer = s.sendLinkReq (s.designated 0) := by
  simp only [State.delayTimer, h0, hup, State.judged_sendLinkReq, h1, Bool.and_self, Bool.false_and, Bool.false_eq_true, if_false, if_true]

theorem State.delayTimer_ptp (h0 : s.judged 0 = false) (h1 : s.judged 1 = true) (hup : s.isUp (s.designated 1) = true) :
    s.delayTimer = s.sendPdelay (s.designated 1) := by
  simp only [State.delayTimer, h0, h1, hup, Bool.and_self, Bool.false_and, Bool.false_eq_true, if_false, if_true]

end Requests

/-! ### The commands -/

section Commands

variable {s : State} (hlive : s.live = true)
include hlive

theorem exec_linkDelayReqTimer : exec .linkDelayReqTimer s = .next s.delayTimer := State.does_live _ hlive

theorem exec_linkDelayReqRx (p : Port) (l : Lp) : exec (.linkDelayReqRx p l) s = .next (s.linkReqRx (srcOf p l)) :=
  State.does_live (fun s => s.linkReqRx (srcOf p l)) hlive

theorem exec_linkDelayRespRx (p : Port) (l : Lp) : exec (.linkDelayRespRx p l) s = .next (s.linkRespRx (srcOf p l)) :=
  State.does_live (fun s => s.linkRespRx (srcOf p l)) hlive

theorem exec_ptpPdelayReqRx (p : Port) (l : Lp) : exec (.ptpPdelayReqRx p l) s = .next (s.pdelayReqRx (srcOf p l)) :=
  State.does_live (fun s => s.pdelayReqRx (srcOf p l)) hlive

theorem exec_ptpPdelayRespRx (p : Port) (l : Lp) : exec (.ptpPdelayRespRx p l) s = .next (s.pdelayRespRx (srcOf p l)) :=
  State.does_live (fun s => s.pdelayRespRx (srcOf p l)) hlive

theorem exec_ptpAnnounceRx (p : Port) (l : Lp) : exec (.ptpAnnounceRx p l) s = .next (s.announceRx (srcOf p l)) :=
  State.does_live (fun s => s.announceRx (srcOf p l)) hlive

end Commands

/-- Settles O4: each command by what it sends or by the delay it brings. -/
theorem delayExchanges : Obligations.DelayExchanges := by
  intro s p l c u hlive
  refine ⟨fun htake hgood => ?_, fun htake hport hcorr => ?_, fun h0 h1 hup hreq => ?_, fun h0 h1 hup hreq => ?_,
    fun t1 d htake hgood hreq hact ht1 heven => ⟨_, exec_linkDelayRespRx hlive p l, ?_⟩,
    fun r t1 t2 t4 k1 k2 d htake hfollow hport hact hreq ht1 hresp hseq hcorr heven => ⟨_, exec_ptpPdelayRespRx hlive p l, ?_⟩,
    fun htake hport => ?_⟩
  · rw [exec_linkDelayReqRx hlive, State.linkReqRx_answers htake hgood]
  · rw [exec_ptpPdelayReqRx hlive, State.pdelayReqRx_answers htake hport hcorr]
  · rw [exec_linkDelayReqTimer hlive, State.delayTimer_beacons h0 h1 hup, State.sendLinkReq_first hreq]
  · rw [exec_linkDelayReqTimer hlive, State.delayTimer_ptp h0 h1 hup, State.sendPdelay_first hreq]
  · rw [State.linkRespRx_result htake hgood hreq]
    exact State.linkDelay_spec hact (ht1 ▸ heven)
  · rw [State.pdelayRespRx_follow htake hfollow hport, State.pdelayFollow_result hreq ht1 hresp hseq hcorr]
    exact State.peerDelay_spec hact heven
  · rw [exec_ptpAnnounceRx hlive, State.announceRx_identity htake hport]

end Sys2Proof.Machine
end

section
/-! PROOFS. The state that reset leaves (R10, R345, R353, R443): but for the registers of the power manager that the fuses set, every field reads as
its register row gives it. -/

namespace Sys2Proof.Machine

/-- The fuses set event energies, static power, port power and full-rate powers, and nothing else. -/
theorem hwRegs_keys : ∀ e ∈ hwRegs {}, keyIn 0x200100 0x200200 e.1 = true := by decide +kernel

theorem State.reg_reset {f : Fld} (h : keyIn 0x200100 0x200200 f.key = false) : State.reset.reg f = f.rst := by
  have hnone : Tab.find? (hwRegs {}) f.key = none :=
    Tab.find?_none_of_all fun e he hk => Bool.false_ne_true (h.symm.trans (hk ▸ hwRegs_keys e he))
  show (Tab.find? (hwRegs {}) f.key).getD f.rst = f.rst
  rw [hnone]
  rfl

theorem keyIn_eq_false {lo hi : Nat} {f : Fld} (hlo : f.lo < 64) (h : f.off < lo ∨ hi ≤ f.off) : keyIn lo hi f.key = false := by
  have hkey : f.key = f.off * 64 + f.lo := rfl
  simp only [keyIn, Bool.and_eq_false_iff, decide_eq_false_iff_not]
  omega

theorem reset_portDisabled (p : Port) : State.reset.reg (PORT_CFG_enable p) = 0 :=
  State.reg_reset (keyIn_eq_false (Nat.zero_lt_succ _) (.inr (by simp only [PORT_CFG_enable]; omega)))

theorem reset_ringDisabled (i : Ring) : State.reset.reg (RING_SQ_CFG_en i) = 0 ∧ State.reset.reg (RING_CQ_CFG_en i) = 0 := by
  constructor
  · exact State.reg_reset (keyIn_eq_false (Nat.zero_lt_succ _) (.inr (by simp only [RING_SQ_CFG_en]; omega)))
  · exact State.reg_reset (keyIn_eq_false (Nat.zero_lt_succ _) (.inr (by simp only [RING_CQ_CFG_en]; omega)))

theorem reset_limits : State.reset.reg PWR_LIMIT_cap = 1100 ∧ State.reset.reg PWR_LIMIT_exc = 1400 ∧ State.reset.reg PWR_LIMIT_exc_ms = 20 :=
  ⟨State.reg_reset (by decide), State.reg_reset (by decide), State.reg_reset (by decide)⟩

theorem reset_rampOrder : (List.range 8).map (fun i => bits (State.reset.reg PWR_PHASE_order) (3 * i) 3) = [0, 4, 2, 6, 1, 5, 3, 7] := by
  rw [State.reg_reset (by decide)]
  decide

theorem reset_rate : State.reset.regInt TIME_RATE_rate = 0 := by
  have hreg : State.reset.regs.get TIME_RATE_rate = 0 := State.reg_reset (by decide)
  simp only [State.regInt, Regs.getInt, hreg]
  decide

/-- Settles O57: every register by its row, the rest by the state's defaults. -/
theorem resetState : Obligations.ResetState := by
  obtain ⟨hcap, hexc, hms⟩ := reset_limits
  exact ⟨rfl, rfl, rfl, State.reg_reset (by decide), rfl, rfl, rfl, State.reg_reset (by decide), State.reg_reset (by decide), reset_rate, rfl, rfl,
    rfl, rfl, rfl, reset_portDisabled, fun _ => rfl, fun _ => rfl, reset_ringDisabled, hcap, hexc, hms, reset_rampOrder⟩

end Sys2Proof.Machine
end

section
/-! PROOFS. Ports and links in states that the statements do not exclude (R49, R54, R62, R69, R71): what each command also does there. -/

set_option Elab.async false

namespace Sys2Proof.Machine

/-! ### A port whose logical ports are UP while it is disabled -/

/-- Ready, port 0 disabled and in credit mode on its logical port 1 with tc0 lossless, and its logical ports 0 and 1 UP. PORT_DISABLE leaves no logical
port UP; the statement's states are not confined to those that commands leave. -/
def disabledYetUp : State :=
  { regs := [(HUB_STATUS_ready.key, 1), ((PORT_FC_CFG_mode 0).key, 8), ((PORT_CLASS_CFG_lossless_mask 0).key, 1)]
    links := [(0, { st := .up }), (1, { st := .up })] }

theorem exec_portEnable_disabledYetUp : exec (.portEnable 0 1) disabledYetUp = .next (disabledYetUp.portEnable 0 1) :=
  State.does_live (fun s => s.portEnable 0 1) rfl

/-- Logical port 0 leaves UP, so logical port 1 is granted more credit (R112) and sends it: a stamped object of the device's own (R47). -/
theorem portEnable_disabledYetUp_stamps : (disabledYetUp.portEnable 0 1).clk.arr.get 0 195 = 1 := by decide +kernel

/-- Refutes O7: enabling a disabled port need not leave fabric time's arrival numbers alone, as logical ports that were UP change their credit. -/
theorem not_portAdministration : ¬ Obligations.PortAdministration := by
  intro h
  obtain ⟨henable, -⟩ := h disabledYetUp 0 1 0 rfl (by decide +kernel)
  obtain ⟨-, -, -, -, -, hclk⟩ := (henable (by decide +kernel)).holds exec_portEnable_disabledYetUp
  have hstamps := portEnable_disabledYetUp_stamps
  rw [hclk] at hstamps
  exact absurd hstamps (by decide)

/-! ### Light returns to the tile of the mirror ports -/

/-- OTM's lasers are out while its module is present and runs, and mirror port 0 is enabled. -/
def otmDark : State :=
  { regs := [(HUB_BOARD_STATUS_ls_run.key, 0x1FF), (MIR_PORT_CFG_m0_en.key, 1)], hw := { dark := [8] } }

theorem exec_laserRestore_otmDark : exec (.laserRestore 8) otmDark = .next (otmDark.tileLit 8) := State.does_live (fun s => s.tileLit 8) rfl

theorem tileLit_otmDark_up : ((otmDark.tileLit 8).link 192).st = .up := by decide +kernel

/-- Refutes O8: LASER_RESTORE of OTM brings the enabled mirror ports up, so it does not leave every link alone. -/
theorem not_linkBringUpAndLoss : ¬ Obligations.LinkBringUpAndLoss := by
  intro h
  obtain ⟨-, -, -, -, -, -, -, -, -, hrestore⟩ := h otmDark 0 0 0 [] 8 rfl
  obtain ⟨-, hlinks, -⟩ := (hrestore (by decide) (by decide) (by decide +kernel)).holds exec_laserRestore_otmDark
  have hup := tileLit_otmDark_up
  rw [State.link, hlinks] at hup
  exact absurd hup (by decide)

/-! ### A mirror port that MIR_STATUS shows up and that is not -/

/-- 21 µs of device time, retry active on logical port 0 with one frame held since time 0, and MIR_STATUS showing mirror port 0 up while its link
is not UP. No command parts the two; the statement's states are not confined to those that commands leave. -/
def mirrorShownUp : State :=
  { regs := [((PORT_STATUS_llr_active 0).key, 1), (MIR_STATUS_m0_up.key, 1)], clk := { acc := BitVec.ofNat 96 (21000 * 2 ^ 40) }
    links := [(0, { st := .up, held := [{ seq := 0, bytes := [], good := true, stamp := 0 }] })] }

theorem exec_llrRetryTimeout_mirrorShownUp :
    exec (.llrRetryTimeout 0 0) mirrorShownUp = .next (mirrorShownUp.llrRetryTimeout 0).mirRetried :=
  State.does_live (fun s => (s.llrRetryTimeout 0).mirRetried) rfl

/-- The command looks for mirror ports that retry has taken down (R61, R72), and MIR_STATUS follows the link. -/
theorem mirRetried_mirrorShownUp : (mirrorShownUp.llrRetryTimeout 0).mirRetried.reg MIR_STATUS_m0_up = 0 := by decide +kernel

theorem resendFrom_mirrorShownUp : (mirrorShownUp.resendFrom 0 0).reg MIR_STATUS_m0_up = 1 := by decide +kernel

/-- Refutes O9: beside the resend, LLR_RETRY_TIMEOUT takes down a mirror port that is shown up and has no link. -/
theorem not_linkLevelRetry : ¬ Obligations.LinkLevelRetry := by
  intro h
  obtain ⟨-, -, -, -, -, -, htimeout, -⟩ := h mirrorShownUp 0 0 ⟨0, 0, true, []⟩ mirrorShownUp rfl
  obtain ⟨hresend, -⟩ := htimeout { seq := 0, bytes := [], good := true, stamp := 0 } [] rfl (by decide +kernel) (by decide +kernel)
  have hexec := (exec_llrRetryTimeout_mirrorShownUp).symm.trans (hresend (by decide +kernel) rfl)
  injection hexec with hstate
  have hreg := mirRetried_mirrorShownUp
  rw [hstate, show srcOf (0 : LlrPort) 0 = 0 from rfl, resendFrom_mirrorShownUp] at hreg
  exact absurd hreg (by decide)

/-! ### A CREDIT_UPDATE while a frame waits for credit -/

/-- A CREDIT_UPDATE as it waits at a logical port. -/
def creditUpdate : Ctl := { stamp := 0, arr := 0, good := true, bytes := State.reset.portEch 0 0x79 (List.replicate 32 0) }

/-- 1 µs of device time, logical port 0 UP in credit mode, a frame waiting for credit since time 0, and a CREDIT_UPDATE that has come. -/
def creditAwaited : State :=
  { regs := [((PORT_FC_CFG_mode 0).key, 2)], clk := { acc := BitVec.ofNat 96 (1000 * 2 ^ 40) }
    links := [(0, { st := .up, ctl := [creditUpdate], eg := { creditWait := some 0, creditSince := some 0 } })] }

theorem takeCtl_creditAwaited :
    creditAwaited.takeCtl 0 (isEchOp 0x79) = some (creditUpdate, creditAwaited.modLink 0 (fun l => { l with ctl := [] })) := by
  decide +kernel

theorem exec_creditUpdateRx_creditAwaited : exec (.creditUpdateRx 0 0) creditAwaited = .next (creditAwaited.creditUpdateRx 0) :=
  State.does_live (fun s => s.creditUpdateRx 0) rfl

/-- The wait under way is counted up to now (R71, R73). -/
theorem creditUpdateRx_counts_wait : (creditAwaited.creditUpdateRx 0).reg (PORT_LCTR_credit_wait_ns 0 0) = 1000 := by decide +kernel

/-- Refutes O10: CREDIT_UPDATE brings credit_wait_ns up to date, so it changes a register beside the links. -/
theorem not_flowControlFrames : ¬ Obligations.FlowControlFrames := by
  intro h
  obtain ⟨-, -, -, -, -, hupdate, -⟩ := h creditAwaited 0 0 0 creditUpdate (creditAwaited.modLink 0 (fun l => { l with ctl := [] })) rfl
  obtain ⟨-, -, honly⟩ := (hupdate takeCtl_creditAwaited (by decide +kernel)).holds exec_creditUpdateRx_creditAwaited
  have hwait := creditUpdateRx_counts_wait
  rw [honly] at hwait
  exact absurd hwait (by decide +kernel)

end Sys2Proof.Machine
end

section
/-! PROOFS. Counters that are cleared (R73), events that are raised (R9, R380), completions (R364, R370), and Seedbank's records (R326–R336). -/

set_option Elab.async false

namespace Sys2Proof.Machine

/-! ### A counter clear (R73) -/

theorem keyIn_key {lo hi : Nat} {f : Fld} (hlo : f.lo < 64) : keyIn lo hi f.key = offIn lo hi f.off := by
  have hlow : (lo * 64 ≤ f.off * 64 + f.lo) ↔ lo ≤ f.off := by omega
  have hhigh : (f.off * 64 + f.lo < hi * 64) ↔ f.off < hi := by omega
  simp only [keyIn, offIn, Fld.key, hlow, hhigh]

/-- With nothing counted in the cycle, the counters are taken out of the register file. -/
theorem State.clearCounters_eq {s : State} (hcounts : s.latchNow.counts = []) (hit : Nat → Bool) :
    s.clearCounters hit = { s with regs := s.regs.filter (fun e => !hit e.1) } := by
  rw [State.clearCounters, hcounts]
  rfl

/-- What is not listed reads as its reset value. -/
theorem Regs.get_filter_out (r : Regs) {hit : Nat → Bool} {f : Fld} (h : hit f.key = true) : Regs.get (r.filter (fun e => !hit e.1)) f = f.rst := by
  rw [Regs.get, Tab.get, Tab.find?_none_of_all, Option.getD_none]
  intro e he hk
  simpa [hk, h] using List.of_mem_filter he

theorem Regs.get_filter_in (r : Regs) {hit : Nat → Bool} {f : Fld} (h : hit f.key = false) :
    Regs.get (r.filter (fun e => !hit e.1)) f = r.get f := by
  rw [Regs.get, Tab.get, Tab.find?_filter r (fun k => !hit k) f.key (by simp [h])]
  rfl

theorem State.clears_clearCounters {s : State} (hcounts : s.latchNow.counts = []) {hit off : Nat → Bool}
    (hoff : ∀ f : Fld, f.lo < 64 → hit f.key = off f.off) : s.clears (s.clearCounters hit) off (fun _ => false) := by
  rw [State.clearCounters_eq hcounts]
  intro f hlo
  rw [← hoff f hlo]
  exact ⟨fun h => Regs.get_filter_out s.regs h, fun h _ => Regs.get_filter_in s.regs h⟩

theorem State.clearCounters_rest {s : State} (hit : Nat → Bool) : s.clearCounters hit = { s with regs := (s.clearCounters hit).regs } := rfl

/-! ### An event (R9, R380) -/

/-- A status bit that has been raised is set. -/
theorem State.flag_raise_self (s : State) {e : Event} (hsub : e.sub < e.st.w) (hpba : e.st.key ≠ HUB_MSIX_PBA_pending.key) :
    (s.raise e).flag e.st = true := by
  have hset : (s.setW1c e.st (2 ^ e.sub)).reg e.st ≠ 0 := by
    rw [State.reg_setW1c_self]
    intro h
    have hbit : ((s.reg e.st ||| 2 ^ e.sub) % 2 ^ e.st.w).testBit e.sub = true := by simp [Nat.testBit_mod_two_pow, hsub, Nat.testBit_or]
    simp [h] at hbit
  have hreg : (s.raise e).reg e.st = (s.setW1c e.st (2 ^ e.sub)).reg e.st := by
    rcases s.raise_cases e with h | ⟨v, h⟩
    · rw [h]
    · rcases State.signal_cases (s.setW1c e.st (2 ^ e.sub)) v with h' | h' <;> rw [h, h']
      · exact State.reg_setReg_ne _ _ _ _ hpba
      · rfl
  simpa [State.flag, State.reg] using fun h => hset (hreg ▸ h)

/-- Registers, what stands against writes in this cycle, and the signal to the host: nothing else changes. -/
theorem State.raise_rest (s : State) (e : Event) :
    s.raise e = { s with regs := (s.raise e).regs, latch := (s.raise e).latch, out := (s.raise e).out } := by
  rcases s.raise_cases e with h | ⟨v, h⟩
  · rw [h]; rfl
  · rcases State.signal_cases (s.setW1c e.st (2 ^ e.sub)) v with h' | h' <;> rw [h, h'] <;> rfl

/-! ### A record is posted and a descriptor completes (R364, R365, R370) -/

/-- The field belongs to a block above the rings', and to no status register of a ring. -/
def Fld.aboveRings (f : Fld) : Prop := 0x330000 ≤ f.off ∧ f.off % 0x20 ≠ 0x10 ∧ f.lo < 64

theorem Fld.aboveRings.key_ne {f g : Fld} (hf : f.aboveRings) (hg : g.off < 0x330000 ∨ g.off % 0x20 = 0x10) (hlo : g.lo < 64) : f.key ≠ g.key := by
  obtain ⟨hoff, hmod, hlo'⟩ := hf
  simp only [Fld.key]
  omega

/-- From `s` to `t` nothing changes but registers of the hub and of the rings, what stands against writes, the signals to the host, the number that an
object of the device's own takes, and the rings. -/
structure State.PostsOnly (s t : State) : Prop where
  rest : t = { s with regs := t.regs, latch := t.latch, out := t.out, host := t.host, clk := { s.clk with arr := t.clk.arr } }
  regs : ∀ f : Fld, f.aboveRings → t.reg f = s.reg f

/-- Beside these the descriptors and the records that wait stay. -/
structure State.RingsOnly (s t : State) : Prop extends State.PostsOnly s t where
  descs : t.host.descs = s.host.descs
  cqs : t.host.cqs = s.host.cqs

section RingsOnly

variable {s t u : State}

theorem State.PostsOnly.refl (s : State) : s.PostsOnly s := ⟨rfl, fun _ _ => rfl⟩

theorem State.PostsOnly.trans (h : s.PostsOnly t) (h' : t.PostsOnly u) : s.PostsOnly u where
  rest := by rw [h'.rest, h.rest]
  regs f hf := (h'.regs f hf).trans (h.regs f hf)

theorem State.RingsOnly.refl (s : State) : s.RingsOnly s := ⟨.refl s, rfl, rfl⟩

theorem State.RingsOnly.trans (h : s.RingsOnly t) (h' : t.RingsOnly u) : s.RingsOnly u :=
  ⟨h.toPostsOnly.trans h'.toPostsOnly, h'.descs.trans h.descs, h'.cqs.trans h.cqs⟩

theorem State.RingsOnly.foldl {β : Type} {f : State → β → State} (l : List β) (h : ∀ (s : State), ∀ x ∈ l, s.RingsOnly (f s x)) :
    s.RingsOnly (l.foldl f s) :=
  List.foldlRecOn l f (.refl s) fun t ht x hx => ht.trans (h t x hx)

theorem State.ringsOnly_setReg (s : State) {g : Fld} (hg : g.off < 0x330000 ∨ g.off % 0x20 = 0x10) (hlo : g.lo < 64) (v : Nat) :
    s.RingsOnly (s.setReg g v) :=
  ⟨⟨rfl, fun _ hf => State.reg_setReg_ne _ _ _ _ (hf.key_ne hg hlo)⟩, rfl, rfl⟩

theorem State.ringsOnly_count (s : State) {g : Fld} (hg : g.off < 0x330000) (hlo : g.lo < 64) (n : Nat) : s.RingsOnly (s.count g n) :=
  ⟨⟨rfl, fun _ hf => State.reg_count_ne _ _ _ _ (hf.key_ne (.inl hg) hlo)⟩, rfl, rfl⟩

theorem State.ringsOnly_raise (s : State) {e : Event} (he : e.st.off < 0x330000) (hlo : e.st.lo < 64) : s.RingsOnly (s.raise e) where
  rest := by rw [s.raise_rest e]
  regs f hf := s.reg_raise_ne e (hf.key_ne (.inl he) hlo) (hf.key_ne (.inl (by decide)) (by decide))
  descs := by rw [s.raise_host e]
  cqs := by rw [s.raise_host e]

theorem State.ringsOnly_cqSync (s : State) (j : Nat) : s.RingsOnly (s.cqSync j) := by
  unfold State.cqSync
  extract_lets full was s1 s2 s3 any
  split
  · exact .refl s
  have hfull : s.RingsOnly s1 := s.ringsOnly_setReg (.inr (by simp only [RING_CQ_STATE_full]; omega)) (Nat.lt_of_sub_eq_succ rfl) _
  have hstall : s1.RingsOnly s2 := .foldl _ fun s i _ =>
    s.ringsOnly_setReg (.inr (by simp only [RING_SQ_STATE_stalled]; omega)) (Nat.lt_of_sub_eq_succ rfl) _
  have hevent : s2.RingsOnly s3 := by
    simp only [s3]
    split
    · exact s2.ringsOnly_raise (by decide) (by decide)
    · exact .refl s2
  refine ((hfull.trans hstall).trans hevent).trans ?_
  split
  · exact ⟨⟨rfl, fun _ _ => rfl⟩, rfl, rfl⟩
  · have hsince : s3.RingsOnly { s3 with host := { s3.host with fullSince := none } } := ⟨⟨rfl, fun _ _ => rfl⟩, rfl, rfl⟩
    exact hsince.trans (State.ringsOnly_count _ (by decide) (by decide) _)
  · exact .refl s3

end RingsOnly

/-- The queue with a record behind those that wait. -/
def CqSt.with (q : CqSt) (r : CRec) : CqSt := { q with waiting := q.waiting ++ [r] }

/-- A record waits in an enabled queue that has no error; any other queue discards it. -/
theorem State.postRec_eq (s : State) (j : Nat) (r : CRec) : s.postRec j r =
    if s.flag (RING_CQ_CFG_en j) && !s.flag (RING_CQ_STATE_error j) then (s.modCq j (·.with r)).cqSync j else s.count RING_CTR_records_discarded := rfl

theorem State.postsOnly_postRec (s : State) (j : Nat) (r : CRec) : s.PostsOnly (s.postRec j r) := by
  rw [State.postRec_eq]
  split
  · have hwait : s.PostsOnly (s.modCq j (·.with r)) := ⟨rfl, fun _ _ => rfl⟩
    exact hwait.trans (State.ringsOnly_cqSync _ j).toPostsOnly
  · exact (s.ringsOnly_count (by decide) (by decide) 1).toPostsOnly

theorem State.postRec_descs (s : State) (j : Nat) (r : CRec) : (s.postRec j r).host.descs = s.host.descs := by
  rw [State.postRec_eq]
  split
  · exact (State.ringsOnly_cqSync _ j).descs
  · rfl

theorem State.postRec_waiting (s : State) (j : Nat) (r : CRec) (hen : s.flag (RING_CQ_CFG_en j) = true)
    (herr : s.flag (RING_CQ_STATE_error j) = false) : ((s.postRec j r).cq j).waiting = (s.cq j).waiting ++ [r] := by
  rw [State.postRec_eq, hen, herr, State.cq]
  simp only [Bool.not_false, Bool.and_self, if_true]
  rw [(State.ringsOnly_cqSync _ j).cqs]
  exact congrArg CqSt.waiting (State.cq_modCq_self s j _)

/-- The descriptor is gone. -/
def State.dropDesc (s : State) (d : Nat) : State := { s with host := { s.host with descs := s.host.descs.erase d } }

/-- The record of a descriptor that ends at `now`. -/
def Desc.crec (x : Desc) (r : Report) (now : FT64) : CRec :=
  { tag := x.tag, status := r.status, opcode := x.opcode, sq := x.sq, exc := r.exc, unit := r.unit, inv := r.inv, result := r.result, stamp := now,
    detail := r.detail, irqNow := x.irqNow }

/-- The descriptor is gone, and its record is posted unless quiet holds it back. -/
theorem State.complete_some {s : State} {d : Nat} {x : Desc} (hd : s.desc d = some x) (r : Report) :
    s.complete d r = (s.dropDesc d).stamped.postRec x.cq (x.crec r s.now) ∨ (x.quiet = true ∧ s.complete d r = s.dropDesc d) := by
  unfold State.complete
  rw [hd]
  simp only
  split
  · next h =>
    simp only [Bool.and_eq_true] at h
    exact .inr ⟨h.1.1, rfl⟩
  · exact .inl rfl

theorem State.postsOnly_complete (s : State) (d : Nat) (r : Report) : s.PostsOnly (s.complete d r) := by
  cases hd : s.desc d with
  | none => rw [State.complete, hd]; exact .refl s
  | some x =>
    have hdrop : s.PostsOnly (s.dropDesc d) := ⟨rfl, fun _ _ => rfl⟩
    have hstamp : (s.dropDesc d).PostsOnly (s.dropDesc d).stamped := ⟨rfl, fun _ _ => rfl⟩
    rcases State.complete_some hd r with h | ⟨-, h⟩ <;> rw [h]
    · exact (hdrop.trans hstamp).trans (State.postsOnly_postRec _ _ _)
    · exact hdrop

/-- What stood in the rings at `s` when a descriptor completes at `u`. -/
theorem State.reports_complete {s u : State} {d : Nat} {x : Desc} (hd : u.desc d = some x) (hcqs : u.host.cqs = s.host.cqs)
    (hen : s.flag (RING_CQ_CFG_en x.cq) = true → u.flag (RING_CQ_CFG_en x.cq) = true)
    (herr : u.flag (RING_CQ_STATE_error x.cq) = s.flag (RING_CQ_STATE_error x.cq)) (r : Report) :
    s.reports (u.complete d r) d x r.status r.result r.detail := by
  have hgone : (u.dropDesc d).desc d = none := Tab.find?_erase_self _ _
  rcases State.complete_some hd r with h | ⟨hquiet, h⟩ <;> rw [h]
  · refine ⟨?_, fun hen' herr' _ => ⟨x.crec r u.now, ?_, rfl, rfl, rfl, rfl, rfl, rfl⟩⟩
    · rw [State.desc, State.postRec_descs]
      exact hgone
    · have hwait := State.postRec_waiting (u.dropDesc d).stamped x.cq (x.crec r u.now) (hen hen') (herr.trans herr')
      rw [hwait]
      simp only [State.cq, ← hcqs]
      rfl
  · exact ⟨hgone, fun _ _ hq => absurd hquiet (by simp [hq])⟩

/-- A descriptor of the row's opcode and kind, which may start, is executed. -/
theorem State.runDesc_serves {s : State} {d op v : Nat} {x : Desc} (h : s.serves d op x) (hv : byteAt x.bytes 8 = v) (f : Desc → State → State) :
    s.runDesc d op (some v) f = f x s := by
  obtain ⟨-, hd, hop, hstarted, hmay, hok⟩ := h
  simp [State.runDesc, hd, hop, hstarted, hmay, hok, hv]

/-! ### Staging (R330, R333) -/

theorem insertRec_perm (r : SbkRec) (l : List SbkRec) : (insertRec r l).Perm (r :: l) := by
  induction l with
  | nil => exact .refl _
  | cons x t ih =>
    unfold insertRec
    split
    · exact .refl _
    · exact (ih.cons x).trans (.swap r x t)

/-- The record that an event of the device or the host makes now. -/
def State.recOf (s : State) (kind src : Nat) (payload : Bytes) : SbkRec :=
  { kind := kind, src := src, stamp := s.now, arr := (s.arrival src).1, payload := payload }

/-- The state with a record staged, which has taken an arrival number. -/
def State.stage (s : State) (r : SbkRec) : State :=
  { (s.arrival r.src).2 with sbk := { s.sbk with staged := insertRec r s.sbk.staged } }

/-- A recording with room in its staging takes what happens now. -/
theorem State.recordNow_stage {s : State} (hrec : s.recording = true) {payload : Bytes} (kind src : Nat)
    (hroom : s.sbk.stagedBytes + recBytes payload.length ≤ 0x800000) : s.recordNow kind src payload = s.stage (s.recOf kind src payload) := by
  unfold State.recordNow
  rw [if_pos hrec]
  exact if_neg (Nat.not_lt.mpr hroom)

/-! ### The commands of Seedbank (R326, R327, R331, R332, R336) -/

theorem seed_key_ne {n m : Fin 16} (h : m ≠ n) : (SBK_SEED_seed m).key ≠ (SBK_SEED_seed n).key := by
  simp only [Fld.key, SBK_SEED_seed]
  omega

theorem State.record_rest (s : State) (r : SbkRec) : (s.record r).store = s.store ∧ (s.record r).groups = s.groups ∧
    ∀ f : Fld, f.key ≠ SBK_CTR_records_lost.key → (s.record r).reg f = s.reg f := by
  unfold State.record
  split
  · exact ⟨rfl, rfl, fun f hf => State.reg_count_ne _ _ _ _ hf⟩
  · exact ⟨rfl, rfl, fun _ _ => rfl⟩

/-- A seed's write has taken its number, and is recorded by a recording. -/
def State.seedNoted (s : State) (n v : Nat) : State :=
  let u := (s.arrival 194).2
  if u.recording then u.record { kind := 5, src := 194, stamp := s.now, arr := (s.arrival 194).1, payload := leBytes 8 n ++ leBytes 8 v } else u

theorem State.seedNoted_rest (s : State) (n v : Nat) : (s.seedNoted n v).store = s.store ∧ (s.seedNoted n v).groups = s.groups ∧
    ∀ m : Fin 16, (s.seedNoted n v).reg (SBK_SEED_seed m) = s.reg (SBK_SEED_seed m) := by
  unfold State.seedNoted
  extract_lets u
  split
  · obtain ⟨hstore, hgroups, hregs⟩ := u.record_rest
      { kind := 5, src := 194, stamp := s.now, arr := (s.arrival 194).1, payload := leBytes 8 n ++ leBytes 8 v }
    exact ⟨hstore, hgroups, fun m => hregs (SBK_SEED_seed m) (by simp only [Fld.key, SBK_SEED_seed, SBK_CTR_records_lost]; omega)⟩
  · exact ⟨rfl, rfl, fun _ => rfl⟩

/-- A seed slot takes the value; what stood there is kept for descriptors that come from earlier. -/
theorem State.seedWrite_eq {s : State} (hreplay : s.replaying = false) (n v : Nat) :
    ∃ h, s.seedWrite n v = ({ s.seedNoted n v with host := h } : State).setReg (SBK_SEED_seed n) v := by
  unfold State.seedWrite
  rw [hreplay, if_neg Bool.false_ne_true]
  exact ⟨_, rfl⟩

theorem exec_seedWrite {s : State} (hl : s.live = true) (hr : s.flag HUB_STATUS_ready = true) (hreplay : s.replaying = false) (n : Fin 16) (v : Nat) :
    Yields (.seedWrite n v) s (fun t => t.reg (SBK_SEED_seed n) = v % 2 ^ 64 ∧
      (∀ m : Fin 16, m ≠ n → t.reg (SBK_SEED_seed m) = s.reg (SBK_SEED_seed m)) ∧ t.store = s.store ∧ t.groups = s.groups) := by
  obtain ⟨host, hu⟩ := State.seedWrite_eq hreplay n v
  obtain ⟨hstore, hgroups, hseeds⟩ := s.seedNoted_rest n v
  refine ⟨_, State.does_whenReady hl (fun s => s.seedWrite n v) hr, ?_⟩
  rw [hu]
  exact ⟨State.reg_setReg_self _ _ _, fun m hm => (State.reg_setReg_ne _ _ _ _ (seed_key_ne hm)).trans (hseeds m), hstore, hgroups⟩

theorem exec_sbkPolicyWrite {s : State} (hl : s.live = true) (hr : s.flag HUB_STATUS_ready = true) (hreplay : s.replaying = false) (v : Nat)
    (hidle : ∀ k ∈ s.ctxs, k.2.st = .idle) (hgroups : ∀ g ∈ s.groups, bitOf v 1 = true → refusedByAnchored g.2.entry = false) :
    exec (.sbkPolicyWrite v) s = .next ((s.setReg SBK_POLICY_sr_rne (bits v 0 1)).setReg SBK_POLICY_anchored_only (bits v 1 1)) := by
  have hbusy : List.any s.ctxs (fun k => k.2.st != .idle) = false := by simpa using fun a b h => hidle (a, b) h
  have hstand : (bitOf v 1 && List.any s.groups (fun g => refusedByAnchored g.2.entry)) = false := by
    cases hbit : bitOf v 1 with
    | false => rfl
    | true => simpa using fun a b h => hgroups (a, b) h hbit
  rw [show exec (.sbkPolicyWrite v) s = .next (s.policyWrite v) from State.does_whenReady hl (fun s => s.policyWrite v) hr, State.policyWrite,
    hreplay, hbusy, hstand]
  rfl

/-- A context that is not IDLE stands in the way, before a bundle runs too. -/
theorem exec_sbkPolicyWrite_busy {s : State} (hl : s.live = true) (v : Nat) (hbusy : ∃ k ∈ s.ctxs, k.2.st ≠ .idle) :
    exec (.sbkPolicyWrite v) s = .next s := by
  have hany : List.any s.ctxs (fun k => k.2.st != .idle) = true := by simpa using hbusy
  have hstay : s.policyWrite v = s := by simp only [State.policyWrite, hany, Bool.or_true, Bool.true_or, if_true]
  rw [show exec (.sbkPolicyWrite v) s = .next (s.whenReady (fun s => s.policyWrite v)) from State.does_live _ hl, State.whenReady, hstay, ite_self]

theorem exec_sbkCounterClear {s : State} (hl : s.live = true) (hr : s.flag HUB_STATUS_ready = true) (hcounts : s.latchNow.counts = []) :
    Yields .sbkCounterClear s (fun t => s.clears t (offIn 0x1500200 0x1500238) (fun _ => false) ∧ t = { s with regs := t.regs }) :=
  ⟨_, State.does_whenReady hl State.sbkCtrClear hr, State.clears_clearCounters hcounts fun _ => keyIn_key, rfl⟩

/-- A recording stands at its beginning. -/
def State.recordBegun (s : State) : State := { (s.setReg SBK_STATUS_state 1) with sbk := {} }

/-- What START records of the configuration (R331). -/
def State.startPayload (s : State) : Bytes :=
  leBytes 8 s.bitid ++ leBytes 8 s.bitTag ++ leBytes 4 (s.reg SBK_CFG_target + 2 * s.reg SBK_CFG_wrap + 4 * s.reg SBK_CFG_desc_en +
    8 * s.reg SBK_CFG_host_data + 16 * s.reg SBK_CFG_snap + 256 * s.reg SBK_CFG_tc_mask) ++ leBytes 4 (s.reg SBK_PORT_MASK_ports)

theorem State.recordStart_eq {s : State} (hidle : s.reg SBK_STATUS_state = 0) (hring : s.ringSize ≠ 0) (d : Nat) :
    s.recordStart d = (s.recordBegun.stage (s.recordBegun.recOf 9 195 s.recordBegun.startPayload)).completeSt d stOk := by
  have hbegun : s.recordBegun.recording = true := by
    simp only [State.recording, State.recordBegun, Option.isNone_none, Bool.and_true, beq_iff_eq]
    exact State.reg_setReg_self s SBK_STATUS_state 1
  have hlen : s.recordBegun.startPayload.length = 24 := rfl
  have hroom : s.recordBegun.sbk.stagedBytes + recBytes s.recordBegun.startPayload.length ≤ 0x800000 := by
    rw [hlen]
    exact (by decide : Sbk.stagedBytes {} + recBytes 24 ≤ 0x800000)
  rw [State.recordStart, hidle, if_neg (by simp [hring])]
  exact congrArg (fun s : State => s.completeSt d stOk) (State.recordNow_stage hbegun 9 195 hroom)

theorem exec_recordStart {s : State} {d : Nat} {x : Desc} (h : s.serves d 8 x) (hkind : byteAt x.bytes 8 = 0) (hidle : s.reg SBK_STATUS_state = 0)
    (hring : s.ringSize ≠ 0) : Yields (.recordStart d) s (fun t => t.reg SBK_STATUS_state = 1 ∧
      (∃ r, t.sbk.staged = [r] ∧ r.kind = 9 ∧ r.src = 195 ∧ r.stamp = s.now) ∧ t.sbk.lost = 0 ∧ t.sbk.written = 0 ∧ s.reports t d x 0 0 0) := by
  have hrun : exec (.recordStart d) s = .next (s.recordStart d) := by
    rw [show exec (.recordStart d) s = .next (s.runDesc d 8 (some 0) (fun _ s => s.recordStart d)) from State.does_live (fun s => s.runDesc d 8 (some 0) (fun _ s => s.recordStart d)) h.1,
      State.runDesc_serves h hkind]
  have hpost := State.postsOnly_complete (s.recordBegun.stage (s.recordBegun.recOf 9 195 s.recordBegun.startPayload)) d { status := stOk }
  have hstate := hpost.regs SBK_STATUS_state ⟨by decide, by decide, by decide⟩
  refine ⟨_, hrun, ?_⟩
  rw [State.recordStart_eq hidle hring, State.completeSt]
  have hsbk := congrArg State.sbk hpost.rest
  refine ⟨hstate.trans (State.reg_setReg_self s SBK_STATUS_state 1), ⟨_, congrArg Sbk.staged hsbk, rfl, rfl, rfl⟩, congrArg Sbk.lost hsbk,
    congrArg Sbk.written hsbk, State.reports_complete (s := s) (u := s.recordBegun.stage _) h.2.1 rfl (fun hen => ?_) ?_ { status := stOk }⟩
  · by_cases hkey : (RING_CQ_CFG_en x.cq).key = SBK_STATUS_state.key
    · have hclear : s.flag (RING_CQ_CFG_en x.cq) = false := by
        have : s.reg (RING_CQ_CFG_en x.cq) = s.reg SBK_STATUS_state := by
          simp only [State.reg, Regs.get, hkey]
          rfl
        rw [State.flag, ← State.reg, this, hidle]
        rfl
      simp [hclear] at hen
    · exact (State.flag_congr (State.reg_setReg_ne s _ _ 1 hkey)).trans hen
  · have hkey : (RING_CQ_STATE_error x.cq).key ≠ SBK_STATUS_state.key := by
      simp only [Fld.key, RING_CQ_STATE_error, SBK_STATUS_state]
      omega
    exact State.flag_congr (State.reg_setReg_ne s SBK_STATUS_state (RING_CQ_STATE_error x.cq) 1 hkey)

theorem exec_recordMark {s : State} {d : Nat} {x : Desc} (h : s.serves d 8 x) (hkind : byteAt x.bytes 8 = 2) (hrec : s.recording = true)
    (hroom : s.sbk.stagedBytes + 64 ≤ 0x800000) : Yields (.recordMark d) s (fun t =>
      (∃ r ∈ t.sbk.staged, r.kind = 8 ∧ r.src = 194 ∧ r.stamp = s.now ∧ r.payload = slice x.bytes 16 8) ∧
        (∀ r ∈ s.sbk.staged, r ∈ t.sbk.staged) ∧ s.reports t d x 0 0 0) := by
  have hrun : exec (.recordMark d) s = .next (s.recordMark d x) := by
    rw [show exec (.recordMark d) s = .next (s.runDesc d 8 (some 2) (fun x s => s.recordMark d x)) from State.does_live (fun s => s.runDesc d 8 (some 2) (fun x s => s.recordMark d x)) h.1,
      State.runDesc_serves h hkind]
  have hbytes : recBytes (slice x.bytes 16 8).length ≤ 64 := by
    have : (slice x.bytes 16 8).length ≤ 8 := List.length_take_le _ _
    simp only [recBytes, ceilDiv]
    omega
  have hmark : s.recordMark d x = (s.stage (s.recOf 8 194 (slice x.bytes 16 8))).complete d { status := stOk } := by
    rw [State.recordMark, hrec, State.recordNow_stage hrec 8 194 (by omega)]
    rfl
  have hsbk := congrArg State.sbk (State.postsOnly_complete (s.stage (s.recOf 8 194 (slice x.bytes 16 8))) d { status := stOk }).rest
  have hmem := fun r => (insertRec_perm (s.recOf 8 194 (slice x.bytes 16 8)) s.sbk.staged).mem_iff (a := r)
  refine ⟨_, hrun, ?_⟩
  rw [hmark]
  refine ⟨?_, fun r hr => ?_, State.reports_complete (u := s.stage _) h.2.1 rfl id rfl { status := stOk }⟩ <;> rw [hsbk]
  · exact ⟨_, (hmem _).mpr List.mem_cons_self, rfl, rfl, rfl, rfl⟩
  · exact (hmem r).mpr (List.mem_cons_of_mem _ hr)

theorem exec_recordStop {s : State} {d : Nat} {x : Desc} (h : s.serves d 8 x) (hkind : byteAt x.bytes 8 = 1) (hrec : s.recording = true) :
    Yields (.recordStop d) s (fun t => t.sbk.stop = some d ∧ (∃ r ∈ t.sbk.staged, r.kind = 10 ∧ r.stamp = s.now) ∧ t.reg SBK_STATUS_state = 1 ∧
      t.desc d = some { x with started := true } ∧ t.recording = false) := by
  have hrun : exec (.recordStop d) s = .next (s.recordStop d) := by
    rw [show exec (.recordStop d) s = .next (s.runDesc d 8 (some 1) (fun _ s => s.recordStop d)) from State.does_live (fun s => s.runDesc d 8 (some 1) (fun _ s => s.recordStop d)) h.1,
      State.runDesc_serves h hkind]
  let u : State := s.stage (s.recOf 10 195 (List.replicate 16 0))
  have hstop : s.recordStop d = ({ u with sbk := { u.sbk with stop := some d } } : State).startDesc d := by
    rw [State.recordStop, hrec]
    rfl
  have hstart : ({ u with sbk := { u.sbk with stop := some d } } : State).startDesc d =
      { u with sbk := { u.sbk with stop := some d }, host := { u.host with descs := u.host.descs.insert d { x with started := true } } } := by
    have hd : u.host.descs.find? d = some x := h.2.1
    simp only [State.startDesc, State.modDesc, hd]
  have hstate : s.reg SBK_STATUS_state = 1 := by
    simp only [State.recording, Bool.and_eq_true, beq_iff_eq] at hrec
    exact hrec.1
  refine ⟨_, hrun, ?_⟩
  rw [hstop, hstart]
  refine ⟨rfl, ⟨_, (insertRec_perm _ _).mem_iff.mpr List.mem_cons_self, rfl, rfl⟩, hstate, Tab.find?_insert_self _ _ _, ?_⟩
  simp [State.recording]

/-- A record that fits before the end of the ring stands there, and the write pointer and the sequence number are past it. -/
theorem State.ringPut_fits {s : State} (kind flags src : Nat) (stamp : FT64) (arr : Nat) (payload : Bytes)
    (hfits : s.reg SBK_WR_PTR_wr + recBytes payload.length ≤ s.ringSize) :
    s.ringPut kind flags src stamp arr payload =
      let n := recBytes payload.length
      let u := s.ringWrite (s.reg SBK_WR_PTR_wr) (ringRecord kind flags src stamp arr (s.reg SBK_SEQ_seq) (n / 32) payload)
      let u := (((u.setReg SBK_WR_PTR_wr ((s.reg SBK_WR_PTR_wr + n) % s.ringSize)).setReg SBK_SEQ_seq (u.reg SBK_SEQ_seq + 1)).count
        SBK_CTR_bytes_written n).count SBK_CTR_records_written
      { u with sbk := { u.sbk with written := u.sbk.written + 1 } } := by
  unfold State.ringPut
  simp only [if_neg (Nat.not_lt.mpr hfits)]
  rfl

/-- Staging without its first record. -/
def State.unstaged (s : State) (rest : List SbkRec) : State := { s with sbk := { s.sbk with staged := rest } }

theorem State.sbkWrite_eq {s : State} {r : SbkRec} {rest : List SbkRec} (hstaged : s.sbk.staged = r :: rest) (hstate : s.reg SBK_STATUS_state = 1)
    (hwhole : r.whole = true) (hage : s.elapsed r.stamp 4000 = true) (hlost : s.sbk.lost = 0) (hkind : r.kind ≠ 10)
    (hroom : s.ringRoom [recBytes r.payload.length] = true) :
    s.sbkWrite = (s.unstaged rest).ringPut r.kind r.flags r.src r.stamp r.arr r.payload := by
  have hgap : (s.unstaged rest).putGap r.stamp = s.unstaged rest := if_pos hlost
  have hkind' : (r.kind == 10) = false := by simpa using hkind
  have hroom' : s.ringRoom ((if s.sbk.lost = 0 then [] else [64]) ++ [recBytes r.payload.length]) = true := by rw [if_pos hlost]; exact hroom
  have hopen : (s.reg SBK_STATUS_state != 1 || !r.whole || !s.elapsed r.stamp 4000) = false := by simp [hstate, hwhole, hage]
  unfold State.sbkWrite
  rw [hstaged]
  simp only
  rw [hopen, if_neg Bool.false_ne_true, if_pos hroom', hkind', if_neg Bool.false_ne_true, if_neg Bool.false_ne_true]
  exact congrArg (fun s : State => s.ringPut r.kind r.flags r.src r.stamp r.arr r.payload) hgap

theorem exec_sbkRecordWrite {s : State} {r : SbkRec} {rest : List SbkRec} (hl : s.live = true) (hstaged : s.sbk.staged = r :: rest)
    (hstate : s.reg SBK_STATUS_state = 1) (hwhole : r.whole = true) (hage : s.elapsed r.stamp 4000 = true) (hlost : s.sbk.lost = 0) (hkind : r.kind ≠ 10)
    {n : Nat} (hn : n = recBytes r.payload.length) (htarget : s.flag SBK_CFG_target = false) (hroom : s.ringRoom [n] = true)
    (hfits : s.reg SBK_WR_PTR_wr + n ≤ s.ringSize) :
    Yields .sbkRecordWrite s (fun t => t.sbk.staged = rest ∧ t.reg SBK_SEQ_seq = (s.reg SBK_SEQ_seq + 1) % 2 ^ 32 ∧
      t.reg SBK_WR_PTR_wr = (s.reg SBK_WR_PTR_wr + n) % s.ringSize % 2 ^ 40 ∧
      t.store.mem = Mem.write s.store.mem (s.sbkBase + s.reg SBK_WR_PTR_wr)
        (ringRecord r.kind r.flags r.src r.stamp r.arr (s.reg SBK_SEQ_seq) (n / 32) r.payload) ∧
      t.reg SBK_CTR_records_written = (s.reg SBK_CTR_records_written + 1) % 2 ^ 64) := by
  subst hn
  have hput := State.ringPut_fits (s := s.unstaged rest) r.kind r.flags r.src r.stamp r.arr r.payload hfits
  have hwrite : ∀ off b, (s.unstaged rest).ringWrite off b = ((s.unstaged rest).storeWrite (s.sbkBase + off) b).hubAccess (s.sbkBase + off) b.length :=
    fun off b => if_neg (by rw [show (s.unstaged rest).flag SBK_CFG_target = false from htarget]; exact Bool.false_ne_true)
  refine ⟨_, State.does_live State.sbkWrite hl, ?_⟩
  rw [State.sbkWrite_eq hstaged hstate hwhole hage hlost hkind hroom, hput]
  simp only [hwrite]
  refine ⟨rfl, ?_, ?_, rfl, ?_⟩
  · exact (State.reg_count_ne _ _ _ _ (by decide)).trans ((State.reg_count_ne _ _ _ _ (by decide)).trans (State.reg_setReg_self _ _ _))
  · exact (State.reg_count_ne _ _ _ _ (by decide)).trans ((State.reg_count_ne _ _ _ _ (by decide)).trans
      ((State.reg_setReg_ne _ _ _ _ (by decide)).trans (State.reg_setReg_self _ _ _)))
  · refine (State.reg_count_self _ _ _).trans ?_
    rw [State.reg_count_ne _ _ _ _ (by decide), State.reg_setReg_ne _ _ _ _ (by decide), State.reg_setReg_ne _ _ _ _ (by decide)]
    rfl

/-- Settles O30: each command by its own equation. -/
theorem seedbankRecords : Obligations.SeedbankRecords := by
  intro s d x hl
  exact ⟨fun hr hreplay => ⟨exec_seedWrite hl hr hreplay, exec_sbkPolicyWrite hl hr hreplay⟩, exec_sbkPolicyWrite_busy hl,
    fun hr v => State.does_whenReady hl (fun s => s.setReg SBK_RD_PTR_rd v) hr, exec_sbkCounterClear hl, exec_recordStart, exec_recordMark,
    exec_recordStop, fun r rest n hstaged hstate hwhole hage hlost hkind hn htarget hroom hfits =>
      exec_sbkRecordWrite hl hstaged hstate hwhole hage hlost hkind hn htarget hroom hfits⟩

end Sys2Proof.Machine
end

section
/-! PROOFS. The power manager (R342–R353): an interval is judged once, a level takes effect, limits, phases and calibration are written. -/

set_option Elab.async false

namespace Sys2Proof.Machine

/-! ### What the judgement of an interval leaves alone -/

/-- From `s` to `t` the energy booked, what counts the next interval's events, and the fields `fs` stay. -/
structure State.Booked (fs : List Fld) (s t : State) : Prop where
  chans : t.chans = s.chans
  total : t.pmc.total = s.pmc.total
  units : t.pmc.units = s.pmc.units
  links : t.pmc.links = s.pmc.links
  regs : ∀ g ∈ fs, t.reg g = s.reg g

/-- What shows the energy, the power and the bubbles of an interval. -/
def bookFields : List Fld := [PWR_ENERGY_energy, PWR_STATUS_d, PWR_NOW_p_now]

section Booked

variable {fs : List Fld} {s t u : State}

theorem State.Booked.refl (s : State) : s.Booked fs s := ⟨rfl, rfl, rfl, rfl, fun _ _ => rfl⟩

theorem State.Booked.trans (h : s.Booked fs t) (h' : t.Booked fs u) : s.Booked fs u :=
  ⟨h'.chans.trans h.chans, h'.total.trans h.total, h'.units.trans h.units, h'.links.trans h.links, fun g hg => (h'.regs g hg).trans (h.regs g hg)⟩

/-- An update of the power manager's own accounts. -/
theorem State.booked_pmc (s : State) (p : Pmc) (htotal : p.total = s.pmc.total := by rfl) (hunits : p.units = s.pmc.units := by rfl)
    (hlinks : p.links = s.pmc.links := by rfl) : s.Booked fs { s with pmc := p } := ⟨rfl, htotal, hunits, hlinks, fun _ _ => rfl⟩

variable {f : Fld}

theorem State.booked_setReg (s : State) (v : Nat) (h : ∀ g ∈ fs, g.key ≠ f.key) : s.Booked fs (s.setReg f v) :=
  ⟨rfl, rfl, rfl, rfl, fun g hg => State.reg_setReg_ne _ _ _ _ (h g hg)⟩

theorem State.booked_count (s : State) (n : Nat) (h : ∀ g ∈ fs, g.key ≠ f.key) : s.Booked fs (s.count f n) :=
  ⟨rfl, rfl, rfl, rfl, fun g hg => State.reg_count_ne _ _ _ _ (h g hg)⟩

theorem State.booked_raise (s : State) {e : Event} (h : ∀ g ∈ fs, g.key ≠ e.st.key) (hpba : ∀ g ∈ fs, g.key ≠ HUB_MSIX_PBA_pending.key) :
    s.Booked fs (s.raise e) :=
  ⟨s.raise_chans e, by rw [s.raise_pmc], by rw [s.raise_pmc], by rw [s.raise_pmc], fun g hg => s.reg_raise_ne e (h g hg) (hpba g hg)⟩

theorem State.Booked.ite {c : Prop} [Decidable c] {t' : State} (h : c → s.Booked fs t) (h' : ¬ c → s.Booked fs t') :
    s.Booked fs (if c then t else t') := by
  split
  · exact h ‹_›
  · exact h' ‹_›

theorem State.booked_countBubbles (s : State) : s.Booked bookFields s.countBubbles :=
  (s.booked_pmc _).trans (State.booked_count _ _ (by decide))

theorem State.booked_excursion (s : State) (r : Regs) (p : Nat) : s.Booked bookFields (s.excursion r p) := by
  unfold State.excursion
  refine .ite (fun _ => ?_) (fun _ => ?_)
  · extract_lets run src s1 s2 s3
    have h1 : s.Booked bookFields s1 := s.booked_pmc _
    have h2 : s1.Booked bookFields s2 := s1.booked_setReg _ (by decide)
    have h3 : s2.Booked bookFields s3 := .ite (fun _ => s2.booked_count _ (by decide)) (fun _ => .refl s2)
    refine ((h1.trans h2).trans h3).trans (.ite (fun _ => ?_) (fun _ => .refl s3))
    have hhit : s3.Booked bookFields { s3 with pmc := { s3.pmc with hit := true } } := s3.booked_pmc _
    exact ((hhit.trans (State.booked_setReg _ _ (by decide))).trans (State.booked_count _ _ (by decide))).trans
      (State.booked_raise _ (by decide) (by decide))
  · extract_lets calm src s1 s2
    have h1 : s.Booked bookFields s1 := s.booked_pmc _
    have h2 : s1.Booked bookFields s2 := s1.booked_setReg _ (by decide)
    exact (h1.trans h2).trans (.ite (fun _ => s2.booked_setReg _ (by decide)) (fun _ => .refl s2))

theorem State.booked_powerLevel (s : State) (p : Nat) (t : Int) : s.Booked bookFields (s.powerLevel p t) := by
  unfold State.powerLevel
  extract_lets d lvl top low
  refine .ite (fun _ => ?_) (fun _ => .ite (fun _ => ?_) (fun _ => s.booked_pmc _))
  · exact (s.booked_pmc _).trans (State.booked_setReg _ _ (by decide))
  · exact (s.booked_pmc _).trans (State.booked_setReg _ _ (by decide))

theorem State.booked_thermLevel (s : State) (t : FT64) (tj : Int) : s.Booked bookFields (s.thermLevel t tj) := by
  unfold State.thermLevel
  extract_lets thr cur want s1 src s2 src' s3
  have h1 : s.Booked bookFields s1 := s.booked_count _ (by decide)
  have h2 : s1.Booked bookFields s2 := s1.booked_pmc _
  have h3 : s2.Booked bookFields s3 := .ite
    (fun _ => (s2.booked_pmc _).trans (State.booked_raise _ (by decide) (by decide)))
    (fun _ => .ite (fun _ => s2.booked_pmc _) (fun _ => .refl s2))
  exact ((h1.trans h2).trans h3).trans (s3.booked_setReg _ (by decide))

theorem State.booked_requestLevel (s : State) : s.Booked bookFields s.requestLevel := by
  unfold State.requestLevel
  extract_lets want src s1 s2
  refine .ite (fun _ => (s.booked_pmc _).trans (State.booked_setReg _ _ (by decide))) (fun _ => ?_)
  have h1 : s.Booked bookFields s1 := s.booked_setReg _ (by decide)
  have h2 : s1.Booked bookFields s2 := .ite (fun _ => .refl s1) (fun _ => s1.booked_count _ (by decide))
  exact h1.trans (.ite (fun _ => h2.trans (s2.booked_pmc _)) (fun _ => s1.booked_pmc _))

theorem State.booked_hbmReading (s : State) (stack temp : Nat) : s.Booked bookFields (s.hbmReading stack temp) := by
  unfold State.hbmReading
  extract_lets was src s1 s2
  have h1 : s.Booked bookFields s1 := s.booked_pmc _
  have h2 : s1.Booked bookFields s2 := .ite (fun _ => s1.booked_raise (by decide) (by decide)) (fun _ => .refl s1)
  exact (h1.trans h2).trans (s2.booked_setReg _ (by decide))

theorem State.booked_readTj (s : State) (act : PmcSample) : s.Booked bookFields (s.readTj act) :=
  ((s.booked_setReg _ (by decide)).trans (State.booked_setReg _ _ (by decide))).trans (State.booked_setReg _ _ (by decide))

theorem State.Booked.mono {gs : List Fld} (h : s.Booked gs t) (hsub : ∀ g ∈ fs, g ∈ gs) : s.Booked fs t :=
  ⟨h.chans, h.total, h.units, h.links, fun g hg => h.regs g (hsub g hg)⟩

theorem State.Booked.foldl {β : Type} {f : State → β → State} (l : List β) (h : ∀ (s : State), ∀ x ∈ l, s.Booked fs (f s x)) :
    s.Booked fs (l.foldl f s) :=
  List.foldlRecOn l f (.refl s) fun t ht x hx => ht.trans (h t x hx)

end Booked

/-! ### The parts of an interval -/

/-- The energy of the interval is booked, and bubbles stay. -/
theorem State.ledger_spec (s : State) (k p : Nat) : (s.ledger k p).chans = s.chans ∧ (s.ledger k p).pmc.total = s.pmc.total + p ∧
    (s.ledger k p).reg PWR_ENERGY_energy = (s.pmc.total + p) / 1000000000 % 2 ^ 64 ∧ (s.ledger k p).reg PWR_STATUS_d = s.reg PWR_STATUS_d := by
  unfold State.ledger
  extract_lets b src s1 s2 gap s3
  have h2 : s2.chans = s.chans ∧ s2.pmc.total = s.pmc.total + p ∧ s2.reg PWR_ENERGY_energy = (s.pmc.total + p) / 1000000000 % 2 ^ 64 ∧
      s2.reg PWR_STATUS_d = s.reg PWR_STATUS_d :=
    ⟨rfl, rfl, State.reg_setReg_self _ _ _, State.reg_setReg_ne _ _ _ _ (by decide)⟩
  have h3 : s2.Booked bookFields s3 := .ite
    (fun _ => (s2.booked_count _ (by decide)).trans (State.booked_raise _ (by decide) (by decide))) (fun _ => .refl s2)
  split
  · obtain ⟨hchans, htotal, henergy, hd⟩ := h2
    exact ⟨h3.chans.trans hchans, h3.total.trans htotal, (h3.regs _ (by decide)).trans henergy, (h3.regs _ (by decide)).trans hd⟩
  · exact h2

/-- The events of the interval are gone. -/
theorem State.clearEvents_spec (s : State) : s.clearEvents.pmc = { s.pmc with units := 0, links := 0 } ∧ (∀ f, s.clearEvents.reg f = s.reg f) ∧
    ∀ ch, ch < 8 → (s.clearEvents.chan ch).events = [] := by
  let f : State → Nat → State := fun s ch => s.modChan ch (fun c => { c with events := [] })
  let s0 : State := { s with pmc := { s.pmc with units := 0, links := 0 } }
  have hkeep : ((List.range 8).foldl f s0).pmc = s0.pmc ∧ ∀ g, ((List.range 8).foldl f s0).reg g = s0.reg g :=
    List.foldlRecOn (motive := fun t : State => t.pmc = s0.pmc ∧ ∀ g, t.reg g = s0.reg g) _ f ⟨rfl, fun _ => rfl⟩ fun _ ht _ _ => ht
  have hstep (s : State) (ch : Nat) : ((f s ch).chan ch).events = [] := congrArg Chan.events (State.chan_modChan_self s ch _)
  have hstay (s : State) (ch c : Nat) (h : (s.chan c).events = []) : ((f s ch).chan c).events = [] := by
    by_cases hc : c = ch
    · exact hc ▸ hstep s ch
    · exact (congrArg Chan.events (Tab.get_put_ne s.chans {} {} _ hc)).trans h
  exact ⟨hkeep.1, hkeep.2, fun ch hch => foldl_establishes (Q := fun ch s => (s.chan ch).events = []) hstep hstay (List.range 8) s0 ch (List.mem_range.mpr hch)⟩

theorem bubbles_le (d p : Nat) (t : Int) (m : Nat) (h : d ≤ 60) : bubbles d p t m ≤ 60 := by
  unfold bubbles
  split
  · exact Nat.min_le_left _ _
  · exact (Nat.sub_le _ _).trans h

/-! ### The commands -/

/-- An interval's energy is booked and its excursion judged. -/
def State.pmcBooked (s : State) (k p : Nat) (unmet : Bool) (r : Regs) : State :=
  (({ s with pmc := { s.pmc with unmet := unmet } } : State).countBubbles.ledger k p).excursion r p

theorem State.pmcBooked_spec (s : State) (k p : Nat) (unmet : Bool) (r : Regs) :
    let t := s.pmcBooked k p unmet r
    t.pmc.total = s.pmc.total + p ∧ t.reg PWR_ENERGY_energy = (s.pmc.total + p) / 1000000000 % 2 ^ 64 ∧ t.reg PWR_STATUS_d = s.reg PWR_STATUS_d := by
  let u : State := { s with pmc := { s.pmc with unmet := unmet } }
  have hcount : s.Booked bookFields u.countBubbles := (s.booked_pmc _).trans u.booked_countBubbles
  obtain ⟨-, htotal, henergy, hd⟩ := u.countBubbles.ledger_spec k p
  have hjudge := (u.countBubbles.ledger k p).booked_excursion r p
  rw [hcount.total] at htotal henergy
  exact ⟨hjudge.total.trans htotal, (hjudge.regs _ (by decide)).trans henergy,
    (hjudge.regs _ (by decide)).trans (hd.trans (hcount.regs _ (by decide)))⟩

/-- The interval's events are gone, and its power, with `m` of it throttleable, decides the level and the bubbles. -/
def State.pmcThrottled (s : State) (p : Nat) (t : Int) (m : Nat) : State :=
  let u := s.clearEvents.powerLevel p t
  u.setBubbles (bubbles (u.reg PWR_STATUS_d) p t m)

theorem State.pmcThrottled_spec (s : State) (p : Nat) (t : Int) (m : Nat) :
    let u := s.pmcThrottled p t m
    u.pmc.total = s.pmc.total ∧ u.reg PWR_ENERGY_energy = s.reg PWR_ENERGY_energy ∧ u.pmc.units = 0 ∧ u.pmc.links = 0 ∧
      (∀ ch, ch < 8 → (u.chan ch).events = []) ∧ (s.reg PWR_STATUS_d ≤ 60 → u.reg PWR_STATUS_d ≤ 60) := by
  obtain ⟨hpmc, hregs, hevents⟩ := s.clearEvents_spec
  have hlevel := s.clearEvents.booked_powerLevel p t
  refine ⟨hlevel.total.trans ?_, ?_, hlevel.units.trans ?_, hlevel.links.trans ?_, fun ch hch => ?_, fun hd => ?_⟩
  · rw [hpmc]
  · exact (State.reg_setReg_ne _ _ _ _ (by decide)).trans ((hlevel.regs _ (by decide)).trans (hregs _))
  · rw [hpmc]
  · rw [hpmc]
  · have hchan : (s.pmcThrottled p t m).chan ch = s.clearEvents.chan ch := congrArg (fun c : Tab Chan => c.get {} ch) hlevel.chans
    rw [hchan]
    exact hevents ch hch
  · refine (State.reg_setReg_self _ _ _).trans_le ((Nat.mod_le _ _).trans (bubbles_le _ _ _ _ ?_))
    rw [hlevel.regs _ (by decide), hregs]
    exact hd

/-- What the registers show of an interval, and the readings of the sensors. -/
def State.pmcShown (s : State) (act : PmcSample) (p avg m : Nat) (t : Int) : State :=
  let s := (s.setReg PWR_NOW_p_now (p / 10000000)).setReg PWR_NOW_p_avg avg
  let s := (s.setReg PWR_TARGET_target (t.toNat / 10000000)).setReg PWR_TARGET_p_mv (m / 10000000)
  ((act.hbm.zipIdx.take 24).foldl (fun s x => s.hbmReading x.2 x.1) s).readTj act

theorem State.pmcShown_spec (s : State) (act : PmcSample) (p avg m : Nat) (t : Int) :
    s.Booked [PWR_ENERGY_energy, PWR_STATUS_d] (s.pmcShown act p avg m t) ∧
      (s.pmcShown act p avg m t).reg PWR_NOW_p_now = p / 10000000 % 2 ^ 32 ∧
      (s.pmcShown act p avg m t).reg PWR_TJ_tj_max = (hottest act.sensors).2.toNat % 2 ^ 8 := by
  let u := (s.setReg PWR_NOW_p_now (p / 10000000)).setReg PWR_NOW_p_avg avg
  have hnow : s.Booked [PWR_ENERGY_energy, PWR_STATUS_d] u := (s.booked_setReg _ (by decide)).trans (State.booked_setReg _ _ (by decide))
  have hrest : u.Booked bookFields (s.pmcShown act p avg m t) :=
    ((u.booked_setReg _ (by decide)).trans (State.booked_setReg _ _ (by decide))).trans
      ((State.Booked.foldl _ fun s x _ => s.booked_hbmReading _ _).trans (State.booked_readTj _ _))
  refine ⟨hnow.trans (hrest.mono (by decide)), ?_, ?_⟩
  · exact (hrest.regs _ (by decide)).trans ((State.reg_setReg_ne _ _ _ _ (by decide)).trans (State.reg_setReg_self _ _ _))
  · exact (State.reg_setReg_ne _ _ _ _ (by decide)).trans ((State.reg_setReg_ne _ _ _ _ (by decide)).trans (State.reg_setReg_self _ _ _))

/-- An interval whose power is `p` and throttleable power `m`, judged under `r`, before one that starts under `next`. -/
def State.pmcJudged (s : State) (act : PmcSample) (k p m : Nat) (unmet : Bool) (r next : Regs) : State :=
  let u := s.pmcBooked k p unmet r
  let t := u.target next k
  let v := ((u.pmcThrottled (p + u.reserve r) t (max m (64 * watt))).thermLevel (BitVec.ofNat 64 (k * 2560000)) (hottest act.sensors).2).requestLevel
  let w := max 1 (next.get PWR_LIMIT_window)
  let x := v.pmcShown act p ((v.pmc.bins.take w).foldl (· + ·) 0 / (w * 1000000000)) m t
  { x with pmc := { x.pmc with lastK := some k, target := t, eff := next } }

theorem State.pmcInterval_eq {s : State} (hr : s.flag HUB_STATUS_ready = true) (act : PmcSample) (hnew : s.pmc.lastK ≠ some (s.now.toNat / 2560000)) :
    ∃ m unmet r, s.pmcInterval act = s.pmcJudged act (s.now.toNat / 2560000)
      (s.modelPower (if s.pmc.lastK.isNone then s.pwrBoundary else s.pmc.eff) (s.reg PWR_TJ_tj_max) (s.counted act.counts)) m unmet r s.pwrBoundary := by
  have hnew' : (s.pmc.lastK == some (s.now.toNat / 2560000)) = false := by simpa using hnew
  let next := s.pwrBoundary
  let r := if s.pmc.lastK.isNone then next else s.pmc.eff
  let p := s.modelPower r (s.reg PWR_TJ_tj_max) (s.counted act.counts)
  let missed := decide (s.pmc.target < (p : Int)) && s.reg PWR_STATUS_d == 60 && s.reg PWR_STATUS_level == 5
  refine ⟨eventEnergy r s.throttleable * r.get PWR_CAL_GAIN_gain / 4096,
    missed && (s.pmc.unmet || (s.now.toNat / 2560000 - 1) % 100 == 0), r, ?_⟩
  simp only [State.pmcInterval, hr, hnew', Bool.not_true, Bool.false_eq_true, if_false, State.pmcJudged, State.pmcBooked, State.pmcThrottled,
    State.pmcShown, missed, p, r, next]

theorem State.pmcJudged_spec (s : State) (act : PmcSample) (k p m : Nat) (unmet : Bool) (r next : Regs) {t : State}
    (ht : t = s.pmcJudged act k p m unmet r next) :
    t.pmc.total = s.pmc.total + p ∧ t.reg PWR_ENERGY_energy = (s.pmc.total + p) / 1000000000 % 2 ^ 64 ∧
      t.reg PWR_NOW_p_now = p / 10000000 % 2 ^ 32 ∧ t.reg PWR_TJ_tj_max = (hottest act.sensors).2.toNat % 2 ^ 8 ∧ t.pmc.units = 0 ∧ t.pmc.links = 0 ∧
      (∀ ch, ch < 8 → (t.chan ch).events = []) ∧ (s.reg PWR_STATUS_d ≤ 60 → t.reg PWR_STATUS_d ≤ 60) := by
  rw [ht, State.pmcJudged]
  generalize hu : s.pmcBooked k p unmet r = u
  generalize htarget : u.target next k = t
  generalize hw : u.pmcThrottled (p + u.reserve r) t (max m (64 * watt)) = w
  generalize hv : (w.thermLevel (BitVec.ofNat 64 (k * 2560000)) (hottest act.sensors).2).requestLevel = v
  obtain ⟨htotal, henergy, hd⟩ := hu ▸ s.pmcBooked_spec k p unmet r
  obtain ⟨htotal', henergy', hunits, hlinks, hevents, hd'⟩ := hw ▸ u.pmcThrottled_spec (p + u.reserve r) t (max m (64 * watt))
  have hlevels : w.Booked bookFields v := hv ▸ (State.booked_thermLevel _ _ _).trans (State.booked_requestLevel _)
  simp only
  generalize (v.pmc.bins.take (max 1 (next.get PWR_LIMIT_window))).foldl (· + ·) 0 / (max 1 (next.get PWR_LIMIT_window) * 1000000000) = avg
  obtain ⟨hshown, hnow, htj⟩ := v.pmcShown_spec act p avg m t
  have hall : w.Booked [PWR_ENERGY_energy, PWR_STATUS_d] (v.pmcShown act p avg m t) := (hlevels.mono (by decide)).trans hshown
  refine ⟨hall.total.trans (htotal'.trans htotal), (hall.regs _ (by decide)).trans (henergy'.trans henergy), hnow, htj, hall.units.trans hunits,
    hall.links.trans hlinks, fun ch hch => ?_, fun h => (hall.regs _ (by decide)).trans_le (hd' (hd.trans_le h))⟩
  exact (congrArg (fun c : Tab Chan => (c.get {} ch).events) hall.chans).trans (hevents ch hch)

theorem exec_pmcInterval {s : State} (hl : s.live = true) (hr : s.flag HUB_STATUS_ready = true) (act : PmcSample) {p : Nat}
    (hnew : s.pmc.lastK ≠ some (s.now.toNat / 2560000))
    (hp : p = s.modelPower (if s.pmc.lastK.isNone then s.pwrBoundary else s.pmc.eff) (s.reg PWR_TJ_tj_max) (s.counted act.counts)) :
    Yields (.pmcInterval act) s (fun t => t.pmc.lastK = some (s.now.toNat / 2560000) ∧ t.pmc.total = s.pmc.total + p ∧
      t.reg PWR_ENERGY_energy = (s.pmc.total + p) / 1000000000 % 2 ^ 64 ∧ t.reg PWR_NOW_p_now = p / 10000000 % 2 ^ 32 ∧
      t.reg PWR_TJ_tj_max = (hottest act.sensors).2.toNat % 2 ^ 8 ∧ t.pmc.eff = s.pwrBoundary ∧ t.pmc.units = 0 ∧ t.pmc.links = 0 ∧
      (∀ ch, ch < 8 → (t.chan ch).events = []) ∧ (s.reg PWR_STATUS_d ≤ 60 → t.reg PWR_STATUS_d ≤ 60)) := by
  obtain ⟨m, unmet, r, hjudged⟩ := State.pmcInterval_eq hr act hnew
  rw [← hp] at hjudged
  obtain ⟨htotal, henergy, hnow, htj, hunits, hlinks, hevents, hd⟩ := s.pmcJudged_spec act (s.now.toNat / 2560000) p m unmet r s.pwrBoundary rfl
  have hrun : exec (.pmcInterval act) s = .next (s.pmcJudged act (s.now.toNat / 2560000) p m unmet r s.pwrBoundary) := by
    rw [← hjudged]
    exact congrArg Host.Outcome.next (if_pos hl)
  exact ⟨_, hrun, rfl, htotal, henergy, hnow, htj, rfl, hunits, hlinks, hevents, hd⟩

theorem exec_coreLevelChange {s : State} (hl : s.live = true) {l : Nat} (hreq : s.pmc.req = some l) (hgo : s.pmc.deferred = false)
    (hlater : s.pmc.reqAt ≠ s.clk.cyc) : Yields .coreLevelChange s (fun t => t.reg PWR_STATUS_level = l % 2 ^ 3 ∧
      t.reg PWR_STATUS_freq_pending = 0 ∧ t.pmc.req = none ∧ t.reg PWR_CTR_freq_changes = (s.reg PWR_CTR_freq_changes + 1) % 2 ^ 64 ∧
      t.flag PWR_INTR_STATUS_level_ev = true) := by
  let u : State := ({ s.syncCore with pmc := { s.pmc with req := none } } : State).setReg PWR_STATUS_freq_pending 0
  let w : State := (u.setReg PWR_STATUS_level l).count PWR_CTR_freq_changes
  have hchange : s.levelChange = w.raise (evPwr PWR_INTR_STATUS_level_ev) := by
    have hwait : (s.pmc.deferred || s.pmc.reqAt == s.clk.cyc) = false := by simp [hgo, hlater]
    rw [State.levelChange, hreq]
    simp only [hwait, Bool.false_eq_true, if_false]
    rfl
  have hraise (f : Fld) (hf : f.key ≠ PWR_INTR_STATUS_level_ev.key) (hpba : f.key ≠ HUB_MSIX_PBA_pending.key) :
      (w.raise (evPwr PWR_INTR_STATUS_level_ev)).reg f = w.reg f := w.reg_raise_ne _ hf hpba
  refine ⟨_, State.does_live State.levelChange hl, ?_⟩
  rw [hchange]
  refine ⟨?_, ?_, ?_, ?_, w.flag_raise_self (e := evPwr PWR_INTR_STATUS_level_ev) (by decide) (by decide)⟩
  · rw [hraise _ (by decide) (by decide), State.reg_count_ne _ _ _ _ (by decide), State.reg_setReg_self]
    rfl
  · rw [hraise _ (by decide) (by decide), State.reg_count_ne _ _ _ _ (by decide), State.reg_setReg_ne _ _ _ _ (by decide), State.reg_setReg_self]
    rfl
  · rw [State.raise_pmc]
    rfl
  · rw [hraise _ (by decide) (by decide), State.reg_count_self, State.reg_setReg_ne _ _ _ _ (by decide), State.reg_setReg_ne _ _ _ _ (by decide)]
    rfl

section Ready

variable {s : State} (hl : s.live = true) (hr : s.flag HUB_STATUS_ready = true) (v : Nat)
include hl hr

theorem exec_pwrLimitWrite : Yields (.pwrLimitWrite v) s (fun t => t.reg PWR_LIMIT_cap = min 1100 (bits v 0 11) ∧
    t.reg PWR_LIMIT_exc = min 1400 (bits v 11 11) ∧ t.reg PWR_LIMIT_window = bits v 32 15 ∧ t.reg PWR_LIMIT_exc_ms = min 20 (bits v 48 8) ∧
    t.reg PWR_LIMIT_exc_gap = bits v 56 8 ∧ t = { s with regs := t.regs, pmc := { s.pmc with before := t.pmc.before } }) := by
  have hbits (lo w : Nat) : bits v lo w % 2 ^ w = bits v lo w := Nat.mod_mod _ _
  refine ⟨_, State.does_whenReady hl (fun s => s.limitWrite v) hr, ?_, ?_, ?_, ?_, ?_, ?_⟩
  · simp only [State.limitWrite, State.reg_setReg_ne _ PWR_LIMIT_exc_gap PWR_LIMIT_cap _ (by decide),
      State.reg_setReg_ne _ PWR_LIMIT_exc_ms PWR_LIMIT_cap _ (by decide), State.reg_setReg_ne _ PWR_LIMIT_window PWR_LIMIT_cap _ (by decide),
      State.reg_setReg_ne _ PWR_LIMIT_exc PWR_LIMIT_cap _ (by decide), State.reg_setReg_self]
    exact Nat.mod_eq_of_lt (by simp only [PWR_LIMIT_cap]; omega)
  · simp only [State.limitWrite, State.reg_setReg_ne _ PWR_LIMIT_exc_gap PWR_LIMIT_exc _ (by decide),
      State.reg_setReg_ne _ PWR_LIMIT_exc_ms PWR_LIMIT_exc _ (by decide), State.reg_setReg_ne _ PWR_LIMIT_window PWR_LIMIT_exc _ (by decide),
      State.reg_setReg_self]
    exact Nat.mod_eq_of_lt (by simp only [PWR_LIMIT_exc]; omega)
  · simp only [State.limitWrite, State.reg_setReg_ne _ PWR_LIMIT_exc_gap PWR_LIMIT_window _ (by decide),
      State.reg_setReg_ne _ PWR_LIMIT_exc_ms PWR_LIMIT_window _ (by decide), State.reg_setReg_self]
    exact hbits 32 15
  · simp only [State.limitWrite, State.reg_setReg_ne _ PWR_LIMIT_exc_gap PWR_LIMIT_exc_ms _ (by decide), State.reg_setReg_self]
    exact Nat.mod_eq_of_lt (by simp only [PWR_LIMIT_exc_ms]; omega)
  · exact (State.reg_setReg_self _ _ _).trans (hbits 56 8)
  · simp only [State.limitWrite]
    split <;> rfl

theorem exec_pwrPhaseWrite (hperm : ∀ c, c < 8 → ∃ i, i < 8 ∧ phaseAt v i = c) :
    exec (.pwrPhaseWrite v) s = .next (s.setReg PWR_PHASE_order v) := by
  have hall : (List.range 8).all (fun c => (List.range 8).any (fun i => phaseAt v i == c)) = true := by simpa using hperm
  rw [show exec (.pwrPhaseWrite v) s = .next (s.phaseWrite v) from State.does_whenReady hl (fun s => s.phaseWrite v) hr, State.phaseWrite, if_pos hall]

theorem exec_pwrPhaseWrite_ignored (hmiss : ∃ c, c < 8 ∧ ∀ i, i < 8 → phaseAt v i ≠ c) : exec (.pwrPhaseWrite v) s = .next s := by
  have hall : ¬ (List.range 8).all (fun c => (List.range 8).any (fun i => phaseAt v i == c)) = true := by simpa using hmiss
  rw [show exec (.pwrPhaseWrite v) s = .next (s.phaseWrite v) from State.does_whenReady hl (fun s => s.phaseWrite v) hr, State.phaseWrite, if_neg hall]

theorem exec_pwrCalWrite_gain :
    Yields (.pwrCalWrite 0x20005C v) s (fun t => t.reg PWR_CAL_GAIN_gain = bits v 0 16 ∧ t = { s with regs := t.regs }) := by
  have hrow : regAt regTable 0x20005C = some ⟨0x20005c, [], 32, [⟨0, 16, .rw, 0x1000⟩]⟩ := by decide +kernel
  have hwrite : s.calWrite 0x20005C v = s.setReg PWR_CAL_GAIN_gain (bits v 0 16) := by
    rw [State.calWrite, if_pos (by decide), hrow]
    rfl
  refine ⟨_, State.does_whenReady hl (fun s => s.calWrite 0x20005C v) hr, ?_⟩
  rw [hwrite]
  exact ⟨(State.reg_setReg_self _ _ _).trans (Nat.mod_mod _ _), rfl⟩

theorem exec_pwrCounterClear (hcounts : s.latchNow.counts = []) :
    Yields .pwrCounterClear s (fun t => s.clears t (offIn 0x200200 0x200250) (fun o => o == PWR_TJ_tj_peak.off) ∧
      t.reg PWR_TJ_tj_peak = s.reg PWR_TJ_tj_max % 2 ^ 8 ∧ t.reg PWR_TJ_tj_max = s.reg PWR_TJ_tj_max ∧
      t.reg PWR_TJ_die = s.reg PWR_TJ_die ∧ t.reg PWR_TJ_hbm_max = s.reg PWR_TJ_hbm_max ∧
      t = { s with regs := t.regs, pmc := { s.pmc with stretch := t.pmc.stretch, bubble := 0, coreWas := t.pmc.coreWas, thermAt := s.now } }) := by
  have hclears := State.clears_clearCounters hcounts (hit := keyIn 0x200200 0x200250) (off := offIn 0x200200 0x200250) fun _ => keyIn_key
  have hkeep (f : Fld) (hlo : f.lo < 64) (hoff : f.off = PWR_TJ_tj_peak.off) : (s.clearCounters (keyIn 0x200200 0x200250)).reg f = s.reg f :=
    (hclears f hlo).2 (by rw [hoff]; rfl) rfl
  have hpeak (f : Fld) (hlo : f.lo < 64) (hoff : f.off = PWR_TJ_tj_peak.off) (hne : f.key ≠ PWR_TJ_tj_peak.key) : s.pwrCtrClear.reg f = s.reg f :=
    (State.reg_setReg_ne _ _ _ _ hne).trans (hkeep f hlo hoff)
  refine ⟨_, State.does_whenReady hl State.pwrCtrClear hr, ?_, State.reg_setReg_self _ _ _, hpeak _ (by decide) rfl (by decide),
    hpeak _ (by decide) rfl (by decide), hpeak _ (by decide) rfl (by decide), rfl⟩
  intro f hlo
  have hne (h : f.off ≠ PWR_TJ_tj_peak.off) : s.pwrCtrClear.reg f = (s.clearCounters (keyIn 0x200200 0x200250)).reg f :=
    State.reg_setReg_ne _ _ _ _ (by simp only [Fld.key, PWR_TJ_tj_peak] at h ⊢; omega)
  refine ⟨fun hin => ?_, fun hout hbut => ?_⟩
  · have hoff : f.off ≠ PWR_TJ_tj_peak.off := fun h => by rw [h] at hin; exact absurd hin (by decide)
    exact (hne hoff).trans ((hclears f hlo).1 hin)
  · exact (hne (by simpa using hbut)).trans ((hclears f hlo).2 hout rfl)

end Ready

/-- Settles O32: an interval by what each of its parts leaves alone, each other command by its own equation. -/
theorem powerIntervalsAndLimits : Obligations.PowerIntervalsAndLimits := by
  intro s act v l p hl
  exact ⟨fun hr => exec_pmcInterval hl hr act, exec_coreLevelChange hl, fun hr => ⟨exec_pwrLimitWrite hl hr v, exec_pwrPhaseWrite hl hr v,
    exec_pwrPhaseWrite_ignored hl hr v, exec_pwrCalWrite_gain hl hr v, exec_pwrCounterClear hl hr⟩⟩

end Sys2Proof.Machine
end

section
/-! PROOFS. What the work of ports, of the store and of the pod leaves alone (R66, R69, R105, R111, R404–R413): the registers in which the pod and
the hub show their state, what has left the device, and by and by the rest of the state. Proved once for each operation on the way. -/

set_option Elab.async false

namespace Sys2Proof.Machine

/-! ### Registers that no such work writes -/

/-- The state of the pod, the enables of the mirror ports, what the hub shows of failed blocks and of a fatal error, and the store's own state. -/
def stillFields : List Fld :=
  [MIR_STATUS_state, MIR_STATUS_m0_up, MIR_STATUS_m1_up, MIR_STATUS_alive_in, MIR_STATUS_self_fenced, MIR_PORT_CFG_m0_en, MIR_PORT_CFG_m1_en,
    MIR_TAKEOVER_LOG_valid, HUB_RAS_STATUS_block_ev, HUB_RAS_STATUS_fatal_ev, HUB_CTR_block_errors, HUB_FATAL_LOG_class, HUB_FATAL_LOG_unit,
    HUB_FATAL_LOG_cause, HUB_FATAL_LOG_valid, HUB_FATAL_STAMP_stamp, STORE_CTRL_enable, STORE_STATUS_ready]

/-- The field is none of these. -/
@[reducible] def Fld.loose (g : Fld) : Prop := ∀ f ∈ stillFields, f.key ≠ g.key

theorem stillFields_place : ∀ f ∈ stillFields, (f.off < 0x10000 ∨ 0x1000000 ≤ f.off) ∧ f.off < 0x1400100 ∧ f.lo < 64 ∧ f.off % 0x20 ≠ 0x10 ∧
    f.off % 0x20 ≠ 0x14 ∧ (f.off % 0x20 = 0x18 → f.lo ≠ 2) := by decide

/-- Registers of rings, ports, fabric time and channels, and counters of the mirror ports. -/
theorem Fld.loose_of_off {g : Fld} (h : 0x10000 ≤ g.off ∧ g.off < 0x1000000 ∨ 0x1400100 ≤ g.off) (hlo : g.lo < 64) : g.loose := by
  intro f hf
  obtain ⟨hout, hlow, hflo, -⟩ := stillFields_place f hf
  simp only [Fld.key]
  omega

/-- Registers that stand in line for rings and owners, whatever their number. -/
theorem Fld.loose_of_line {g : Fld} (h : g.off % 0x20 = 0x10 ∨ g.off % 0x20 = 0x14 ∨ g.off % 0x20 = 0x18 ∧ g.lo = 2) (hlo : g.lo < 64) : g.loose := by
  intro f hf
  obtain ⟨-, -, hflo, h10, h14, h18⟩ := stillFields_place f hf
  simp only [Fld.key]
  omega

/-! ### Work of the ports (R66, R69, R71, R111) -/

/-- From `s` to `t` ports have sent frames of their own and back-pressure has been judged. -/
structure State.PortWork (s t : State) : Prop where
  rest : t = { s with
    regs := t.regs, latch := t.latch, out := t.out, links := t.links, clk := { s.clk with pdReq := t.clk.pdReq, arr := t.clk.arr }
    store := { s.store with bp := t.store.bp, bpPairs := t.store.bpPairs } }
  out : s.out <+: t.out
  still : ∀ f ∈ stillFields, t.reg f = s.reg f

section PortWork

variable {s t u : State}

theorem State.PortWork.trans (h : s.PortWork t) (h' : t.PortWork u) : s.PortWork u where
  rest := by rw [h'.rest, h.rest]
  out := h.out.trans h'.out
  still f hf := (h'.still f hf).trans (h.still f hf)

theorem State.PortWork.frames (h : s.PortWork t) : t.frames = s.frames := by rw [h.rest]

theorem State.PortWork.inbox (h : s.PortWork t) : t.inbox = s.inbox := by rw [h.rest]

theorem State.PortWork.tables (h : s.PortWork t) : t.tables = s.tables := by rw [h.rest]

theorem State.PortWork.sys (h : s.PortWork t) : t.sys = s.sys := by rw [h.rest]

theorem State.PortWork.groups (h : s.PortWork t) : t.groups = s.groups := by rw [h.rest]

theorem State.PortWork.mir (h : s.PortWork t) : t.mir = s.mir := by rw [h.rest]

theorem State.PortWork.store (h : s.PortWork t) : t.store = { s.store with bp := t.store.bp, bpPairs := t.store.bpPairs } := by rw [h.rest]

/-- An update of links, of arrival numbers, or of back-pressure. -/
theorem State.PortWork.of_rest (hrest : t = { s with
      latch := t.latch, out := t.out, links := t.links, clk := { s.clk with pdReq := t.clk.pdReq, arr := t.clk.arr }
      store := { s.store with bp := t.store.bp, bpPairs := t.store.bpPairs } })
    (hout : s.out <+: t.out := by exact List.prefix_rfl) : s.PortWork t where
  rest := by rw [hrest]
  out := hout
  still f _ := by rw [hrest]; rfl

theorem State.PortWork.refl (s : State) : s.PortWork s := .of_rest rfl

theorem State.PortWork.ite {c : Prop} [Decidable c] {t' : State} (h : c → s.PortWork t) (h' : ¬ c → s.PortWork t') :
    s.PortWork (if c then t else t') := by
  split
  · exact h ‹_›
  · exact h' ‹_›

theorem State.PortWork.foldl {β : Type} {f : State → β → State} (l : List β) (h : ∀ (s : State), ∀ x ∈ l, s.PortWork (f s x)) :
    s.PortWork (l.foldl f s) :=
  List.foldlRecOn l f (.refl s) fun t ht x hx => ht.trans (h t x hx)

theorem State.portWork_setReg (s : State) {g : Fld} (hg : g.loose) (v : Nat) : s.PortWork (s.setReg g v) :=
  ⟨rfl, List.prefix_rfl, fun f hf => State.reg_setReg_ne _ _ _ _ (hg f hf)⟩

theorem State.portWork_count (s : State) {g : Fld} (hg : g.loose) (n : Nat := 1) : s.PortWork (s.count g n) :=
  ⟨rfl, List.prefix_rfl, fun f hf => State.reg_count_ne _ _ _ _ (hg f hf)⟩

theorem State.portWork_setW1c (s : State) {g : Fld} (hg : g.loose) (m : Nat) : s.PortWork (s.setW1c g m) :=
  ⟨rfl, List.prefix_rfl, fun f hf => State.reg_setW1c_ne _ _ _ _ (hg f hf)⟩

theorem State.portWork_emit (s : State) (o : Out) : s.PortWork (s.emit o) := .of_rest rfl (List.prefix_append _ _)

theorem State.portWork_signal (s : State) (v : Nat) : s.PortWork (s.signal v) := by
  rcases s.signal_cases v with h | h <;> rw [h]
  · exact s.portWork_setReg (by decide) _
  · exact s.portWork_emit _

theorem State.portWork_raise (s : State) {e : Event} (he : e.st.loose) : s.PortWork (s.raise e) := by
  rcases s.raise_cases e with h | ⟨v, h⟩ <;> rw [h]
  · exact s.portWork_setW1c he _
  · exact (s.portWork_setW1c he _).trans (State.portWork_signal _ v)

theorem State.portWork_modLink (s : State) (src : Nat) (f : Link → Link) : s.PortWork (s.modLink src f) := .of_rest rfl

theorem State.portWork_stamped (s : State) : s.PortWork s.stamped := .of_rest rfl

theorem State.portWork_countL (s : State) {f : Nat → Nat → Fld} (hf : ∀ p l, p < 24 → l < 8 → (f p l).loose) (src : Nat) (n : Nat := 1) :
    s.PortWork (s.countL f src n) :=
  .ite (fun h => s.portWork_count (hf _ _ (by omega) (by omega)) n) (fun _ => .refl s)

theorem State.portWork_countM (s : State) {f : Nat → Nat → Fld} {g : Nat → Fld} (hf : ∀ p l, p < 24 → l < 8 → (f p l).loose) (hg : ∀ m, (g m).loose)
    (src : Nat) (n : Nat := 1) : s.PortWork (s.countM f g src n) :=
  .ite (fun _ => s.portWork_countL hf src n) (fun _ => s.portWork_count (hg _) n)

theorem State.portWork_putFrame (s : State) (src : Nat) (seq : Option Nat) (b : Bytes) (good : Bool) (stamp : FT64) :
    s.PortWork (s.putFrame src seq b good stamp) := by
  have hframes : ∀ p l, p < 24 → l < 8 → (PORT_LCTR_tx_frames p l).loose := fun p l hp hl =>
    Fld.loose_of_off (.inl (by simp only [PORT_LCTR_tx_frames]; omega)) (Nat.zero_lt_succ _)
  have hbytes : ∀ p l, p < 24 → l < 8 → (PORT_LCTR_tx_bytes p l).loose := fun p l hp hl =>
    Fld.loose_of_off (.inl (by simp only [PORT_LCTR_tx_bytes]; omega)) (Nat.zero_lt_succ _)
  have hmir : ∀ m, (MIR_CTR_tx_frames m).loose := fun m => Fld.loose_of_off (.inr (by simp only [MIR_CTR_tx_frames]; omega)) (Nat.zero_lt_succ _)
  have hmir' : ∀ m, (MIR_CTR_tx_bytes m).loose := fun m => Fld.loose_of_off (.inr (by simp only [MIR_CTR_tx_bytes]; omega)) (Nat.zero_lt_succ _)
  exact ((s.portWork_emit _).trans (State.portWork_countM _ hframes hmir src)).trans (State.portWork_countM _ hbytes hmir' src _)

theorem State.portWork_sendNow (s : State) (src : Nat) (c : CtlTx) : s.PortWork (s.sendNow src c) := by
  unfold State.sendNow
  split
  · exact s.portWork_count (by decide)
  extract_lets stamp b s1 s2
  have h1 : s.PortWork s1 := .ite (fun _ => s.portWork_stamped) (fun _ => .refl s)
  have h2 : s1.PortWork s2 := .ite
    (fun _ => ((s1.portWork_modLink src _).trans (State.portWork_putFrame _ src _ b true stamp)).trans (State.portWork_modLink _ src _))
    (fun _ => s1.portWork_putFrame src none b true stamp)
  refine (h1.trans h2).trans ?_
  split
  · exact .of_rest rfl
  · exact s2.portWork_modLink src _
  · exact .refl s2

theorem State.portWork_flushCtl (s : State) (src n : Nat) : s.PortWork (s.flushCtl src n) := by
  induction n generalizing s with
  | zero => exact .refl s
  | succ n ih =>
    unfold State.flushCtl
    split
    · exact .refl s
    · exact ((s.portWork_modLink src _).trans (State.portWork_sendNow _ src _)).trans (ih _)

theorem State.portWork_flush (s : State) (src : Nat) : s.PortWork (s.flush src) := .ite (fun _ => .refl _) (fun _ => s.portWork_flushCtl src _)

theorem State.portWork_sendCtl (s : State) (src : Nat) (c : CtlTx) : s.PortWork (s.sendCtl src c) :=
  (s.portWork_modLink src _).trans (State.portWork_flush _ src)

theorem State.portWork_sendPfc (s : State) (src : Nat) (cs : List (Nat × Nat)) : s.PortWork (s.sendPfc src cs) := by
  have hpfc : ∀ p l, p < 24 → l < 8 → (PORT_LCTR_tx_pfc_frames p l).loose := fun p l hp hl =>
    Fld.loose_of_off (.inl (by simp only [PORT_LCTR_tx_pfc_frames]; omega)) (Nat.zero_lt_succ _)
  exact .ite (fun _ => (s.portWork_sendCtl src _).trans (State.portWork_countL _ hpfc src)) (fun _ => .refl s)

theorem State.portWork_creditSync (s : State) (src : Nat) : s.PortWork (s.creditSync src) := by
  unfold State.creditSync
  refine .ite (fun _ => ?_) (fun _ => .refl s)
  extract_lets l g
  refine .ite (fun _ => .refl s) (fun _ => ?_)
  have hset : s.PortWork (s.setLink src { l with granted := g }) := .of_rest rfl
  exact hset.trans (State.portWork_sendCtl _ src _)

theorem State.portWork_creditPort (s : State) (p : Nat) : s.PortWork (s.creditPort p) := .foldl _ fun s _ _ => s.portWork_creditSync _

theorem State.portWork_bpSync (s : State) : s.PortWork s.bpSync := by
  unfold State.bpSync
  extract_lets owners bp old new s1 src s2 on off s3
  have h1 : s.PortWork s1 := .foldl _ fun s o _ =>
    s.portWork_setReg (Fld.loose_of_line (.inr (.inr ⟨by simp only [POOL_OWN_CTRL_bp]; omega, rfl⟩)) (Nat.lt_of_sub_eq_succ rfl)) _
  have h2 : s1.PortWork s2 := .of_rest rfl
  have h3 : s2.PortWork s3 := .foldl _ fun s _ _ => s.portWork_sendPfc _ _
  exact ((h1.trans h2).trans h3).trans (.foldl _ fun s _ _ => s.portWork_creditSync _)

theorem State.portWork_usageSync (s : State) (o : Nat) : s.PortWork (s.usageSync o) :=
  .ite (fun _ => s.portWork_bpSync.trans (State.portWork_creditPort _ _)) (fun _ => s.portWork_bpSync)

theorem State.portWork_creditClock (s : State) (src : Nat) : s.PortWork (s.creditClock src) := by
  have hwait : ∀ p l, p < 24 → l < 8 → (PORT_LCTR_credit_wait_ns p l).loose := fun p l hp hl =>
    Fld.loose_of_off (.inl (by simp only [PORT_LCTR_credit_wait_ns]; omega)) (Nat.zero_lt_succ _)
  refine .ite (fun _ => .refl s) (fun _ => ?_)
  exact State.PortWork.trans (.ite (fun _ => .refl s) (fun _ => s.portWork_countL hwait src _)) (State.portWork_modLink _ src _)

/-! ### Errors that are counted and logged (R114, R430, R432) -/

theorem State.portWork_rasLog (s : State) (cls unit cause status index : Nat) : s.PortWork (s.rasLog cls unit cause status index) := by
  refine .ite (fun _ => .refl s) (fun _ => ?_)
  exact (((((((s.portWork_setReg (by decide) _).trans (State.portWork_setReg _ (by decide) _)).trans (State.portWork_setReg _ (by decide) _)).trans
    (State.portWork_setReg _ (by decide) _)).trans (State.portWork_setReg _ (by decide) _)).trans (State.portWork_setW1c _ (by decide) _)).trans
    (State.portWork_setReg _ (by decide) _)).trans (State.portWork_stamped _)

theorem State.portWork_rasContained (s : State) (unit cause status index : Nat) : s.PortWork (s.rasContained unit cause status index) := by
  unfold State.rasContained
  extract_lets s1
  have h1 : s.PortWork s1 := .ite (fun _ => s.portWork_count (by decide)) (fun _ => .refl s)
  exact ((h1.trans (s1.portWork_count (by decide))).trans (State.portWork_raise _ (by decide))).trans (State.portWork_rasLog _ _ _ _ _ _)

theorem State.portWork_logUe (s : State) (addr req : Nat) : s.PortWork (s.logUe addr req) := by
  unfold State.logUe
  extract_lets s1 s2 s3
  have h1 : s.PortWork s1 := (s.portWork_count (by decide)).trans (State.portWork_raise _ (by decide))
  have h2 : s1.PortWork s2 := (((s1.portWork_setReg (by decide) _).trans (State.portWork_setReg _ (by decide) _)).trans
    (State.portWork_setReg _ (by decide) _)).trans (State.portWork_setW1c _ (by decide) _)
  have h3 : s2.PortWork s3 := (s2.portWork_setReg (by decide) _).trans (State.portWork_stamped _)
  exact ((h1.trans h2).trans h3).trans (State.portWork_rasContained _ _ _ _ _)

end PortWork

end Sys2Proof.Machine
end

section
/-! PROOFS. The administration of the store (R73, R93, R94, R99, R107, R114, R117, R287). -/

set_option Elab.async false

namespace Sys2Proof.Machine

/-! ### Folds over distinct keys -/

/-- What a step brings about, and no step for another element of the list undoes, holds for every element of a list that has been gone through. -/
theorem foldl_establishes_on {σ β : Type} {f : σ → β → σ} {Q : β → σ → Prop} {l : List β} (hstep : ∀ s, ∀ x ∈ l, Q x (f s x))
    (hkeep : ∀ s, ∀ x ∈ l, ∀ y ∈ l, y ≠ x → Q y s → Q y (f s x)) (s : σ) : ∀ x ∈ l, Q x (l.foldl f s) := by
  have run (l' : List β) (hsub : ∀ x ∈ l', x ∈ l) (s : σ) (y : β) (hy : y ∈ l) (h : y ∈ l' ∨ Q y s) : Q y (l'.foldl f s) := by
    induction l' generalizing s with
    | nil => exact h.resolve_left List.not_mem_nil
    | cons x r ih =>
      refine ih (fun z hz => hsub z (List.mem_cons_of_mem _ hz)) (f s x) ?_
      have hx : x ∈ l := hsub x List.mem_cons_self
      by_cases hyx : y = x
      · exact .inr (hyx ▸ hstep s x hx)
      · exact h.imp (fun hmem => (List.mem_cons.mp hmem).resolve_left hyx) (hkeep s x hx y hy hyx)
  exact fun x hx => run l (fun _ h => h) s x hx (.inl hx)

/-- Fields with distinct keys are set one after another to values that registers do not change. -/
theorem State.foldl_setReg {β : Type} (fld : β → Fld) (v : State → β → Nat) (hv : ∀ (s : State) (f : Fld) n x, v (s.setReg f n) x = v s x)
    (l : List β) (hkeys : ∀ x ∈ l, ∀ y ∈ l, y ≠ x → (fld y).key ≠ (fld x).key) (s : State) :
    let t := l.foldl (fun s x => s.setReg (fld x) (v s x)) s
    t = { s with regs := t.regs } ∧ (∀ x ∈ l, t.reg (fld x) = v s x % 2 ^ (fld x).w) ∧
      ∀ f : Fld, (∀ x ∈ l, f.key ≠ (fld x).key) → t.reg f = s.reg f := by
  have hval (u : State) (l' : List β) : ∀ x, v (l'.foldl (fun s x => s.setReg (fld x) (v s x)) u) x = v u x :=
    List.foldlRecOn (motive := fun t => ∀ x, v t x = v u x) l' _ (fun _ => rfl) fun t ht y _ x => (hv t _ _ x).trans (ht x)
  refine ⟨?_, ?_, fun f hf => ?_⟩
  · exact List.foldlRecOn (motive := fun t : State => t = { s with regs := t.regs }) l _ rfl fun t ht x _ => by rw [ht]; rfl
  · have hall := foldl_establishes_on (f := fun s x => s.setReg (fld x) (v s x)) (Q := fun x t => t.reg (fld x) = v t x % 2 ^ (fld x).w) (l := l)
      (fun s x _ => (State.reg_setReg_self s (fld x) (v s x)).trans (by rw [hv]))
      (fun s x hx y hy hne hq => (State.reg_setReg_ne _ _ _ _ (hkeys x hx y hy hne)).trans (by rw [hq, hv])) s
    intro x hx
    rw [hall x hx, hval]
  · exact List.foldlRecOn (motive := fun t : State => t.reg f = s.reg f) l _ rfl fun t ht x hx => (State.reg_setReg_ne _ _ _ _ (hf x hx)).trans ht

/-- Entries with distinct keys are listed one after another. -/
theorem Tab.get_foldl_put {α β : Type} [DecidableEq α] (d : α) (key : β → Nat) (g : β → α) {l : List β}
    (hkeys : ∀ x ∈ l, ∀ y ∈ l, y ≠ x → key y ≠ key x) (t : Tab α) :
    ∀ x ∈ l, Tab.get (l.foldl (fun t x => t.put d (key x) (g x)) t) d (key x) = g x :=
  foldl_establishes_on (Q := fun x t => Tab.get t d (key x) = g x) (fun t x _ => Tab.get_put_self t d (key x) (g x))
    (fun t x hx y hy hne hq => (Tab.get_put_ne t d d (g x) (hkeys x hx y hy hne)).trans hq) t

/-! ### The layout of the pools (R99) -/

/-- Where each pool starts and where the metadata of the buffers start. -/
def poolBases (c : Nat → Nat) : List Nat → List (Nat × Nat) × Nat → List (Nat × Nat) × Nat :=
  fun ks i => ks.foldl (fun a k => (a.1 ++ [(k, a.2)], a.2 + c k * poolSize k)) i

theorem poolBases_spec (c : Nat → Nat) (ks : List Nat) (i : List (Nat × Nat) × Nat) (hi : ∀ e ∈ i.1, e.2 ≤ i.2) :
    (poolBases c ks i).1.map (·.1) = i.1.map (·.1) ++ ks ∧ ∀ e ∈ (poolBases c ks i).1, e.2 ≤ (poolBases c ks i).2 := by
  induction ks generalizing i with
  | nil => exact ⟨(List.append_nil _).symm, hi⟩
  | cons k r ih =>
    obtain ⟨hkeys, hle⟩ := ih (i.1 ++ [(k, i.2)], i.2 + c k * poolSize k) (by
      intro e he
      rcases List.mem_append.mp he with he | he
      · exact (hi e he).trans (Nat.le_add_right _ _)
      · rw [List.mem_singleton.mp he]
        exact Nat.le_add_right _ _)
    refine ⟨?_, hle⟩
    rw [show poolBases c (k :: r) i = poolBases c r (i.1 ++ [(k, i.2)], i.2 + c k * poolSize k) from rfl, hkeys]
    simp

/-- Where each ring starts behind them. -/
def poolRings (c : Nat → Nat) (l : List (Nat × Nat)) (i : List (Nat × Nat × Nat) × Nat) : List (Nat × Nat × Nat) × Nat :=
  l.foldl (fun a e =>
    let r := ceilDiv a.2 4096 * 4096
    (a.1 ++ [(e.1, e.2, r)], r + 8 * c e.1)) i

theorem le_roundUp (n : Nat) : n ≤ ceilDiv n 4096 * 4096 := by
  unfold ceilDiv
  omega

theorem poolRings_spec (c : Nat → Nat) (l : List (Nat × Nat)) (i : List (Nat × Nat × Nat) × Nat) :
    (poolRings c l i).1.map (fun e => (e.1, e.2.1)) = i.1.map (fun e => (e.1, e.2.1)) ++ l ∧ i.2 ≤ (poolRings c l i).2 := by
  induction l generalizing i with
  | nil => exact ⟨(List.append_nil _).symm, Nat.le_refl _⟩
  | cons e r ih =>
    obtain ⟨hkeys, hle⟩ := ih (i.1 ++ [(e.1, e.2, ceilDiv i.2 4096 * 4096)], ceilDiv i.2 4096 * 4096 + 8 * c e.1)
    have hstep : poolRings c (e :: r) i = poolRings c r (i.1 ++ [(e.1, e.2, ceilDiv i.2 4096 * 4096)], ceilDiv i.2 4096 * 4096 + 8 * c e.1) := rfl
    refine ⟨?_, (le_roundUp i.2).trans ((Nat.le_add_right _ _).trans (hstep ▸ hle))⟩
    rw [hstep, hkeys]
    simp

/-- The counts of the pools. -/
def State.poolCount (s : State) (k : Nat) : Nat := s.reg (POOL_CFG_count k)

/-- The layout that the counts give. -/
def poolLayout (c : Nat → Nat) : List (Nat × Nat × Nat) × Nat :=
  let b := poolBases c [5, 4, 3, 2, 1, 0] ([], 0)
  poolRings c b.1 ([], b.2 + 16 * [5, 4, 3, 2, 1, 0].foldl (fun a k => a + c k) 0)

theorem State.layout_eq (s : State) : s.layout = poolLayout s.poolCount := rfl

/-- The six pools in the order in which they lie, each with a base below the layout's end. -/
theorem poolLayout_spec (c : Nat → Nat) : (poolLayout c).1.map (·.1) = [5, 4, 3, 2, 1, 0] ∧ ∀ e ∈ (poolLayout c).1, e.2.1 ≤ (poolLayout c).2 := by
  unfold poolLayout
  extract_lets b
  obtain ⟨hkeys, hbase⟩ := poolBases_spec c [5, 4, 3, 2, 1, 0] ([], 0) (fun _ h => absurd h List.not_mem_nil)
  obtain ⟨hrings, hend⟩ := poolRings_spec c b.1 ([], b.2 + 16 * [5, 4, 3, 2, 1, 0].foldl (fun a k => a + c k) 0)
  refine ⟨?_, fun e he => ?_⟩
  · have hfst := congrArg (List.map Prod.fst) hrings
    rw [List.map_map] at hfst
    exact hfst.trans hkeys
  · have hmem := List.mem_map_of_mem (f := fun e : Nat × Nat × Nat => (e.1, e.2.1)) he
    rw [hrings] at hmem
    exact (hbase _ hmem).trans ((Nat.le_add_right _ _).trans hend)

theorem poolLayout_keys (c : Nat → Nat) : ∀ x ∈ (poolLayout c).1, ∀ y ∈ (poolLayout c).1, y ≠ x → y.1 ≠ x.1 := by
  have hnodup : ((poolLayout c).1.map (·.1)).Nodup := (poolLayout_spec c).1 ▸ (by decide)
  exact fun x hx y hy hne hkey => hne (List.inj_on_of_nodup_map hnodup hy hx hkey)

theorem exists_mem_poolLayout (c : Nat → Nat) (k : Pool) : ∃ b r, (k.val, b, r) ∈ (poolLayout c).1 := by
  have hk : k.val ∈ (poolLayout c).1.map (·.1) := by
    rw [(poolLayout_spec c).1]
    exact (by decide : ∀ k : Pool, k.val ∈ [5, 4, 3, 2, 1, 0]) k
  obtain ⟨⟨k', b, r⟩, hmem, rfl⟩ := List.mem_map.mp hk
  exact ⟨b, r, hmem⟩

/-! ### The pools are laid out (R94, R99, R104) -/

/-- The base registers of the pools and of their rings. -/
def State.putBases (s : State) (l : List (Nat × Nat × Nat)) : State :=
  l.foldl (fun s e => (s.setReg (POOL_BASE_base e.1) e.2.1).setReg (POOL_RING_BASE_base e.1) e.2.2) s

/-- Every buffer free in its pool's ring, but for those out of use. -/
def State.putPools (s : State) (l : List (Nat × Nat × Nat)) : State :=
  { s with store := { s.store with
      pools := l.foldl (fun (t : Tab PoolSt) e => t.put {} e.1 { ring := freshSegs (poolUnits e.1) (e.2.1 / 256) s.store.lost (s.poolCount e.1) }) []
      bufs := [], usage := [], bp := [], bpPairs := [] } }

theorem State.reg_putPools (s : State) (l : List (Nat × Nat × Nat)) (f : Fld) : (s.putPools l).reg f = s.reg f := rfl

theorem State.store_putPools (s : State) (l : List (Nat × Nat × Nat)) : (s.putPools l).store.bufs = [] ∧ (s.putPools l).store.usage = [] ∧
    (s.putPools l).store.mem = s.store.mem ∧ (s.putPools l).frames = s.frames := ⟨rfl, rfl, rfl, rfl⟩

/-- Low-water marks restart at the free counts. -/
def State.restartLow (s : State) : State := (List.range 6).foldl (fun s k => s.setReg (POOL_LOW_WATER_low k) (s.pool k).free) s

/-- Peaks and back-pressure are zero. -/
def State.clearOwners (s : State) : State :=
  (List.range 256).foldl (fun s o => (s.setReg (POOL_OWN_PEAK_peak o) 0).setReg (POOL_OWN_CTRL_bp o) 0) s

/-- The store shows that it is ready. -/
def State.showReady (s : State) : State :=
  (((s.setReg STORE_SHARED_STATUS_total s.poolTotal).setReg STORE_STATUS_ready 1).setReg STORE_STATUS_cfg_err 0).setReg STORE_STATUS_cfg_err_code 0

theorem State.layOut_eq (s : State) : s.layOut = (((s.putBases s.layout.1).putPools s.layout.1).restartLow.clearOwners).showReady := rfl

/-- A register that the layout does not write: STORE_CTRL and the counts of the pools are among them. -/
@[reducible] def Fld.unlaid (f : Fld) : Prop := f.off % 0x40 = 0 ∧ f.off < 0x1020000 ∧ f.lo < 64

/-- From `s` to `t` only registers have changed, and none but those of the layout. -/
structure State.Laid (s t : State) : Prop where
  rest : t = { s with regs := t.regs }
  regs : ∀ f : Fld, f.unlaid → t.reg f = s.reg f

theorem State.Laid.trans {s t u : State} (h : s.Laid t) (h' : t.Laid u) : s.Laid u :=
  ⟨by rw [h'.rest, h.rest], fun f hf => (h'.regs f hf).trans (h.regs f hf)⟩

theorem State.Laid.store {s t : State} (h : s.Laid t) : t.store = s.store := by rw [h.rest]

theorem State.Laid.frames {s t : State} (h : s.Laid t) : t.frames = s.frames := by rw [h.rest]

theorem State.Laid.foldl {β : Type} {f : State → β → State} {s : State} (l : List β) (h : ∀ (s : State), ∀ x ∈ l, s.Laid (f s x)) :
    s.Laid (l.foldl f s) :=
  List.foldlRecOn l f ⟨rfl, fun _ _ => rfl⟩ fun t ht x hx => ht.trans (h t x hx)

theorem State.laid_setReg (s : State) {g : Fld} (hg : g.off % 0x40 ≠ 0 ∨ 0x1020000 ≤ g.off) (hlo : g.lo < 64) (v : Nat) : s.Laid (s.setReg g v) := by
  refine ⟨rfl, fun f hf => State.reg_setReg_ne _ _ _ _ ?_⟩
  obtain ⟨hmod, hoff, hlo'⟩ := hf
  simp only [Fld.key]
  omega

theorem State.laid_putBases (s : State) (l : List (Nat × Nat × Nat)) : s.Laid (s.putBases l) :=
  .foldl l fun s e _ => (s.laid_setReg (.inl (by simp only [POOL_BASE_base]; omega)) (Nat.lt_of_sub_eq_succ rfl) _).trans
    (State.laid_setReg _ (.inl (by simp only [POOL_RING_BASE_base]; omega)) (Nat.lt_of_sub_eq_succ rfl) _)

theorem State.laid_restartLow (s : State) : s.Laid s.restartLow :=
  .foldl _ fun s k _ => s.laid_setReg (.inl (by simp only [POOL_LOW_WATER_low]; omega)) (Nat.lt_of_sub_eq_succ rfl) _

theorem State.laid_clearOwners (s : State) : s.Laid s.clearOwners :=
  .foldl _ fun s o _ => (s.laid_setReg (.inr (by simp only [POOL_OWN_PEAK_peak]; omega)) (Nat.lt_of_sub_eq_succ rfl) _).trans
    (State.laid_setReg _ (.inr (by simp only [POOL_OWN_CTRL_bp]; omega)) (Nat.lt_of_sub_eq_succ rfl) _)

theorem State.laid_showReady (s : State) : s.Laid s.showReady :=
  (((s.laid_setReg (.inl (by decide)) (by decide) _).trans (State.laid_setReg _ (.inl (by decide)) (by decide) _)).trans
    (State.laid_setReg _ (.inl (by decide)) (by decide) _)).trans (State.laid_setReg _ (.inl (by decide)) (by decide) _)

theorem POOL_CFG_count_unlaid (k : Pool) : (POOL_CFG_count k).unlaid := by
  simp only [Fld.unlaid, POOL_CFG_count]
  omega

theorem State.poolTotal_congr {s t : State} (h : ∀ k : Pool, t.reg (POOL_CFG_count k) = s.reg (POOL_CFG_count k)) : t.poolTotal = s.poolTotal := by
  refine List.foldl_ext _ _ _ fun a k hk => ?_
  rw [h ⟨k, List.mem_range.mp hk⟩]

theorem State.reg_restartLow (s : State) (k : Pool) : s.restartLow.reg (POOL_LOW_WATER_low k) = (s.pool k).free % 2 ^ 30 := by
  obtain ⟨-, hlow, -⟩ := State.foldl_setReg POOL_LOW_WATER_low (fun s k => (s.pool k).free) (fun _ _ _ _ => rfl) (List.range 6)
    (fun x _ y _ hne => by simp only [Fld.key, POOL_LOW_WATER_low]; omega) s
  exact hlow k (List.mem_range.mpr k.isLt)

theorem State.reg_clearOwners_peak (s : State) (q : Nat) (hq : q < 256) : s.clearOwners.reg (POOL_OWN_PEAK_peak q) = 0 := by
  have hbp (s : State) (x y : Nat) : (s.setReg (POOL_OWN_CTRL_bp x) 0).reg (POOL_OWN_PEAK_peak y) = s.reg (POOL_OWN_PEAK_peak y) :=
    State.reg_setReg_ne _ _ _ _ (by simp only [Fld.key, POOL_OWN_CTRL_bp, POOL_OWN_PEAK_peak]; omega)
  refine foldl_establishes_on (Q := fun q s => s.reg (POOL_OWN_PEAK_peak q) = 0) (fun s x _ => ?_) (fun s x _ y _ hne hy => ?_) s q (List.mem_range.mpr hq)
  · exact (hbp _ x x).trans ((State.reg_setReg_self _ _ _).trans (Nat.zero_mod _))
  · refine (hbp _ x y).trans ((State.reg_setReg_ne _ _ _ _ ?_).trans hy)
    simp only [Fld.key, POOL_OWN_PEAK_peak]
    omega

theorem State.reg_clearOwners_ne (s : State) {f : Fld} (hf : f.off < 0x1020000 ∧ f.lo < 64) : s.clearOwners.reg f = s.reg f := by
  unfold State.clearOwners
  refine List.foldlRecOn (motive := fun t : State => t.reg f = s.reg f) _ _ rfl fun t ht o _ => ?_
  rw [State.reg_setReg_ne _ _ _ _ (by simp only [Fld.key, POOL_OWN_CTRL_bp]; omega),
    State.reg_setReg_ne _ _ _ _ (by simp only [Fld.key, POOL_OWN_PEAK_peak]; omega), ht]

theorem State.reg_restartLow_ne (s : State) {f : Fld} (hf : f.off % 0x40 ≠ 0x24 ∧ f.lo < 64) : s.restartLow.reg f = s.reg f := by
  unfold State.restartLow
  refine List.foldlRecOn (motive := fun t : State => t.reg f = s.reg f) _ _ rfl fun t ht k _ => ?_
  rw [State.reg_setReg_ne _ _ _ _ (by simp only [Fld.key, POOL_LOW_WATER_low]; omega), ht]

/-- Registers of pools and owners stay as the store shows that it is ready. -/
theorem State.reg_showReady_ne (s : State) {f : Fld} (hf : 0x1010000 ≤ f.off) : s.showReady.reg f = s.reg f := by
  have hne (g : Fld) (hg : g.off < 0x1010000) (hlo : g.lo < 64) : f.key ≠ g.key := by
    simp only [Fld.key]
    omega
  unfold State.showReady
  rw [State.reg_setReg_ne _ _ _ _ (hne _ (by decide) (by decide)), State.reg_setReg_ne _ _ _ _ (hne _ (by decide) (by decide)),
    State.reg_setReg_ne _ _ _ _ (hne _ (by decide) (by decide)), State.reg_setReg_ne _ _ _ _ (hne _ (by decide) (by decide))]

theorem State.reg_showReady (s : State) : s.showReady.reg STORE_STATUS_ready = 1 ∧ s.showReady.reg STORE_SHARED_STATUS_total = s.poolTotal % 2 ^ 32 := by
  unfold State.showReady
  refine ⟨?_, ?_⟩
  · rw [State.reg_setReg_ne _ _ _ _ (by decide), State.reg_setReg_ne _ _ _ _ (by decide), State.reg_setReg_self]
    rfl
  · rw [State.reg_setReg_ne _ _ _ _ (by decide), State.reg_setReg_ne _ _ _ _ (by decide), State.reg_setReg_ne _ _ _ _ (by decide),
      State.reg_setReg_self]
    rfl

theorem State.laid_layOut (s : State) : ((s.putBases s.layout.1).putPools s.layout.1).Laid s.layOut := by
  rw [State.layOut_eq]
  exact ((State.laid_restartLow _).trans (State.laid_clearOwners _)).trans (State.laid_showReady _)

theorem State.reg_layOut_low (s : State) (k : Pool) : s.layOut.reg (POOL_LOW_WATER_low k) = (s.layOut.pool k).free % 2 ^ 30 := by
  have hk := k.isLt
  have hpool : s.layOut.pool k = ((s.putBases s.layout.1).putPools s.layout.1).pool k := by
    rw [State.pool, s.laid_layOut.store, State.pool]
  rw [hpool, State.layOut_eq, State.reg_showReady_ne _ (by simp only [POOL_LOW_WATER_low]; omega),
    State.reg_clearOwners_ne _ (by simp only [POOL_LOW_WATER_low]; omega), State.reg_restartLow]

theorem State.reg_layOut_peak (s : State) (q : Nat) (hq : q < 256) : s.layOut.reg (POOL_OWN_PEAK_peak q) = 0 := by
  rw [State.layOut_eq, State.reg_showReady_ne _ (by simp only [POOL_OWN_PEAK_peak]; omega), State.reg_clearOwners_peak _ q hq]

theorem State.reg_putBases (s : State) (c : Nat → Nat) {k b r : Nat} (h : (k, b, r) ∈ (poolLayout c).1) :
    (s.putBases (poolLayout c).1).reg (POOL_BASE_base k) = b % 2 ^ 48 := by
  have hring (s : State) (x y v : Nat) : (s.setReg (POOL_RING_BASE_base x) v).reg (POOL_BASE_base y) = s.reg (POOL_BASE_base y) :=
    State.reg_setReg_ne _ _ _ _ (by simp only [Fld.key, POOL_RING_BASE_base, POOL_BASE_base]; omega)
  refine foldl_establishes_on (Q := fun e s => s.reg (POOL_BASE_base e.1) = e.2.1 % 2 ^ 48) (fun s x _ => ?_) (fun s x hx y hy hne hq => ?_) s _ h
  · exact (hring _ _ _ _).trans (State.reg_setReg_self _ _ _)
  · have hkey := poolLayout_keys c x hx y hy hne
    refine (hring _ _ _ _).trans ((State.reg_setReg_ne _ _ _ _ ?_).trans hq)
    simp only [Fld.key, POOL_BASE_base]
    omega

/-- Pool bases stay after they have been put. -/
theorem State.reg_layOut_base (s : State) (k : Pool) : s.layOut.reg (POOL_BASE_base k) = (s.putBases s.layout.1).reg (POOL_BASE_base k) := by
  have hk := k.isLt
  rw [State.layOut_eq, State.reg_showReady_ne _ (by simp only [POOL_BASE_base]; omega), State.reg_clearOwners_ne _ (by simp only [POOL_BASE_base]; omega),
    State.reg_restartLow_ne _ (by simp only [POOL_BASE_base]; omega), State.reg_putPools]

/-- Registers that the layout does not write stay. -/
theorem State.reg_layOut_ne (s : State) {f : Fld} (hf : f.unlaid) : s.layOut.reg f = s.reg f := by
  rw [s.laid_layOut.regs f hf, State.reg_putPools, (s.laid_putBases s.layout.1).regs f hf]

theorem State.flag_layOut_ready (s : State) : s.layOut.flag STORE_STATUS_ready = true := by
  rw [State.flag, ← State.reg, State.layOut_eq, (State.reg_showReady _).1]
  rfl

theorem State.reg_layOut_total (s : State) : s.layOut.reg STORE_SHARED_STATUS_total = s.poolTotal % 2 ^ 32 := by
  have hbases := s.laid_putBases s.layout.1
  have hlaid := (State.laid_restartLow ((s.putBases s.layout.1).putPools s.layout.1)).trans (State.laid_clearOwners _)
  have htotal : ((s.putBases s.layout.1).putPools s.layout.1).restartLow.clearOwners.poolTotal = s.poolTotal := State.poolTotal_congr fun k => by
    rw [hlaid.regs _ (POOL_CFG_count_unlaid k), State.reg_putPools, hbases.regs _ (POOL_CFG_count_unlaid k)]
  rw [State.layOut_eq, (State.reg_showReady _).2, htotal]

theorem freshSegs_none_lost (stride base n : Nat) : freshSegs stride base [] n = [⟨base, n, 1⟩] := rfl

theorem State.pool_putPools (s : State) (c : Nat → Nat) {k b r : Nat} (h : (k, b, r) ∈ (poolLayout c).1) :
    (s.putPools (poolLayout c).1).pool k = { ring := freshSegs (poolUnits k) (b / 256) s.store.lost (s.poolCount k) } :=
  Tab.get_foldl_put ({} : PoolSt) Prod.fst
    (fun e : Nat × Nat × Nat => ({ ring := freshSegs (poolUnits e.1) (e.2.1 / 256) s.store.lost (s.poolCount e.1) } : PoolSt))
    (poolLayout_keys c) [] _ h

/-- With no buffer out of use a pool's ring holds all its buffers, from its base on. -/
theorem State.pool_layOut {s : State} (hend : s.layout.2 < 2 ^ 48) (hlost : s.store.lost = []) (k : Pool) :
    s.layOut.pool k = { ring := [⟨s.layOut.reg (POOL_BASE_base k) / 256, s.reg (POOL_CFG_count k), 1⟩], caches := [] } := by
  obtain ⟨b, r, hmem⟩ := exists_mem_poolLayout s.poolCount k
  have hb : b < 2 ^ 48 := ((poolLayout_spec s.poolCount).2 _ hmem).trans_lt hend
  have hlaid := s.laid_putBases s.layout.1
  have hcount : (s.putBases s.layout.1).poolCount k = s.reg (POOL_CFG_count k) := hlaid.regs _ (POOL_CFG_count_unlaid k)
  rw [State.reg_layOut_base, State.pool, s.laid_layOut.store, ← State.pool]
  rw [State.layout_eq] at hlaid hcount ⊢
  rw [State.reg_putBases s _ hmem, Nat.mod_eq_of_lt hb, State.pool_putPools _ _ hmem, hlaid.store, hlost, hcount, freshSegs_none_lost]

/-! ### STORE_ENABLE (R94) -/

/-- A layout that passes the checks ends within the packet region, of at most 128 GiB. -/
theorem State.layout_lt {s : State} (h : s.storeCheck = none) : s.layout.2 < 2 ^ 48 := by
  unfold State.storeCheck at h
  extract_lets pkt sbk at h
  split at h
  · cases h
  next hregion =>
    split at h
    · cases h
    split at h
    · cases h
    next hend =>
      have hpkt : pkt ≤ 128 := by
        simp only [Bool.or_eq_true, decide_eq_true_eq, not_or, Nat.not_lt] at hregion
        exact hregion.1.2
      calc s.layout.2 ≤ pkt * gib := Nat.not_lt.mp hend
        _ ≤ 128 * gib := Nat.mul_le_mul_right gib hpkt
        _ < 2 ^ 48 := by decide

theorem State.storeCheck_le {s : State} {k : Nat} (h : s.storeCheck = some k) : k ≤ 4 := by
  unfold State.storeCheck at h
  extract_lets pkt sbk at h
  split at h
  · cases h; decide
  split at h
  · cases h; decide
  split at h
  · cases h; decide
  split at h
  · cases h; decide
  · cases h

/-- The store with its scrubber set, and enabled. -/
def State.storeScrub (s : State) (sc : Bool) : State := s.setReg STORE_CTRL_scrub_en (bit1 sc)

def State.storeOn (s : State) (sc : Bool) : State := (s.storeScrub sc).setReg STORE_CTRL_enable 1

theorem State.flag_storeScrub (s : State) (sc : Bool) : (s.storeScrub sc).flag STORE_CTRL_enable = s.flag STORE_CTRL_enable :=
  State.flag_congr (State.reg_setReg_ne s STORE_CTRL_scrub_en STORE_CTRL_enable (bit1 sc) (by decide))

theorem State.storeEnable_eq {s : State} (hen : s.flag STORE_CTRL_enable = false) (sc : Bool) : s.storeEnable sc =
    match (s.storeScrub sc).storeCheck with
    | some c => ((s.storeScrub sc).setReg STORE_STATUS_cfg_err 1).setReg STORE_STATUS_cfg_err_code c
    | none => (s.storeOn sc).layOut := by
  have hoff := (s.flag_storeScrub sc).trans hen
  unfold State.storeEnable
  rw [State.storeScrub] at hoff
  simp only [hoff, Bool.false_eq_true, if_false]
  rfl

theorem State.poolCount_storeOn (s : State) (sc : Bool) : (s.storeOn sc).poolCount = s.poolCount := by
  funext k
  have hne (g : Fld) (hg : g.off < 0x1010000) (hlo : g.lo < 64) : (POOL_CFG_count k).key ≠ g.key := by
    simp only [Fld.key, POOL_CFG_count]
    omega
  exact (State.reg_setReg_ne _ _ _ _ (hne _ (by decide) (by decide))).trans (State.reg_setReg_ne _ _ _ _ (hne _ (by decide) (by decide)))

theorem State.poolCount_storeScrub (s : State) (sc : Bool) : (s.storeScrub sc).poolCount = s.poolCount := by
  funext k
  exact State.reg_setReg_ne _ _ _ _ (by simp only [Fld.key, POOL_CFG_count, STORE_CTRL_scrub_en]; omega)

theorem State.store_layOut (s : State) : s.layOut.store.bufs = [] ∧ s.layOut.store.usage = [] ∧ s.layOut.store.mem = s.store.mem ∧
    s.layOut.frames = s.frames := by
  have hlaid := s.laid_putBases s.layout.1
  obtain ⟨hbufs, husage, hmem, hframes⟩ := (s.putBases s.layout.1).store_putPools s.layout.1
  rw [s.laid_layOut.store, s.laid_layOut.frames]
  exact ⟨hbufs, husage, hmem.trans (congrArg StoreSt.mem hlaid.store), hframes.trans hlaid.frames⟩

section Ready

variable {s : State} (hl : s.live = true) (hr : s.flag HUB_STATUS_ready = true)
include hl hr

theorem exec_storeEnable (sc : Bool) (hen : s.flag STORE_CTRL_enable = false) (hcheck : (s.storeScrub sc).storeCheck = none) :
    Yields (.storeEnable sc) s (fun t => t.flag STORE_CTRL_enable = true ∧ t.flag STORE_STATUS_ready = true ∧
      t.reg STORE_SHARED_STATUS_total = s.poolTotal % 2 ^ 32 ∧ t.store.bufs = [] ∧ t.store.usage = [] ∧ t.store.mem = s.store.mem ∧
      t.frames = s.frames ∧ (∀ q, q < 256 → t.reg (POOL_OWN_PEAK_peak q) = 0) ∧
      (∀ k : Pool, t.reg (POOL_LOW_WATER_low k) = (t.pool k).free % 2 ^ 30) ∧
      (s.store.lost = [] → ∀ k : Pool, t.pool k = { ring := [⟨t.reg (POOL_BASE_base k) / 256, s.reg (POOL_CFG_count k), 1⟩], caches := [] })) := by
  have hrun : exec (.storeEnable sc) s = .next (s.storeOn sc).layOut := by
    rw [show exec (.storeEnable sc) s = .next (s.storeEnable sc) from State.does_whenReady hl (fun s => s.storeEnable sc) hr,
      State.storeEnable_eq hen, hcheck]
  have hcount := s.poolCount_storeOn sc
  have hlayout : (s.storeOn sc).layout = (s.storeScrub sc).layout := by rw [State.layout_eq, State.layout_eq, hcount, State.poolCount_storeScrub]
  obtain ⟨hbufs, husage, hmem, hframes⟩ := (s.storeOn sc).store_layOut
  refine ⟨_, hrun, ?_, State.flag_layOut_ready _, ?_, hbufs, husage, hmem, hframes, State.reg_layOut_peak _, State.reg_layOut_low _, fun hlost k => ?_⟩
  · have hon : (s.storeOn sc).reg STORE_CTRL_enable = 1 := State.reg_setReg_self _ _ _
    rw [State.flag, ← State.reg, State.reg_layOut_ne _ (by decide), hon]
    rfl
  · rw [State.reg_layOut_total, State.poolTotal_congr fun k : Pool => congrFun hcount k]
  · have hlost' : (s.storeOn sc).store.lost = [] := hlost
    have hend : (s.storeOn sc).layout.2 < 2 ^ 48 := by
      rw [hlayout]
      exact State.layout_lt hcheck
    rw [State.pool_layOut hend hlost' k, show (s.storeOn sc).reg (POOL_CFG_count k) = _ from congrFun hcount k, State.poolCount]

theorem exec_storeEnable_fails (sc : Bool) {k : Nat} (hen : s.flag STORE_CTRL_enable = false) (hcheck : (s.storeScrub sc).storeCheck = some k) :
    Yields (.storeEnable sc) s (fun t => t.flag STORE_CTRL_enable = false ∧ t.reg STORE_STATUS_cfg_err = 1 ∧ t.reg STORE_STATUS_cfg_err_code = k ∧
      t.store = s.store) := by
  have hrun : exec (.storeEnable sc) s = .next (((s.storeScrub sc).setReg STORE_STATUS_cfg_err 1).setReg STORE_STATUS_cfg_err_code k) := by
    rw [show exec (.storeEnable sc) s = .next (s.storeEnable sc) from State.does_whenReady hl (fun s => s.storeEnable sc) hr,
      State.storeEnable_eq hen, hcheck]
  have hk := State.storeCheck_le hcheck
  refine ⟨_, hrun, ?_, ?_, ?_, rfl⟩
  · refine (State.flag_congr ?_).trans ((s.flag_storeScrub sc).trans hen)
    rw [State.reg_setReg_ne _ _ _ _ (by decide), State.reg_setReg_ne _ _ _ _ (by decide)]
  · rw [State.reg_setReg_ne _ _ _ _ (by decide), State.reg_setReg_self]
    rfl
  · rw [State.reg_setReg_self]
    exact Nat.mod_eq_of_lt (by simp only [STORE_STATUS_cfg_err_code]; omega)

end Ready

/-! ### STORE_DISABLE (R94, log entry 20) -/

/-- Every frame is gone, and every copy of one. -/
def State.framesLost (s : State) : State :=
  let noEgress := fun (e : Egress) => { e with q := [], active := [], deficit := [], visited := [], tx := none }
  let noFate := fun (r : Rx) => { r with fate := if r.fate == .port then .port else .drop }
  { s with frames := [], inbox := [], links := s.links.mapVals (fun _ l => { l with eg := noEgress l.eg, rx := l.rx.map noFate }) }

/-- What contexts and the pod held in the store is gone. -/
def State.heldLost (s : State) : State :=
  let u := { s with ctxs := s.ctxs.mapVals (fun _ k => { k with fifo := [], held := [] }) }
  { u with mir := { u.mir with unconfirmed := u.mir.unconfirmed.map (fun (r : MirRec) => { r with unit := none }) } }

/-- No pool, no buffer and no usage is left. -/
def State.poolsLost (s : State) : State := { s with store := { s.store with pools := [], bufs := [], usage := [] } }

/-- The store shows that it is disabled. -/
def State.showDisabled (s : State) : State := ((s.setReg STORE_CTRL_enable 0).setReg STORE_STATUS_ready 0).setReg STORE_SHARED_STATUS_total 0

theorem State.storeDisable_eq {s : State} (hen : s.flag STORE_CTRL_enable = true) (sc : Bool) : s.storeDisable sc =
    ((List.range 24).foldl State.creditPort
      ((List.range 192).foldl State.creditClock (s.storeScrub sc).framesLost).heldLost.poolsLost.bpSync).showDisabled := by
  have hon := (s.flag_storeScrub sc).trans hen
  unfold State.storeDisable
  rw [State.storeScrub] at hon
  simp only [hon, Bool.not_true, Bool.false_eq_true, if_false]
  rfl

/-- What is left of a disabled store. -/
structure State.storeLost (s t : State) : Prop where
  frames : t.frames = []
  inbox : t.inbox = []
  bufs : t.store.bufs = []
  usage : t.store.usage = []
  pools : t.store.pools = []
  mem : t.store.mem = s.store.mem

theorem State.storeLost.portWork {s t u : State} (h : s.storeLost t) (hwork : t.PortWork u) : s.storeLost u where
  frames := hwork.frames.trans h.frames
  inbox := hwork.inbox.trans h.inbox
  bufs := by rw [hwork.store]; exact h.bufs
  usage := by rw [hwork.store]; exact h.usage
  pools := by rw [hwork.store]; exact h.pools
  mem := by rw [hwork.store]; exact h.mem

theorem State.storeLost_storeDisable {s : State} (hen : s.flag STORE_CTRL_enable = true) (sc : Bool) : s.storeLost (s.storeDisable sc) ∧
    (s.storeDisable sc).reg STORE_CTRL_enable = 0 ∧ (s.storeDisable sc).reg STORE_STATUS_ready = 0 := by
  rw [State.storeDisable_eq hen]
  have hclock : (s.storeScrub sc).framesLost.PortWork ((List.range 192).foldl State.creditClock (s.storeScrub sc).framesLost) :=
    .foldl _ fun s _ _ => s.portWork_creditClock _
  generalize (List.range 192).foldl State.creditClock (s.storeScrub sc).framesLost = u at hclock
  have hstore : u.store.mem = s.store.mem := by
    rw [hclock.store]
    rfl
  have hlost : s.storeLost u.heldLost.poolsLost := ⟨hclock.frames, hclock.inbox, rfl, rfl, rfl, hstore⟩
  have hcredit : u.heldLost.poolsLost.PortWork ((List.range 24).foldl State.creditPort u.heldLost.poolsLost.bpSync) :=
    (State.portWork_bpSync _).trans (.foldl _ fun s _ _ => s.portWork_creditPort _)
  generalize (List.range 24).foldl State.creditPort u.heldLost.poolsLost.bpSync = w at hcredit
  have hw := hlost.portWork hcredit
  refine ⟨⟨hw.frames, hw.inbox, hw.bufs, hw.usage, hw.pools, hw.mem⟩, ?_, ?_⟩
  · rw [State.showDisabled, State.reg_setReg_ne _ _ _ _ (by decide), State.reg_setReg_ne _ _ _ _ (by decide), State.reg_setReg_self]
    rfl
  · rw [State.showDisabled, State.reg_setReg_ne _ _ _ _ (by decide), State.reg_setReg_self]
    rfl

theorem exec_storeDisable {s : State} (hl : s.live = true) (hr : s.flag HUB_STATUS_ready = true) (sc : Bool) (hen : s.flag STORE_CTRL_enable = true) :
    ∃ w, exec (.storeDisable sc) s = .next (s.anchorsLost.foldl (fun u x => u.corrupt x.1 x.2 stMemUncorrectable) w) ∧
      w.flag STORE_CTRL_enable = false ∧ w.flag STORE_STATUS_ready = false ∧ w.frames = [] ∧ w.inbox = [] ∧
      w.store.bufs = [] ∧ w.store.usage = [] ∧ w.store.pools = [] ∧ w.store.mem = s.store.mem := by
  obtain ⟨hlost, henable, hready⟩ := State.storeLost_storeDisable hen sc
  refine ⟨(s.storeDisable sc).framesGone, ?_, ?_, ?_, hlost.frames, hlost.inbox, hlost.bufs, hlost.usage, hlost.pools, hlost.mem⟩
  · rw [show exec (.storeDisable sc) s = .next (s.storeOff sc) from State.does_whenReady hl (fun s => s.storeOff sc) hr, State.storeOff, hen]
    rfl
  · have h : (s.storeDisable sc).framesGone.reg STORE_CTRL_enable = 0 := henable
    rw [State.flag, ← State.reg, h]
    rfl
  · have h : (s.storeDisable sc).framesGone.reg STORE_STATUS_ready = 0 := hready
    rw [State.flag, ← State.reg, h]
    rfl

/-! ### Regions, owners, rereads, scrubbing and counters (R73, R93, R107, R114, R117) -/

/-- The two sizes and the registers that follow them. -/
def State.putRegions (s : State) (v base size sbk : Nat) : State :=
  ((((s.setReg STORE_REGION_CFG_pkt_size (bits v 0 8)).setReg STORE_REGION_CFG_sbk_size (bits v 8 8)).setReg STORE_PROG_BASE_base base).setReg
    STORE_PROG_BASE_size_gib size).setReg STORE_SBK_BASE_base sbk

theorem State.putRegions_spec (s : State) (v base size sbk : Nat) : (s.putRegions v base size sbk).reg STORE_REGION_CFG_pkt_size = bits v 0 8 ∧
    (s.putRegions v base size sbk).reg STORE_REGION_CFG_sbk_size = bits v 8 8 ∧
    s.putRegions v base size sbk = { s with regs := (s.putRegions v base size sbk).regs } := by
  have hbits (lo : Nat) : bits v lo 8 % 2 ^ 8 = bits v lo 8 := Nat.mod_mod _ _
  refine ⟨?_, ?_, rfl⟩ <;> unfold State.putRegions
  · rw [State.reg_setReg_ne _ _ _ _ (by decide), State.reg_setReg_ne _ _ _ _ (by decide), State.reg_setReg_ne _ _ _ _ (by decide),
      State.reg_setReg_ne _ _ _ _ (by decide), State.reg_setReg_self]
    exact hbits 0
  · rw [State.reg_setReg_ne _ _ _ _ (by decide), State.reg_setReg_ne _ _ _ _ (by decide), State.reg_setReg_ne _ _ _ _ (by decide),
      State.reg_setReg_self]
    exact hbits 8

theorem State.regionWrite_eq {s : State} (hen : s.flag STORE_CTRL_enable = false) (hopen : s.bundleOpen = false) (v : Nat) :
    ∃ base size sbk, s.regionWrite v = s.putRegions v base size sbk := by
  have hshut : (s.flag STORE_CTRL_enable || s.bundleOpen) = false := by rw [hen, hopen]; rfl
  unfold State.regionWrite
  rw [hshut, if_neg Bool.false_ne_true]
  exact ⟨_, _, _, rfl⟩

theorem exec_storeRegionCfgWrite {s : State} (hl : s.live = true) (v : Nat) (hen : s.flag STORE_CTRL_enable = false) (hopen : s.bundleOpen = false) :
    Yields (.storeRegionCfgWrite v) s (fun t => t.reg STORE_REGION_CFG_pkt_size = bits v 0 8 ∧ t.reg STORE_REGION_CFG_sbk_size = bits v 8 8 ∧
      t = { s with regs := t.regs }) := by
  obtain ⟨base, size, sbk, hwrite⟩ := State.regionWrite_eq hen hopen v
  refine ⟨_, State.does_live (fun s => s.regionWrite v) hl, ?_⟩
  rw [hwrite]
  exact s.putRegions_spec v base size sbk

/-- The limits that an owner's registers hold. -/
def State.askedLimits (s : State) (o : Nat) : Limits :=
  { min := s.reg (POOL_OWN_MIN_min o), xon := s.reg (POOL_OWN_XON_xon o), xoff := s.reg (POOL_OWN_XOFF_xoff o), ceil := s.reg (POOL_OWN_CEIL_ceil o) }

theorem exec_ownerCommit {s : State} (hl : s.live = true) (hr : s.flag HUB_STATUS_ready = true) (o : Fin 226)
    (hxon : s.reg (POOL_OWN_MIN_min o) ≤ s.reg (POOL_OWN_XON_xon o)) (hxoff : s.reg (POOL_OWN_XON_xon o) < s.reg (POOL_OWN_XOFF_xoff o))
    (hceil : s.reg (POOL_OWN_XOFF_xoff o) ≤ s.reg (POOL_OWN_CEIL_ceil o))
    (hfit : s.sumMin - (s.limits o).min + s.reg (POOL_OWN_MIN_min o) ≤ s.total) :
    Yields (.ownerCommit o) s (fun t => t.limits o = s.askedLimits o ∧ ∀ q, q ≠ o.val → t.limits q = s.limits q) := by
  let u : State := { s with store := { s.store with limits := s.store.limits.put {} o (s.askedLimits o) } }
  have htaken : s.ownerCommit o = u.usageSync o := by
    unfold State.ownerCommit
    simp only [hxon, hxoff, hceil, hfit, decide_true, Bool.and_self, if_true]
    rfl
  have hlimits : (u.usageSync o).store.limits = u.store.limits := by rw [(u.portWork_usageSync o).store]
  refine ⟨_, State.does_whenReady hl (fun s => s.ownerCommit o) hr, ?_⟩
  rw [htaken]
  simp only [State.limits, hlimits]
  exact ⟨Tab.get_put_self _ _ _ _, fun q hq => Tab.get_put_ne _ _ _ _ hq⟩

theorem exec_ownerCommit_refused {s : State} (hl : s.live = true) (hr : s.flag HUB_STATUS_ready = true) (o : Fin 226)
    (hceil : s.reg (POOL_OWN_CEIL_ceil o) < s.reg (POOL_OWN_XOFF_xoff o)) :
    exec (.ownerCommit o) s = .next (s.setW1c (POOL_OWN_CTRL_cfg_err o) 1) := by
  rw [show exec (.ownerCommit o) s = .next (s.ownerCommit o) from State.does_whenReady hl (fun s => s.ownerCommit o) hr, State.ownerCommit]
  simp only [decide_eq_false (Nat.not_le.mpr hceil), Bool.and_false, Bool.false_and, Bool.false_eq_true, if_false]

/-- A corrected error of the store is counted and reported. -/
def State.storeCorrected (s : State) : State := ((s.count STORE_CTR_ce_count).raise (evStore STORE_INTR_STATUS_ce_ev)).rasCorrected

theorem State.storeCorrected_spec (s : State) : s.storeCorrected.flag STORE_INTR_STATUS_ce_ev = true ∧
    s.storeCorrected.reg STORE_CTR_ce_count = (s.reg STORE_CTR_ce_count + 1) % 2 ^ 64 ∧ s.storeCorrected.store = s.store := by
  let u := (s.count STORE_CTR_ce_count).raise (evStore STORE_INTR_STATUS_ce_ev)
  have hras (f : Fld) (hf : f.key ≠ HUB_RAS_STATUS_ce_ev.key) (hpba : f.key ≠ HUB_MSIX_PBA_pending.key) : s.storeCorrected.reg f = u.reg f :=
    u.reg_raise_ne (evRas HUB_RAS_STATUS_ce_ev) hf hpba
  refine ⟨?_, ?_, ?_⟩
  · exact (State.flag_congr (hras _ (by decide) (by decide))).trans (State.flag_raise_self _ (e := evStore STORE_INTR_STATUS_ce_ev) (by decide) (by decide))
  · exact (hras _ (by decide) (by decide)).trans ((State.reg_raise_ne _ (evStore STORE_INTR_STATUS_ce_ev) (by decide) (by decide)).trans
      (State.reg_count_self _ _ _))
  · rw [State.storeCorrected, State.rasCorrected, State.raise_store, State.raise_store]
    rfl

theorem exec_eccRetryRead_clean {s : State} (hl : s.live = true) {addr : Nat} (q : EccReq) (haddr : addr < storeEnd) :
    Yields (.eccRetryRead addr q true) s (fun t => t.reg STORE_CTR_ce_count = (s.reg STORE_CTR_ce_count + 1) % 2 ^ 64 ∧
      t.flag STORE_INTR_STATUS_ce_ev = true ∧ t.store = s.store) := by
  obtain ⟨hflag, hcount, hstore⟩ := s.storeCorrected_spec
  have hread : s.retryRead addr q true = s.storeCorrected := by
    rw [State.retryRead, if_neg (Nat.not_le.mpr haddr)]
    rfl
  refine ⟨_, State.does_live (fun s => s.retryRead addr q true) hl, ?_⟩
  rw [hread]
  exact ⟨hcount, hflag, hstore⟩

theorem State.mem_markUe (s : State) (a : Nat) : (s.markUe a).store.ue.contains (a / 32) = true := by
  unfold State.markUe
  cases h : s.store.ue.contains (a / 32) with
  | true => simpa using h
  | false => simp

/-- A ring fetch that fails leaves the words and their errors as they are. -/
theorem State.store_ueRing (s : State) (a : Nat) : (s.ueRing a).store.ue = s.store.ue ∧ (s.ueRing a).store.mem = s.store.mem := by
  have hlog := (s.portWork_logUe a 5).store
  have hstore : (s.logUe a 5).store.ue = s.store.ue ∧ (s.logUe a 5).store.mem = s.store.mem := by rw [hlog]; exact ⟨rfl, rfl⟩
  unfold State.ueRing
  extract_lets u
  split
  · exact hstore
  · split
    · exact hstore
    · simp only [State.raise_store]
      exact hstore

theorem exec_eccRetryRead_ring {s : State} (hl : s.live = true) {addr : Nat} (haddr : addr < storeEnd) :
    Yields (.eccRetryRead addr .ringFetch false) s (fun t => t.store.ue.contains (addr / 32) = true ∧ t.store.mem = s.store.mem) := by
  have hread : s.retryRead addr .ringFetch false = (s.markUe (addr / 32 * 32)).ueRing (addr / 32 * 32) := by
    rw [State.retryRead, if_neg (Nat.not_le.mpr haddr)]
    rfl
  obtain ⟨hue, hmem⟩ := (s.markUe (addr / 32 * 32)).store_ueRing (addr / 32 * 32)
  refine ⟨_, State.does_live (fun s => s.retryRead addr .ringFetch false) hl, ?_⟩
  rw [hread]
  dsimp only
  rw [hue, hmem]
  have hword : addr / 32 * 32 / 32 = addr / 32 := Nat.mul_div_cancel _ (by decide)
  have hmark := s.mem_markUe (addr / 32 * 32)
  rw [hword] at hmark
  exact ⟨hmark, rfl⟩

/-- The scrubber reads the words of its unit and moves on, short of the end of the store. -/
theorem exec_scrubRead {s : State} (hl : s.live = true) (res : List EccResult) (hen : s.flag STORE_CTRL_scrub_en = true)
    (hend : (s.store.scrubAt + 1) * 256 ≠ storeEnd) {u : State}
    (hu : u = (List.range 8).foldl (fun t i => t.scrubWord (s.store.scrubAt * 256 + 32 * i) (res.getD i .clean)) (s.traffic 1 0))
    (hstore : u.store = s.store) : exec (.scrubRead res) s = .next { u with store := { u.store with scrubAt := s.store.scrubAt + 1 } } := by
  rw [show exec (.scrubRead res) s = .next (s.scrub res) from State.does_live (fun s => s.scrub res) hl, State.scrub, hen]
  simp only [Bool.not_true, Bool.false_eq_true, if_false, ← hu, hstore, if_neg hend]

/-- Words read clean change nothing. -/
theorem exec_scrubRead_clean {s : State} (hl : s.live = true) (hen : s.flag STORE_CTRL_scrub_en = true) (hend : (s.store.scrubAt + 1) * 256 ≠ storeEnd) :
    exec (.scrubRead (List.replicate 8 .clean)) s = .next (State.traffic { s with store := { s.store with scrubAt := s.store.scrubAt + 1 } } 1 0) :=
  exec_scrubRead hl (List.replicate 8 .clean) hen hend (u := s.traffic 1 0) rfl rfl

/-- One word of the eight needs its correction. -/
theorem scrubWords_corrected (u : State) (a i : Nat) (hi : i < 8) :
    (List.range 8).foldl (fun t j => t.scrubWord (a + 32 * j) ((List.replicate i EccResult.clean ++ [EccResult.corrected]).getD j .clean)) u =
      u.storeCorrected := by
  interval_cases i <;> rfl

theorem exec_scrubRead_corrected {s : State} (hl : s.live = true) (hen : s.flag STORE_CTRL_scrub_en = true)
    (hend : (s.store.scrubAt + 1) * 256 ≠ storeEnd) {i : Nat} (hi : i < 8) :
    Yields (.scrubRead (List.replicate i .clean ++ [.corrected])) s (fun t => t.flag STORE_INTR_STATUS_ce_ev = true ∧
      t.reg STORE_CTR_ce_count = (s.reg STORE_CTR_ce_count + 1) % 2 ^ 64 ∧ t.store = { s.store with scrubAt := s.store.scrubAt + 1 }) := by
  obtain ⟨hflag, hcount, hstore⟩ := (s.traffic 1 0).storeCorrected_spec
  refine ⟨_, exec_scrubRead hl _ hen hend (scrubWords_corrected (s.traffic 1 0) _ i hi).symm hstore, hflag, hcount, ?_⟩
  dsimp only
  rw [hstore]
  rfl

/-- Low-water marks and peaks restart. -/
def State.restartMarks (s : State) : State := (List.range 256).foldl (fun s o => s.setReg (POOL_OWN_PEAK_peak o) (s.usage o)) s.restartLow

theorem State.restartMarks_spec (s : State) : s.restartMarks = { s with regs := s.restartMarks.regs } ∧
    (∀ k : Pool, s.restartMarks.reg (POOL_LOW_WATER_low k) = (s.pool k).free % 2 ^ 30) ∧
    (∀ q, q < 256 → s.restartMarks.reg (POOL_OWN_PEAK_peak q) = s.usage q % 2 ^ 32) ∧
    ∀ f : Fld, f.lo < 64 → (∀ k, k < 6 → f.off ≠ (POOL_LOW_WATER_low k).off) → (∀ q, q < 256 → f.off ≠ (POOL_OWN_PEAK_peak q).off) →
      s.restartMarks.reg f = s.reg f := by
  obtain ⟨-, -, hlow⟩ := State.foldl_setReg POOL_LOW_WATER_low (fun s k => (s.pool k).free) (fun _ _ _ _ => rfl) (List.range 6)
    (fun x _ y _ hne => by simp only [Fld.key, POOL_LOW_WATER_low]; omega) s
  obtain ⟨-, hpeak, hkeep⟩ := State.foldl_setReg POOL_OWN_PEAK_peak (fun s o => s.usage o) (fun _ _ _ _ => rfl) (List.range 256)
    (fun x _ y _ hne => by simp only [Fld.key, POOL_OWN_PEAK_peak]; omega) s.restartLow
  have hlaid := s.laid_restartLow
  have hpeaks : s.restartLow.Laid s.restartMarks :=
    .foldl _ fun s o _ => s.laid_setReg (.inr (by simp only [POOL_OWN_PEAK_peak]; omega)) (Nat.lt_of_sub_eq_succ rfl) _
  refine ⟨(hlaid.trans hpeaks).rest, fun k => ?_, fun q hq => ?_, fun f hlo hnlow hnpeak => ?_⟩
  · refine (hkeep _ fun x _ => ?_).trans (s.reg_restartLow k)
    have hk := k.isLt
    simp only [Fld.key, POOL_LOW_WATER_low, POOL_OWN_PEAK_peak]
    omega
  · refine (hpeak q (List.mem_range.mpr hq)).trans ?_
    simp only [State.usage, hlaid.store]
    rfl
  · refine (hkeep f fun x hx => ?_).trans (hlow f fun x hx => ?_)
    · have := hnpeak x (List.mem_range.mp hx)
      simp only [Fld.key, POOL_OWN_PEAK_peak] at this ⊢
      omega
    · have := hnlow x (List.mem_range.mp hx)
      simp only [Fld.key, POOL_LOW_WATER_low] at this ⊢
      omega

theorem State.storeCtrClear_eq (s : State) : s.storeCtrClear = (s.clearCounters (keyIn 0x1000100 0x1000150)).restartMarks := rfl

theorem exec_storeCounterClear {s : State} (hl : s.live = true) (hr : s.flag HUB_STATUS_ready = true) (hcounts : s.latchNow.counts = []) :
    Yields .storeCounterClear s (fun t => s.clears t (offIn 0x1000100 0x1000150) (fun a => (List.range 6).any (fun k => a == (POOL_LOW_WATER_low k).off) ||
        (List.range 256).any (fun q => a == (POOL_OWN_PEAK_peak q).off)) ∧
      (∀ k : Pool, t.reg (POOL_LOW_WATER_low k) = (s.pool k).free % 2 ^ 30) ∧
      (∀ q, q < 256 → t.reg (POOL_OWN_PEAK_peak q) = s.usage q % 2 ^ 32) ∧ t = { s with regs := t.regs }) := by
  have hclears := State.clears_clearCounters hcounts (hit := keyIn 0x1000100 0x1000150) (off := offIn 0x1000100 0x1000150) fun _ => keyIn_key
  have hcleared := s.clearCounters_rest (keyIn 0x1000100 0x1000150)
  obtain ⟨hrest, hlow, hpeak, hkeep⟩ := (s.clearCounters (keyIn 0x1000100 0x1000150)).restartMarks_spec
  refine ⟨_, State.does_whenReady hl State.storeCtrClear hr, ?_⟩
  rw [State.storeCtrClear_eq]
  refine ⟨fun f hlo => ⟨fun hin => ?_, fun hout hbut => ?_⟩, hlow, hpeak, hrest.trans (by rw [hcleared])⟩
  · refine (hkeep f hlo (fun k _ h => ?_) fun q _ h => ?_).trans ((hclears f hlo).1 hin)
    · rw [h, offIn_eq_false (.inr (by simp only [POOL_LOW_WATER_low]; omega))] at hin
      exact Bool.false_ne_true hin
    · rw [h, offIn_eq_false (.inr (by simp only [POOL_OWN_PEAK_peak]; omega))] at hin
      exact Bool.false_ne_true hin
  · simp only [Bool.or_eq_false_iff, List.any_eq_false, List.mem_range, beq_iff_eq] at hbut
    exact (hkeep f hlo hbut.1 hbut.2).trans ((hclears f hlo).2 hout rfl)

/-- Settles O15: the layout and the disable by what each of their parts leaves alone, each other command by its own equation. -/
theorem storeAdministration : Obligations.StoreAdministration := by
  intro s sc v addr o hl
  exact ⟨fun hr => exec_storeEnable hl hr sc, fun k hr => exec_storeEnable_fails hl hr sc, fun hr => exec_storeDisable hl hr sc,
    exec_storeRegionCfgWrite hl v, fun hr _ _ _ => exec_ownerCommit hl hr o, fun hr => exec_ownerCommit_refused hl hr o,
    exec_eccRetryRead_clean hl, exec_eccRetryRead_ring hl,
    fun hen hend => ⟨exec_scrubRead_clean hl hen hend, fun _ => exec_scrubRead_corrected hl hen hend⟩, exec_storeCounterClear hl⟩

end Sys2Proof.Machine
end

section
/-! PROOFS. What the release of buffers and the end of frames leave alone (R105), and the answers of groups (R73, R272, R275, R276, R287, R413). -/

set_option Elab.async false

namespace Sys2Proof.Machine

/-! ### Work of the store (R105, R111) -/

/-- From `s` to `t` buffers have been released and frames have ended, with what the ports do of it. -/
structure State.StoreWork (s t : State) : Prop where
  rest : t = { s with
    regs := t.regs, latch := t.latch, out := t.out, links := t.links, clk := { s.clk with pdReq := t.clk.pdReq, arr := t.clk.arr }
    store := t.store, frames := t.frames }
  out : s.out <+: t.out
  still : ∀ f ∈ stillFields, t.reg f = s.reg f

section StoreWork

variable {s t u : State}

theorem State.PortWork.storeWork (h : s.PortWork t) : s.StoreWork t := ⟨by rw [h.rest], h.out, h.still⟩

theorem State.StoreWork.trans (h : s.StoreWork t) (h' : t.StoreWork u) : s.StoreWork u where
  rest := by rw [h'.rest, h.rest]
  out := h.out.trans h'.out
  still f hf := (h'.still f hf).trans (h.still f hf)

theorem State.StoreWork.refl (s : State) : s.StoreWork s := ⟨rfl, List.prefix_rfl, fun _ _ => rfl⟩

/-- An update of the store or of the frames. -/
theorem State.StoreWork.of_rest (hrest : t = { s with store := t.store, frames := t.frames }) : s.StoreWork t where
  rest := by rw [hrest]
  out := by rw [hrest]
  still f _ := by rw [hrest]; rfl

theorem State.StoreWork.ite {c : Prop} [Decidable c] {t' : State} (h : c → s.StoreWork t) (h' : ¬ c → s.StoreWork t') :
    s.StoreWork (if c then t else t') := by
  split
  · exact h ‹_›
  · exact h' ‹_›

theorem State.StoreWork.groups (h : s.StoreWork t) : t.groups = s.groups := by rw [h.rest]

theorem State.StoreWork.tables (h : s.StoreWork t) : t.tables = s.tables := by rw [h.rest]

theorem State.storeWork_setUsage (s : State) (o v : Nat) : s.StoreWork (s.setUsage o v) := by
  have husage : s.StoreWork { s with store := { s.store with usage := s.store.usage.put 0 o v } } := .of_rest rfl
  exact husage.trans (State.portWork_setReg _ (Fld.loose_of_line (.inr (.inl (by simp only [POOL_OWN_PEAK_peak]; omega))) (Nat.zero_lt_succ _)) _).storeWork

theorem State.storeWork_release (s : State) (unit home : Nat) : s.StoreWork (s.release unit home) := by
  unfold State.release
  split
  · exact .refl s
  next b _ =>
    refine .ite (fun _ => .of_rest rfl) (fun _ => ?_)
    extract_lets st s1 p s2
    refine .ite (fun _ => .of_rest rfl) (fun _ => ?_)
    have h2 : s.StoreWork s2 := .of_rest rfl
    exact (h2.trans (s2.storeWork_setUsage _ _)).trans (State.portWork_usageSync _ _).storeWork

theorem State.storeWork_dropFrame (s : State) (id home : Nat) : s.StoreWork (s.dropFrame id home) := by
  unfold State.dropFrame
  split
  · exact .refl s
  · exact (s.storeWork_release _ _).trans (.of_rest rfl)

theorem State.storeWork_gdrop (s : State) (g : GIn) : s.StoreWork (s.gdrop g) := s.storeWork_dropFrame _ _

end StoreWork

/-! ### A control frame that is taken (R274–R276) -/

theorem State.fromParent_congr {s t : State} (h : t.tables = s.tables) (e : Bytes) (g : GIn) : t.fromParent e g = s.fromParent e g := by
  simp only [State.fromParent, State.endpointOf, h]

/-- A frame that passes the first three checks may renew its member's lease, unless the parent sent it. -/
theorem State.admit3_true {s v : State} {e : Bytes} {g : GIn} (h : s.admit3 e g = (true, v)) :
    v = if s.fromParent e g then s else s.renew g.gid g.h.member g.stamp := by
  unfold State.admit3 at h
  extract_lets up m at h
  split at h
  · cases h
  split at h
  · cases h
  split at h
  · cases h
  split at h
  · cases h
  split at h
  · cases h
  · exact (congrArg Prod.snd h).symm

theorem State.renew_tables (s : State) (gid m : Nat) (stamp : FT64) : (s.renew gid m stamp).tables = s.tables := by
  have hmod (f : Grp → Grp) : (s.modGrp gid f).tables = s.tables := by
    unfold State.modGrp
    split
    · rfl
    · rfl
  unfold State.renew
  extract_lets anew
  split
  · split
    · exact hmod _
    · rfl
  · exact hmod _

section Control

variable {s v : State} {k : Nat} {ok : GIn → Bool} {g : GIn} {x : Grp}

/-- A readable frame that keeps the form of a control frame is consumed and answered. -/
theorem State.control_eq (h : s.admits k ok g x v) (hread : v.readable g = true) (hfits : controlFits x.entry g = true)
    (f : Grp → GIn → State → State) : s.control k ok f = f x g (v.gdrop g) := by
  obtain ⟨-, htake, hgrp, hadmit⟩ := h
  have hpair : s.take k ok = (some g, (s.take k ok).2) := by rw [← htake]
  unfold State.control
  rw [hpair]
  simp only [hgrp, hadmit, hread, hfits, Bool.not_true, Bool.false_eq_true, if_false, Bool.true_or, if_true]

/-- A frame of the parent's renews no lease: the state that has admitted it is the one that took it. -/
theorem State.grp_of_fromParent (h : s.admits k ok g x v) (hparent : v.fromParent x.entry g = true) : (v.gdrop g).grp g.gid = some x := by
  obtain ⟨-, -, hgrp, hadmit⟩ := h
  have hv := State.admit3_true hadmit
  have htables : v.tables = (s.take k ok).2.tables := by
    rw [hv]
    split
    · rfl
    · exact State.renew_tables _ _ _ _
  have hparent' : (s.take k ok).2.fromParent x.entry g = true := (State.fromParent_congr htables.symm _ _).trans hparent
  rw [hparent', if_pos rfl] at hv
  rw [State.grp, (v.storeWork_gdrop g).groups, hv]
  exact hgrp

theorem exec_ackRx (h : s.admits k (fun g => g.h.opcode == 6) g x v) (hread : v.readable g = true) (hfits : controlFits x.entry g = true)
    (htaken : x.taken = none) : exec (.ackRx k) s = .next (v.gdrop g) := by
  have hopen : x.openAtTakeover g.h.step = false := by rw [Grp.openAtTakeover, htaken]
  rw [show exec (.ackRx k) s = .next (s.ackRx k) from State.does_live (fun s => s.ackRx k) h.1, State.ackRx, State.control_eq h hread hfits]
  simp only [hopen, Bool.and_false, Bool.false_and, Bool.false_eq_true, if_false]

theorem exec_nackRx (h : s.admits k (fun g => g.h.opcode == 7 && byteAt g.payload 1 != 0) g x v) (hread : v.readable g = true)
    (hfits : controlFits x.entry g = true) (hparent : v.fromParent x.entry g = true) (hue : byteAt g.payload 0 = stMemUncorrectable)
    {u : EchHead × Bytes} (hup : (x.chunk g.h.step g.h.chunk).up = [u]) (hop : u.1.opcode = byteAt g.payload 1) (hpart : u.1.part = g.h.part) :
    exec (.nackRx k) s = .next ((v.gdrop g).gsend (gframe x.entry { u.1 with resend := true } u.2 [gParent x.entry])) := by
  have hparent' : (v.gdrop g).fromParent x.entry g = true := (State.fromParent_congr (v.storeWork_gdrop g).tables _ _).trans hparent
  rw [show exec (.nackRx k) s = .next (s.nackRx k) from State.does_live (fun s => s.nackRx k) h.1, State.nackRx, State.control_eq h hread hfits]
  simp only [hparent', hue, decide_true, Bool.and_self, if_true, State.resendUp, State.grp_of_fromParent h hparent, hup, hop, hpart, beq_self_eq_true,
    List.filter_cons_of_pos, List.filter_nil, List.foldl_cons, List.foldl_nil]

theorem exec_resendReqRx (h : s.admits k (fun g => g.h.opcode == 0x0F) g x v) (hread : v.readable g = true) (hfits : controlFits x.entry g = true)
    (hstep : stepDiff g.h.step (gStep x.entry) = 0 ∨ stepDiff g.h.step (gStep x.entry) = -1) (hdone : (x.chunk g.h.step g.h.chunk).st = .done)
    (hresult : (x.chunk g.h.step g.h.chunk).result ≠ []) : exec (.resendReqRx k) s = .next ((v.gdrop g).gsend (gframe x.entry
      { chunkHead x.entry (x.chunk g.h.step g.h.chunk).resOp g.h.step g.h.chunk with resend := true } (x.chunk g.h.step g.h.chunk).result
      ((v.gdrop g).answerTo x.entry g))) := by
  have hrange : (stepDiff g.h.step (gStep x.entry) != 0 && stepDiff g.h.step (gStep x.entry) != -1) = false := by
    rcases hstep with h | h <;> rw [h] <;> rfl
  have hheld : ((x.chunk g.h.step g.h.chunk).st == .done && !(x.chunk g.h.step g.h.chunk).result.isEmpty) = true := by simp [hdone, hresult]
  rw [show exec (.resendReqRx k) s = .next (s.resendReq k) from State.does_live (fun s => s.resendReq k) h.1, State.resendReq,
    State.control_eq h hread hfits]
  simp only [hrange, Bool.false_eq_true, if_false, hheld, if_true]

end Control

theorem exec_grpCounterClear {s : State} (hl : s.live = true) (hr : s.flag HUB_STATUS_ready = true) (hcounts : s.latchNow.counts = []) :
    Yields .grpCounterClear s (fun t =>
      s.clears t (fun a => offIn 0x1600100 0x1600168 a || offIn 0x1600200 0x1600258 a) (fun _ => false) ∧ t = { s with regs := t.regs }) := by
  refine ⟨_, State.does_whenReady hl State.grpCtrClear hr, State.clears_clearCounters hcounts fun f hlo => ?_, rfl⟩
  rw [keyIn_key hlo, keyIn_key hlo]

/-- Settles O27: a control frame that is taken is consumed, and then answered. -/
theorem groupAnswers : Obligations.GroupAnswers := by
  intro s v k g x
  exact ⟨exec_ackRx, fun _ h hread hfits hparent hue hup hop hpart => exec_nackRx h hread hfits hparent hue hup hop hpart, exec_resendReqRx,
    exec_grpCounterClear⟩

end Sys2Proof.Machine
end

section
/-! PROOFS. What work of the ports, of the groups' frames and of the mirror leaves alone (R105, R269, R276, R404–R408). -/

set_option Elab.async false

namespace Sys2Proof.Machine

/-! ### Entries of groups -/

theorem Tab.find?_mapVals {α : Type} (m : Tab α) (f : Nat → α → α) (k : Nat) : Tab.find? (Tab.mapVals m f) k = (Tab.find? m k).map (f k) := by
  induction m with
  | nil => rfl
  | cons e r ih =>
    simp only [Tab.mapVals, List.map_cons, Tab.find?] at ih ⊢
    split
    · next h => rw [h]; rfl
    · exact ih

theorem Tab.mem_of_find? {α : Type} {m : Tab α} {k : Nat} {v : α} (h : Tab.find? m k = some v) : (k, v) ∈ m := by
  induction m with
  | nil => cases h
  | cons e r ih =>
    simp only [Tab.find?] at h
    split at h
    · next hk => cases h; exact hk ▸ List.mem_cons_self
    · exact List.mem_cons_of_mem _ (ih h)

theorem length_leBytes (n v : Nat) : (leBytes n v).length = n := by
  induction n generalizing v with
  | zero => rfl
  | succ n ih => exact congrArg (· + 1) (ih (v / 256))

/-- A field within the entry leaves its length, and the bytes below it. -/
theorem length_gSet {e : Bytes} {at_ n : Nat} (h : at_ + n ≤ e.length) (v : Nat) : (gSet e at_ n v).length = e.length := by
  simp only [gSet, overwrite, List.length_append, List.length_take, List.length_drop, length_leBytes]
  omega

theorem byteAt_gSet {e : Bytes} {at_ n i : Nat} (hi : i < at_) (h : at_ + n ≤ e.length) (v : Nat) : byteAt (gSet e at_ n v) i = byteAt e i := by
  have htake : i < (e.take at_).length := by rw [List.length_take]; omega
  simp only [byteAt, gSet, overwrite, List.append_assoc, List.getD_eq_getElem?_getD]
  rw [List.getElem?_append_left htake, List.getElem?_take_of_lt hi]

/-- A whole entry stays whole, and its group its owner's. -/
def Grp.OwnedAs (x y : Grp) : Prop := x.entry.length = 64 → y.entry.length = 64 ∧ gOwn y.entry = gOwn x.entry

theorem Grp.ownedAs_of_entry {x y : Grp} (h : y.entry = x.entry) : x.OwnedAs y := fun hx => ⟨by rw [h, hx], by rw [h]⟩

theorem Grp.OwnedAs.trans {x y z : Grp} (h : x.OwnedAs y) (h' : y.OwnedAs z) : x.OwnedAs z := fun hx =>
  ⟨(h' (h hx).1).1, (h' (h hx).1).2.trans (h hx).2⟩

/-- A field behind the flags is written. -/
theorem Grp.ownedAs_gSet {x y : Grp} {at_ n v : Nat} (hat : 2 < at_) (hn : at_ + n ≤ 64) (h : y.entry = gSet x.entry at_ n v) : x.OwnedAs y := fun hx => by
  refine ⟨by rw [h, length_gSet (by omega), hx], ?_⟩
  rw [h, gOwn, byteAt_gSet hat (by omega), gOwn]

/-! ### What all such work leaves -/

/-- From `s` to `t` the registers of `F`, the channels, the fabric ports and what the hub holds stay, and what has left the device has left it. -/
structure State.RegWork (F : List Fld) (s t : State) : Prop where
  sys : t.sys = s.sys
  chans : t.chans = s.chans
  ports : t.ports = s.ports
  out : s.out <+: t.out
  still : ∀ f ∈ F, t.reg f = s.reg f

/-- Beside these no group appears and none changes hands. -/
structure State.PodWork (s t : State) : Prop extends State.RegWork stillFields s t where
  groups : ∀ gid y, t.grp gid = some y → ∃ x, s.grp gid = some x ∧ x.OwnedAs y

section RegWork

variable {F : List Fld} {s t u : State}

theorem State.RegWork.trans (h : s.RegWork F t) (h' : t.RegWork F u) : s.RegWork F u :=
  ⟨h'.sys.trans h.sys, h'.chans.trans h.chans, h'.ports.trans h.ports, h.out.trans h'.out, fun f hf => (h'.still f hf).trans (h.still f hf)⟩

theorem State.RegWork.mono {G : List Fld} (h : s.RegWork G t) (hF : F ⊆ G) : s.RegWork F t :=
  ⟨h.sys, h.chans, h.ports, h.out, fun f hf => h.still f (hF hf)⟩

theorem State.RegWork.of_rest (hregs : t.regs = s.regs := by rfl) (hsys : t.sys = s.sys := by rfl) (hchans : t.chans = s.chans := by rfl)
    (hports : t.ports = s.ports := by rfl) (hout : t.out = s.out := by rfl) : s.RegWork F t where
  sys := hsys
  chans := hchans
  ports := hports
  out := by rw [hout]
  still _ _ := by simp only [State.reg, hregs]

theorem State.RegWork.refl (s : State) : s.RegWork F s := .of_rest

theorem State.RegWork.ite {c : Prop} [Decidable c] {t' : State} (h : c → s.RegWork F t) (h' : ¬ c → s.RegWork F t') :
    s.RegWork F (if c then t else t') := by
  split
  · exact h ‹_›
  · exact h' ‹_›

theorem State.RegWork.foldl {β : Type} {f : State → β → State} (l : List β) (h : ∀ (s : State), ∀ x ∈ l, s.RegWork F (f s x)) :
    s.RegWork F (l.foldl f s) :=
  List.foldlRecOn l f (.refl s) fun t ht x hx => ht.trans (h t x hx)

theorem State.RegWork.flag (h : s.RegWork F t) {f : Fld} (hf : f ∈ F) : t.flag f = s.flag f := State.flag_congr (h.still f hf)

theorem State.regWork_setReg (s : State) {g : Fld} (hg : ∀ f ∈ F, f.key ≠ g.key) (v : Nat) : s.RegWork F (s.setReg g v) :=
  ⟨rfl, rfl, rfl, List.prefix_rfl, fun f hf => State.reg_setReg_ne _ _ _ _ (hg f hf)⟩

end RegWork

section PodWork

variable {s t u : State}

theorem State.PodWork.trans (h : s.PodWork t) (h' : t.PodWork u) : s.PodWork u where
  toRegWork := h.toRegWork.trans h'.toRegWork
  groups gid z hz := by
    obtain ⟨y, hy, hyz⟩ := h'.groups gid z hz
    obtain ⟨x, hx, hxy⟩ := h.groups gid y hy
    exact ⟨x, hx, hxy.trans hyz⟩

theorem State.PodWork.of_groups (h : s.RegWork stillFields t) (hgroups : t.groups = s.groups) : s.PodWork t where
  toRegWork := h
  groups _ y hy := ⟨y, by rw [State.grp, ← hgroups]; exact hy, Grp.ownedAs_of_entry rfl⟩

theorem State.PodWork.of_rest (hregs : t.regs = s.regs := by rfl) (hsys : t.sys = s.sys := by rfl) (hchans : t.chans = s.chans := by rfl)
    (hports : t.ports = s.ports := by rfl) (hout : t.out = s.out := by rfl) (hgroups : t.groups = s.groups := by rfl) : s.PodWork t :=
  .of_groups (.of_rest hregs hsys hchans hports hout) hgroups

theorem State.PodWork.refl (s : State) : s.PodWork s := .of_rest

theorem State.PodWork.ite {c : Prop} [Decidable c] {t' : State} (h : c → s.PodWork t) (h' : ¬ c → s.PodWork t') :
    s.PodWork (if c then t else t') := by
  split
  · exact h ‹_›
  · exact h' ‹_›

theorem State.PodWork.foldl {β : Type} {f : State → β → State} (l : List β) (h : ∀ (s : State), ∀ x ∈ l, s.PodWork (f s x)) :
    s.PodWork (l.foldl f s) :=
  List.foldlRecOn l f (.refl s) fun t ht x hx => ht.trans (h t x hx)

theorem State.PortWork.podWork (h : s.PortWork t) : s.PodWork t := .of_groups ⟨h.sys, by rw [h.rest], by rw [h.rest], h.out, h.still⟩ h.groups

theorem State.StoreWork.podWork (h : s.StoreWork t) : s.PodWork t := .of_groups ⟨by rw [h.rest], by rw [h.rest], by rw [h.rest], h.out, h.still⟩ h.groups

theorem State.PodWork.setReg (h : s.PodWork t) {g : Fld} (hg : g.loose) (v : Nat) : s.PodWork (t.setReg g v) :=
  h.trans (t.portWork_setReg hg v).podWork

theorem State.PodWork.setW1c (h : s.PodWork t) {g : Fld} (hg : g.loose) (v : Nat) : s.PodWork (t.setW1c g v) :=
  h.trans (t.portWork_setW1c hg v).podWork

theorem State.PodWork.count (h : s.PodWork t) {g : Fld} (hg : g.loose) (n : Nat := 1) : s.PodWork (t.count g n) :=
  h.trans (t.portWork_count hg n).podWork

theorem State.PodWork.raise (h : s.PodWork t) {e : Event} (he : e.st.loose) : s.PodWork (t.raise e) := h.trans (t.portWork_raise he).podWork

theorem State.PodWork.stamped (h : s.PodWork t) : s.PodWork t.stamped := h.trans .of_rest

theorem State.podWork_countSat (s : State) {g : Fld} (hg : g.loose) (n : Nat := 1) : s.PodWork (s.countSat g n) :=
  (PodWork.refl s).setReg hg _

/-- A group is changed in other parts than its entry, or in a field of its entry behind the flags. -/
theorem State.podWork_modGrp (s : State) (gid : Nat) {f : Grp → Grp} (hf : ∀ g : Grp, g.OwnedAs (f g)) : s.PodWork (s.modGrp gid f) := by
  unfold State.modGrp
  split
  · next g hg =>
    refine ⟨.of_rest, fun k y hy => ?_⟩
    by_cases hk : k = gid
    · subst hk
      rw [State.grp, Tab.find?_insert_self] at hy
      exact ⟨g, hg, Option.some.inj hy ▸ hf g⟩
    · rw [State.grp, Tab.find?_insert_ne _ _ hk] at hy
      exact ⟨y, hy, Grp.ownedAs_of_entry rfl⟩
  · exact .refl s

theorem State.podWork_modFrm (s : State) (id : Nat) (f : Frm → Frm) : s.PodWork (s.modFrm id f) := by
  unfold State.modFrm
  split
  · exact .of_rest
  · exact .refl s

theorem State.podWork_release (s : State) (unit home : Nat) : s.PodWork (s.release unit home) := (s.storeWork_release unit home).podWork

theorem State.podWork_dropFrame (s : State) (id home : Nat) : s.PodWork (s.dropFrame id home) := (s.storeWork_dropFrame id home).podWork

theorem State.podWork_charge (s : State) (o v : Nat) : s.PodWork (s.setUsage o v) := (s.storeWork_setUsage o v).podWork

theorem State.podWork_usageSync (s : State) (o : Nat) : s.PodWork (s.usageSync o) := (s.portWork_usageSync o).podWork

theorem State.podWork_countL (s : State) {f : Nat → Nat → Fld} (hf : ∀ p l, p < 24 → l < 8 → (f p l).loose) (src : Nat) (n : Nat := 1) :
    s.PodWork (s.countL f src n) :=
  (s.portWork_countL hf src n).podWork

/-- A counter of a logical port lies in its port's block. -/
theorem Fld.loose_lctr {f : Nat → Nat → Fld} (h : ∀ p l, p < 24 → l < 8 → 0x10000 ≤ (f p l).off ∧ (f p l).off < 0x1000000 ∧ (f p l).lo = 0) :
    ∀ p l, p < 24 → l < 8 → (f p l).loose := fun p l hp hl => by
  obtain ⟨hlow, hhigh, hlo⟩ := h p l hp hl
  exact Fld.loose_of_off (.inl ⟨hlow, hhigh⟩) (by omega)

/-- The registers of a pool, whatever its number. -/
theorem Fld.loose_of_pool {g : Fld} (h : 0x1010000 ≤ g.off ∧ (g.off % 0x40 = 0x24 ∨ g.off % 0x40 = 0x28) ∧ g.lo < 64) : g.loose := by
  have hplace : ∀ f ∈ stillFields, (f.off < 0x1010000 ∨ f.off % 0x40 ≠ 0x24 ∧ f.off % 0x40 ≠ 0x28) ∧ f.lo < 64 := by decide
  intro f hf
  obtain ⟨hoff, hlo⟩ := hplace f hf
  simp only [Fld.key]
  omega

theorem fallbackOut_loose (k : Nat) : (POOL_COUNTS_fallback_out k).loose := Fld.loose_of_pool (by simp only [POOL_COUNTS_fallback_out]; omega)

theorem refusals_loose (k : Nat) : (POOL_COUNTS_refusals k).loose := Fld.loose_of_pool (by simp only [POOL_COUNTS_refusals]; omega)

theorem programLoopDrops_loose (ch : Nat) : (CH_CTR_program_loop_drops ch).loose := by
  have hplace : ∀ f ∈ stillFields, f.off % 0x100000 ≠ 0x1038 ∧ f.lo < 64 := by decide
  intro f hf
  obtain ⟨hoff, hlo⟩ := hplace f hf
  simp only [Fld.key, CH_CTR_program_loop_drops]
  omega

/-! ### Buffers (R100, R104, R105, R109) -/

theorem State.podWork_share (s : State) (unit n last : Nat) : s.PodWork (s.share unit n last) := by
  unfold State.share
  split
  · exact .refl s
  next b _ =>
    extract_lets st s1 s2
    have h1 : s.PodWork s1 := .of_rest
    refine .ite (fun _ => h1) (fun _ => ?_)
    exact (((h1.trans (s1.podWork_charge _ _)).trans (State.podWork_charge _ _ _)).trans (State.podWork_usageSync _ _)).trans (State.podWork_usageSync _ _)

theorem State.podWork_takeBuffer {s : State} {k home : Nat} {e : Nat × Nat} (h : s.takeBuffer k home = some (e, t)) : s.PodWork t := by
  unfold State.takeBuffer at h
  extract_lets p p' at h
  split at h
  · cases h
  next sl _ =>
    dsimp only at h
    split at h
    · cases h
    · cases h
      have hdrawn : s.PodWork { s with fresh := s.fresh + 1 } := .of_rest
      exact (hdrawn.trans .of_rest).setReg (Fld.loose_of_pool (by simp only [POOL_LOW_WATER_low]; omega)) _

theorem State.podWork_grant {s : State} {o len k home : Nat} {reserved : Bool} {src : Option (Nat × Nat)} {unit : Nat}
    (h : s.grant o len k reserved home src = some (unit, t)) : s.PodWork t := by
  unfold State.grant at h
  split at h
  · cases h
  next j _ =>
    dsimp only at h
    split at h
    · cases h
    next u gen s2 htake =>
      cases h
      have h1 : s.PodWork (if s.poolAvailable k reserved || k == 5 then s else s.countSat (POOL_COUNTS_fallback_out k)) :=
        .ite (fun _ => .refl s) (fun _ => s.podWork_countSat (fallbackOut_loose k))
      refine (((h1.trans (State.podWork_takeBuffer htake)).trans ?_).trans (State.podWork_charge _ _ _)).trans (State.podWork_usageSync _ _)
      exact .of_rest

theorem State.podWork_request (s : State) (o len : Nat) (losslessRx : Bool) (home : Nat) (src : Option (Nat × Nat)) :
    s.PodWork (s.request o len losslessRx home src).2 := by
  unfold State.request
  split
  · exact .refl s
  next k _ =>
    split
    · exact s.podWork_countSat (refusals_loose k)
    · split
      · exact State.PodWork.trans (.ite (fun _ => .refl s) (fun _ => s.podWork_countSat (fallbackOut_loose k))) (State.podWork_countSat _ (refusals_loose k))
      next hgrant => exact State.podWork_grant hgrant

/-! ### Copies of frames (R55, R86, R90, R105) -/

theorem State.podWork_copyDone (s : State) (id src : Nat) : s.PodWork (s.copyDone id src) := by
  unfold State.copyDone
  split
  · exact .refl s
  next f _ =>
    refine .ite (fun _ => s.podWork_modFrm id _) (fun _ => ?_)
    extract_lets s1
    have h1 : s.PodWork s1 := s.podWork_release _ _
    exact .ite (fun _ => h1.trans .of_rest) (fun _ => h1.trans (State.podWork_modFrm _ _ _))

theorem State.podWork_dropQueued (s : State) (src cls : Nat) (c : Copy) : s.PodWork (s.dropQueued src cls c) :=
  ((s.portWork_modLink src _).podWork.trans (State.portWork_creditClock _ src).podWork).trans (State.podWork_copyDone _ _ _)

theorem State.podWork_enqueue (s : State) (src : Nat) (c : Copy) : s.PodWork (s.enqueue src c) := by
  unfold State.enqueue
  extract_lets s1
  have h1 : s.PodWork s1 := .ite
    (fun _ => s.podWork_countL (Fld.loose_lctr fun p l hp hl => by dsimp only [PORT_LCTR_mcast_copies]; omega) src) (fun _ => .refl s)
  refine h1.trans ?_
  split
  · exact .refl s1
  · refine .ite (fun _ => ?_) (fun _ => ?_)
    · exact (s1.portWork_modLink src _).podWork.trans (State.portWork_creditClock _ src).podWork
    · exact (s1.podWork_countL (Fld.loose_lctr fun p l hp hl => by dsimp only [PORT_LCTR_egress_down_drops]; omega) src).trans
        (State.podWork_copyDone _ _ _)

theorem State.podWork_spread (s : State) (id : Nat) (rep : Bool) (owner : Nat) (l : List (Nat × Copy)) : s.PodWork (s.spread id rep owner l) := by
  unfold State.spread
  split
  · exact .refl s
  next f _ =>
    have hshare : s.PodWork (if rep then s.share f.unit l.length owner else s) := .ite (fun _ => s.podWork_share _ _ _) (fun _ => .refl s)
    exact (hshare.trans (State.podWork_modFrm _ _ _)).trans (.foldl _ fun s _ _ => s.podWork_enqueue _ _)

/-! ### Lookups (R74–R90) -/

theorem State.podWork_hop (s : State) (cnt : Nat) (rx : Bool) (b : Bytes) (p : Parsed) (route : Bool) (i : Nat) :
    s.PodWork (s.hop cnt rx b p route i).2 := by
  have hmiss := s.podWork_countL (f := PORT_LCTR_lookup_miss_drops) (Fld.loose_lctr fun p l hp hl => by dsimp only [PORT_LCTR_lookup_miss_drops]; omega) cnt
  have hpin := s.podWork_countL (f := PORT_LCTR_hairpin_drops) (Fld.loose_lctr fun p l hp hl => by dsimp only [PORT_LCTR_hairpin_drops]; omega) cnt
  have httl := s.podWork_countL (f := PORT_LCTR_ttl_drops) (Fld.loose_lctr fun p l hp hl => by dsimp only [PORT_LCTR_ttl_drops]; omega) cnt
  have hmtu := s.podWork_countL (f := PORT_LCTR_mtu_drops) (Fld.loose_lctr fun p l hp hl => by dsimp only [PORT_LCTR_mtu_drops]; omega) cnt
  unfold State.hop
  split
  · exact hmiss
  extract_lets eg op ed
  split
  · exact hpin
  split
  · exact httl
  split
  · split
    · exact hmtu
    · exact .refl s
  · exact .refl s

theorem State.podWork_hops (s : State) (cnt : Nat) (rx : Bool) (b : Bytes) (p : Parsed) (route : Bool) (l : List Nat) :
    s.PodWork (s.hops cnt rx b p route l).2 := by
  refine List.foldlRecOn (motive := fun a : List (Nat × Edit) × State => s.PodWork a.2) l _ (.refl s) fun a ha i _ => ?_
  have hhop := a.2.podWork_hop cnt rx b p route i
  split <;> next h => rw [h] at hhop; exact ha.trans hhop

theorem State.podWork_act (s : State) (cnt : Nat) (rx : Bool) (b : Bytes) (p : Parsed) (a : Nat) : s.PodWork (s.act cnt rx b p a).2 := by
  have hmiss := s.podWork_countL (f := PORT_LCTR_lookup_miss_drops) (Fld.loose_lctr fun p l hp hl => by dsimp only [PORT_LCTR_lookup_miss_drops]; omega) cnt
  unfold State.act
  extract_lets kind route target miss many
  have hmany (rep : Bool) (l : List Nat) : s.PodWork (many rep l).2 := by
    have hhops := s.podWork_hops cnt rx b p route l
    dsimp only [many]
    split <;> next h => rw [h] at hhops; exact hhops
  split
  · exact .refl s
  split
  · exact hmiss
  split
  · exact hmany _ _
  split
  · split
    · exact hmiss
    · exact hmany _ _
  · split
    · exact hmiss
    · exact hmany _ _

theorem State.podWork_lookup (s : State) (cnt : Nat) (rx row9 : Bool) (b : Bytes) (p : Parsed) : s.PodWork (s.lookup cnt rx row9 b p).2 := by
  have hmiss := s.podWork_countL (f := PORT_LCTR_lookup_miss_drops) (Fld.loose_lctr fun p l hp hl => by dsimp only [PORT_LCTR_lookup_miss_drops]; omega) cnt
  have hip := s.podWork_countL (f := PORT_LCTR_ip_hdr_err) (Fld.loose_lctr fun p l hp hl => by dsimp only [PORT_LCTR_ip_hdr_err]; omega) cnt
  unfold State.lookup
  extract_lets found
  have hfound (r : Option Nat) : s.PodWork (found s r).2 := by
    cases r with
    | none => exact hmiss
    | some a => exact s.podWork_act cnt rx b p a
  split
  · split
    · split
      · exact hip
      · split
        · exact hip
        · split
          · exact hfound _
          · exact hfound _
    · exact hmiss
  · exact hfound _

/-! ### Frames the device sends for a group (R269) -/

theorem State.podWork_destCopies (s : State) (ch tc et : Nat) (h : Ech) (payload : Bytes) (id : Nat) :
    s.PodWork (s.destCopies ch tc et h payload id).2 := by
  unfold State.destCopies
  extract_lets cnt
  split
  · exact s.podWork_countL (Fld.loose_lctr fun p l hp hl => by dsimp only [PORT_LCTR_lookup_miss_drops]; omega) cnt
  next key _ =>
    extract_lets mac vid b
    have hlook := s.podWork_lookup cnt false true b (parseFrame b)
    split
    next hl => rw [hl] at hlook; exact hlook
    next hl => rw [hl] at hlook; exact hlook.count (programLoopDrops_loose ch)
    next hl => rw [hl] at hlook; exact hlook

theorem State.podWork_trySend (s : State) (g : GSend) : s.PodWork (s.trySend g).2 := by
  unfold State.trySend
  extract_lets et h b
  have hask := s.podWork_request g.owner (b.length + 4) false (s.home g.ch) none
  split
  next hreq =>
    rw [hreq] at hask
    dsimp only
    split
    · exact .refl s
    · exact hask
  next unit s1 hreq =>
    rw [hreq] at hask
    extract_lets s2
    have h2 : s.PodWork s2 := hask.trans .of_rest
    dsimp only
    have hcopies := List.foldlRecOn (motive := fun a : List (Nat × Edit) × State => s2.PodWork a.2) g.dests
      (fun a id => ((a.1 ++ (a.2.destCopies g.ch g.tc et h g.payload id).1, (a.2.destCopies g.ch g.tc et h g.payload id).2))) (b := ([], s2)) (.refl s2)
      fun a ha id _ => ha.trans (a.2.podWork_destCopies g.ch g.tc et h g.payload id)
    have h3 := h2.trans hcopies
    split
    · exact h3.trans (State.podWork_release _ _ _)
    · refine h3.trans ?_
      refine State.PodWork.trans ?_ (State.podWork_spread _ _ _ _ _)
      exact .of_rest

theorem State.podWork_pump (s : State) : s.PodWork s.pump := by
  unfold State.pump
  split
  next keep owners t heq =>
    have hall : s.PodWork (keep, owners, t).2.2 := by
      rw [← heq]
      refine List.foldlRecOn (motive := fun a : List GSend × List Nat × State => s.PodWork a.2.2) _ _ (State.PodWork.refl s) fun a ha g _ => ?_
      have htry := a.2.2.podWork_trySend g
      split
      · exact ha
      · split <;> next h => rw [h] at htry; exact ha.trans htry
    exact State.PodWork.trans hall .of_rest

theorem State.podWork_gsend (s : State) (g : GSend) : s.PodWork (s.gsend g) := by
  refine .ite (fun _ => .refl s) (fun _ => ?_)
  have hqueued : s.PodWork { s with grpTx := s.grpTx ++ [g] } := .of_rest
  exact hqueued.trans (State.podWork_pump _)

end PodWork

end Sys2Proof.Machine
end

section
/-! PROOFS. What completions, link state changes and the mirror's records leave alone (R54, R55, R365, R404–R408). -/

set_option Elab.async false

namespace Sys2Proof.Machine

section PodWork

variable {s t u : State}

/-! ### A descriptor completes (R364, R365, R370) -/

theorem ringErr_loose (i : Nat) : (RING_SQ_STATE_stalled i).loose :=
  Fld.loose_of_line (.inl (by simp only [RING_SQ_STATE_stalled]; omega)) (Nat.lt_of_sub_eq_succ rfl)

theorem State.podWork_cqSync (s : State) (j : Nat) : s.PodWork (s.cqSync j) := by
  unfold State.cqSync
  extract_lets full was s1 s2 s3 any
  refine .ite (fun _ => .refl s) (fun _ => ?_)
  have h1 : s.PodWork s1 := (PodWork.refl s).setReg (Fld.loose_of_line (.inl (by simp only [RING_CQ_STATE_full]; omega)) (Nat.lt_of_sub_eq_succ rfl)) _
  have h2 : s1.PodWork s2 := .foldl _ fun s i _ => (PodWork.refl s).setReg (ringErr_loose i) _
  have h3 : s2.PodWork s3 := .ite (fun _ => (PodWork.refl s2).raise (by decide)) (fun _ => .refl s2)
  refine ((h1.trans h2).trans h3).trans ?_
  split
  · exact .of_rest
  · next t0 _ =>
    have hsince : s3.PodWork { s3 with host := { s3.host with fullSince := none } } := .of_rest
    exact hsince.count (by decide) _
  · exact .refl s3

theorem State.podWork_postRec (s : State) (j : Nat) (r : CRec) : s.PodWork (s.postRec j r) := by
  have hwait : s.PodWork (s.modCq j (·.with r)) := .of_rest
  exact .ite (fun _ => hwait.trans (State.podWork_cqSync _ j)) (fun _ => (PodWork.refl s).count (by decide))

theorem State.podWork_complete (s : State) (d : Nat) (r : Report) : s.PodWork (s.complete d r) := by
  cases hd : s.desc d with
  | none => rw [State.complete, hd]; exact .refl s
  | some x =>
    have hdrop : s.PodWork (s.dropDesc d) := .of_rest
    rcases State.complete_some hd r with h | ⟨-, h⟩ <;> rw [h]
    · exact hdrop.stamped.trans (State.podWork_postRec _ _ _)
    · exact hdrop

/-! ### The time source, and links that go down (R40, R41, R54, R55) -/

theorem State.podWork_recordNow (s : State) (kind src : Nat) (payload : Bytes) : s.PodWork (s.recordNow kind src payload) := by
  unfold State.recordNow
  refine .ite (fun _ => ?_) (fun _ => .refl s)
  have hnumber : s.PodWork (s.arrival src).2 := .of_rest
  refine hnumber.trans (.ite (fun _ => ?_) (fun _ => .of_rest))
  have hlost : (s.arrival src).2.PodWork ((s.arrival src).2.count SBK_CTR_records_lost) := (PodWork.refl _).count (by decide)
  exact hlost.trans .of_rest

theorem State.podWork_setRate (s : State) (r : Int) : s.PodWork (s.setRate r) :=
  .ite (fun _ => .refl s) (fun _ => ((PodWork.refl s).setReg (by decide) _).trans (State.podWork_recordNow _ _ _ _))

theorem State.podWork_enter (s : State) (new : Nat) : s.PodWork (s.enter new) := by
  unfold State.enter
  extract_lets old s1 s2 clk s3
  have h1 : s.PodWork s1 := .ite (fun _ => (PodWork.refl s).setReg (by decide) _) (fun _ => .refl s)
  have h2 : s1.PodWork s2 := ((PodWork.refl s1).setReg (by decide) _).trans (State.podWork_recordNow _ _ _ _)
  have h3 : s2.PodWork s3 := .of_rest
  refine .ite (fun _ => .refl s) (fun _ => ((h1.trans h2).trans h3).trans ?_)
  refine .ite (fun _ => (PodWork.refl s3).raise (by decide)) (fun _ => ?_)
  refine .ite (fun _ => ?_) (fun _ => .ite (fun _ => ?_) (fun _ => .of_rest))
  · have hlock : s3.PodWork { s3 with clk := { s3.clk with lockedAt := s3.now } } := .of_rest
    exact hlock.raise (by decide)
  · have hhold : s3.PodWork { s3 with clk := { s3.clk with holdAt := s3.now } } := .of_rest
    exact (hhold.trans (.ite (fun _ => State.podWork_setRate _ _) (fun _ => .refl _))).raise (by decide)

theorem State.podWork_useSource (s : State) (k : Nat) : s.PodWork (s.useSource k) := by
  unfold State.useSource State.showDelay
  extract_lets s1 s2
  have h1 : s.PodWork s1 := (PodWork.refl s).setReg (by decide) _
  have h2 : s1.PodWork s2 := .ite (fun _ => .ite (fun _ => .refl s1) (fun _ => (PodWork.refl s1).setReg (by decide) _)) (fun _ => .refl s1)
  exact (h1.trans h2).trans .of_rest

theorem State.podWork_sourceLost (s : State) : s.PodWork s.sourceLost := by
  unfold State.sourceLost
  extract_lets src s1 st s2 s3
  have hmark : s.PodWork { s with clk := { s.clk with lost := true } } := .of_rest
  have h1 : s.PodWork s1 := hmark.raise (by decide)
  have h2 : s1.PodWork s2 := .ite (fun _ => .ite (fun _ => s1.podWork_enter _) (fun _ => s1.podWork_enter _))
    (fun _ => .ite (fun _ => s1.podWork_enter _) (fun _ => .refl s1))
  refine .ite (fun _ => .refl s) (fun _ => (h1.trans h2).trans (.ite (fun _ => ?_) (fun _ => .refl s2)))
  exact (s2.podWork_useSource _).trans .of_rest

theorem State.podWork_modLink (s : State) (src : Nat) (f : Link → Link) : s.PodWork (s.modLink src f) := .of_rest

theorem State.podWork_setStatusBit (s : State) {f : Fld} (hf : f.loose) (i : Nat) (b : Bool) : s.PodWork (s.setStatusBit f i b) :=
  (PodWork.refl s).setReg hf _

theorem State.podWork_setLinkSt (s : State) (src : Nat) (st : LinkSt) : s.PodWork (s.setLinkSt src st) := by
  unfold State.setLinkSt
  extract_lets old s1 s2
  have h1 : s.PodWork s1 := s.podWork_modLink src _
  refine .ite (fun _ => h1) (fun hsrc => ?_)
  have h2 : s1.PodWork s2 := s1.podWork_setStatusBit (Fld.loose_of_off (.inl (by simp only [PORT_STATUS_link_up]; omega)) (by simp only [PORT_STATUS_link_up]; omega)) _ _
  refine (h1.trans h2).trans (.ite (fun _ => .refl s2) (fun _ => ?_))
  refine ((PodWork.refl s2).raise ?_).trans (State.portWork_creditPort _ _).podWork
  exact Fld.loose_of_off (.inl (by simp only [evLink, PORT_INTR_STATUS_link_ev]; omega)) (by simp only [evLink, PORT_INTR_STATUS_link_ev]; omega)

theorem State.podWork_linkDown (s : State) (src : Nat) (st : LinkSt) : s.PodWork (s.linkDown src st) := by
  unfold State.linkDown
  extract_lets wasUp queued lost s1 s2 s3 s4 s5 s6
  have h3 : s.PodWork s3 := ((s.portWork_creditClock src).podWork.trans (State.podWork_modLink _ src _)).trans (State.podWork_setLinkSt _ src st)
  have h4 : s3.PodWork s4 := .ite (fun _ => .refl s3) (fun _ => s3.podWork_setStatusBit
    (Fld.loose_of_off (.inl (by simp only [PORT_STATUS_llr_active]; omega)) (by simp only [PORT_STATUS_llr_active]; omega)) _ _)
  have h5 : s4.PodWork s5 := (s4.portWork_countM (Fld.loose_lctr fun p l hp hl => by dsimp only [PORT_LCTR_llr_lost_frames]; omega)
    (fun m => Fld.loose_of_off (.inr (by simp only [MIR_CTR_llr_lost_frames]; omega)) (Nat.zero_lt_succ _)) src lost).podWork
  have h6 : s5.PodWork s6 := .foldl _ fun s c _ =>
    (s.podWork_countL (Fld.loose_lctr fun p l hp hl => by dsimp only [PORT_LCTR_egress_down_drops]; omega) src).trans (State.podWork_copyDone _ _ _)
  exact (((h3.trans h4).trans h5).trans h6).trans (.ite (fun _ => .ite (fun _ => s6.podWork_sourceLost) (fun _ => .refl s6)) (fun _ => .refl s6))

theorem State.podWork_portFlags (s : State) {p : Nat} (hp : p < 24) : s.PodWork (s.portFlags p) :=
  ((PodWork.refl s).setReg (Fld.loose_of_off (.inl (by simp only [PORT_STATUS_signal_ok]; omega)) (Nat.lt_of_sub_eq_succ rfl)) _).setReg
    (Fld.loose_of_off (.inl (by simp only [PORT_STATUS_align_lock]; omega)) (Nat.lt_of_sub_eq_succ rfl)) _

theorem State.podWork_portDown (s : State) {p : Nat} (hp : p < 24) : s.PodWork (s.portDown p) := by
  refine State.PodWork.trans (.foldl _ fun s l _ => .ite (fun _ => .refl s) (fun _ => ?_)) (State.podWork_portFlags _ hp)
  exact (s.podWork_linkDown _ _).trans (State.podWork_modLink _ _ _)

/-! ### The mirror's records (R404–R408) -/

theorem State.podWork_sendCtl (s : State) (src : Nat) (c : CtlTx) : s.PodWork (s.sendCtl src c) := (s.portWork_sendCtl src c).podWork

theorem State.podWork_traffic (s : State) (units links : Nat) : s.PodWork (s.traffic units links) := .of_rest

theorem State.podWork_mirOut (s : State) (m count first : Nat) (recs : Bytes) : s.PodWork (s.mirOut m count first recs) :=
  (s.podWork_traffic _ _).trans (State.podWork_sendCtl _ _ _)

theorem State.podWork_mirSend (s : State) (m : Nat) (rs : List MirRec) : s.PodWork (s.mirSend m rs) := by
  refine .foldl _ fun s g _ => ?_
  split
  · exact .refl s
  · exact s.podWork_mirOut _ _ _ _

theorem State.podWork_mirKeep (s : State) (rs : List MirRec) : s.PodWork (s.mirKeep rs) := by
  refine .foldl _ fun s r _ => ?_
  split
  next u t heq =>
    have hgot : s.PodWork (u, t).2 := by
      rw [← heq]
      split
      · have hask := s.podWork_request 225 r.bytes.length false (s.home 8) none
        split <;> next h => rw [h] at hask; exact hask.trans .of_rest
      · exact .refl s
    exact State.PodWork.trans hgot .of_rest

theorem State.podWork_mirFree (s : State) (rs : List MirRec) : s.PodWork (s.mirFree rs) := .foldl _ fun s _ _ => s.podWork_release _ _

theorem State.podWork_modStep (s : State) (gid n : Nat) (f : GStep → GStep) : s.PodWork (s.modStep gid n f) :=
  s.podWork_modGrp gid fun g => Grp.ownedAs_of_entry (by unfold Grp.modStep; split <;> rfl)

theorem State.podWork_act1 (s : State) (a : Act) : s.PodWork (s.act1 a) := by
  unfold State.act1
  split
  next g =>
    extract_lets s1
    have h1 : s.PodWork s1 := s.podWork_gsend g
    exact h1.trans (.ite (fun _ => .of_rest) (fun _ => .refl s1))
  next d r => exact s.podWork_complete d r
  next g key =>
    extract_lets h hit added s1
    have h1 : s.PodWork s1 := s.podWork_modStep _ _ _
    exact h1.trans (.ite (fun _ => s1.podWork_gsend g) (fun _ => .refl s1))

theorem State.podWork_acts (s : State) (l : List Act) : s.PodWork (s.acts l) := .foldl _ fun s a _ => s.podWork_act1 a

theorem State.podWork_mirPost (s : State) (recs : List Bytes) (acts : List Act) : s.PodWork (s.mirPost recs acts) := by
  unfold State.mirPost
  extract_lets m rs s1 src s2 s3 s4
  clear_value m
  have h1 : s.PodWork s1 := s.podWork_mirKeep rs
  have h2 : s1.PodWork s2 := .of_rest
  have h3 : s2.PodWork s3 := (PodWork.refl s2).count (by decide) _
  have h4 : s3.PodWork s4 := by
    dsimp only [s4]
    split
    · exact s3.podWork_mirSend _ _
    · exact .refl s3
  exact (((h1.trans h2).trans h3).trans h4).trans (.ite (fun _ => .refl s4) (fun _ => s4.podWork_acts acts))

theorem State.podWork_mirror (s : State) (recs : List Bytes) (acts : List Act) : s.PodWork (s.mirror recs acts) := by
  unfold State.mirror
  extract_lets on hold
  have hhold (t : State) (l : List Bytes) : t.PodWork (hold t l) := .of_rest
  refine .ite (fun _ => s.podWork_acts acts) (fun _ => .ite (fun _ => hhold s recs) (fun _ => ?_))
  exact .ite (fun _ => s.podWork_mirPost recs acts) (fun _ => (s.podWork_mirPost _ _).trans (hhold _ _))

end PodWork

end Sys2Proof.Machine
end

section
/-! PROOFS. What the end, the retraction and the eviction of steps leave alone, and the pod's own steps (R287–R291, R402, R412, R415–R419). -/

set_option Elab.async false

namespace Sys2Proof.Machine

section PodWork

variable {s t u : State}

/-! ### Discarded steps (R289–R291) -/

theorem State.podWork_unschedule (s : State) (ev : Timed) : s.PodWork (s.unschedule ev) := .of_rest

theorem State.podWork_recordFw (s : State) (target gid addr : Nat) (b : Bytes) : s.PodWork (s.recordFw target gid addr b) := s.podWork_recordNow _ _ _

theorem State.podWork_listErrors (s : State) (e : Bytes) : s.PodWork (s.listErrors e) := .foldl _ fun s _ _ => (s.portWork_logUe _ _).podWork

theorem State.podWork_listWrite (s : State) (a : Nat) (b : Bytes) : s.PodWork (s.listWrite a b) := by
  unfold State.listWrite
  split
  · exact (s.portWork_logUe _ _).podWork
  · exact .of_rest

theorem State.podWork_freeStep (s : State) (gid : Nat) (x : GStep) : s.PodWork (s.freeStep gid x) := .foldl _ fun s _ _ => s.podWork_dropFrame _ _

theorem State.podWork_countHold (s : State) (gid : Nat) : s.PodWork (s.countHold gid) := by
  unfold State.countHold
  split
  · exact ((PodWork.refl s).count (by decide) _).trans (State.podWork_modGrp _ _ fun _ => Grp.ownedAs_of_entry rfl)
  · exact .refl s

theorem State.podWork_withdraw (s : State) (gid : Nat) (p : GSend → Bool) : s.PodWork (s.withdraw gid p) := .of_rest

theorem State.podWork_dropGroupCopies (s : State) (p : Ech → Bytes → Bool) : s.PodWork (s.dropGroupCopies p) :=
  .foldl _ fun _ _ _ => .foldl _ fun _ _ _ => .foldl _ fun s _ _ => s.podWork_dropQueued _ _ _

theorem State.podWork_discardGroup (s : State) (gid : Nat) : s.PodWork (s.discardGroup gid) := by
  unfold State.discardGroup
  split
  · exact .refl s
  next g _ =>
    extract_lets n s1 s2 s3 s4 s5
    have h1 : s.PodWork s1 := (((s.podWork_countHold gid).trans (State.podWork_freeStep _ _ _)).trans (State.podWork_freeStep _ _ _)).trans
      (State.podWork_freeStep _ _ _)
    have h2 : s1.PodWork s2 := .foldl _ fun s _ _ => s.podWork_dropFrame _ _
    have h3 : s2.PodWork s3 := .of_rest
    have h4 : s3.PodWork s4 := State.PodWork.trans (.foldl _ fun s _ _ => s.podWork_unschedule _) (State.podWork_unschedule _ _)
    have h5 : s4.PodWork s5 := (s4.podWork_withdraw _ _).trans (State.podWork_dropGroupCopies _ _)
    exact ((((h1.trans h2).trans h3).trans h4).trans h5).trans (State.podWork_modGrp _ _ fun _ => Grp.ownedAs_of_entry rfl)

/-! ### Rehearsals that end, and retractions (R287, R290, R425) -/

theorem State.podWork_endRehearsal (s : State) (status : Nat) : s.PodWork (s.endRehearsal status) := by
  unfold State.endRehearsal
  split
  · exact .refl s
  next r _ =>
    extract_lets src s1 s2 s3 s4
    have h1 : s.PodWork s1 := .of_rest
    have h2 : s1.PodWork s2 := .foldl _ fun s _ _ => s.podWork_modFrm _ _
    have h3 : s2.PodWork s3 := .of_rest
    have h4 : s3.PodWork s4 := .ite (fun _ => (PodWork.refl s3).raise (by decide)) (fun _ => .refl s3)
    exact (((h1.trans h2).trans h3).trans h4).trans (State.podWork_complete _ _ _)

theorem State.podWork_rehearseRetract (s : State) (gid : Nat) : s.PodWork (s.rehearseRetract gid) := by
  unfold State.rehearseRetract
  split
  · exact .ite (fun _ => .refl s) (fun _ => s.podWork_endRehearsal _)
  · exact .refl s

theorem State.podWork_rehearsePast (s : State) (gid n : Nat) : s.PodWork (s.rehearsePast gid n) := by
  unfold State.rehearsePast
  split
  · exact .ite (fun _ => s.podWork_endRehearsal _) (fun _ => .refl s)
  · exact .refl s

theorem State.podWork_logRetract (s : State) (gid cause epoch step resume : Nat) : s.PodWork (s.logRetract gid cause epoch step resume) := by
  unfold State.logRetract
  extract_lets s1 s2
  have h1 : s.PodWork s1 := ((((PodWork.refl s).setReg (by decide) _).setReg (by decide) _).setReg (by decide) _).setW1c (by decide) _
  have h2 : s1.PodWork s2 := ((((PodWork.refl s1).setReg (by decide) _).setReg (by decide) _).setReg (by decide) _).stamped
  exact (((h1.trans h2).count (by decide)).raise (by decide)).raise (by decide)

theorem State.podWork_markRetracted (s : State) (gid : Nat) : s.PodWork (s.markRetracted gid) := by
  unfold State.markRetracted
  split
  · exact .ite (fun _ => .of_rest) (fun _ => .refl s)
  · exact .refl s

theorem Grp.ownedAs_resumed {x y : Grp} {epoch resume : Nat} (h : y.entry = gSet (gSet x.entry 6 2 epoch) 44 4 resume) : x.OwnedAs y :=
  Grp.OwnedAs.trans (y := { x with entry := gSet x.entry 6 2 epoch }) (Grp.ownedAs_gSet (by decide) (by decide) rfl)
    (Grp.ownedAs_gSet (by decide) (by decide) h)

theorem State.podWork_retracted (s : State) (gid step cause epoch resume : Nat) (sends : List Act) :
    s.PodWork (s.retracted gid step cause epoch resume sends) :=
  (((((s.podWork_markRetracted gid).trans (State.podWork_discardGroup _ _)).trans (State.podWork_modGrp _ _ fun _ => Grp.ownedAs_resumed rfl)).trans
    (State.podWork_logRetract _ _ _ _ _ _)).trans (State.podWork_mirror _ _ _)).trans (State.podWork_rehearseRetract _ _)

theorem State.podWork_retract (s : State) (gid step cause : Nat) : s.PodWork (s.retract gid step cause) := by
  unfold State.retract
  split
  · exact .refl s
  · exact (s.podWork_listErrors _).trans (State.podWork_retracted _ _ _ _ _ _ _)

/-! ### Alarms and evictions (R415–R419, R426) -/

theorem State.podWork_oobOut (s : State) (da : Nat) (recs : Bytes) : s.PodWork (s.oobOut da recs) :=
  .ite (fun _ => (s.portWork_emit _).podWork) (fun _ => .refl s)

theorem State.podWork_alarm (s : State) {f : Fld} (hf : f.loose) (status gid member : Nat) : s.PodWork (s.alarm f status gid member) := by
  unfold State.alarm
  exact State.PodWork.trans ((PodWork.refl s).raise (e := evMir f) hf) (State.podWork_oobOut _ _ _)

theorem State.podWork_detLog (s : State) (gid m cause : Nat) : s.PodWork (s.detLog gid m cause) :=
  (((((PodWork.refl s).setReg (by decide) _).setReg (by decide) _).setReg (by decide) _).setW1c (by decide) _).setReg (by decide) _ |>.stamped

theorem State.podWork_detAlarm (s : State) (gid m cause : Nat) : s.PodWork (s.detAlarm gid m cause) :=
  (((PodWork.refl s).count (by decide)).trans (State.podWork_detLog _ _ _ _)).trans (State.podWork_alarm _ (by decide) _ _ _)

theorem State.podWork_evict (s : State) (gid m cause : Nat) : s.PodWork (s.evict gid m cause) := by
  unfold State.evict
  split
  · exact .refl s
  next g _ =>
    refine .ite (fun _ => s.podWork_detAlarm _ _ _) (fun _ => .ite (fun _ => s.podWork_detAlarm _ _ _) (fun _ => ?_))
    extract_lets s1 dests a fl s2 s3 s4 s5 s6
    have h1 : s.PodWork s1 := s.podWork_listErrors _
    have h2 : s1.PodWork s2 := (s1.podWork_listWrite _ _).trans (State.podWork_discardGroup _ _)
    have h3 : s2.PodWork s3 := s2.podWork_modGrp _ fun _ => Grp.ownedAs_gSet (by decide) (by decide) rfl
    have h4 : s3.PodWork s4 := ((PodWork.refl s3).raise (by decide)).count (by decide)
    have h5 : s4.PodWork s5 := (s4.podWork_detLog _ _ _).trans (State.podWork_alarm _ (by decide) _ _ _)
    have h6 : s5.PodWork s6 := s5.podWork_recordFw _ _ _ _
    refine (((((h1.trans h2).trans h3).trans h4).trans h5).trans h6).trans ?_
    split
    · exact .refl s6
    · exact (s6.podWork_recordFw _ _ _ _).trans (State.podWork_mirror _ _ _)

theorem State.podWork_leaseEvict (s : State) (gid m : Nat) : s.PodWork (s.leaseEvict gid m) := by
  unfold State.leaseEvict
  refine State.PodWork.trans ?_ (State.podWork_evict _ _ _ _)
  exact s.podWork_modGrp gid fun _ => Grp.ownedAs_of_entry rfl

theorem State.podWork_scoreStep (s : State) (gid : Nat) (late : List Nat) : s.PodWork (s.scoreStep gid late) := by
  unfold State.scoreStep
  split
  · exact .refl s
  next g _ =>
    refine .ite (fun _ => .refl s) (fun _ => ?_)
    extract_lets s1 score ms s2 ended low
    have h2 : s.PodWork s2 := (s.podWork_listErrors _).trans (State.podWork_modGrp _ _ fun _ => Grp.ownedAs_of_entry rfl)
    exact (h2.trans (.foldl _ fun s _ _ => s.podWork_leaseEvict _ _)).trans (.foldl _ fun s _ _ => s.podWork_evict _ _ _)

/-! ### Steps that end (R288) -/

theorem State.podWork_passStep (s : State) (gid : Nat) : s.PodWork (s.passStep gid) := by
  unfold State.passStep
  split
  · exact .refl s
  next g _ =>
    extract_lets n s1 strip s2
    have h1 : s.PodWork s1 := ((s.podWork_countHold gid).trans (State.podWork_freeStep _ _ _)).trans (State.podWork_unschedule _ _)
    have h2 : s1.PodWork s2 := s1.podWork_modGrp gid fun _ => Grp.ownedAs_gSet (by decide) (by decide) rfl
    exact ((h1.trans h2).trans (State.podWork_scoreStep _ _ _)).trans (State.podWork_rehearsePast _ _ _)

theorem State.podWork_endStep (s : State) (gid n : Nat) : s.PodWork (s.endStep gid n) := by
  unfold State.endStep
  split
  · exact .refl s
  next g _ =>
    refine .ite (fun _ => ?_) (fun _ => .ite (fun _ => ?_) (fun _ => .refl s))
    · extract_lets s1
      refine (s.podWork_passStep gid).trans ?_
      split
      · exact .ite (fun _ => s1.podWork_passStep gid) (fun _ => .refl s1)
      · exact .refl s1
    · exact ((s.podWork_freeStep _ _).trans (State.podWork_unschedule _ _)).trans (State.podWork_modStep _ _ _ _)

theorem State.podWork_stepsEnd (s : State) : s.PodWork s.stepsEnd := by
  have htaken : s.PodWork { s with mir := { s.mir with ended := [] } } := .of_rest
  exact htaken.trans (.foldl _ fun s _ _ => s.podWork_endStep _ _)

end PodWork

end Sys2Proof.Machine
end

section
/-! PROOFS. Fencing, detaching and taking over: what they leave of the pod's registers and of the groups (R402, R406, R410–R413). -/

set_option Elab.async false

namespace Sys2Proof.Machine

/-! ### Owners of entries -/

theorem byteAt_lt (b : Bytes) (i : Nat) : byteAt b i < 256 := BitVec.isLt _

theorem byteAt_gSet_self {e : Bytes} {i : Nat} (h : i < e.length) (v : Nat) : byteAt (gSet e i 1 v) i = v % 256 := by
  have htake : (e.take i).length = i := by rw [List.length_take]; omega
  simp only [byteAt, gSet, overwrite, leBytes, List.append_assoc, List.getD_eq_getElem?_getD]
  rw [List.getElem?_append_right (by omega), htake, Nat.sub_self]
  rfl

theorem gSetOwn_spec {e : Bytes} (h : e.length = 64) (own : Bool) : (gSetOwn e own).length = 64 ∧ gOwn (gSetOwn e own) = own := by
  have hlt := byteAt_lt e 2
  refine ⟨by rw [gSetOwn, length_gSet (by omega), h], ?_⟩
  rw [gSetOwn, gOwn, byteAt_gSet_self (by omega)]
  simp only [gOwn, bitOf, bit1]
  cases own <;> simp <;> split <;> omega

/-- The groups as a device stands that owns none. -/
def State.disowned (s : State) : State := { s with groups := s.groups.mapVals (fun _ g => { g with entry := gSetOwn g.entry false }), grpTx := [] }

theorem State.podWork_dropOwn (s : State) : s.disowned.PodWork s.dropOwn :=
  (State.podWork_dropGroupCopies _ _).trans (.foldl _ fun s _ _ => s.podWork_recordFw _ _ _ _)

theorem State.gOwn_disowned {s : State} (hlen : ∀ e ∈ s.groups, e.2.entry.length = 64) {gid : Nat} {y : Grp} (h : s.disowned.grp gid = some y) :
    y.entry.length = 64 ∧ gOwn y.entry = false := by
  rw [State.grp, State.disowned, Tab.find?_mapVals] at h
  obtain ⟨x, hx, rfl⟩ := Option.map_eq_some_iff.mp h
  exact gSetOwn_spec (hlen _ (Tab.mem_of_find? hx)) false

theorem State.flag_setReg_self (s : State) (f : Fld) (v : Nat) : (s.setReg f v).flag f = (v % 2 ^ f.w != 0) :=
  congrArg (· != 0) (s.reg_setReg_self f v)

/-! ### Nothing waits for the twin any more (R402, R408) -/

section PodWork

variable {s t u : State}

theorem State.podWork_freeActs (s : State) : s.PodWork s.freeActs := by
  unfold State.freeActs
  extract_lets l s1
  have h1 : s.PodWork s1 := by
    dsimp only [s1]
    split
    · exact (PodWork.refl s).count (by decide) _
    · exact .refl s
  have h2 : s1.PodWork { s1 with mir := { s1.mir with waits := [], held := [] } } := .of_rest
  exact ((h1.trans h2).trans (State.podWork_acts _ _)).trans (State.podWork_stepsEnd _)

theorem State.podWork_unpair (s : State) : s.PodWork s.unpair := by
  unfold State.unpair
  extract_lets s1 src
  exact State.PodWork.trans (s.podWork_freeActs.trans (State.podWork_mirFree _ _)) .of_rest

theorem State.podWork_resendRecs (s : State) (lost : MirRec → Bool) : s.PodWork (s.resendRecs lost) := by
  unfold State.resendRecs
  split
  · exact .refl s
  next m _ _ =>
    extract_lets rs src s1
    have h1 : s.PodWork s1 := .of_rest
    exact (h1.count (by decide) _).trans (State.podWork_mirSend _ _ _)

theorem State.podWork_startCopy (s : State) (own all : Bool) : s.PodWork (s.startCopy own all) := by
  unfold State.startCopy
  extract_lets l s1 src s2 s3
  have h1 : s.PodWork s1 := .foldl _ fun s _ _ => s.podWork_mirror _ _
  have h2 : s1.PodWork s2 := .ite (fun _ => .of_rest) (fun _ => .refl s1)
  exact ((h1.trans h2).trans (State.podWork_mirror _ _ _)).trans .of_rest

end PodWork

/-! ### The pod's own steps -/

/-- The enables of the mirror ports, what the hub shows, and the store's own state: no step of the pod but an operator's writes these. -/
def podFields : List Fld := stillFields.drop 5

/-- A mirror port that comes or goes leaves the state of the pod, too. -/
def upFields : List Fld := MIR_STATUS_state :: MIR_STATUS_self_fenced :: podFields

theorem podFields_subset : podFields ⊆ stillFields := List.drop_subset _ _

theorem upFields_subset : upFields ⊆ stillFields := by decide

theorem podFields_subset_up : podFields ⊆ upFields := by decide

section RegWork

variable {s t u : State}

theorem State.PodWork.ups (h : s.PodWork t) : s.RegWork upFields t := h.toRegWork.mono upFields_subset

theorem State.PodWork.pods (h : s.PodWork t) : s.RegWork podFields t := h.toRegWork.mono podFields_subset

theorem State.regWork_mirPort (s : State) (m : Nat) (up : Bool) : s.RegWork upFields (s.mirPort m up) := by
  unfold State.mirPort
  extract_lets f s1
  refine .ite (fun _ => .refl s) (fun _ => ?_)
  have hf : ∀ g ∈ upFields, g.key ≠ f.key := by
    dsimp only [f]
    split <;> decide
  have h1 : s.RegWork upFields s1 := (s.regWork_setReg hf _).trans ((PodWork.refl _).raise (by decide)).ups
  refine h1.trans (.ite (fun _ => State.PodWork.ups ?_) (fun _ => (s1.podWork_linkDown _ _).ups))
  exact (((s1.podWork_modLink _ _).trans (State.podWork_setLinkSt _ _ _)).trans (State.podWork_sendCtl _ _ _)).trans (State.podWork_modLink _ _ _)

theorem State.regWork_setPod (s : State) (n : Nat) : s.RegWork podFields (s.setPod n) := s.regWork_setReg (by decide) n

theorem State.regWork_enterSync (s : State) (src tgt : Bool) : s.RegWork podFields (s.enterSync src tgt) := by
  unfold State.enterSync
  extract_lets old m s1 s2
  have h2 : s1.RegWork podFields s2 := s1.regWork_setPod _
  have h1 : s.RegWork podFields s1 := .of_rest
  exact (h1.trans h2).trans (.ite (fun _ => s2.regWork_setReg (by decide) _) (fun _ => .refl s2))

theorem State.regWork_rejoined (s : State) : s.RegWork podFields s.rejoined :=
  .ite (fun _ => ((s.regWork_enterSync _ _).trans (State.podWork_resendRecs _ _).pods).trans (State.podWork_startCopy _ _ _).pods) (fun _ => .refl s)

theorem State.regWork_joinFail (s : State) (code : Nat) : s.RegWork podFields (s.joinFail code) := by
  unfold State.joinFail
  extract_lets s1 src
  have h1 : s.RegWork podFields s1 := (((PodWork.refl s).setReg (by decide) _).raise (by decide)).pods
  exact h1.trans .of_rest

theorem State.regWork_syncLost (s : State) : s.RegWork podFields s.syncLost := by
  unfold State.syncLost
  exact .ite (fun _ => s.podWork_unpair.pods.trans (State.regWork_setPod _ _))
    (fun _ => (s.podWork_unpair.pods.trans (State.regWork_setPod _ _)).trans (State.regWork_joinFail _ _))

/-- What follows the entry into DETACHED. -/
def State.loosened (s : State) : State :=
  { s.freeActs with mir := { s.freeActs.mir with upds := [], hbSeen := false } }.alarm MIR_INTR_STATUS_detach_ev stPodState 0 0xFFF

theorem State.detach_eq {s : State} (h : s.pod ≠ podDetached) : s.detach = (s.setPod podDetached).loosened := if_neg (by simpa using h)

theorem State.podWork_loosened (s : State) : s.PodWork s.loosened :=
  (s.podWork_freeActs.trans .of_rest).trans (State.podWork_alarm _ (by decide) _ _ _)

theorem State.regWork_detach (s : State) : s.RegWork podFields s.detach := by
  by_cases h : s.pod = podDetached
  · rw [State.detach, if_pos (by simpa using h)]; exact .refl s
  · rw [State.detach_eq h]; exact (s.regWork_setPod _).trans (State.podWork_loosened _).pods

theorem State.regWork_mirrorDown (s : State) (m : Nat) : s.RegWork podFields (s.mirrorDown m) := by
  unfold State.mirrorDown
  extract_lets s1
  have h1 : s.RegWork podFields s1 := (s.regWork_mirPort m false).mono podFields_subset_up
  refine h1.trans (.ite (fun _ => ?_) (fun _ => (s1.podWork_resendRecs _).pods))
  exact .ite (fun _ => s1.regWork_detach) (fun _ => .ite (fun _ => s1.regWork_syncLost) (fun _ => .refl s1))

end RegWork

/-! ### A device that fences itself (R412) -/

/-- What a device does first that fences itself. -/
def State.silenced (s : State) : State := ((s.dropOwn.setReg MIR_STATUS_self_fenced 1).emit (.pin "MIRROR_ALIVE_OUT" false)).setPod podSolo

theorem State.selfFence_eq (s : State) : s.selfFence = s.silenced.unpair := rfl

theorem State.selfFence_spec (s : State) : s.selfFence.pod = podSolo ∧ s.selfFence.flag MIR_STATUS_self_fenced = true ∧
    .pin "MIRROR_ALIVE_OUT" false ∈ s.selfFence.out ∧ s.RegWork podFields s.selfFence ∧
    ((∀ e ∈ s.groups, e.2.entry.length = 64) → ∀ gid y, s.selfFence.grp gid = some y → gOwn y.entry = false) := by
  have hunpair : s.silenced.PodWork s.selfFence := s.selfFence_eq ▸ s.silenced.podWork_unpair
  have hdrop : s.RegWork podFields s.dropOwn := State.RegWork.trans .of_rest s.podWork_dropOwn.pods
  refine ⟨?_, ?_, ?_, ?_, fun hlen gid y hy => ?_⟩
  · exact (hunpair.still MIR_STATUS_state (by decide)).trans (State.reg_setReg_self _ _ _)
  · rw [hunpair.flag (by decide), State.silenced, State.setPod, State.flag_congr (State.reg_setReg_ne _ _ _ _ (by decide))]
    exact State.flag_setReg_self s.dropOwn MIR_STATUS_self_fenced 1
  · exact hunpair.out.subset (List.mem_append_right _ List.mem_cons_self)
  · have hfence : s.dropOwn.RegWork podFields s.silenced := ((s.dropOwn.regWork_setReg (by decide) 1).trans (State.portWork_emit _ _).podWork.pods).trans
      (State.regWork_setPod _ _)
    exact (hdrop.trans hfence).trans hunpair.pods
  · obtain ⟨x, hx, hxy⟩ := hunpair.groups gid y hy
    obtain ⟨w, hw, hwx⟩ := s.podWork_dropOwn.groups gid x hx
    obtain ⟨hwlen, hwown⟩ := State.gOwn_disowned hlen hw
    obtain ⟨hxlen, hxown⟩ := hwx hwlen
    exact ((hxy hxlen).2.trans hxown).trans hwown

end Sys2Proof.Machine
end

section
/-! PROOFS. Errors by their class (R73, R177, R430–R436, R446). -/

set_option Elab.async false

namespace Sys2Proof.Machine

section Errors

variable {s : State}

/-! ### What is counted and logged (R430, R432, R436) -/

theorem State.rasLog_rest (s : State) (cls unit cause status index : Nat) : ∃ r l a, s.rasLog cls unit cause status index =
    { s with regs := r, latch := l, clk := { s.clk with arr := a } } := by
  unfold State.rasLog
  split
  · exact ⟨_, _, _, rfl⟩
  · exact ⟨_, _, _, rfl⟩

theorem State.reg_rasLog_ne (s : State) (cls unit cause status index : Nat) {f : Fld} (h : f.off ≠ 0x610 ∧ f.off ≠ 0x618) (hlo : f.lo < 64) :
    (s.rasLog cls unit cause status index).reg f = s.reg f := by
  have hkey {g : Fld} (hg : g.off = 0x610 ∨ g.off = 0x618) (hglo : g.lo < 64) : f.key ≠ g.key := by
    simp only [Fld.key]
    omega
  unfold State.rasLog
  split
  · rfl
  rw [State.reg_stamped, State.reg_setReg_ne _ _ _ _ (hkey (.inr rfl) (by decide)), State.reg_setW1c_ne _ _ _ _ (hkey (.inl rfl) (by decide)),
    State.reg_setReg_ne _ _ _ _ (hkey (.inl rfl) (by decide)), State.reg_setReg_ne _ _ _ _ (hkey (.inl rfl) (by decide)),
    State.reg_setReg_ne _ _ _ _ (hkey (.inl rfl) (by decide)), State.reg_setReg_ne _ _ _ _ (hkey (.inl rfl) (by decide)),
    State.reg_setReg_ne _ _ _ _ (hkey (.inl rfl) (by decide))]

theorem State.prefix_raise (s : State) (e : Event) : s.out <+: (s.raise e).out := by
  rcases s.raise_cases e with h | ⟨v, h⟩ <;> rw [h]
  · exact List.prefix_rfl
  · exact (State.portWork_signal (s.setW1c e.st (2 ^ e.sub)) v).out

/-- A corrected error is counted and reported. -/
theorem State.corrected_spec (s : State) {f : Fld} (hf : f.key ≠ HUB_RAS_STATUS_ce_ev.key) (hf' : f.key ≠ HUB_MSIX_PBA_pending.key) :
    let t := (s.count f).rasCorrected
    t.flag HUB_RAS_STATUS_ce_ev = true ∧ t.tables = s.tables ∧ t.sys = s.sys ∧ t.reg f = (s.reg f + 1) % 2 ^ f.w ∧
      ∀ g : Fld, g.key ≠ f.key → g.key ≠ HUB_RAS_STATUS_ce_ev.key → g.key ≠ HUB_MSIX_PBA_pending.key → t.reg g = s.reg g := by
  refine ⟨State.flag_raise_self _ (by decide) (by decide), State.raise_tables _ _, State.raise_sys _ _, ?_, fun g hg hce hpba => ?_⟩
  · exact (State.reg_raise_ne _ _ hf hf').trans (s.reg_count_self f 1)
  · exact (State.reg_raise_ne _ _ hce hpba).trans (s.reg_count_ne _ _ _ hg)

theorem exec_tableWordRepair (hl : s.live = true) : Yields (.tableWordRepair false) s (fun t =>
    t.reg HUB_CTR_table_repairs = (s.reg HUB_CTR_table_repairs + 1) % 2 ^ 64 ∧ t.flag HUB_RAS_STATUS_ce_ev = true ∧ t.tables = s.tables ∧
      t.sys = s.sys) := by
  have hrun : exec (.tableWordRepair false) s = .next (s.count HUB_CTR_table_repairs).rasCorrected := congrArg Host.Outcome.next (if_pos hl)
  obtain ⟨hce, htables, hsys, hreg, -⟩ := s.corrected_spec (f := HUB_CTR_table_repairs) (by decide) (by decide)
  exact ⟨_, hrun, hreg, hce, htables, hsys⟩

theorem exec_blockError_corrected (hl : s.live = true) (k : Fin 3) : Yields (.blockError (.corrected k)) s (fun t =>
    t.flag HUB_RAS_STATUS_ce_ev = true ∧ t.sys = s.sys ∧
      t.reg HUB_CTR_sram_ce = (if k.val = 0 then (s.reg HUB_CTR_sram_ce + 1) % 2 ^ 64 else s.reg HUB_CTR_sram_ce) ∧
      t.reg HUB_CTR_d2d_crc_retries = (if k.val = 1 then (s.reg HUB_CTR_d2d_crc_retries + 1) % 2 ^ 64 else s.reg HUB_CTR_d2d_crc_retries) ∧
      t.reg HUB_CTR_cxl_ce = (if k.val = 2 then (s.reg HUB_CTR_cxl_ce + 1) % 2 ^ 64 else s.reg HUB_CTR_cxl_ce)) := by
  refine ⟨_, State.does_live (fun s => s.blockError (.corrected k)) hl, ?_⟩
  match k with
  | 0 =>
    obtain ⟨hce, -, hsys, hself, hother⟩ := s.corrected_spec (f := HUB_CTR_sram_ce) (by decide) (by decide)
    exact ⟨hce, hsys, hself, hother _ (by decide) (by decide) (by decide), hother _ (by decide) (by decide) (by decide)⟩
  | 1 =>
    obtain ⟨hce, -, hsys, hself, hother⟩ := s.corrected_spec (f := HUB_CTR_d2d_crc_retries) (by decide) (by decide)
    exact ⟨hce, hsys, hother _ (by decide) (by decide) (by decide), hself, hother _ (by decide) (by decide) (by decide)⟩
  | 2 =>
    obtain ⟨hce, -, hsys, hself, hother⟩ := s.corrected_spec (f := HUB_CTR_cxl_ce) (by decide) (by decide)
    exact ⟨hce, hsys, hother _ (by decide) (by decide) (by decide), hother _ (by decide) (by decide) (by decide), hself⟩

theorem exec_blockError (hl : s.live = true) (b : Block) : exec (.blockError b) s = .next (s.blockError b) := State.does_live (fun s => s.blockError b) hl

/-! ### A block in error (R430, R434) -/

theorem State.chan_modChan_ne (s : State) (k : Nat) {j : Nat} (f : Chan → Chan) (h : j ≠ k) : (s.modChan k f).chan j = s.chan j :=
  Tab.get_put_ne _ _ _ _ h

theorem State.rasBlock_rest (s : State) (unit cause index : Nat) : ∃ r l o a, s.rasBlock unit cause index =
    { s with regs := r, latch := l, out := o, clk := { s.clk with arr := a } } := by
  obtain ⟨r, l, a, h⟩ := State.rasLog_rest ((s.count HUB_CTR_block_errors).raise (evRas HUB_RAS_STATUS_block_ev)) 3 unit cause 0 index
  unfold State.rasBlock
  rw [h, State.raise_rest]
  exact ⟨_, _, _, _, rfl⟩

/-- An error of class 3 is counted and reported. -/
theorem State.rasBlock_spec (s : State) (unit cause index : Nat) :
    (s.rasBlock unit cause index).flag HUB_RAS_STATUS_block_ev = true ∧
      (s.rasBlock unit cause index).reg HUB_CTR_block_errors = (s.reg HUB_CTR_block_errors + 1) % 2 ^ 64 := by
  have hlog := State.portWork_rasLog ((s.count HUB_CTR_block_errors).raise (evRas HUB_RAS_STATUS_block_ev)) 3 unit cause 0 index
  refine ⟨(State.flag_congr (hlog.still HUB_RAS_STATUS_block_ev (by decide))).trans (State.flag_raise_self _ (by decide) (by decide)), ?_⟩
  exact ((hlog.still HUB_CTR_block_errors (by decide)).trans (State.reg_raise_ne _ _ (by decide) (by decide))).trans (s.reg_count_self _ 1)

theorem State.justReset_rasBlock (s : State) (unit cause index n : Nat) : (s.rasBlock unit cause index).justReset n = s.justReset n := by
  obtain ⟨r, l, o, a, h⟩ := s.rasBlock_rest unit cause index
  rw [h]
  rfl

theorem State.blockCtx_idle {cx : Nat} (h : (s.ctx cx).st = .idle) : s.blockCtx cx = s := by
  unfold State.blockCtx State.fault State.faultAgo
  simp only [h, beq_self_eq_true, Bool.true_or, if_true, show (CtxSt.idle == CtxSt.loading) = false from rfl, Bool.false_eq_true, if_false]

theorem State.openOf_none {ch : Nat} (h : ∀ g ∈ s.groups, gCh g.2.entry ≠ ch) : s.openOf ch = [] := by
  have hnone : s.groups.filter (fun g => gCh g.2.entry == ch && gOwn g.2.entry) = [] :=
    List.filter_eq_nil_iff.mpr fun g hg => by simp [h g hg]
  rw [State.openOf, hnone, List.filterMap_nil]

theorem exec_blockError_channel (hl : s.live = true) (ch : Ch) (hreset : s.justReset (24 + ch) = false)
    (hidle : ∀ j, j < 32 → (s.ctx (32 * ch + j)).st = .idle) (hgroups : ∀ g ∈ s.groups, gCh g.2.entry ≠ ch.val) :
    Yields (.blockError (.channel ch)) s (fun t => (t.chan ch).blocked = true ∧ t.flag HUB_RAS_STATUS_block_ev = true ∧
      t.reg HUB_CTR_block_errors = (s.reg HUB_CTR_block_errors + 1) % 2 ^ 64 ∧ (∀ c, c ≠ ch.val → t.chan c = s.chan c) ∧ t.links = s.links) := by
  obtain ⟨r, l, o, a, h⟩ := s.rasBlock_rest (ch.val / 2) 3 ch.val
  obtain ⟨hev, hcount⟩ := s.rasBlock_spec (ch.val / 2) 3 ch.val
  have hjust := s.justReset_rasBlock (ch.val / 2) 3 ch.val (24 + ch.val)
  have hrun : exec (.blockError (.channel ch)) s = .next ((s.rasBlock (ch.val / 2) 3 ch.val).modChan ch.val (fun c => { c with blocked := true })) := by
    rw [show exec (.blockError (.channel ch)) s = .next (s.blockError (.channel ch)) from exec_blockError hl _]
    unfold State.blockError
    simp only [hjust, hreset, Bool.false_eq_true, if_false]
    have hblocked (j : Nat) : ((s.rasBlock (ch.val / 2) 3 ch.val).modChan ch.val (fun c => { c with blocked := true })).ctx j = s.ctx j := by rw [h]; rfl
    have hopen : ((s.rasBlock (ch.val / 2) 3 ch.val).modChan ch.val (fun c => { c with blocked := true })).openOf ch.val = [] :=
      State.openOf_none (by rw [h]; exact hgroups)
    generalize (s.rasBlock (ch.val / 2) 3 ch.val).modChan ch.val (fun c => { c with blocked := true }) = u at hblocked hopen
    have hstay : (List.range 32).foldl (fun s c => s.blockCtx (32 * ch.val + c)) u = u :=
      List.foldlRecOn (motive := fun t : State => t = u) _ _ rfl fun t ht j hj => by
        rw [ht, State.blockCtx_idle (by rw [hblocked]; exact hidle j (List.mem_range.mp hj))]
    rw [hstay, hopen, List.foldl_nil]
  refine ⟨_, hrun, by rw [State.chan_modChan_self], hev, hcount, fun c hc => ?_, by rw [h]; rfl⟩
  rw [State.chan_modChan_ne _ _ _ hc, h]
  rfl

/-! ### A port that is taken down (R54, R434) -/

/-- Every logical port has its state at `t` that it has at `s`. -/
def State.SameSt (s t : State) : Prop := ∀ src, (t.link src).st = (s.link src).st

variable {t u : State}

theorem State.SameSt.trans (h : s.SameSt t) (h' : t.SameSt u) : s.SameSt u := fun src => (h' src).trans (h src)

theorem State.SameSt.of_links (h : t.links = s.links := by rfl) : s.SameSt t := fun src => by simp only [State.link, h]

theorem State.SameSt.ite {c : Prop} [Decidable c] {t' : State} (h : c → s.SameSt t) (h' : ¬ c → s.SameSt t') : s.SameSt (if c then t else t') := by
  split
  · exact h ‹_›
  · exact h' ‹_›

theorem State.sameSt_modLink (s : State) (src : Nat) {f : Link → Link} (hf : ∀ l : Link, (f l).st = l.st := by intro; rfl) :
    s.SameSt (s.modLink src f) := (s.sendsOnly_modLink src f hf).st

theorem State.sameSt_creditPort (s : State) (p : Nat) : s.SameSt (s.creditPort p) := by
  refine List.foldlRecOn (motive := fun t : State => s.SameSt t) _ _ .of_links fun t ht l _ => ht.trans ?_
  unfold State.creditSync
  refine .ite (fun _ => ?_) (fun _ => .of_links)
  extract_lets k g
  refine .ite (fun _ => .of_links) (fun _ => ?_)
  have hgrant : t.SameSt (t.setLink (8 * p + l) { k with granted := g }) := t.sameSt_modLink (8 * p + l) (f := fun k => { k with granted := g })
  exact hgrant.trans (State.sendsOnly_sendCtl _ _ _).st

theorem State.sameSt_creditClock (s : State) (src : Nat) : s.SameSt (s.creditClock src) := by
  refine .ite (fun _ => .of_links) (fun _ => ?_)
  have hcount : s.SameSt (if s.creditPast src = 0 then s else s.countL PORT_LCTR_credit_wait_ns src (s.creditPast src)) :=
    .ite (fun _ => .of_links) (fun _ => .ite (fun _ => .of_links) (fun _ => .of_links))
  exact hcount.trans (State.sameSt_modLink _ src)

theorem State.st_setLinkSt (s : State) (src : Nat) (st : LinkSt) (i : Nat) :
    ((s.setLinkSt src st).link i).st = if i = src then st else (s.link i).st := by
  unfold State.setLinkSt
  extract_lets old s1 s2
  have h1 : (s1.link i).st = if i = src then st else (s.link i).st := by
    split
    · next h => rw [h, State.link_modLink_self]
    · next h => rw [State.link_modLink_ne _ _ _ _ h]
  have hall : s1.SameSt (if 192 ≤ src then s1 else
      if (old == .up) == (st == .up) then s2 else (s2.raise (evLink (src / 8) (src % 8))).creditPort (src / 8)) := by
    refine .ite (fun _ => .of_links) (fun _ => .ite (fun _ => .of_links) (fun _ => ?_))
    have hraise : s1.SameSt (s2.raise (evLink (src / 8) (src % 8))) := .of_links (State.raise_links _ _)
    exact hraise.trans (State.sameSt_creditPort _ _)
  exact (hall i).trans h1

/-- A logical port with nothing queued goes down, and no other. -/
theorem State.st_linkDown (s : State) {src : Nat} (hq : (s.link src).eg.q = []) (htx : (s.link src).eg.tx = none) (st : LinkSt) (i : Nat) :
    ((s.linkDown src st).link i).st = if i = src then st else (s.link i).st := by
  unfold State.linkDown
  rw [hq, htx]
  extract_lets wasUp queued lost s1 s2 s3 s4 s5 s6
  have h2 : s.SameSt s2 := (s.sameSt_creditClock src).trans (State.sameSt_modLink _ src)
  have h4 : s3.SameSt s4 := .ite (fun _ => .of_links) (fun _ => .of_links)
  have h5 : s4.SameSt s5 := by
    obtain ⟨x, hx⟩ := s4.countM_cases PORT_LCTR_llr_lost_frames MIR_CTR_llr_lost_frames src lost
    exact .of_links (by dsimp only [s5]; rw [hx]; rfl)
  have h6 : s5.SameSt s6 := .of_links
  have h7 : s6.SameSt (if wasUp then s6.linkLoss src else s6) :=
    .ite (fun _ i => congrArg Link.st ((s6.keeps_linkLoss (P := fun _ => False) src).links i id)) (fun _ => .of_links)
  rw [((h4.trans h5).trans (h6.trans h7)) i, s2.st_setLinkSt src st i, h2 i]

/-- One logical port after the other goes down that is not DISABLED. -/
def State.linksDown (s : State) (p : Nat) (l : List Nat) : State :=
  l.foldl (fun s l => if (s.link (8 * p + l)).st == .disabled then s
    else (s.linkDown (8 * p + l) .down).modLink (8 * p + l) (fun k => { k with signal := false, lock := false })) s

theorem State.st_linksDown {s : State} {p : Nat} {l : List Nat} (hl : ∀ x ∈ l, x < 8) (hq : s.quietPort p) (i : Nat) :
    ((s.linksDown p l).link i).st = if (∃ x ∈ l, i = 8 * p + x) ∧ (s.link i).st ≠ .disabled then .down else (s.link i).st := by
  induction l generalizing s with
  | nil => simp [State.linksDown]
  | cons x r ih =>
    have hx := hl x List.mem_cons_self
    have hr : ∀ y ∈ r, y < 8 := fun y hy => hl y (List.mem_cons_of_mem _ hy)
    have hstep : s.linksDown p (x :: r) = State.linksDown (if (s.link (8 * p + x)).st == .disabled then s else
        (s.linkDown (8 * p + x) .down).modLink (8 * p + x) (fun k => { k with signal := false, lock := false })) p r := rfl
    obtain ⟨hqueue, htx⟩ := hq x hx
    by_cases hst : (s.link (8 * p + x)).st = .disabled
    · rw [hstep, if_pos (by rw [hst]; rfl), ih hr hq]
      by_cases hi : i = 8 * p + x
      · simp [hi, hst]
      · simp [hi]
    · have hkeep := (s.keeps_linkDown (P := (· = p)) (show (8 * p + x) / 8 = p by omega) hqueue htx .down).trans
        (State.keeps_modLink _ (show (8 * p + x) / 8 = p by omega) (fun k => { k with signal := false, lock := false }) fun _ h h' => ⟨h, h'⟩)
      have hlights := State.sameSt_modLink (s.linkDown (8 * p + x) .down) (8 * p + x) (f := fun k => { k with signal := false, lock := false })
      rw [hstep, if_neg (by simpa using hst), ih hr fun l hlt => hkeep.quiet _ (hq l hlt).1 (hq l hlt).2, hlights i, s.st_linkDown hqueue htx]
      by_cases hi : i = 8 * p + x
      · simp [hi, hst]
      · simp [hi]

theorem State.portFlags_link (s : State) (p i : Nat) : (s.portFlags p).link i = s.link i := rfl

/-- The fabric port goes down that has nothing queued: of its logical ports those that are not DISABLED. -/
theorem State.st_portDown (s : State) (p : Nat) (hq : s.quietPort p) (l : Nat) (hl : l < 8) :
    ((s.portDown p).link (8 * p + l)).st = if (s.link (8 * p + l)).st = .disabled then LinkSt.disabled else .down := by
  have hall := State.st_linksDown (l := List.range 8) (fun x hx => List.mem_range.mp hx) hq (8 * p + l)
  rw [show s.portDown p = (s.linksDown p (List.range 8)).portFlags p from rfl, State.portFlags_link, hall]
  by_cases h : (s.link (8 * p + l)).st = .disabled
  · simp [h]
  · simp [h, hl]

theorem exec_blockError_port (hl : s.live = true) (p : Port) (hreset : s.justReset p = false) (hq : s.quietPort p) :
    Yields (.blockError (.port p)) s (fun t => (t.port p).blocked = true ∧ t.flag HUB_RAS_STATUS_block_ev = true ∧
      t.reg HUB_CTR_block_errors = (s.reg HUB_CTR_block_errors + 1) % 2 ^ 64 ∧
      (∀ l, l < 8 → (t.link (8 * p + l)).st = if (s.link (8 * p + l)).st = .disabled then LinkSt.disabled else .down) ∧ t.chans = s.chans) := by
  obtain ⟨r, l, o, a, h⟩ := s.rasBlock_rest (p.val / 6) 3 p.val
  obtain ⟨hev, hcount⟩ := s.rasBlock_spec (p.val / 6) 3 p.val
  have hrun : exec (.blockError (.port p)) s =
      .next (((s.rasBlock (p.val / 6) 3 p.val).modPort p.val (fun q => { q with blocked := true })).portDown p.val) := by
    rw [show exec (.blockError (.port p)) s = .next (s.blockError (.port p)) from exec_blockError hl _]
    unfold State.blockError
    simp only [State.justReset_rasBlock, hreset, Bool.false_eq_true, if_false]
  have hport : (((s.rasBlock (p.val / 6) 3 p.val).modPort p.val (fun q => { q with blocked := true })).port p.val).blocked = true := by
    rw [State.port_modPort_self]
  have hlink (i : Nat) : ((s.rasBlock (p.val / 6) 3 p.val).modPort p.val (fun q => { q with blocked := true })).link i = s.link i := by rw [h]; rfl
  have hchans : ((s.rasBlock (p.val / 6) 3 p.val).modPort p.val (fun q => { q with blocked := true })).chans = s.chans := by rw [h]; rfl
  have hev' : ((s.rasBlock (p.val / 6) 3 p.val).modPort p.val (fun q => { q with blocked := true })).flag HUB_RAS_STATUS_block_ev = true := hev
  have hcount' : ((s.rasBlock (p.val / 6) 3 p.val).modPort p.val (fun q => { q with blocked := true })).reg HUB_CTR_block_errors =
    (s.reg HUB_CTR_block_errors + 1) % 2 ^ 64 := hcount
  generalize (s.rasBlock (p.val / 6) 3 p.val).modPort p.val (fun q => { q with blocked := true }) = v at hrun hport hlink hchans hev' hcount'
  have hdown := v.podWork_portDown p.isLt
  refine ⟨_, hrun, ?_, ?_, ?_, fun l hlt => ?_, hdown.chans.trans hchans⟩
  · rw [State.port, hdown.ports]
    exact hport
  · rw [hdown.flag (by decide), hev']
  · rw [hdown.still _ (by decide), hcount']
  · rw [v.st_portDown p (fun l hlt => by rw [hlink]; exact hq l hlt) l hlt, hlink]

end Errors

end Sys2Proof.Machine
end

section
/-! PROOFS. An entry, a word, a core or the whole device in error (R73, R168, R177, R389, R431, R434–R436, R446). -/

set_option Elab.async false

namespace Sys2Proof.Machine

section Errors

variable {s : State}

/-! ### A context that drains (R168, R169) -/

/-- Context `cx` drains with fault `f` and nothing in queue `q`, and every other context stands as at `s`. -/
structure State.Drained (cx q : Nat) (f : Option CtxFault) (s t : State) : Prop where
  st : (t.ctx cx).st = .drain
  queue : (t.ctx cx).queue q = []
  fault : (t.ctx cx).fault = f
  others : ∀ c, c ≠ cx → t.ctx c = s.ctx c

theorem State.drained_drainScan {cx q : Nat} {f : Option CtxFault} {t : State} (h : s.Drained cx q f t) : s.Drained cx q f (t.drainScan cx) := by
  unfold State.drainScan
  rw [if_pos (by rw [h.st]; rfl)]
  refine List.foldlRecOn (motive := fun u : State => s.Drained cx q f u) _ _ h fun u hu i _ => ?_
  split
  · split
    · refine ⟨?_, ?_, ?_, fun c hc => ?_⟩
      · rw [State.ctx_modCtx_self]; exact hu.st
      · rw [State.ctx_modCtx_self, Ctx.queue]
        by_cases hi : q = i
        · rw [hi]; exact Tab.get_put_self (u.ctx cx).q [] i []
        · exact (Tab.get_put_ne (u.ctx cx).q [] [] [] hi).trans hu.queue
      · rw [State.ctx_modCtx_self]; exact hu.fault
      · rw [State.ctx_modCtx_ne _ _ _ _ hc, hu.others c hc]
    · exact hu
  · exact hu

theorem State.ctxs_endGate (s : State) (cx : Nat) : (s.endGate cx).ctxs = s.ctxs := (s.keeps_endGate (P := fun _ => False) cx).ctxs

/-- A context that wakes keeps what it holds, but for its wait. -/
theorem State.wake_spec (s : State) (cx : Nat) : ((s.wake cx).ctx cx).q = (s.ctx cx).q ∧ ((s.wake cx).ctx cx).fault = (s.ctx cx).fault ∧
    ∀ c, c ≠ cx → (s.wake cx).ctx c = s.ctx c := by
  unfold State.wake
  extract_lets s1
  have h1 (c : Nat) : s1.ctx c = s.ctx c := by
    dsimp only [s1]
    split
    · exact congrArg (fun m => Tab.get m {} c) (s.ctxs_endGate cx)
    · rfl
  refine ⟨?_, ?_, fun c hc => (State.ctx_modCtx_ne _ _ _ _ hc).trans (h1 c)⟩
  · rw [State.ctx_modCtx_self, h1]
  · rw [State.ctx_modCtx_self, h1]

theorem State.drained_drain {cx q : Nat} (h : (s.ctx cx).queue q = []) : s.Drained cx q (s.ctx cx).fault (s.drain cx) := by
  unfold State.drain
  extract_lets s1
  have h1 : (s1.ctx cx).q = (s.ctx cx).q ∧ (s1.ctx cx).fault = (s.ctx cx).fault ∧ ∀ c, c ≠ cx → s1.ctx c = s.ctx c := by
    dsimp only [s1]
    split
    · exact s.wake_spec cx
    · exact ⟨rfl, rfl, fun _ _ => rfl⟩
  obtain ⟨hq, hfault, hothers⟩ := h1
  refine State.drained_drainScan ⟨?_, ?_, ?_, fun c hc => (State.ctx_modCtx_ne _ _ _ _ hc).trans (hothers c hc)⟩
  · rw [State.ctx_modCtx_self]
  · rw [State.ctx_modCtx_self, Ctx.queue, hq]
    exact h
  · rw [State.ctx_modCtx_self]
    exact hfault

theorem Ctx.not_idle_of_running {k : Ctx} (h : k.running = true) : (k.st == .idle || k.st == .loading) = false := by
  simp only [Ctx.running, Bool.or_eq_true, beq_iff_eq] at h
  obtain (h | h) | h := h <;> rw [h] <;> rfl

/-- The first fault of a context that runs, of a queue: it is reported, the queue is discarded and the context drains. -/
theorem State.drained_fault {cx q status instr rep : Nat} (hrun : (s.ctx cx).running = true) (hnone : (s.ctx cx).fault = none)
    (hstatus : status ≠ stTimeout) (hq : q < 5) : s.Drained cx q
      (some { status := status, unit := q, instr := instr, rep := rep, seq := s.seqNow (chOf cx) (coreOf cx) }) (s.fault cx q status instr rep) := by
  unfold State.fault State.faultAgo
  extract_lets k ch f s1 s2 s3 s4
  have hst : (k.st == .idle || k.st == .loading) = false := Ctx.not_idle_of_running hrun
  have hfirst : f.first k.fault = true := by rw [show k.fault = none from hnone]; rfl
  have hreported : s1.ctxs = (s.modCtx cx (fun k => { k with fault := some f })).ctxs := by
    dsimp only [s1]
    rw [if_pos hfirst]
    rfl
  have hlater : s2 = s1 := if_neg (by rw [show k.fault = none from hnone]; decide)
  have hctxs : s4.ctxs = (s.modCtx cx (fun k => { k with fault := some f })).ctxs := by
    dsimp only [s4]
    rw [if_neg hstatus]
    exact (State.raise_ctxs _ _).trans (by rw [hlater, hreported])
  have hctx (c : Nat) : s4.ctx c = (s.modCtx cx (fun k => { k with fault := some f })).ctx c := by simp only [State.ctx, hctxs]
  rw [if_neg (by rw [hst]; decide), if_pos hq]
  have hcleared : (s4.setQueue cx q []).ctx cx = { s.ctx cx with fault := some f, q := (s.ctx cx).q.put [] q [] } := by
    rw [State.setQueue, State.ctx_modCtx_self, hctx, State.ctx_modCtx_self]
  obtain ⟨hdrain, hqueue, hfault, hothers⟩ := State.drained_drain (s := s4.setQueue cx q []) (cx := cx) (q := q)
    (by rw [hcleared]; exact Tab.get_put_self (s.ctx cx).q [] q [])
  refine ⟨hdrain, hqueue, by rw [hfault, hcleared]; rfl, fun c hc => ?_⟩
  rw [hothers c hc, State.setQueue, State.ctx_modCtx_ne _ _ _ _ hc, hctx, State.ctx_modCtx_ne _ _ _ _ hc]

theorem exec_blockError_entry (hl : s.live = true) (cx : Cx) (q : Fin 5) {e : Entry} {rest : List Entry} (hq : 0 < q.val)
    (hhead : (s.ctx cx).queue q = e :: rest) (hrun : (s.ctx cx).running = true) (heng : isEngine (iOp e.word) = true)
    (hnone : (s.ctx cx).fault = none) : Yields (.blockError (.entry cx q)) s (fun t => (t.ctx cx).st = .drain ∧ (t.ctx cx).queue q = [] ∧
      (t.ctx cx).fault = some { status := stQueueFault, unit := q, instr := e.pc, rep := e.i, seq := s.seqNow (chOf cx) (coreOf cx) } ∧
      (∀ c, c ≠ cx.val → t.ctx c = s.ctx c)) := by
  have hlog := s.portWork_rasContained (chOf cx / 2) 3 stQueueFault (chOf cx)
  have hparity : s.parityError cx.val q.val = (s.rasContained (chOf cx / 2) 3 stQueueFault (chOf cx)).failEntry cx q stQueueFault e := by
    unfold State.parityError
    rw [hhead, List.head?_cons]
    simp only [beq_eq_false_iff_ne.mpr (show q.val ≠ 0 by omega), hrun, heng, Bool.not_true, Bool.or_self, Bool.false_eq_true, if_false]
  have hexec : exec (.blockError (.entry cx q)) s = .next ((s.rasContained (chOf cx / 2) 3 stQueueFault (chOf cx)).failEntry cx q stQueueFault e) :=
    (exec_blockError hl _).trans (congrArg Host.Outcome.next hparity)
  have hctx (c : Nat) : (s.rasContained (chOf cx / 2) 3 stQueueFault (chOf cx)).ctx c = s.ctx c := by rw [hlog.rest]; rfl
  have hseq : (s.rasContained (chOf cx / 2) 3 stQueueFault (chOf cx)).seqNow (chOf cx) (coreOf cx) = s.seqNow (chOf cx) (coreOf cx) := by
    rw [hlog.rest]; rfl
  generalize s.rasContained (chOf cx / 2) 3 stQueueFault (chOf cx) = u at hexec hctx hseq
  have hflushed : (u.flushEntry cx q e).ctx cx = { (u.ctx cx) with
      exc := ((u.flushEntry cx q e).ctx cx).exc, inv := ((u.flushEntry cx q e).ctx cx).inv } := by
    rw [State.flushEntry, State.ctx_modCtx_self]
  obtain ⟨hst, hqueue, hfault, hothers⟩ := State.drained_fault (s := u.flushEntry cx q e) (cx := cx) (q := q) (status := stQueueFault) (instr := e.pc)
    (rep := e.i) (by rw [hflushed, hctx]; exact hrun) (by rw [hflushed, hctx]; exact hnone) (by decide) q.isLt
  refine ⟨_, hexec, hst, hqueue, hfault.trans (congrArg (fun n => some (CtxFault.mk stQueueFault q.val e.pc e.i n)) hseq),
    fun c hc => (hothers c hc).trans ?_⟩
  rw [State.flushEntry, State.ctx_modCtx_ne _ _ _ _ hc, hctx]

/-! ### Words of a channel's memories (R431) -/

/-- What is noted once stands in the list. -/
theorem contains_noted (l : List Nat) (w : Nat) : (if l.contains w then l else w :: l).contains w = true := by
  split
  · assumption
  · simp

theorem exec_blockError_scratch (hl : s.live = true) (ch : Ch) {w : Nat} (hw : w < 0x300000) : Yields (.blockError (.scratch ch w)) s (fun t =>
    (t.chan ch).scratchUe.contains w = true ∧ t = { s with chans := t.chans }) := by
  refine ⟨_, exec_blockError hl _, ?_, rfl⟩
  have hin : ¬ 0x6000000 / 32 ≤ w := by omega
  rw [State.blockError, State.scratchError, State.chan_modChan_self]
  simp only [hin]
  exact contains_noted _ w

theorem exec_blockError_bank (hl : s.live = true) (ch : Ch) (tile : Fin 256) (bank : Fin 4) : Yields (.blockError (.bank ch tile bank)) s (fun t =>
    (t.chan ch).bankUe.contains (4 * tile.val + bank.val) = true ∧ t = { s with chans := t.chans }) := by
  refine ⟨_, exec_blockError hl _, ?_, rfl⟩
  rw [State.blockError, State.chan_modChan_self]
  exact contains_noted _ _

theorem exec_blockError_instruction (hl : s.live = true) (cx : Cx) {n : Nat} (hn : n < (s.ctx cx).prog.length) :
    Yields (.blockError (.instruction cx n)) s (fun t =>
      (t.ctx cx).progUe.contains n = true ∧ (t.ctx cx).prog = (s.ctx cx).prog ∧ t = { s with ctxs := t.ctxs }) := by
  have hctx : ((s.blockError (.instruction cx n)).ctx cx) = { s.ctx cx with progUe := n :: (s.ctx cx).progUe } := by
    rw [State.blockError, State.ctx_modCtx_self, if_pos hn]
  refine ⟨_, exec_blockError hl _, ?_, ?_, rfl⟩
  · rw [hctx]; simp
  · rw [hctx]

/-! ### A controller core (R389, R434) -/

theorem exec_mcpWatchdog_waiting (hl : s.live = true) (core : Fin 4) (hr : s.flag HUB_STATUS_ready = false) : exec (.mcpWatchdog core) s = .next s := by
  have hwait : s.whenReady (fun s => s.mcpWatchdog core.val) = s := if_neg (by rw [hr]; decide)
  exact congrArg Host.Outcome.next ((if_pos hl).trans hwait)

theorem exec_mcpWatchdog_restarts (hl : s.live = true) (core : Fin 4) (hr : s.flag HUB_STATUS_ready = true) (hfatal : s.sys.fatal = false)
    (hfew : (s.sys.mcpRestarts.filter (fun r => r.1 == core.val && !s.elapsed r.2 60000000000)).length < 2) :
    Yields (.mcpWatchdog core) s (fun t => t.reg HUB_CTR_mcp_restarts = (s.reg HUB_CTR_mcp_restarts + 1) % 2 ^ 64 ∧
      t.flag HUB_RAS_STATUS_mcp_restart_ev = true ∧ t.sys = { s.sys with mcpRestarts := (core.val, s.now) :: s.sys.mcpRestarts }) := by
  obtain ⟨r, l, o, a, h⟩ := s.rasBlock_rest 32 4 core.val
  have hrun : exec (.mcpWatchdog core) s = .next (s.mcpWatchdog core.val) := congrArg Host.Outcome.next ((if_pos hl).trans (if_pos hr))
  have hsys : (s.rasBlock 32 4 core.val).sys = s.sys := by rw [h]
  have hrecent : (s.rasBlock 32 4 core.val).mcpRecent core.val = s.mcpRecent core.val := by rw [h]; rfl
  have hnow : (s.rasBlock 32 4 core.val).now = s.now := by rw [h]; rfl
  have hreg : (s.rasBlock 32 4 core.val).reg HUB_CTR_mcp_restarts = s.reg HUB_CTR_mcp_restarts := by
    rw [State.rasBlock, State.reg_rasLog_ne _ _ _ _ _ _ (by decide) (by decide), State.reg_raise_ne _ _ (by decide) (by decide),
      State.reg_count_ne _ _ _ _ (by decide)]
  unfold State.mcpWatchdog at hrun
  generalize s.rasBlock 32 4 core.val = u at hrun hsys hrecent hnow hreg
  have hgoes : ¬ 2 ≤ (u.mcpRecent core.val).length := by
    rw [hrecent]
    exact Nat.not_le.mpr hfew
  rw [if_neg (by rw [hsys, hfatal]; decide), if_neg hgoes] at hrun
  refine ⟨_, hrun, ?_, State.flag_raise_self _ (by decide) (by decide), ?_⟩
  · rw [State.reg_raise_ne _ _ (by decide) (by decide), State.reg_count_self]
    exact congrArg (fun n => (n + 1) % 2 ^ 64) hreg
  · rw [State.raise_sys, ← hsys, ← hnow]
    rfl

/-! ### A device-fatal error (R435, R436, R446) -/

/-- The first device-fatal error is logged. -/
theorem State.fatalLog_spec (hvalid : s.flag HUB_FATAL_LOG_valid = false) (unit cause index : Nat) :
    let t := s.fatalLog unit cause index
    (∃ r l a, t = { s with regs := r, latch := l, clk := { s.clk with arr := a } }) ∧ t.reg HUB_FATAL_LOG_class = 4 ∧
      t.reg HUB_FATAL_LOG_unit = unit % 2 ^ 8 ∧ t.reg HUB_FATAL_LOG_cause = cause % 2 ^ 8 ∧ t.reg HUB_FATAL_LOG_valid = 1 ∧
      t.reg HUB_FATAL_STAMP_stamp = s.now.toNat := by
  have hzero : s.reg HUB_FATAL_LOG_valid = 0 := by simpa [State.flag, State.reg] using hvalid
  have hlog : s.fatalLog unit cause index = (((((((s.setReg HUB_FATAL_LOG_class 4).setReg HUB_FATAL_LOG_unit unit).setReg HUB_FATAL_LOG_cause cause).setReg
      HUB_FATAL_LOG_index index).setW1c HUB_FATAL_LOG_valid 1).setReg HUB_FATAL_STAMP_stamp s.now.toNat).stamped) := if_neg (by rw [hvalid]; decide)
  rw [hlog]
  refine ⟨⟨_, _, _, rfl⟩, ?_, ?_, ?_, ?_, ?_⟩ <;>
    simp (disch := decide) only [State.reg_stamped, State.reg_setReg_ne, State.reg_setW1c_ne, State.reg_setReg_self, State.reg_setW1c_self, hzero]
  · rfl
  · rfl
  · rfl
  · rfl
  · exact Nat.mod_eq_of_lt s.now.isLt

/-- The error is logged and shown, the transmitters are dark and the stacks refresh themselves. -/
def State.fatalShown (s : State) (unit cause index : Nat) : State :=
  let s := (s.fatalLog unit cause index).rasLog 4 unit cause 0 index
  let s := if s.sys.fatal then s else s.emit (.pin "FAULT_N" false)
  { s with sys := { s.sys with fatal := true, txDark := true, selfRefresh := true } }

theorem State.fatalShown_eq {unit cause index : Nat} (h : ((s.fatalLog unit cause index).rasLog 4 unit cause 0 index).sys.fatal = false) :
    s.fatalShown unit cause index = { ((s.fatalLog unit cause index).rasLog 4 unit cause 0 index).emit (.pin "FAULT_N" false) with
      sys := { ((s.fatalLog unit cause index).rasLog 4 unit cause 0 index).sys with fatal := true, txDark := true, selfRefresh := true } } := by
  unfold State.fatalShown
  dsimp only
  rw [if_neg (by rw [h]; decide)]
  rfl

/-- The device fences itself, and its ports go down. -/
def State.fatalDown (s : State) : State := (((List.range 24).foldl State.portDown s.selfFence).mirPort 0 false).mirPort 1 false

theorem State.deviceFatal_eq (s : State) (unit cause index : Nat) :
    s.deviceFatal unit cause index = (s.fatalShown unit cause index).fatalDown.raise (evRas HUB_RAS_STATUS_fatal_ev) := rfl

theorem State.fatalShown_spec (hfatal : s.sys.fatal = false) (hvalid : s.flag HUB_FATAL_LOG_valid = false) (unit cause index : Nat) :
    let t := s.fatalShown unit cause index
    t.sys = { s.sys with fatal := true, txDark := true, selfRefresh := true } ∧ .pin "FAULT_N" false ∈ t.out ∧ t.reg HUB_FATAL_LOG_class = 4 ∧
      t.reg HUB_FATAL_LOG_unit = unit % 2 ^ 8 ∧ t.reg HUB_FATAL_LOG_cause = cause % 2 ^ 8 ∧ t.reg HUB_FATAL_LOG_valid = 1 ∧
      t.reg HUB_FATAL_STAMP_stamp = s.now.toNat := by
  obtain ⟨⟨r, l, a, hrest⟩, hclass, hunit, hcause, hval, hstamp⟩ := State.fatalLog_spec hvalid unit cause index
  have hsys : (s.fatalLog unit cause index).sys = s.sys := by rw [hrest]
  have hlog := State.portWork_rasLog (s.fatalLog unit cause index) 4 unit cause 0 index
  have hdark : ((s.fatalLog unit cause index).rasLog 4 unit cause 0 index).sys = s.sys := hlog.sys.trans hsys
  rw [State.fatalShown_eq (by rw [hdark, hfatal])]
  refine ⟨?_, List.mem_append_right _ List.mem_cons_self, (hlog.still _ (by decide)).trans hclass, (hlog.still _ (by decide)).trans hunit,
    (hlog.still _ (by decide)).trans hcause, (hlog.still _ (by decide)).trans hval, (hlog.still _ (by decide)).trans hstamp⟩
  rw [hdark]

/-- What the hub shows of the error stays, and the device is fenced. -/
theorem State.fatalDown_spec (s : State) : s.RegWork podFields s.fatalDown ∧ s.fatalDown.pod = podSolo ∧
    s.fatalDown.flag MIR_STATUS_self_fenced = true := by
  obtain ⟨hsolo, hfenced, -, hfence, -⟩ := s.selfFence_spec
  have hports : s.selfFence.PodWork ((List.range 24).foldl State.portDown s.selfFence) :=
    .foldl _ fun s p hp => s.podWork_portDown (List.mem_range.mp hp)
  have hdown : s.selfFence.RegWork upFields s.fatalDown := (hports.ups.trans (State.regWork_mirPort _ 0 false)).trans (State.regWork_mirPort _ 1 false)
  exact ⟨hfence.trans (hdown.mono podFields_subset_up), (hdown.still _ (by decide)).trans hsolo, (hdown.flag (by decide)).trans hfenced⟩

theorem exec_deviceFatal (hl : s.live = true) (unit cause index : Nat) (hfatal : s.sys.fatal = false) (hvalid : s.flag HUB_FATAL_LOG_valid = false) :
    Yields (.deviceFatal unit cause index) s (fun t => t.sys.fatal = true ∧ t.sys.txDark = true ∧ t.sys.selfRefresh = true ∧
      .pin "FAULT_N" false ∈ t.out ∧ t.flag HUB_RAS_STATUS_fatal_ev = true ∧ t.pod = podSolo ∧ t.flag MIR_STATUS_self_fenced = true ∧
      t.reg HUB_FATAL_LOG_class = 4 ∧ t.reg HUB_FATAL_LOG_unit = unit % 2 ^ 8 ∧ t.reg HUB_FATAL_LOG_cause = cause % 2 ^ 8 ∧
      t.reg HUB_FATAL_LOG_valid = 1 ∧ t.reg HUB_FATAL_STAMP_stamp = s.now.toNat) := by
  have hrun : exec (.deviceFatal unit cause index) s =
      .next ((s.fatalShown unit cause index).fatalDown.raise (evRas HUB_RAS_STATUS_fatal_ev)) := by
    rw [← s.deviceFatal_eq]
    exact congrArg Host.Outcome.next (if_pos hl)
  obtain ⟨hsys, hpin, hclass, hunit, hcause, hval, hstamp⟩ := State.fatalShown_spec hfatal hvalid unit cause index
  generalize s.fatalShown unit cause index = u at hrun hsys hpin hclass hunit hcause hval hstamp
  obtain ⟨hdown, hsolo, hfenced⟩ := u.fatalDown_spec
  have hreg (f : Fld) (hf : f.key ≠ HUB_RAS_STATUS_fatal_ev.key) (hpba : f.key ≠ HUB_MSIX_PBA_pending.key) :
      (u.fatalDown.raise (evRas HUB_RAS_STATUS_fatal_ev)).reg f = u.fatalDown.reg f := State.reg_raise_ne _ _ hf hpba
  have hshown : (u.fatalDown.raise (evRas HUB_RAS_STATUS_fatal_ev)).sys = { s.sys with fatal := true, txDark := true, selfRefresh := true } :=
    ((State.raise_sys _ _).trans hdown.sys).trans hsys
  refine ⟨_, hrun, by rw [hshown], by rw [hshown], by rw [hshown], (State.prefix_raise _ _).subset (hdown.out.subset hpin),
    State.flag_raise_self _ (by decide) (by decide), (hreg _ (by decide) (by decide)).trans hsolo,
    (State.flag_congr (hreg _ (by decide) (by decide))).trans hfenced, ?_, ?_, ?_, ?_, ?_⟩
  · exact ((hreg _ (by decide) (by decide)).trans (hdown.still _ (by decide))).trans hclass
  · exact ((hreg _ (by decide) (by decide)).trans (hdown.still _ (by decide))).trans hunit
  · exact ((hreg _ (by decide) (by decide)).trans (hdown.still _ (by decide))).trans hcause
  · exact ((hreg _ (by decide) (by decide)).trans (hdown.still _ (by decide))).trans hval
  · exact ((hreg _ (by decide) (by decide)).trans (hdown.still _ (by decide))).trans hstamp

/-- After a thermal trip a device-fatal error is logged, and no more. -/
theorem exec_fatalAfterTrip (htrip : s.sys.power = .tripped) (hvalid : s.flag HUB_FATAL_LOG_valid = false) {unit cause index : Nat} {c : Instr}
    (hc : c = .deviceFatal unit cause index ∨ (c = .tableWordRepair true ∧ unit = 32 ∧ cause = 2 ∧ index = 0) ∨
      (∃ core : Fin 4, c = .mcpWatchdog core ∧ unit = 32 ∧ cause = 10 ∧ index = core.val ∧ s.flag HUB_STATUS_ready = true ∧ s.sys.fatal = false ∧
        2 ≤ (s.sys.mcpRestarts.filter (fun r => r.1 == core.val && !s.elapsed r.2 60000000000)).length)) : Yields c s (fun t =>
      t.sys = s.sys ∧ t.out = s.out ∧ t.links = s.links ∧ t.reg HUB_FATAL_LOG_unit = unit % 2 ^ 8 ∧ t.reg HUB_FATAL_LOG_cause = cause % 2 ^ 8 ∧
        t.reg HUB_FATAL_LOG_valid = 1 ∧ t.reg HUB_FATAL_STAMP_stamp = s.now.toNat) := by
  have hstopped : ¬ s.live = true := by rw [State.live, htrip]; decide
  have htripped : s.fatalAfterTrip unit cause index = s.fatalLog unit cause index := if_pos (by rw [htrip]; rfl)
  have hrun : exec c s = .next (s.fatalLog unit cause index) := by
    rw [← htripped]
    obtain rfl | ⟨rfl, rfl, rfl, rfl⟩ | ⟨core, rfl, rfl, rfl, rfl, hr, hfatal, hmany⟩ := hc
    · exact congrArg Host.Outcome.next (if_neg hstopped)
    · exact congrArg Host.Outcome.next (if_neg hstopped)
    · have hthird : (s.flag HUB_STATUS_ready && !s.sys.fatal && decide (2 ≤ (s.mcpRecent core.val).length)) = true := by
        simp only [hr, hfatal, Bool.not_false, Bool.and_self, Bool.true_and, decide_eq_true_eq]
        exact hmany
      exact congrArg Host.Outcome.next ((if_neg hstopped).trans (if_pos hthird))
  obtain ⟨⟨r, l, a, hrest⟩, -, hunit, hcause, hval, hstamp⟩ := State.fatalLog_spec hvalid unit cause index
  exact ⟨_, hrun, by rw [hrest], by rw [hrest], by rw [hrest], hunit, hcause, hval, hstamp⟩

/-! ### The counters (R73) -/

theorem exec_rasCounterClear (hl : s.live = true) (hcounts : s.latchNow.counts = []) : Yields .rasCounterClear s (fun t =>
    s.clears t (fun a => offIn 0x700 0x740 a || offIn 0x808 0x810 a) (fun _ => false) ∧ t = { s with regs := t.regs }) := by
  refine ⟨_, State.does_live State.rasCtrClear hl, State.clears_clearCounters hcounts fun f hlo => ?_, rfl⟩
  rw [keyIn_key hlo, keyIn_key hlo]

end Errors

/-- Settles O48: each kind of error meets the lemma of its command; a device-fatal error leaves what the hub shows of it through the self-fencing and the
links that go down, since no work of the pod writes those registers. -/
theorem errorsByClass : Obligations.ErrorsByClass := by
  intro s
  refine ⟨fun hl => ⟨exec_tableWordRepair hl, exec_blockError_port hl, exec_blockError_channel hl, exec_blockError_corrected hl,
    fun cx q e rest hq hhead hrun heng hnone => exec_blockError_entry hl cx q hq hhead hrun heng hnone, fun ch w hw => exec_blockError_scratch hl ch hw,
    exec_blockError_bank hl, fun cx n hn => exec_blockError_instruction hl cx hn, exec_mcpWatchdog_waiting hl, exec_mcpWatchdog_restarts hl,
    exec_deviceFatal hl, exec_rasCounterClear hl⟩, fun unit cause index c htrip hvalid hc => exec_fatalAfterTrip htrip hvalid hc⟩

end Sys2Proof.Machine
end

section
/-! PROOFS. A twin that is lost, mirror ports that go down, and the pod's registers (R73, R402, R412, R413, R426, R429). -/

set_option Elab.async false

namespace Sys2Proof.Machine

section Pods

variable {s t : State}

/-! ### Groups that are taken over (R413) -/

/-- From `s` to `t` group `gid` has become this device's own, and no other has changed hands. -/
structure State.TakeWork (gid : Nat) (s t : State) : Prop extends State.RegWork stillFields s t where
  groups : ∀ k y, t.grp k = some y → ∃ x, s.grp k = some x ∧
    (x.entry.length = 64 → y.entry.length = 64 ∧ gOwn y.entry = (gOwn x.entry || k == gid))

theorem State.TakeWork.of_none {gid : Nat} (h : s.grp gid = none) : s.TakeWork gid s := by
  refine ⟨.refl s, fun k y hy => ⟨y, hy, fun hlen => ⟨hlen, ?_⟩⟩⟩
  have hk : k ≠ gid := fun hk => by rw [hk, h] at hy; cases hy
  simp [hk]

theorem State.TakeWork.of_modGrp {gid : Nat} {g : Grp} {f : Grp → Grp} (hg : s.grp gid = some g)
    (hf : g.entry.length = 64 → (f g).entry.length = 64 ∧ gOwn (f g).entry = true) : s.TakeWork gid (s.modGrp gid f) := by
  unfold State.modGrp
  rw [show s.groups.find? gid = some g from hg]
  refine ⟨.of_rest, fun k y hy => ?_⟩
  by_cases hk : k = gid
  · subst hk
    rw [State.grp, Tab.find?_insert_self] at hy
    cases hy
    exact ⟨g, hg, fun hlen => ⟨(hf hlen).1, by simp [(hf hlen).2]⟩⟩
  · rw [State.grp, Tab.find?_insert_ne _ _ hk] at hy
    exact ⟨y, hy, fun hlen => ⟨hlen, by simp [hk]⟩⟩

theorem State.TakeWork.trans {gid : Nat} {u : State} (h : s.TakeWork gid t) (h' : t.PodWork u) : s.TakeWork gid u where
  toRegWork := h.toRegWork.trans h'.toRegWork
  groups k z hz := by
    obtain ⟨y, hy, hyz⟩ := h'.groups k z hz
    obtain ⟨x, hx, hxy⟩ := h.groups k y hy
    exact ⟨x, hx, fun hlen => ⟨(hyz (hxy hlen).1).1, (hyz (hxy hlen).1).2.trans (hxy hlen).2⟩⟩

theorem State.takeWork_takeGroup (s : State) (gid : Nat) : s.TakeWork gid (s.takeGroup gid).2 := by
  unfold State.takeGroup
  split
  · next h => exact .of_none h
  next g hg =>
    extract_lets e act s1 s2 open_
    have h1 : s.TakeWork gid s1 := .of_modGrp hg fun hlen => gSetOwn_spec hlen true
    have h2 : s.TakeWork gid s2 := h1.trans (State.podWork_recordFw _ _ _ _ _)
    clear_value open_
    split
    · split
      · exact h2.trans ((s2.podWork_retract _ _ _).trans (State.podWork_recordFw _ _ _ _ _))
      · exact h2.trans (s2.podWork_acts _)
    · exact h2.trans (s2.podWork_acts _)

/-- Groups are taken one after the other, and those that retract are counted. -/
def State.takeGroups (s : State) (n : Nat) (l : List Nat) : Nat × State :=
  l.foldl (fun (a : Nat × State) gid => let (r, s) := a.2.takeGroup gid; (a.1 + bit1 r, s)) (n, s)

theorem State.takeGroups_cons (s : State) (n gid : Nat) (l : List Nat) :
    s.takeGroups n (gid :: l) = (s.takeGroup gid).2.takeGroups (n + bit1 (s.takeGroup gid).1) l := rfl

theorem State.regWork_takeGroups (s : State) (n : Nat) (l : List Nat) : s.RegWork stillFields (s.takeGroups n l).2 := by
  induction l generalizing s n with
  | nil => exact .refl s
  | cons gid r ih =>
    rw [State.takeGroups_cons]
    exact (s.takeWork_takeGroup gid).toRegWork.trans (ih _ _)

/-- Once all have been taken that it did not own, the device owns every group. -/
theorem State.gOwn_takeGroups {l : List Nat} (n : Nat)
    (h : ∀ k y, s.grp k = some y → y.entry.length = 64 ∧ (gOwn y.entry = true ∨ k ∈ l)) {k : Nat} {y : Grp}
    (hy : (s.takeGroups n l).2.grp k = some y) : y.entry.length = 64 ∧ gOwn y.entry = true := by
  induction l generalizing s n with
  | nil => exact ⟨(h k y hy).1, (h k y hy).2.resolve_right List.not_mem_nil⟩
  | cons gid r ih =>
    rw [State.takeGroups_cons] at hy
    refine ih _ (fun j z hz => ?_) hy
    obtain ⟨x, hx, hxz⟩ := (s.takeWork_takeGroup gid).groups j z hz
    obtain ⟨hlen, hown⟩ := h j x hx
    obtain ⟨hzlen, hzown⟩ := hxz hlen
    refine ⟨hzlen, ?_⟩
    rw [hzown]
    by_cases hj : j = gid
    · simp [hj]
    · simpa [hj] using hown

/-! ### The takeover (R412, R413) -/

theorem State.mir_complete (s : State) (d : Nat) (r : Report) : (s.complete d r).mir = s.mir := by rw [(s.postsOnly_complete d r).rest]

theorem State.inRecs_endRehearsal (s : State) (status : Nat) : (s.endRehearsal status).mir.inRecs = s.mir.inRecs := by
  unfold State.endRehearsal
  split
  · rfl
  next r _ =>
    extract_lets src s1 s2 s3 s4
    have h2 : s2.mir = s1.mir := List.foldlRecOn (motive := fun t : State => t.mir = s1.mir) _ _ rfl fun t ht x _ => by
      unfold State.modFrm
      split
      · exact ht
      · exact ht
    have h4 : s4.mir = s3.mir := by
      dsimp only [s4]
      split
      · exact State.raise_mir _ _
      · rfl
    rw [State.mir_complete, h4, show s3.mir = s2.mir from rfl, h2]

theorem State.podWork_drainIn (h : s.mir.inRecs = []) : s.PodWork s.drainIn := by
  unfold State.drainIn
  rw [h]
  exact .of_rest

/-- What stands before the groups are taken. -/
def State.bereaved (s : State) : State :=
  let s := if s.mir.rehearsal.isSome then s.endRehearsal stRehearseCancelled else s
  let s := s.drainIn
  let void := s.voidMoves
  void.foldl (fun s g => s.withdraw g (fun x => x.head.opcode == 7)) s

theorem State.podWork_bereaved (h : s.mir.inRecs = []) : s.PodWork s.bereaved := by
  unfold State.bereaved
  extract_lets s1 s2 void
  have h1 : s.PodWork s1 ∧ s1.mir.inRecs = [] := by
    dsimp only [s1]
    split
    · exact ⟨s.podWork_endRehearsal _, (s.inRecs_endRehearsal _).trans h⟩
    · exact ⟨.refl s, h⟩
  exact (h1.1.trans (State.podWork_drainIn h1.2)).trans (.foldl _ fun s _ _ => s.podWork_withdraw _ _)

/-- What the takeover shows of itself. -/
def State.takenOver (s : State) (taken back : Nat) : State :=
  let s := ((s.setReg MIR_TAKEOVER_LOG_taken taken).setReg MIR_TAKEOVER_LOG_retracted back).setW1c MIR_TAKEOVER_LOG_valid 1
  (s.setReg MIR_TAKEOVER_STAMP_stamp s.now.toNat).stamped.alarm MIR_INTR_STATUS_takeover_ev stTwinLost 0 0xFFF

/-- The groups to take: those that the device does not own, and those whose handover is void. -/
def State.toTake (s : State) (void : List Nat) : List Nat := (s.groups.filter (fun g => !gOwn g.2.entry || void.contains g.1)).map (·.1)

theorem State.takeover_eq (s : State) : ∃ (void : List Nat) (u : State), u = (s.bereaved.setPod podSurvivor).unpair ∧
    s.takeover = (u.takeGroups 0 (u.toTake void)).2.takenOver (u.toTake void).length (u.takeGroups 0 (u.toTake void)).1 :=
  ⟨_, _, rfl, rfl⟩

theorem State.flag_alarm (s : State) {f : Fld} (hw : 0 < f.w) (hpba : f.key ≠ HUB_MSIX_PBA_pending.key) (status gid member : Nat) :
    (s.alarm f status gid member).flag f = true := by
  have hraise : (s.raise (evMir f)).flag f = true := s.flag_raise_self (e := evMir f) hw hpba
  unfold State.alarm State.oobOut
  extract_lets k
  split
  · exact hraise
  · exact hraise

theorem State.takenOver_spec (s : State) (taken back : Nat) : (s.takenOver taken back).pod = s.pod ∧
    (s.takenOver taken back).reg MIR_TAKEOVER_LOG_valid = 1 ∧ (s.takenOver taken back).flag MIR_INTR_STATUS_takeover_ev = true ∧
      ∀ gid y, (s.takenOver taken back).grp gid = some y → ∃ x, s.grp gid = some x ∧ x.OwnedAs y := by
  unfold State.takenOver
  extract_lets s1
  have hafter : s1.PodWork (State.alarm (s1.setReg MIR_TAKEOVER_STAMP_stamp s1.now.toNat).stamped MIR_INTR_STATUS_takeover_ev stTwinLost 0 0xFFF) :=
    ((PodWork.refl s1).setReg (by decide) _).stamped.trans (State.podWork_alarm _ (by decide) _ _ _)
  refine ⟨?_, ?_, State.flag_alarm _ (by decide) (by decide) _ _ _, hafter.groups⟩
  · rw [State.pod, hafter.still _ (by decide), State.reg_setW1c_ne _ _ _ _ (by decide), State.reg_setReg_ne _ _ _ _ (by decide),
      State.reg_setReg_ne _ _ _ _ (by decide), State.pod]
  · rw [hafter.still _ (by decide), State.reg_setW1c_self]
    exact Nat.or_mod_two_eq_one.mpr (.inr rfl)

/-- Of a device that holds whole entries alone and has no record to apply, the takeover makes the owner of every group. -/
theorem State.takeover_spec (hin : s.mir.inRecs = []) (hlen : ∀ e ∈ s.groups, e.2.entry.length = 64) :
    s.takeover.pod = podSurvivor ∧ s.takeover.reg MIR_TAKEOVER_LOG_valid = 1 ∧ s.takeover.flag MIR_INTR_STATUS_takeover_ev = true ∧
      ∀ gid y, s.takeover.grp gid = some y → gOwn y.entry = true := by
  obtain ⟨void, u, hu, h⟩ := s.takeover_eq
  have hbefore := State.podWork_bereaved hin
  have hpod : (s.bereaved.setPod podSurvivor).PodWork u := hu ▸ State.podWork_unpair _
  have hsurvivor : u.pod = podSurvivor := (hpod.still MIR_STATUS_state (by decide)).trans (State.reg_setReg_self _ _ _)
  have hwhole (k : Nat) (y : Grp) (hy : u.grp k = some y) : y.entry.length = 64 := by
    obtain ⟨x, hx, hxy⟩ := hpod.groups k y hy
    obtain ⟨w, hw, hwx⟩ := hbefore.groups k x hx
    exact (hxy (hwx (hlen _ (Tab.mem_of_find? hw))).1).1
  have hmine (k : Nat) (y : Grp) (hy : u.grp k = some y) : y.entry.length = 64 ∧ (gOwn y.entry = true ∨ k ∈ u.toTake void) := by
    refine ⟨hwhole k y hy, ?_⟩
    by_cases hown : gOwn y.entry = true
    · exact .inl hown
    · exact .inr (List.mem_map.mpr ⟨(k, y), List.mem_filter.mpr ⟨Tab.mem_of_find? hy, by simp [hown]⟩, rfl⟩)
  have htaken := u.regWork_takeGroups 0 (u.toTake void)
  obtain ⟨hstate, hlog, hev, hgroups⟩ := (u.takeGroups 0 (u.toTake void)).2.takenOver_spec (u.toTake void).length (u.takeGroups 0 (u.toTake void)).1
  rw [h]
  refine ⟨hstate.trans ((htaken.still MIR_STATUS_state (by decide)).trans hsurvivor), hlog, hev, fun k y hy => ?_⟩
  obtain ⟨x, hx, hxy⟩ := hgroups k y hy
  obtain ⟨hxlen, hxown⟩ := State.gOwn_takeGroups 0 hmine hx
  exact (hxy hxlen).2.trans hxown

/-! ### A silent twin (R412) -/

theorem State.twinLost_congr (h : ∀ f ∈ [MIR_CFG_role, MIR_CFG_alive_en, MIR_CFG_oob_hb_en, MIR_STATUS_alive_in, MIR_HB_CFG_hb_timeout,
    MIR_HB_CFG_oob_timeout], t.reg f = s.reg f) (hmir : t.mir = s.mir) (hnow : t.now = s.now) : t.twinLost = s.twinLost := by
  have hrole := h MIR_CFG_role (by decide)
  have halive := State.flag_congr (h MIR_CFG_alive_en (by decide))
  have hoob := State.flag_congr (h MIR_CFG_oob_hb_en (by decide))
  have hin := State.flag_congr (h MIR_STATUS_alive_in (by decide))
  have hhb := h MIR_HB_CFG_hb_timeout (by decide)
  have hwait := h MIR_HB_CFG_oob_timeout (by decide)
  simp only [State.twinLost, State.hbMissing, State.oobMissing, State.elapsed, hrole, halive, hoob, hin, hhb, hwait, hmir, hnow]

theorem exec_twinHbTimeout (hl : s.live = true) (hmiss : s.hbMissing = true) (hpod : s.pod = podPaired) (hlost : s.twinLost = true)
    (hin : s.mir.inRecs = []) (hlen : ∀ e ∈ s.groups, e.2.entry.length = 64) : Yields .twinHbTimeout s (fun t => t.pod = podSurvivor ∧
      t.reg MIR_TAKEOVER_LOG_valid = 1 ∧ t.flag MIR_INTR_STATUS_takeover_ev = true ∧ ∀ gid y, t.grp gid = some y → gOwn y.entry = true) := by
  have hlost' : (s.count MIR_CTR_hb_missed).twinLost = true :=
    (State.twinLost_congr (fun f hf => State.reg_count_ne _ _ _ _ (by revert f; decide)) rfl rfl).trans hlost
  have htakes : s.hbTimeout = (s.count MIR_CTR_hb_missed).takeover := by
    unfold State.hbTimeout State.withTwin
    simp only [hmiss, hpod, show (podPaired == podSync) = false from rfl, beq_self_eq_true, Bool.true_or, hlost', Bool.not_true, Bool.false_eq_true,
      if_false, if_true]
  have hrun : exec .twinHbTimeout s = .next (s.count MIR_CTR_hb_missed).takeover := htakes ▸ State.does_live State.hbTimeout hl
  exact ⟨_, hrun, State.takeover_spec (s := s.count MIR_CTR_hb_missed) hin hlen⟩

theorem exec_aliveInSilent (hl : s.live = true) (hen : s.flag MIR_CFG_alive_en = true) (hmiss : s.hbMissing = false) :
    Yields .aliveInSilent s (fun t => t.reg MIR_STATUS_alive_in = 0 ∧ t.flag MIR_INTR_STATUS_alive_ev = true ∧ t.pod = s.pod ∧ t.groups = s.groups) := by
  have hmiss' : (s.setReg MIR_STATUS_alive_in 0).hbMissing = false := by
    rw [← hmiss, State.hbMissing, State.hbMissing, State.reg_setReg_ne _ _ _ _ (by decide)]
    rfl
  have hshows : s.aliveSilent = (s.setReg MIR_STATUS_alive_in 0).raise (evMir MIR_INTR_STATUS_alive_ev) := by
    unfold State.aliveSilent State.twinLost
    simp only [hen, hmiss', Bool.not_true, Bool.false_and, Bool.and_false, Bool.false_eq_true, if_false, Bool.not_false, if_true]
  have hrun : exec .aliveInSilent s = .next ((s.setReg MIR_STATUS_alive_in 0).raise (evMir MIR_INTR_STATUS_alive_ev)) :=
    hshows ▸ State.does_live State.aliveSilent hl
  have hraise := (State.PodWork.refl (s.setReg MIR_STATUS_alive_in 0)).raise (e := evMir MIR_INTR_STATUS_alive_ev) (by decide)
  refine ⟨_, hrun, ?_, State.flag_raise_self _ (by decide) (by decide), ?_, State.raise_groups _ _⟩
  · rw [hraise.still _ (by decide), State.reg_setReg_self]
    rfl
  · rw [State.pod, hraise.still _ (by decide), State.reg_setReg_ne _ _ _ _ (by decide), State.pod]

theorem exec_selfFence (hl : s.live = true) (hpod : s.pod ≠ podSolo) (hsilent : s.elapsed s.mir.hbTx (s.reg MIR_HB_CFG_hb_timeout * 500) = true)
    (hlen : ∀ e ∈ s.groups, e.2.entry.length = 64) : Yields .selfFence s (fun t => t.pod = podSolo ∧ t.flag MIR_STATUS_self_fenced = true ∧
      .pin "MIRROR_ALIVE_OUT" false ∈ t.out ∧ ∀ gid y, t.grp gid = some y → gOwn y.entry = false) := by
  have hfences : s.fenceSelf = s.selfFence := if_pos (by rw [hsilent, Bool.and_true]; exact bne_iff_ne.mpr hpod)
  have hrun : exec .selfFence s = .next s.selfFence := hfences ▸ State.does_live State.fenceSelf hl
  obtain ⟨hsolo, hfenced, hpin, -, hgroups⟩ := s.selfFence_spec
  exact ⟨_, hrun, hsolo, hfenced, hpin, hgroups hlen⟩

/-! ### Mirror ports (R402, R406) -/

theorem State.mirPort_down {m : Nat} (hup : s.flag (if m = 0 then MIR_STATUS_m0_up else MIR_STATUS_m1_up) = true) :
    (s.setReg (if m = 0 then MIR_STATUS_m0_up else MIR_STATUS_m1_up) 0).PodWork (s.mirPort m false) := by
  unfold State.mirPort
  extract_lets f s1
  have h1 : (s.setReg f 0).PodWork s1 := (PodWork.refl (s.setReg f 0)).raise (by decide)
  exact .ite (fun h => absurd (hup.symm.trans h) (by decide)) (fun _ => .ite (fun h => absurd h (by decide)) (fun _ =>
    h1.trans (s1.podWork_linkDown _ _)))

theorem State.mirUp_congr (h0 : t.reg MIR_STATUS_m0_up = s.reg MIR_STATUS_m0_up) (h1 : t.reg MIR_STATUS_m1_up = s.reg MIR_STATUS_m1_up) :
    t.mirUp = s.mirUp := by
  simp only [State.mirUp, State.flag_congr h0, State.flag_congr h1]

theorem mirUpFld_place : ∀ m, mirUpFld m ∈ stillFields ∧ MIR_STATUS_state.key ≠ (mirUpFld m).key := by decide

/-- One mirror port is up, and then none. -/
theorem State.mirUp_setReg_zero {m : Mlink} (h : s.mirUp = [m.val]) : s.flag (mirUpFld m) = true ∧ (s.setReg (mirUpFld m) 0).mirUp = [] := by
  have hother (f g : Fld) (hne : f.key ≠ g.key) : (s.setReg g 0).flag f = s.flag f := State.flag_congr (State.reg_setReg_ne _ _ _ _ hne)
  have hzero (f : Fld) : (s.setReg f 0).flag f = false := (State.flag_setReg_self s f 0).trans (by simp)
  match m with
  | 0 =>
    cases h0 : s.flag MIR_STATUS_m0_up <;> cases h1 : s.flag MIR_STATUS_m1_up <;> simp [State.mirUp, h0, h1] at h
    simp [State.mirUp, mirUpFld, h0, h1, hzero, hother MIR_STATUS_m1_up MIR_STATUS_m0_up (by decide)]
  | 1 =>
    cases h0 : s.flag MIR_STATUS_m0_up <;> cases h1 : s.flag MIR_STATUS_m1_up <;> simp [State.mirUp, h0, h1] at h
    simp [State.mirUp, mirUpFld, h0, h1, hzero, hother MIR_STATUS_m0_up MIR_STATUS_m1_up (by decide)]

theorem exec_mirrorLinkDown (hl : s.live = true) {m : Mlink} (hup : s.mirUp = [m.val]) (hpod : s.pod = podPaired) :
    Yields (.mirrorLinkDown m) s (fun t => t.reg (mirUpFld m) = 0 ∧ t.pod = podDetached ∧ t.flag MIR_INTR_STATUS_detach_ev = true) := by
  obtain ⟨hshown, hnone⟩ := State.mirUp_setReg_zero hup
  have hdown : (s.setReg (mirUpFld m) 0).PodWork (s.mirPort m false) := State.mirPort_down hshown
  have hfld := mirUpFld_place m
  have hempty : (s.mirPort m false).mirUp = [] :=
    (State.mirUp_congr (hdown.still _ (by decide)) (hdown.still _ (by decide))).trans hnone
  have hpaired : (s.mirPort m false).pod = podPaired := (hdown.still _ (by decide)).trans ((State.reg_setReg_ne _ _ _ _ hfld.2).trans hpod)
  have hdark : (s.mirPort m false).reg (mirUpFld m) = 0 := (hdown.still _ hfld.1).trans ((State.reg_setReg_self _ _ _).trans (Nat.zero_mod _))
  have hdetach : s.mirrorDown m = ((s.mirPort m false).setPod podDetached).loosened := by
    unfold State.mirrorDown
    simp only [hempty, List.isEmpty_nil, if_true, hpaired, beq_self_eq_true]
    exact State.detach_eq (by rw [hpaired]; decide)
  have hrun : exec (.mirrorLinkDown m) s = .next ((s.mirPort m false).setPod podDetached).loosened :=
    hdetach ▸ State.does_live (fun s => s.mirrorDown m.val) hl
  have hwork := State.podWork_loosened ((s.mirPort m false).setPod podDetached)
  refine ⟨_, hrun, ?_, (hwork.still _ (by decide)).trans (State.reg_setReg_self _ _ _), State.flag_alarm _ (by decide) (by decide) _ _ _⟩
  exact (hwork.still _ hfld.1).trans ((State.reg_setReg_ne _ _ _ _ hfld.2.symm).trans hdark)

/-- One mirror port takes its enable. -/
def State.mirPortSet (s : State) (v m : Nat) : State :=
  let en := bitOf v m
  let s := s.setReg (if m = 0 then MIR_PORT_CFG_m0_en else MIR_PORT_CFG_m1_en) (bit1 en)
  if en then (if s.mirLit then (s.mirPort m true).rejoined else s)
  else if s.mirUp.contains m then s.mirrorDown m else s

theorem State.mirPortCfg_eq (s : State) (v : Nat) : s.mirPortCfg v = (s.mirPortSet v 0).mirPortSet v 1 := rfl

theorem State.regWork_mirPortSet (s : State) (v m : Nat) :
    (s.setReg (if m = 0 then MIR_PORT_CFG_m0_en else MIR_PORT_CFG_m1_en) (bit1 (bitOf v m))).RegWork podFields (s.mirPortSet v m) := by
  unfold State.mirPortSet
  extract_lets en s1
  exact .ite (fun _ => .ite (fun _ => ((s1.regWork_mirPort m true).mono podFields_subset_up).trans (State.regWork_rejoined _)) (fun _ => .refl s1))
    (fun _ => .ite (fun _ => s1.regWork_mirrorDown m) (fun _ => .refl s1))

theorem exec_mirPortCfgWrite (hl : s.live = true) (hr : s.flag HUB_STATUS_ready = true) (v : Nat) :
    Yields (.mirPortCfgWrite v) s (fun t => t.reg MIR_PORT_CFG_m0_en = bits v 0 1 ∧ t.reg MIR_PORT_CFG_m1_en = bits v 1 1) := by
  have hfirst := s.regWork_mirPortSet v 0
  have hsecond := (s.mirPortSet v 0).regWork_mirPortSet v 1
  have hbit (i : Nat) : bit1 (bitOf v i) % 2 ^ 1 = bits v i 1 := by
    simp only [bit1, bitOf, bits, beq_iff_eq]
    split <;> omega
  have hrun : exec (.mirPortCfgWrite v) s = .next ((s.mirPortSet v 0).mirPortSet v 1) :=
    s.mirPortCfg_eq v ▸ State.does_whenReady hl (fun s => s.mirPortCfg v) hr
  refine ⟨_, hrun, ?_, ?_⟩
  · calc ((s.mirPortSet v 0).mirPortSet v 1).reg MIR_PORT_CFG_m0_en
      _ = ((s.mirPortSet v 0).setReg MIR_PORT_CFG_m1_en (bit1 (bitOf v 1))).reg MIR_PORT_CFG_m0_en := hsecond.still _ (by decide)
      _ = (s.mirPortSet v 0).reg MIR_PORT_CFG_m0_en := State.reg_setReg_ne _ _ _ _ (by decide)
      _ = (s.setReg MIR_PORT_CFG_m0_en (bit1 (bitOf v 0))).reg MIR_PORT_CFG_m0_en := hfirst.still _ (by decide)
      _ = bits v 0 1 := (State.reg_setReg_self _ _ _).trans (hbit 0)
  · calc ((s.mirPortSet v 0).mirPortSet v 1).reg MIR_PORT_CFG_m1_en
      _ = ((s.mirPortSet v 0).setReg MIR_PORT_CFG_m1_en (bit1 (bitOf v 1))).reg MIR_PORT_CFG_m1_en := hsecond.still _ (by decide)
      _ = bits v 1 1 := (State.reg_setReg_self _ _ _).trans (hbit 1)

/-! ### A frame on an idle mirror port (R57, R72, R73) -/

theorem State.reg_putFrame_mirror (s : State) (m : Nat) (seq : Option Nat) (b : Bytes) (good : Bool) (stamp : FT64) :
    (s.putFrame (192 + m) seq b good stamp).reg (MIR_CTR_tx_frames m) = (s.reg (MIR_CTR_tx_frames m) + 1) % 2 ^ 64 := by
  have hbytes : (MIR_CTR_tx_frames m).key ≠ (MIR_CTR_tx_bytes m).key := by
    simp only [Fld.key, MIR_CTR_tx_frames, MIR_CTR_tx_bytes]
    omega
  have hmirror : ¬ 192 + m < 192 := by omega
  simp only [State.putFrame, State.countM, hmirror, if_false, Nat.add_sub_cancel_left]
  rw [State.reg_count_ne _ _ _ _ hbytes, State.reg_count_self]
  rfl

/-- A plain frame leaves a mirror port, and its egress stays as it is. -/
theorem State.sendNow_mirror (s : State) (m : Nat) {c : CtlTx} (hc : c.start = .none) :
    ((s.sendNow (192 + m) c).link (192 + m)).eg = (s.link (192 + m)).eg ∧
      (s.sendNow (192 + m) c).reg (MIR_CTR_tx_frames m) = (s.reg (MIR_CTR_tx_frames m) + 1) % 2 ^ 64 ∧
      ∃ pre stamp, (s.sendNow (192 + m) c).out = s.out ++ [.frame (192 + m) pre c.bytes true stamp] := by
  have hmirror : decide (192 + m < 192) = false := by simp
  unfold State.sendNow
  simp only [hmirror, Bool.and_false, Bool.false_eq_true, if_false, hc, reduceCtorEq]
  split
  · obtain ⟨hout, hlinks⟩ := (s.takeSeq (192 + m)).2.putFrame_spec (192 + m) (some (s.takeSeq (192 + m)).1) c.bytes true (s.txStamp (192 + m))
    refine ⟨?_, State.reg_putFrame_mirror _ _ _ _ _ _, _, _, hout⟩
    refine (congrArg Link.eg (State.link_modLink_self _ _ _)).trans ?_
    simp only [State.link, hlinks]
    exact (congrArg Link.eg (State.link_modLink_self _ _ _)).trans rfl
  · obtain ⟨hout, hlinks⟩ := s.putFrame_spec (192 + m) none c.bytes true (s.txStamp (192 + m))
    refine ⟨?_, State.reg_putFrame_mirror _ _ _ _ _ _, _, _, hout⟩
    simp only [State.link, hlinks]

theorem State.retryRoom_modEg (s : State) (src : Nat) (f : Egress → Egress) (len : Nat) : (s.modEg src f).retryRoom src len = s.retryRoom src len := by
  simp only [State.retryRoom, State.llrOn_modEg]
  simp only [State.modEg, State.link_modLink_self]
  rfl

theorem State.flushCtl_ready {src : Nat} {c : CtlTx} (n : Nat)
    (h : firstReady (fun x => s.retryRoom src (x.bytes.length + 4)) (s.link src).eg.ctlq = some c) :
    s.flushCtl src (n + 1) = ((s.unqueueCtl src c).sendNow src c).flushCtl src n := by
  rw [State.flushCtl, h]
  rfl

/-- On an idle mirror port with room in its retry buffer a plain frame leaves at once, and nothing else does. -/
theorem State.sendCtl_mirror_idle {m : Nat} {c : CtlTx} (hc : c.start = .none) (htx : (s.link (192 + m)).eg.tx = none)
    (hq : (s.link (192 + m)).eg.ctlq = []) (hroom : s.retryRoom (192 + m) (c.bytes.length + 4) = true) :
    (s.sendCtl (192 + m) c).reg (MIR_CTR_tx_frames m) = (s.reg (MIR_CTR_tx_frames m) + 1) % 2 ^ 64 ∧
      ∃ pre stamp, (s.sendCtl (192 + m) c).out = s.out ++ [.frame (192 + m) pre c.bytes true stamp] := by
  have hqueue : ((s.queueCtl (192 + m) c).link (192 + m)).eg.ctlq = [c] := by
    simp only [State.queueCtl, State.modEg, State.link_modLink_self, hq, insertCtl_nil]
  have hidle : ((s.queueCtl (192 + m) c).link (192 + m)).eg.tx = none := by
    simp only [State.queueCtl, State.modEg, State.link_modLink_self, htx]
  have hready : firstReady (fun x => (s.queueCtl (192 + m) c).retryRoom (192 + m) (x.bytes.length + 4)) [c] = some c := by
    rw [firstReady, if_pos]
    rw [State.queueCtl, State.retryRoom_modEg, hroom, Bool.or_true]
  obtain ⟨heg, hcount, hout⟩ := ((s.queueCtl (192 + m) c).unqueueCtl (192 + m) c).sendNow_mirror m hc
  have hempty : ((((s.queueCtl (192 + m) c).unqueueCtl (192 + m) c).sendNow (192 + m) c).link (192 + m)).eg.ctlq = [] := by
    rw [heg, State.unqueueCtl, State.modEg, State.link_modLink_self]
    simp only [hqueue, List.erase_cons_head]
  have hsends : s.sendCtl (192 + m) c = ((s.queueCtl (192 + m) c).unqueueCtl (192 + m) c).sendNow (192 + m) c := by
    rw [show s.sendCtl (192 + m) c = (s.queueCtl (192 + m) c).flush (192 + m) from rfl, State.flush, hidle, if_neg (by decide), hqueue,
      show 2 * [c].length = 1 + 1 from rfl, State.flushCtl_ready 1 (hqueue ▸ hready), State.flushCtl_empty 1 hempty]
  rw [hsends]
  exact ⟨hcount, hout⟩

/-! ### A heartbeat leaves (R404, R406) -/

theorem leNat_leBytes (n v : Nat) : leNat (leBytes n v) = v % 256 ^ n := by
  induction n generalizing v with
  | zero => exact (Nat.mod_one v).symm
  | succ n ih =>
    rw [leBytes, leNat, ih, BitVec.toNat_ofNat, pow_succ' 256 n]
    exact (Nat.mod_mul (a := 256)).symm

theorem beNat_reverse (b : Bytes) : beNat b.reverse = leNat b := by
  rw [beNat, List.foldl_reverse]
  induction b with
  | nil => rfl
  | cons x r ih =>
    rw [List.foldr_cons, ih, leNat]
    omega

theorem beNat_beBytes (n v : Nat) : beNat (beBytes n v) = v % 256 ^ n := (beNat_reverse _).trans (leNat_leBytes n v)

theorem length_beBytes (n v : Nat) : (beBytes n v).length = n := (List.length_reverse ..).trans (length_leBytes n v)

theorem length_padTo {n : Nat} {b : Bytes} (h : b.length ≤ n) : (padTo n b).length = n := by
  rw [padTo, List.length_append, List.length_replicate]
  omega

theorem State.length_hbRec (s : State) : s.hbRec.length = 16 := by
  have hbody : (leBytes 8 s.now.toNat ++ [BitVec.ofNat 8 (s.reg TIME_STATUS_state), 0] ++ leBytes 2 s.owned).length = 12 := by
    simp only [List.length_append, length_leBytes, List.length_cons, List.length_nil]
  simp only [State.hbRec, mirRec, List.length_append, length_beBytes, List.length_cons, List.length_nil, hbody]
  rw [length_padTo (hbody.trans_le (by decide))]
  decide

/-- A frame of few records is padded to the shortest frame. -/
theorem State.length_mirFrame (s : State) (da count first : Nat) {recs : Bytes} (h : recs.length ≤ 30) :
    (s.mirFrame da count first recs).length = 60 := length_padTo (by
  simp only [List.length_append, length_beBytes, List.length_cons, List.length_nil]
  omega)

/-- The EtherType of a frame that carries a heartbeat, and the time that it tells. -/
theorem State.mirFrame_hbRec (s : State) (da count first : Nat) :
    beAt (s.mirFrame da count first s.hbRec) 12 2 = 0x88B6 ∧ leAt (s.mirFrame da count first s.hbRec) 34 8 = s.now.toNat := by
  have hstamp : slice (s.mirFrame da count first s.hbRec) 34 8 = leBytes 8 s.now.toNat := rfl
  have htype : slice (s.mirFrame da count first s.hbRec) 12 2 = beBytes 2 0x88B6 := rfl
  refine ⟨?_, ?_⟩
  · rw [beAt, htype, beNat_beBytes]
    rfl
  · rw [leAt, hstamp, leNat_leBytes]
    exact Nat.mod_eq_of_lt s.now.isLt

/-- The heartbeat that a mirror port sends now, and what stands as it is sent. -/
def State.heartbeat (s : State) : CtlTx := { bytes := s.mirFrame 0x0180C200000E 0 s.mir.txSeq s.hbRec, seqd := true }

def State.beating (s : State) : State :=
  ({ s with mir := { s.mir with hbTx := s.now } } : State).traffic 0 (unitsAt 0 s.heartbeat.bytes.length)

theorem exec_hbTxTimer (hl : s.live = true) {m : Mlink} (hpod : s.pod ≠ podSolo) (hup : s.mirUp = [m.val]) (hq : (s.link (192 + m)).eg.ctlq = [])
    (htx : (s.link (192 + m)).eg.tx = none) (hroom : s.retryRoom (192 + m) 64 = true) : Yields .hbTxTimer s (fun t => t.mir.hbTx = s.now ∧
      t.reg (MIR_CTR_tx_frames m) = (s.reg (MIR_CTR_tx_frames m) + 1) % 2 ^ 64 ∧ t.pod = s.pod ∧ ∃ o, t.out = s.out ++ [o] ∧
        (match o with | .frame q _ b good _ => q == 192 + m.val && good && beAt b 12 2 == 0x88B6 && leAt b 34 8 == s.now.toNat | _ => false) = true) := by
  have hbeat : s.hbTxTimer = s.beating.sendCtl (192 + m) s.heartbeat := by
    rw [State.hbTxTimer, if_neg (fun h => hpod (beq_iff_eq.mp h))]
    exact (congrArg (List.foldl _ _) hup).trans rfl
  have hrun : exec .hbTxTimer s = .next (s.beating.sendCtl (192 + m) s.heartbeat) := hbeat ▸ State.does_live State.hbTxTimer hl
  have hlen : s.heartbeat.bytes.length = 60 := s.length_mirFrame 0x0180C200000E 0 s.mir.txSeq (s.length_hbRec.trans_le (by decide))
  obtain ⟨htype, hstamp⟩ := s.mirFrame_hbRec 0x0180C200000E 0 s.mir.txSeq
  obtain ⟨hcount, pre, stamp, hout⟩ :=
    State.sendCtl_mirror_idle (s := s.beating) (m := m) (c := s.heartbeat) rfl htx hq (by rw [hlen]; exact hroom)
  refine ⟨_, hrun, ?_, hcount, (State.podWork_sendCtl _ _ _).still MIR_STATUS_state (by decide), _, hout, ?_⟩
  · exact congrArg (·.hbTx) (State.portWork_sendCtl _ _ _).mir
  · simp only [State.heartbeat, htype, hstamp, beq_self_eq_true, Bool.and_self]

/-! ### A record is sent to the twin (R335, R406, R408) -/

theorem State.mir_takeBuffer {k home : Nat} {e : Nat × Nat} (h : s.takeBuffer k home = some (e, t)) : t.mir = s.mir := by
  unfold State.takeBuffer at h
  extract_lets p p' at h
  split at h
  · cases h
  · dsimp only at h
    split at h
    · cases h
    · cases h
      rfl

theorem State.mir_grant {o len k home : Nat} {reserved : Bool} {src : Option (Nat × Nat)} {unit : Nat}
    (h : s.grant o len k reserved home src = some (unit, t)) : t.mir = s.mir := by
  unfold State.grant at h
  split at h
  · cases h
  · dsimp only at h
    split at h
    · cases h
    next u gen s2 htake =>
      cases h
      rw [(State.portWork_usageSync _ _).mir]
      refine (State.mir_takeBuffer htake).trans ?_
      split
      · rfl
      · rfl

theorem State.mir_request (s : State) (o len : Nat) (losslessRx : Bool) (home : Nat) (src : Option (Nat × Nat)) :
    (s.request o len losslessRx home src).2.mir = s.mir := by
  unfold State.request
  split
  · rfl
  · split
    · rfl
    · split
      · split
        · rfl
        · rfl
      next hgrant => exact State.mir_grant hgrant

/-- A record that is kept waits unconfirmed, with or without a buffer. -/
theorem State.mir_mirKeep_one (s : State) (r : MirRec) :
    (s.mirKeep [r]).mir.txSeq = s.mir.txSeq ∧ ∃ u, (s.mirKeep [r]).mir.unconfirmed = s.mir.unconfirmed ++ [{ r with unit := u }] := by
  have hask := s.mir_request 225 r.bytes.length false (s.home 8) none
  simp only [State.mirKeep, List.foldl_cons, List.foldl_nil]
  split
  · split
    next hreq =>
      rw [hreq] at hask
      exact ⟨congrArg (·.txSeq) hask, _, congrArg (·.unconfirmed ++ _) hask⟩
    next hreq =>
      rw [hreq] at hask
      exact ⟨congrArg (·.txSeq) hask, _, congrArg (·.unconfirmed ++ _) hask⟩
  · exact ⟨rfl, _, rfl⟩

theorem State.mir_mirOut (s : State) (m count first : Nat) (recs : Bytes) : (s.mirOut m count first recs).mir = s.mir :=
  (State.portWork_sendCtl _ _ _).mir

theorem State.mir_mirSend (s : State) (m : Nat) (rs : List MirRec) : (s.mirSend m rs).mir = s.mir :=
  List.foldlRecOn (motive := fun t : State => t.mir = s.mir) _ _ rfl fun t ht g _ => by
    split
    · exact ht
    · exact (t.mir_mirOut _ _ _ _).trans ht

/-- One record takes the next sequence number, and waits unconfirmed. -/
theorem State.mir_mirPost_one (s : State) (b : Bytes) : (s.mirPost [b] []).mir.txSeq = (s.mir.txSeq + 1) % 2 ^ 32 ∧
    (s.mirPost [b] []).mir.unconfirmed.map (·.bytes) = s.mir.unconfirmed.map (·.bytes) ++ [b] := by
  unfold State.mirPost
  extract_lets m rs s1 src s2 s3 s4
  clear_value m
  obtain ⟨hseq, u, hkept⟩ := s.mir_mirKeep_one { seq := s.mir.txSeq % 2 ^ 32, bytes := b, link := m }
  have hseq1 : s1.mir.txSeq = s.mir.txSeq := hseq
  have hkept1 : s1.mir.unconfirmed = s.mir.unconfirmed ++ [{ seq := s.mir.txSeq % 2 ^ 32, bytes := b, link := m, unit := u }] := hkept
  have h4 : s4.mir = s2.mir := by
    dsimp only [s4]
    split
    · exact State.mir_mirSend s3 _ _
    · rfl
  have hend : (if s4.pod == podPaired then s4 else s4.acts []) = s4 := ite_self s4
  rw [hend, h4]
  simp only [s2, src, hseq1, hkept1, List.length_singleton, List.map_append, List.map_cons, List.map_nil, and_self]

theorem exec_sbkMirrorTimer (hl : s.live = true) (hrec : s.reg SBK_STATUS_state = 1) (hpod : s.pod = podPaired) (hheld : s.mir.held = [])
    (hroom : s.mir.unconfirmed.length < 65536) : Yields .sbkMirrorTimer s (fun t => t.mir.txSeq = (s.mir.txSeq + 1) % 2 ^ 32 ∧
      t.mir.unconfirmed.map (·.bytes) = s.mir.unconfirmed.map (·.bytes) ++ [s.sbkRec]) := by
  have hfits : [s.sbkRec].length ≤ s.mirRoom := by
    rw [List.length_singleton, State.mirRoom]
    omega
  have hposts : s.sbkMirror = s.mirPost [s.sbkRec] [] := by
    simp only [State.sbkMirror, hrec, if_true, State.mirrorLatest, hheld, List.any_nil, Bool.false_eq_true, if_false, State.mirror, hpod,
      beq_self_eq_true, Bool.true_or, Bool.not_true, Bool.false_or, List.isEmpty_cons, List.isEmpty_nil, hfits]
  have hrun : exec .sbkMirrorTimer s = .next (s.mirPost [s.sbkRec] []) := hposts ▸ State.does_live State.sbkMirror hl
  exact ⟨_, hrun, s.mir_mirPost_one _⟩

/-! ### Out of band (R426, R429) -/

/-- The port in use is shown, and nothing else changes. -/
theorem State.oobActive_spec (s : State) : s.oobActive = { s with regs := s.oobActive.regs } ∧
    (∀ f : Fld, f.key ≠ MIR_OOB_CFG_active.key → s.oobActive.reg f = s.reg f) ∧
      (bitOf (s.reg MIR_OOB_CFG_up) 0 = true → s.oobActive.reg MIR_OOB_CFG_active = 0) := by
  unfold State.oobActive
  extract_lets up
  split
  · exact ⟨rfl, fun f hf => State.reg_setReg_ne _ _ _ _ hf, fun _ => State.reg_setReg_self _ _ _⟩
  next h =>
    refine ⟨?_, fun f hf => ?_, fun h' => absurd h' h⟩
    · split
      · rfl
      · rfl
    · split
      · exact State.reg_setReg_ne _ _ _ _ hf
      · rfl

theorem bitOf_setBit : ∀ (m : Mlink) (v : Nat), bitOf (setBit v m % 2 ^ 2) m = true
  | 0, v => by
    simp only [setBit, bitOf, beq_iff_eq, Fin.val_zero, pow_zero, Nat.div_one]
    split <;> omega
  | 1, v => by
    simp only [setBit, bitOf, beq_iff_eq, Fin.val_one, pow_one]
    split <;> omega

theorem bitOf_clearBit : ∀ (m : Mlink) (v : Nat), bitOf (clearBit v m % 2 ^ 2) m = false
  | 0, v => by
    simp only [clearBit, bitOf, beq_iff_eq, beq_eq_false_iff_ne, ne_eq, Fin.val_zero, pow_zero, Nat.div_one]
    split <;> omega
  | 1, v => by
    simp only [clearBit, bitOf, beq_iff_eq, beq_eq_false_iff_ne, ne_eq, Fin.val_one, pow_one]
    split <;> omega

theorem exec_oobLinkUp (hl : s.live = true) (m : Mlink) (hen : bitOf (s.reg MIR_OOB_CFG_en) m = true) : Yields (.oobLinkUp m) s (fun t =>
    bitOf (t.reg MIR_OOB_CFG_up) m = true ∧ (m.val = 0 → t.reg MIR_OOB_CFG_active = 0) ∧ t = { s with regs := t.regs }) := by
  obtain ⟨hrest, hother, hfirst⟩ := (s.setReg MIR_OOB_CFG_up (setBit (s.reg MIR_OOB_CFG_up) m)).oobActive_spec
  have hcomes : s.oobUp m = (s.setReg MIR_OOB_CFG_up (setBit (s.reg MIR_OOB_CFG_up) m)).oobActive := if_pos hen
  have hrun : exec (.oobLinkUp m) s = .next (s.setReg MIR_OOB_CFG_up (setBit (s.reg MIR_OOB_CFG_up) m)).oobActive :=
    hcomes ▸ State.does_live (fun s => s.oobUp m.val) hl
  have hup : bitOf ((s.setReg MIR_OOB_CFG_up (setBit (s.reg MIR_OOB_CFG_up) m)).reg MIR_OOB_CFG_up) m = true := by
    rw [State.reg_setReg_self]
    exact bitOf_setBit m _
  refine ⟨_, hrun, ?_, fun hm => hfirst (hm ▸ hup), hrest⟩
  rw [hother _ (by decide)]
  exact hup

theorem exec_oobLinkLoss (hl : s.live = true) (m : Mlink) : Yields (.oobLinkLoss m) s (fun t =>
    bitOf (t.reg MIR_OOB_CFG_up) m = false ∧ t = { s with regs := t.regs }) := by
  obtain ⟨hrest, hother, -⟩ := (s.setReg MIR_OOB_CFG_up (clearBit (s.reg MIR_OOB_CFG_up) m)).oobActive_spec
  refine ⟨_, State.does_live (fun s => s.oobDown m.val) hl, ?_, hrest⟩
  rw [State.oobDown, hother _ (by decide), State.reg_setReg_self]
  exact bitOf_clearBit m _

theorem exec_mirOobCfgWrite (hl : s.live = true) (hr : s.flag HUB_STATUS_ready = true) (v : Nat) : Yields (.mirOobCfgWrite v) s (fun t =>
    t.reg MIR_OOB_CFG_en = bits v 0 2 ∧ t.reg MIR_OOB_CFG_fec_en = bits v 2 1 ∧
      t.reg MIR_OOB_CFG_up = (s.reg MIR_OOB_CFG_up &&& bits v 0 2) ∧ t = { s with regs := t.regs }) := by
  obtain ⟨hrest, hother, -⟩ := (((s.setReg MIR_OOB_CFG_en (bits v 0 2)).setReg MIR_OOB_CFG_fec_en (bits v 2 1)).setReg MIR_OOB_CFG_up
    (s.reg MIR_OOB_CFG_up &&& bits v 0 2)).oobActive_spec
  refine ⟨_, State.does_whenReady hl (fun s => s.oobCfg v) hr, ?_, ?_, ?_, hrest⟩
  · rw [State.oobCfg, hother _ (by decide), State.reg_setReg_ne _ _ _ _ (by decide), State.reg_setReg_ne _ _ _ _ (by decide), State.reg_setReg_self]
    exact Nat.mod_mod _ _
  · rw [State.oobCfg, hother _ (by decide), State.reg_setReg_ne _ _ _ _ (by decide), State.reg_setReg_self]
    exact Nat.mod_mod _ _
  · rw [State.oobCfg, hother _ (by decide), State.reg_setReg_self]
    exact Nat.mod_eq_of_lt (Nat.and_le_right.trans_lt (Nat.mod_lt _ (by decide)))

/-- A frame out of band goes to the address that is asked for. -/
theorem State.beAt_oobFrame (s : State) (da sa : Nat) (recs : Bytes) : beAt (overwrite (s.mirFrame da 0 0 recs) 6 (beBytes 6 sa)) 0 6 = da % 2 ^ 48 := by
  have hda : slice (overwrite (s.mirFrame da 0 0 recs) 6 (beBytes 6 sa)) 0 6 = beBytes 6 da := rfl
  rw [beAt, hda, beNat_beBytes]
  rfl

theorem exec_oobHbTimer (hl : s.live = true) (hen : s.flag MIR_CFG_oob_hb_en = true) (hfenced : s.flag MIR_STATUS_self_fenced = false)
    (hup : bitOf (s.reg MIR_OOB_CFG_up) (s.reg MIR_OOB_CFG_active) = true) : Yields .oobHbTimer s (fun t =>
      ∃ b, t.out = s.out ++ [.oob (s.reg MIR_OOB_CFG_active) b] ∧ beAt b 0 6 = s.reg MIR_OOB_TWIN_MAC_mac % 2 ^ 48) := by
  have hsends : s.oobTimer = s.emit (.oob (s.reg MIR_OOB_CFG_active)
      (overwrite (s.mirFrame (s.reg MIR_OOB_TWIN_MAC_mac) 0 0 s.hbRec) 6 (beBytes 6 (s.reg MIR_OOB_MAC_mac)))) := by
    simp only [State.oobTimer, hen, hfenced, Bool.not_false, Bool.and_self, if_true, State.oobOut, hup]
  exact ⟨_, hsends ▸ State.does_live State.oobTimer hl, _, rfl, s.beAt_oobFrame _ _ _⟩

theorem exec_oobHbRx (hl : s.live = true) {b : Bytes} (hup : s.reg MIR_OOB_CFG_up ≠ 0) (hda : beAt b 0 6 = s.reg MIR_OOB_MAC_mac)
    (htype : beAt b 12 2 = 0x88B6) (hver : byteAt b 14 = 1) (hcount : beAt b 16 2 = 0) (hid : beAt b 26 2 = s.reg MIR_CFG_pod_id)
    (hkind : byteAt b 30 = 1) (hstate : byteAt b 15 % 8 ≠ podSurvivor) : Yields (.oobHbRx b) s (fun t =>
      t.mir = { s.mir with oobAt := s.now } ∧ t.reg MIR_STATUS_oob_hb = 1 ∧ t.pod = s.pod) := by
  have hup' : (s.reg MIR_OOB_CFG_up != 0) = true := bne_iff_ne.mpr hup
  have htakes : s.oobRx b = ({ s with mir := { s.mir with oobAt := s.now } } : State).setReg MIR_STATUS_oob_hb 1 := by
    simp only [State.oobRx, hup', hda, htype, hver, hcount, hid, hkind, beq_self_eq_true, Bool.and_self, Bool.not_true, Bool.false_eq_true, if_false,
      hstate, decide_false, Bool.false_and]
  have hrun : exec (.oobHbRx b) s = .next (({ s with mir := { s.mir with oobAt := s.now } } : State).setReg MIR_STATUS_oob_hb 1) :=
    htakes ▸ State.does_live (fun s => s.oobRx b) hl
  exact ⟨_, hrun, rfl, State.reg_setReg_self _ _ _, State.reg_setReg_ne _ _ _ _ (by decide)⟩

theorem exec_oobHbTimeout (hl : s.live = true) (hmiss : s.oobMissing = true) (hpod : s.pod = podSolo) :
    exec .oobHbTimeout s = .next (s.setReg MIR_STATUS_oob_hb 0) := by
  have hpod' : (s.setReg MIR_STATUS_oob_hb 0).pod = podSolo := (State.reg_setReg_ne _ _ _ _ (by decide)).trans hpod
  have halone : (s.setReg MIR_STATUS_oob_hb 0).withTwin = false := by
    rw [State.withTwin, hpod']
    rfl
  have hshows : s.oobTimeout = s.setReg MIR_STATUS_oob_hb 0 := by
    simp only [State.oobTimeout, hmiss, Bool.not_true, Bool.false_eq_true, if_false, halone, Bool.false_and]
  exact hshows ▸ State.does_live State.oobTimeout hl

/-! ### The counters (R73) -/

/-- What waits for room counts from now. -/
theorem State.roomWait_mirCtrClear (s : State) : s.mirCtrClear.roomWait = 0 := by
  have hsame (u : State) : u.since u.now = 0 := by simp [State.since, ftDiff]
  have hheld : s.mirCtrClear.mir.held = match s.mir.held with | h :: t => { h with since := s.now } :: t | [] => [] := rfl
  rw [State.roomWait, hheld]
  cases s.mir.held with
  | nil => rfl
  | cons x r => exact hsame s.mirCtrClear

theorem State.entry_mirCtrClear (s : State) (gid : Nat) : (s.mirCtrClear.grp gid).map (·.entry) = (s.grp gid).map (·.entry) := by
  rw [State.grp, State.mirCtrClear, Tab.find?_mapVals, Option.map_map]
  rfl

theorem exec_mirCounterClear (hl : s.live = true) (hr : s.flag HUB_STATUS_ready = true) (hcounts : s.latchNow.counts = []) :
    Yields .mirCounterClear s (fun t => s.clears t (offIn 0x1400100 0x1400300) (fun _ => false) ∧ t.roomWait = 0 ∧
      (∀ gid, (t.grp gid).map (·.entry) = (s.grp gid).map (·.entry)) ∧
      t = { s with regs := t.regs, mir := { s.mir with held := t.mir.held }, groups := t.groups }) :=
  ⟨_, State.does_whenReady hl State.mirCtrClear hr, State.clears_clearCounters hcounts fun _ => keyIn_key, s.roomWait_mirCtrClear, s.entry_mirCtrClear, rfl⟩

end Pods

/-- Settles O46: each command meets its lemma; what the pod shows outlives the work that follows, and every group's entry keeps whose it is until it is
taken or given up. -/
theorem twinsLostAndFenced : Obligations.TwinsLostAndFenced := by
  intro s m v hl
  exact ⟨exec_hbTxTimer hl, exec_sbkMirrorTimer hl, exec_mirrorLinkDown hl, exec_twinHbTimeout hl, exec_aliveInSilent hl, exec_selfFence hl,
    exec_oobHbTimer hl, fun _ => exec_oobHbRx hl, exec_oobHbTimeout hl, exec_oobLinkUp hl m, exec_oobLinkLoss hl m,
    fun hr => ⟨exec_mirPortCfgWrite hl hr v, exec_mirOobCfgWrite hl hr v, exec_mirCounterClear hl hr⟩⟩

end Sys2Proof.Machine
end

section
/-! PROOFS. The forwarding tables (R74, R75, R80–R84, R87, R90): the search for the longest match, one next hop by what the tables hold of it, a list
of hops, the action word, the lookup and the fate it gives; one equation a case. -/

namespace Sys2Proof.Machine

/-! ### The longest match (R74) -/

section Lpm

variable {t : Tab Nat} {w addr n k a : Nat}

theorem lpm_none (h : ∀ m, m ≤ n → t.find? (lpmKey w m addr) = none) : lpm t w addr n = none := by
  induction n with
  | zero => exact h 0 (Nat.le_refl 0)
  | succ n ih =>
    rw [lpm, h (n + 1) (Nat.le_refl _)]
    exact ih fun m hm => h m (Nat.le_succ_of_le hm)

theorem lpm_longest (hle : n ≤ k) (ha : t.find? (lpmKey w n addr) = some a) (h : ∀ m, m ≤ k → n < m → t.find? (lpmKey w m addr) = none) :
    lpm t w addr k = some a := by
  induction k with
  | zero => rw [lpm, ← Nat.le_zero.mp hle, ha]
  | succ k ih =>
    rcases Nat.of_le_succ hle with hlt | heq
    · rw [lpm, h (k + 1) (Nat.le_refl _) (Nat.lt_succ_of_le hlt)]
      exact ih hlt fun m hm => h m (Nat.le_succ_of_le hm)
    · subst heq
      rw [lpm, ha]

end Lpm

/-! ### One next hop (R80, R81, R82, R87, R464) -/

section Hop

variable {s t : State} {src i len : Nat} {b e : Bytes} {p : Parsed} {route : Bool}

/-- What a next hop changes in the copy it sends. -/
def hopEdit (e : Bytes) (route : Bool) : Edit := { route := route, dmac := beAt e 4 6, vlanOp := bits (byteAt e 1) 1 2, vid := leAt e 2 2 % 4096 }

theorem State.hop_unwritten (h : s.tables.nexthop.find? i = none) :
    s.hop src true b p route i = (none, s.countL PORT_LCTR_lookup_miss_drops src) := by
  simp only [State.hop, h]

theorem State.hop_hairpin (h : s.tables.nexthop.find? i = some e) (hback : byteAt e 0 = src) (hpin : bitOf (byteAt e 1) 0 = false) :
    s.hop src true b p route i = (none, s.countL PORT_LCTR_hairpin_drops src) := by
  simp [State.hop, h, hback, hpin]

/-- The egress is another port than the ingress, or the entry lets the frame turn back. -/
def hopOpen (e : Bytes) (src : Nat) : Prop := byteAt e 0 ≠ src ∨ bitOf (byteAt e 1) 0 = true

theorem hopOpen.noHairpin (h : hopOpen e src) : (true && byteAt e 0 == src && !bitOf (byteAt e 1) 0) = false := by
  rcases h with h | h <;> simp [h]

theorem State.hop_expired (h : s.tables.nexthop.find? i = some e) (hopen : hopOpen e src) (hroute : route = true) (hexp : p.expired = true) :
    s.hop src true b p route i = (none, s.countL PORT_LCTR_ttl_drops src) := by
  simp only [State.hop, h, hopen.noHairpin, hroute, hexp, Bool.and_self, Bool.false_eq_true, if_false, if_true]

theorem State.hop_tooLong (h : s.tables.nexthop.find? i = some e) (hopen : hopOpen e src) (hlives : (route && p.expired) = false)
    (hlen : headerLen b p (s.echType (src / 8)) = some len)
    (hlong : s.maxFrame (byteAt e 0 / 8) < mtuLen len (vlanDelta (!p.tags.isEmpty) (bits (byteAt e 1) 1 2))) :
    s.hop src true b p route i = (none, s.countL PORT_LCTR_mtu_drops src) := by
  simp only [State.hop, h, hopen.noHairpin, hlives, hlen, if_pos hlong, Bool.false_eq_true, if_false]

theorem State.hop_sent (h : s.tables.nexthop.find? i = some e) (hopen : hopOpen e src) (hlives : (route && p.expired) = false)
    (hfits : ∀ len, headerLen b p (s.echType (src / 8)) = some len →
      mtuLen len (vlanDelta (!p.tags.isEmpty) (bits (byteAt e 1) 1 2)) ≤ s.maxFrame (byteAt e 0 / 8)) :
    s.hop src true b p route i = (some (byteAt e 0, hopEdit e route), s) := by
  simp only [State.hop, h, hopen.noHairpin, hlives, Bool.false_eq_true, if_false]
  cases hlen : headerLen b p (s.echType (src / 8)) with
  | none => rfl
  | some len => exact if_neg (Nat.not_lt.mpr (hfits len hlen))

/-! ### What a drop that is counted leaves of what the next hops go by -/

/-- A next hop meets in `t` what it meets in `s`: the tables, and of the ports the EtherType of ECH and the longest frame. -/
structure State.SameHops (s t : State) : Prop where
  tables : t.tables = s.tables
  echType : ∀ q, t.echType q = s.echType q
  maxFrame : ∀ q, t.maxFrame q = s.maxFrame q

theorem State.SameHops.refl (s : State) : s.SameHops s := ⟨rfl, fun _ => rfl, fun _ => rfl⟩

theorem State.SameHops.trans {u : State} (h : s.SameHops t) (h' : t.SameHops u) : s.SameHops u :=
  ⟨h'.tables.trans h.tables, fun q => (h'.echType q).trans (h.echType q), fun q => (h'.maxFrame q).trans (h.maxFrame q)⟩

/-- A counter of the logical ports stands behind the registers of its port. -/
theorem State.sameHops_countL (s : State) {f : Nat → Nat → Fld} {k : Nat} (hf : ∀ q l, f q l = ⟨k + 0x20000 * q + 0x100 * l, 0, 64, 0⟩)
    (hk : 0x401000 ≤ k ∧ k < 0x401100) (src : Nat) : s.SameHops (s.countL f src) := by
  unfold State.countL
  split
  · refine ⟨rfl, fun q => ?_, fun q => State.reg_count_ne _ _ _ _ ?_⟩
    · unfold State.echType
      rw [State.reg_count_ne]
      simp only [hf, Fld.key, PORT_LOOKUP_CFG_ech_ethertype]
      omega
    · simp only [hf, Fld.key, PORT_FRAME_CFG_max_frame]
      omega
  · exact .refl s

theorem State.sameHops_hop (s : State) (src : Nat) (b : Bytes) (p : Parsed) (route : Bool) (i : Nat) :
    s.SameHops (s.hop src true b p route i).2 := by
  unfold State.hop
  split
  · exact s.sameHops_countL (fun _ _ => rfl) (by decide) src
  · extract_lets eg op ed
    split
    · exact s.sameHops_countL (fun _ _ => rfl) (by decide) src
    · split
      · exact s.sameHops_countL (fun _ _ => rfl) (by decide) src
      · split
        · split
          · exact s.sameHops_countL (fun _ _ => rfl) (by decide) src
          · exact .refl s
        · exact .refl s

theorem State.SameHops.hop (h : s.SameHops t) (src : Nat) (b : Bytes) (p : Parsed) (route : Bool) (i : Nat) :
    (t.hop src true b p route i).1 = (s.hop src true b p route i).1 := by
  simp only [State.hop, h.tables, h.echType, h.maxFrame]
  cases s.tables.nexthop.find? i with
  | none => rfl
  | some e =>
    simp only [apply_ite Prod.fst]
    cases headerLen b p (s.echType (src / 8)) with
    | none => rfl
    | some len => simp only [apply_ite Prod.fst]

/-! ### A list of hops (R90) -/

/-- One hop after those judged. -/
theorem State.hops_append (s : State) (src : Nat) (b : Bytes) (p : Parsed) (route : Bool) (l : List Nat) (i : Nat) :
    s.hops src true b p route (l ++ [i]) =
      ((s.hops src true b p route l).1 ++ ((s.hops src true b p route l).2.hop src true b p route i).1.toList,
        ((s.hops src true b p route l).2.hop src true b p route i).2) := by
  simp only [State.hops, List.foldl_append, List.foldl_cons, List.foldl_nil]
  obtain ⟨_ | x, u⟩ := (State.hop _ src true b p route i)
  · simp
  · rfl

/-- The copies of a list are those of its hops one by one: what the drops before a hop count does not decide it. -/
theorem State.hops_spec (s : State) (src : Nat) (b : Bytes) (p : Parsed) (route : Bool) (l : List Nat) :
    (s.hops src true b p route l).1 = l.filterMap (fun i => (s.hop src true b p route i).1) ∧ s.SameHops (s.hops src true b p route l).2 := by
  induction l using List.reverseRecOn with
  | nil => exact ⟨rfl, .refl s⟩
  | append_singleton l i ih =>
    obtain ⟨hcopies, hsame⟩ := ih
    rw [State.hops_append]
    refine ⟨?_, hsame.trans (State.sameHops_hop _ _ _ _ _ _)⟩
    rw [hcopies, hsame.hop, List.filterMap_append]
    cases hi : (s.hop src true b p route i).1 <;> simp [hi]

/-! ### The action word (R80, R84, R90) -/

/-- Where the hops that are left send a frame. -/
def Route.ofHops (rep : Bool) : List (Nat × Edit) → Route
  | [] => .drop
  | hs => .copies rep hs

/-- A frame goes to the hops of a list, or is dropped when none is left. -/
def State.toHops (s : State) (src : Nat) (b : Bytes) (p : Parsed) (route rep : Bool) (l : List Nat) : Route × State :=
  match s.hops src true b p route l with
  | ([], s) => (.drop, s)
  | (hs, s) => (.copies rep hs, s)

theorem State.toHops_dropped {u : State} {rep : Bool} (h : s.hop src true b p route i = (none, u)) : s.toHops src b p route rep [i] = (.drop, u) := by
  simp only [State.toHops, State.hops, List.foldl_cons, List.foldl_nil, h]

theorem State.toHops_sent {u : State} {rep : Bool} {x : Nat × Edit} (h : s.hop src true b p route i = (some x, u)) :
    s.toHops src b p route rep [i] = (.copies rep [x], u) := by
  simp only [State.toHops, State.hops, List.foldl_cons, List.foldl_nil, h, List.nil_append]

theorem State.toHops_route (s : State) (src : Nat) (b : Bytes) (p : Parsed) (route rep : Bool) (l : List Nat) :
    (s.toHops src b p route rep l).1 = .ofHops rep (l.filterMap (fun i => (s.hop src true b p route i).1)) := by
  rw [← (s.hops_spec src b p route l).1, State.toHops]
  obtain ⟨hs, u⟩ := s.hops src true b p route l
  cases hs <;> rfl

variable {a : Nat}

theorem State.act_drop (h : bits a 0 3 = 0) : s.act src true b p a = (.drop, s.countL PORT_LCTR_lookup_miss_drops src) := by
  simp [State.act, h]

theorem State.act_program (h : bits a 0 3 = 4) : s.act src true b p a = (.prog (bits a 8 3 * 32 + bits a 11 5) (bits a 16 8), s) := by
  have hctx : bits (bits a 8 16) 0 3 = bits a 8 3 ∧ bits (bits a 8 16) 3 5 = bits a 11 5 ∧ bits (bits a 8 16) 8 8 = bits a 16 8 := by
    simp only [bits]
    omega
  obtain ⟨hch, hcx, htag⟩ := hctx
  simp only [State.act, h, hch, hcx, htag, if_true]

theorem State.act_nextHop (h : bits a 0 3 = 1) : s.act src true b p a = s.toHops src b p (bitOf a 3) false [bits a 8 16] := by
  simp only [State.act, h]
  rfl

/-- The members of an ECMP group that are live (R84). -/
def State.liveHops (s : State) (g : Nat) : List Nat := ((s.tables.ecmp.find? g).elim [] nhList).filter s.nhLive

/-- The live member that a frame's hash selects (R83, R84). -/
def State.ecmpHop (s : State) (src : Nat) (b : Bytes) (p : Parsed) (live : List Nat) : Nat :=
  live.getD (ecmpIndex (ecmpHash (s.reg (PORT_HASH_SEED_seed (src / 8))) b p (s.echType (src / 8))) live.length) 0

theorem State.act_ecmp (h : bits a 0 3 = 2) : s.act src true b p a = if (s.liveHops (bits a 8 16)).isEmpty
    then (.drop, s.countL PORT_LCTR_lookup_miss_drops src)
    else s.toHops src b p (bitOf a 3) false [s.ecmpHop src b p (s.liveHops (bits a 8 16))] := by
  have helim : ((s.tables.ecmp.find? (bits a 8 16)).map nhList).getD [] = (s.tables.ecmp.find? (bits a 8 16)).elim [] nhList := by
    cases s.tables.ecmp.find? (bits a 8 16) <;> rfl
  simp only [State.act, h, helim]
  rfl

theorem State.act_replicate {g : Bytes} (h : bits a 0 3 = 3) (hg : s.tables.repl.find? (bits a 8 16) = some g) :
    s.act src true b p a = s.toHops src b p (bitOf a 3) true (nhList g) := by
  simp only [State.act, h, hg]
  rfl

theorem State.act_replicate_unwritten (h : bits a 0 3 = 3) (hg : s.tables.repl.find? (bits a 8 16) = none) :
    s.act src true b p a = (.drop, s.countL PORT_LCTR_lookup_miss_drops src) := by
  simp only [State.act, h, hg]
  rfl

theorem nhList_lt {g : Bytes} (h : i ∈ nhList g) : i < 2 ^ 14 := by
  obtain ⟨j, -, hj⟩ := List.mem_map.mp h
  exact hj ▸ Nat.mod_lt _ (by decide)

theorem State.ecmpHop_lt (s : State) (src : Nat) (b : Bytes) (p : Parsed) (g : Nat) : s.ecmpHop src b p (s.liveHops g) < 2 ^ 14 := by
  have hall : ∀ i ∈ s.liveHops g, i < 2 ^ 14 := fun i hi => by
    have hmem := List.mem_of_mem_filter hi
    cases hg : s.tables.ecmp.find? g with
    | none => rw [hg] at hmem; cases hmem
    | some x => rw [hg] at hmem; exact nhList_lt hmem
  rw [State.ecmpHop, List.getD_eq_getElem?_getD]
  cases hi : (s.liveHops g)[ecmpIndex (ecmpHash (s.reg (PORT_HASH_SEED_seed (src / 8))) b p (s.echType (src / 8))) (s.liveHops g).length]? with
  | none => decide
  | some i => exact hall i (List.mem_of_getElem? hi)

/-- The action word NEXT_HOP of an entry, with the route bit of `a`. -/
theorem nextHopWord_fields (a : Nat) (hi : i < 2 ^ 14) : bits (1 + 8 * bits a 3 1 + 256 * i) 0 3 = 1 ∧
    bitOf (1 + 8 * bits a 3 1 + 256 * i) 3 = bitOf a 3 ∧ bits (1 + 8 * bits a 3 1 + 256 * i) 8 16 = i := by
  have hroute : (1 + 8 * bits a 3 1 + 256 * i) / 2 ^ 3 % 2 = a / 2 ^ 3 % 2 := by
    simp only [bits, Nat.reducePow]
    omega
  have hbit : bits a 3 1 < 2 := Nat.mod_lt _ (by decide)
  simp only [bitOf, hroute, true_and]
  generalize bits a 3 1 = r at hbit ⊢
  simp only [bits, Nat.reducePow] at hi ⊢
  omega

theorem State.act_ecmp_live (h : bits a 0 3 = 2) (hlive : s.liveHops (bits a 8 16) ≠ []) :
    s.act src true b p a = s.act src true b p (1 + 8 * bits a 3 1 + 256 * s.ecmpHop src b p (s.liveHops (bits a 8 16))) := by
  obtain ⟨hkind, hroute, htarget⟩ := nextHopWord_fields a (s.ecmpHop_lt src b p (bits a 8 16))
  rw [State.act_ecmp h, if_neg (by simpa using hlive), State.act_nextHop hkind, hroute, htarget]

end Hop

/-! ### The lookup (R74, R75, R82) -/

section Lookup

variable {s : State} {src : Nat} {b : Bytes} {p : Parsed}

/-- What a table holds for a frame is what it does with it; nothing held is a miss. -/
def State.follow (s : State) (src : Nat) (b : Bytes) (p : Parsed) : Option Nat → Route × State
  | some a => s.act src true b p a
  | none => (.drop, s.countL PORT_LCTR_lookup_miss_drops src)

theorem State.lookup_mac (h : p.dmac ≠ s.station (src / 8)) :
    s.lookup src true false b p = s.follow src b p (s.tables.endpoint.find? (endpointKey p.dmac p.vid)) := by
  simp only [State.lookup, beq_eq_false_iff_ne.mpr h, Bool.and_false, Bool.false_eq_true, if_false]
  rfl

theorem State.lookup_notIp (h : p.dmac = s.station (src / 8)) (h4 : p.et ≠ 0x0800) (h6 : p.et ≠ 0x86DD) :
    s.lookup src true false b p = (.drop, s.countL PORT_LCTR_lookup_miss_drops src) := by
  simp [State.lookup, h, h4, h6]

theorem Parsed.isIp (h : p.et = 0x0800 ∨ p.et = 0x86DD) : (p.et == 0x0800 || p.et == 0x86DD) = true := by simpa using h

theorem State.lookup_badHeader (h : p.dmac = s.station (src / 8)) (het : p.et = 0x0800 ∨ p.et = 0x86DD)
    (hip : p.ip = none ∨ ∃ ip, p.ip = some ip ∧ ip.csumOk = false) : s.lookup src true false b p = (.drop, s.countL PORT_LCTR_ip_hdr_err src) := by
  rcases hip with hip | ⟨ip, hip, hsum⟩
  · simp [State.lookup, h, Parsed.isIp het, hip]
  · simp [State.lookup, h, Parsed.isIp het, hip, hsum]

/-- The action of the longest match of the destination address, in the table of the IP version. -/
def Tables.route (T : Tables) (ip : Ip) : Option Nat :=
  lpm (if ip.v6 then T.v6 else T.v4) (if ip.v6 then 128 else 32) (beNat ip.dst) (if ip.v6 then 128 else 32)

theorem State.lookup_ip {ip : Ip} (h : p.dmac = s.station (src / 8)) (het : p.et = 0x0800 ∨ p.et = 0x86DD) (hip : p.ip = some ip)
    (hsum : ip.csumOk = true) : s.lookup src true false b p = s.follow src b p (s.tables.route ip) := by
  simp only [State.lookup, h, Parsed.isIp het, hip, hsum, Tables.route, Bool.not_false, beq_self_eq_true, Bool.and_self, Bool.not_true,
    Bool.false_eq_true, if_true, if_false]
  cases ip.v6 <;> rfl

/-! ### The fate (R74, R75, R86, R90) -/

theorem State.decideFate_unknownGroup (cls : Nat) (r : Rx) (w : Bool) (hech : p.isEch (s.echType (src / 8)) = true)
    (hmac : p.dmac = s.station (src / 8)) (hgroup : s.groups.find? (echOf b).gid = none) :
    s.decideFate src cls r b p w = (.drop, s.countL PORT_LCTR_ech_unknown_drops src) := by
  simp [State.decideFate, hech, hmac, hgroup]

theorem State.notGroupFrame (h : p.isEch (s.echType (src / 8)) = false ∨ p.dmac ≠ s.station (src / 8)) :
    (p.isEch (s.echType (src / 8)) && p.dmac == s.station (src / 8)) = false := by
  rcases h with h | h <;> simp [h]

theorem State.decideFate_dropped {u : State} (cls : Nat) (r : Rx) (w : Bool)
    (h : p.isEch (s.echType (src / 8)) = false ∨ p.dmac ≠ s.station (src / 8)) (hlook : s.lookup src true false b p = (.drop, u)) :
    s.decideFate src cls r b p w = (.drop, u) := by
  simp only [State.decideFate, State.notGroupFrame h, hlook, Bool.false_eq_true, if_false]

theorem State.decideFate_forwarded {u v : State} {cls eg id : Nat} {r : Rx} (w : Bool) {ed : Edit}
    (h : p.isEch (s.echType (src / 8)) = false ∨ p.dmac ≠ s.station (src / 8))
    (hlook : s.lookup src true false b p = (.copies false [(eg, ed)], u))
    (htake : u.receive src (8 * (src / 8) + cls) cls r b p (some eg) = some (id, v)) : s.decideFate src cls r b p w =
      (.fwd id, v.spread id false (8 * (src / 8) + cls) [(eg, { frm := id, edit := ed, cut := v.mayCut src eg w, rep := false })]) := by
  simp only [State.decideFate, State.notGroupFrame h, hlook, htake, Bool.false_eq_true, if_false, List.map_cons, List.map_nil]

end Lookup

/-- Settles O12: each table by what it holds for the frame, the action word by its code, and a next hop by its checks in turn. -/
theorem forwardingTables : Obligations.ForwardingTables := by
  intro s src b f _
  refine ⟨fun cls r w => ⟨State.decideFate_unknownGroup cls r w, fun h u => State.decideFate_dropped cls r w h,
      fun h u eg ed id v => State.decideFate_forwarded w h⟩, ?_, ?_, State.lookup_notIp, State.lookup_badHeader,
    ?_, fun a => State.act_drop, fun a => State.act_program, ?_, ?_, ?_, ?_, fun a => State.act_replicate_unwritten⟩
  · intro hmac hmiss
    rw [State.lookup_mac hmac, endpointKey, hmiss]
    rfl
  · intro hmac a ha
    rw [State.lookup_mac hmac, endpointKey, ha]
    rfl
  · rintro ip _ _ hmac het hip hsum rfl rfl
    rw [State.lookup_ip hmac het hip hsum, Tables.route]
    refine ⟨fun hnone => ?_, fun n a hle ha hlonger => ?_⟩
    · rw [lpm_none hnone]
      rfl
    · rw [lpm_longest hle ha hlonger]
      rfl
  · intro a hkind hnone
    exact (State.act_nextHop hkind).trans (State.toHops_dropped (State.hop_unwritten hnone))
  · intro a e hkind he
    rw [State.act_nextHop hkind]
    have hlives : bitOf a 3 = false ∨ f.expired = false → (bitOf a 3 && f.expired) = false := Bool.and_eq_false_iff.mpr
    refine ⟨fun hback hpin => State.toHops_dropped (State.hop_hairpin he hback hpin), fun hopen ip hroute hip httl => ?_,
      fun hopen hlive len hlen hlong => State.toHops_dropped (State.hop_tooLong he hopen (hlives hlive) hlen hlong), fun hopen hlive hfits => ?_⟩
    · have hexp : f.expired = true := by simp only [Parsed.expired, hip, httl, decide_true]
      exact State.toHops_dropped (State.hop_expired he hopen hroute hexp)
    · refine State.toHops_sent (State.hop_sent he hopen (hlives hlive) fun len hlen => ?_)
      have hmax : max (len : Int) ((len : Int) + vlanDelta (!f.tags.isEmpty) (bits (byteAt e 1) 1 2)).toNat ≤ s.maxFrame (byteAt e 0 / 8) :=
        of_decide_eq_true (hlen ▸ hfits :)
      rw [mtuLen]
      omega
  · rintro a _ hkind rfl
    refine ⟨fun hdead => ?_, State.act_ecmp_live hkind⟩
    rw [State.act_ecmp hkind, State.liveHops, hdead]
    rfl
  · intro a g hkind hg
    rw [State.act_replicate hkind hg, State.toHops_route]
    rfl

end Sys2Proof.Machine
end

section
/-! PROOFS. Updates of the forwarding tables and of the groups outside a pod, and a member's notice (R78, R79, R271, R368, R374, R410, R411, R414): what
the read of the host's bytes leaves, the apply stamp, and each update by what it writes before it completes. -/

namespace Sys2Proof.Machine

section Updates

variable {s t u : State} {d : Nat} {x : Desc} {b : Bytes}

/-! ### The bytes that the host sends (R329, R359) -/

/-- From `s` to `t` inputs have been recorded or lost: Seedbank has staged them, with arrival numbers of their own. -/
structure State.Recorded (s t : State) : Prop where
  rest : t = { s with regs := t.regs, latch := t.latch, sbk := t.sbk, clk := { s.clk with arr := t.clk.arr } }
  regs : ∀ f : Fld, f.key ≠ SBK_CTR_records_lost.key → t.reg f = s.reg f

theorem State.Recorded.refl (s : State) : s.Recorded s := ⟨rfl, fun _ _ => rfl⟩

theorem State.Recorded.trans (h : s.Recorded t) (h' : t.Recorded u) : s.Recorded u where
  rest := by rw [h'.rest, h.rest]
  regs f hf := (h'.regs f hf).trans (h.regs f hf)

theorem State.recorded_recordNow (s : State) (kind src : Nat) (payload : Bytes) : s.Recorded (s.recordNow kind src payload) where
  rest := by
    simp only [State.recordNow, State.record, State.recordLost]
    split
    · split <;> rfl
    · rfl
  regs _ hf := State.reg_recordNow _ _ _ _ hf

theorem State.recorded_recordHost (s : State) (a : Nat) (b : Bytes) : s.Recorded (s.recordHost a b) := by
  unfold State.recordHost
  split
  · exact List.foldlRecOn _ _ (.refl s) fun t ht k _ => ht.trans (t.recorded_recordNow _ _ _)
  · exact .refl s

theorem State.Recorded.host (h : s.Recorded t) : t.host = s.host := by rw [h.rest]

theorem State.Recorded.desc (h : s.Recorded t) : t.desc d = s.desc d := by rw [State.desc, h.host, State.desc]

theorem State.Recorded.groups (h : s.Recorded t) : t.groups = s.groups := by rw [h.rest]

theorem State.Recorded.grp (h : s.Recorded t) (gid : Nat) : t.grp gid = s.grp gid := by rw [State.grp, h.groups, State.grp]

theorem State.Recorded.tables (h : s.Recorded t) : t.tables = s.tables := by rw [h.rest]

theorem State.Recorded.chans (h : s.Recorded t) : t.chans = s.chans := by rw [h.rest]

theorem State.Recorded.now (h : s.Recorded t) : t.now = s.now := by rw [h.rest]; rfl

theorem State.Recorded.pod (h : s.Recorded t) : t.pod = s.pod := h.regs _ (by decide)

theorem State.Recorded.cqEn (h : s.Recorded t) (j : Nat) : t.flag (RING_CQ_CFG_en j) = s.flag (RING_CQ_CFG_en j) :=
  State.flag_congr (h.regs _ (by simp only [Fld.key, RING_CQ_CFG_en, SBK_CTR_records_lost]; omega))

theorem State.Recorded.cqError (h : s.Recorded t) (j : Nat) : t.flag (RING_CQ_STATE_error j) = s.flag (RING_CQ_STATE_error j) :=
  State.flag_congr (h.regs _ (by simp only [Fld.key, RING_CQ_STATE_error, SBK_CTR_records_lost]; omega))

/-- Descriptor `d` is `x`, an update that is applied now: outside a pod, with no apply stamp ahead of device time, and with the host's own bytes, of
which no read is lost. -/
structure State.AppliesNow (s : State) (d : Nat) (x : Desc) : Prop where
  desc : s.desc d = some x
  solo : s.pod = podSolo
  stamp : s.applyWaits = false
  fresh : x.replayed = false
  ide : x.ide = false

/-- The host's bytes have come, as many as the descriptor reads. -/
theorem State.AppliesNow.withHost_ok (h : s.AppliesNow d x) {a n : Nat} (hlen : b.length = n) (f : Bytes → State → State) :
    s.withHost d x a n (.ok b) f = f b (s.recordHost a b) := by
  have hend : s.hostEnd (some d) (HostData.ok b).how = .done := by simp [State.hostEnd, HostData.how, h.desc, h.ide]
  have hbytes : (padTo n b).take n = b := by simp [padTo, hlen]
  simp only [State.withHost, State.hostRead, h.fresh, hend, hbytes, Bool.false_eq_true, if_false]

/-- A descriptor of the row's opcode that may start is executed, where the row serves every kind of it. -/
theorem State.runDesc_servesAll {op : Nat} (h : s.serves d op x) (f : Desc → State → State) : s.runDesc d op none f = f x s := by
  obtain ⟨-, hd, hop, hstarted, hmay, hok⟩ := h
  simp [State.runDesc, hd, hop, hstarted, hmay, hok]

/-! ### The apply stamp, and the completion behind it (R79, R368, R408) -/

theorem State.applyStamp_later (s : State) (a : FT64) (h : s.host.applied = some a) :
    s.applyStamp.1 = s.now ∧ precedes a s.now = true ∨ s.applyStamp.1 = a + 1 := by
  simp only [State.applyStamp, h]
  split
  · next hlate => exact .inl ⟨rfl, hlate⟩
  · exact .inr rfl

theorem State.Recorded.applyStamp (h : s.Recorded t) : t.applyStamp.1 = s.applyStamp.1 := by
  simp only [State.applyStamp, h.host, h.now]

/-- Descriptor `d` is under way, and the last apply stamp is that of this apply. -/
def State.applyBegun (s : State) (d : Nat) (x : Desc) : State :=
  { s with host := { s.host with applied := some s.applyStamp.1, descs := s.host.descs.insert d { x with started := true } } }

theorem State.applyBegun_stampFirst (hd : s.desc d = some x) : s.applyStamp.2.startDesc d = s.applyBegun d x := by
  have hfind : s.applyStamp.2.host.descs.find? d = some x := hd
  rw [State.startDesc, State.modDesc, hfind]
  rfl

theorem State.applyBegun_stampLast (hd : s.desc d = some x) : (s.startDesc d).applyStamp = (s.applyStamp.1, s.applyBegun d x) := by
  have hfind : s.host.descs.find? d = some x := hd
  rw [State.startDesc, State.modDesc, hfind]
  rfl

theorem State.applied_cqSync (s : State) (j : Nat) : (s.cqSync j).host.applied = s.host.applied := by
  unfold State.cqSync
  extract_lets full was s1 s2 s3 any
  have hstall : s2.host = s.host := List.foldlRecOn (motive := fun v : State => v.host = s.host) _ _ rfl fun _ hv _ _ => hv
  have hevent : s3.host = s.host := by
    simp only [s3]
    split
    · rw [State.raise_host, hstall]
    · exact hstall
  have hlast : s3.host.applied = s.host.applied := congrArg HostSt.applied hevent
  split
  · rfl
  · split <;> exact hlast

theorem State.applied_complete (s : State) (d : Nat) (r : Report) : (s.complete d r).host.applied = s.host.applied := by
  cases hd : s.desc d with
  | none => rw [State.complete, hd]
  | some x =>
    rcases State.complete_some hd r with h | ⟨-, h⟩ <;> rw [h]
    · rw [State.postRec_eq]
      split
      · exact State.applied_cqSync _ _
      · rfl
    · rfl

/-- Outside a pod nothing waits for a twin. -/
theorem State.mirror_solo (h : s.pod = podSolo) (recs : List Bytes) (acts : List Act) : s.mirror recs acts = s.acts acts := by
  simp [State.mirror, h, podSolo, podPaired, podSync]

theorem State.noteUpd_solo (h : s.pod = podSolo) (v : Upd) : s.noteUpd v = s := by
  simp [State.noteUpd, h, podSolo, podPaired]

theorem State.podRefuses_solo (h : s.pod = podSolo) : s.podRefuses = false := by
  simp [State.podRefuses, h, podSolo, podDetached, podSync]

/-- What an update that is applied reports, and the stamp it leaves: `u` has it, with the descriptor under way and the rings as they stood. -/
theorem State.reports_applied (hrec : s.Recorded t) (hu : u.host = (t.applyBegun d x).host) (hregs : u.regs = t.regs) (absent : Nat) :
    (u.complete d { status := stOk, result := absent, detail := s.applyStamp.1.toNat }).host.applied = some s.applyStamp.1 ∧
      s.reports (u.complete d { status := stOk, result := absent, detail := s.applyStamp.1.toNat }) d x 0 absent s.applyStamp.1.toNat := by
  have hdesc : u.desc d = some { x with started := true } := by
    rw [State.desc, hu]
    exact Tab.find?_insert_self _ _ _
  have hflag (f : Fld) : u.flag f = t.flag f := by simp only [State.flag, hregs]
  have hcqs : u.host.cqs = s.host.cqs := by
    rw [hu, ← hrec.host]
    rfl
  refine ⟨?_, State.reports_complete hdesc hcqs (fun hen => ?_) ?_ { status := stOk, result := absent, detail := s.applyStamp.1.toNat }⟩
  · rw [State.applied_complete, hu, ← hrec.applyStamp]
    rfl
  · exact (hflag _).trans ((hrec.cqEn x.cq).trans hen)
  · exact (hflag _).trans (hrec.cqError x.cq)

/-! ### TABLE_WRITE (R78, R79, R374) -/

/-- The tables after an apply, which has taken its number. -/
def State.withTables (s : State) (T : Tables) : State :=
  { s with tables := T, mir := { s.mir with applyNo := (s.mir.applyNo + 1) % 2 ^ 32 } }

theorem exec_tableWrite_serves (h : s.serves d 4 x) (data : HostData) : exec (.tableWrite d data) s = .next (s.tableWrite d x data) := by
  rw [show exec (.tableWrite d data) s = .next (s.runDesc d 4 none (fun x s => s.tableWrite d x data)) from
    State.does_live (fun s => s.runDesc d 4 none (fun x s => s.tableWrite d x data)) h.1, State.runDesc_servesAll h]

section TableWrite

variable (h : s.AppliesNow d x) (hlen : b.length = recSize (byteAt x.bytes 8) * leAt x.bytes 12 4)
include h hlen

theorem State.AppliesNow.tableWrite_refused {i : Nat}
    (hrefused : s.tables.apply (byteAt x.bytes 8) (splitRecs (recSize (byteAt x.bytes 8)) (leAt x.bytes 12 4) b) = .error i) :
    s.tableWrite d x (.ok b) = (s.recordHost (leAt x.bytes 16 8) b).complete d { status := stBadDescriptor, result := i } := by
  simp only [State.tableWrite, State.podRefuses_solo h.solo, h.stamp, h.withHost_ok hlen, (s.recorded_recordHost _ b).tables, hrefused,
    Bool.false_eq_true, if_false]

theorem State.AppliesNow.tableWrite_stands {T : Tables} {absent : Nat}
    (hstands : s.tables.apply (byteAt x.bytes 8) (splitRecs (recSize (byteAt x.bytes 8)) (leAt x.bytes 12 4) b) = .ok (T, absent)) :
    s.tableWrite d x (.ok b) = (((s.recordHost (leAt x.bytes 16 8) b).applyBegun d x).withTables T).complete d
      { status := stOk, result := absent, detail := s.applyStamp.1.toNat } := by
  have hrec := s.recorded_recordHost (leAt x.bytes 16 8) b
  simp only [State.tableWrite, State.podRefuses_solo h.solo, h.stamp, h.withHost_ok hlen, hrec.tables, hstands, Bool.false_eq_true, if_false]
  generalize s.recordHost (leAt x.bytes 16 8) b = t at hrec ⊢
  have hpod : t.pod = podSolo := hrec.pod.trans h.solo
  have hsolo : ((t.applyBegun d x).withTables T).pod = podSolo := hpod
  simp only [State.noteUpd_solo hpod, State.tablesApplied, State.applyBegun_stampLast (hrec.desc.trans h.desc), hrec.applyStamp]
  exact State.mirror_solo hsolo _ _

theorem State.AppliesNow.tableWrite_applied {T : Tables} {absent : Nat}
    (hstands : s.tables.apply (byteAt x.bytes 8) (splitRecs (recSize (byteAt x.bytes 8)) (leAt x.bytes 12 4) b) = .ok (T, absent)) :
    (s.tableWrite d x (.ok b)).tables = T ∧ ∃ at_ : FT64, (s.tableWrite d x (.ok b)).host.applied = some at_ ∧
      (∀ a, s.host.applied = some a → at_ = s.now ∧ precedes a s.now = true ∨ at_ = a + 1) ∧
        s.reports (s.tableWrite d x (.ok b)) d x 0 absent at_.toNat := by
  rw [h.tableWrite_stands hlen hstands]
  obtain ⟨happlied, hreports⟩ := State.reports_applied (u := ((s.recordHost (leAt x.bytes 16 8) b).applyBegun d x).withTables T)
    (s.recorded_recordHost (leAt x.bytes 16 8) b) rfl rfl absent
  exact ⟨congrArg State.tables (State.postsOnly_complete _ _ _).rest, s.applyStamp.1, happlied, s.applyStamp_later, hreports⟩

theorem State.AppliesNow.tableWrite_reportsRefused {i : Nat}
    (hrefused : s.tables.apply (byteAt x.bytes 8) (splitRecs (recSize (byteAt x.bytes 8)) (leAt x.bytes 12 4) b) = .error i) :
    (s.tableWrite d x (.ok b)).tables = s.tables ∧ s.reports (s.tableWrite d x (.ok b)) d x stBadDescriptor i 0 := by
  have hrec := s.recorded_recordHost (leAt x.bytes 16 8) b
  rw [h.tableWrite_refused hlen hrefused]
  exact ⟨(congrArg State.tables (State.postsOnly_complete _ _ _).rest).trans hrec.tables, State.reports_complete (hrec.desc.trans h.desc)
    (congrArg HostSt.cqs hrec.host) (hrec.cqEn x.cq).trans (hrec.cqError x.cq) { status := stBadDescriptor, result := i }⟩

end TableWrite

/-! ### GROUP_UPDATE (R271, R410) -/

theorem State.Recorded.rangeCheck (h : s.Recorded t) (a n : Nat) (ok : List Region) : t.rangeCheck a n ok = s.rangeCheck a n ok := by
  have hpkt : t.pktEnd = s.pktEnd := congrArg (· * gib) (h.regs STORE_REGION_CFG_pkt_size (by decide))
  have hsbk : t.sbkBase = s.sbkBase := congrArg (storeEnd - · * gib) (h.regs STORE_REGION_CFG_sbk_size (by decide))
  have hprog : t.progEnd = s.progEnd := by rw [State.progEnd, hpkt, hsbk, State.progEnd]
  have hregion (i : Nat) : t.regionOf i = s.regionOf i := by rw [State.regionOf, hpkt, hprog, hsbk, State.regionOf]
  simp only [State.rangeCheck, hregion, hpkt, hprog, hsbk]

theorem State.Recorded.present (h : s.Recorded t) {ch : Nat} (hch : ch < 8) : t.present ch = s.present ch :=
  h.regs _ (by simp only [Fld.key, HUB_CAPS_PRESENT_ch, SBK_CTR_records_lost]; omega)

theorem State.Recorded.groupCommon (h : s.Recorded t) (e : Bytes) : t.groupCommon e = s.groupCommon e := by
  have hch : gCh e < 8 := Nat.mod_lt _ (by decide)
  simp only [State.groupCommon, h.rangeCheck, h.present hch, State.chan, h.chans]

theorem State.Recorded.entryOk (h : s.Recorded t) (old : Option Bytes) (e : Bytes) : t.entryOk old e = s.entryOk old e := by
  have hpolicy : t.flag SBK_POLICY_anchored_only = s.flag SBK_POLICY_anchored_only := State.flag_congr (h.regs _ (by decide))
  simp only [State.entryOk, State.dispatchOk, State.reductionOk, h.groupCommon, h.rangeCheck, hpolicy]

theorem State.Recorded.actives (h : s.Recorded t) (e : Bytes) : t.actives e = s.actives e := by
  rw [h.rest]
  rfl

theorem Tab.length_place {α : Type} (m : Tab α) (k : Nat) (v : α) : (Tab.place m k v).length = m.length + 1 := by
  induction m with
  | nil => rfl
  | cons e r ih =>
    simp only [Tab.place]
    split
    · rfl
    · rw [List.length_cons, ih, List.length_cons]

theorem Tab.length_insert_le {α : Type} (m : Tab α) (k : Nat) (v : α) : (Tab.insert m k v).length ≤ m.length + 1 := by
  rw [Tab.insert, Tab.length_place]
  exact Nat.succ_le_succ (List.length_filter_le _ _)

theorem Tab.find?_map {α β : Type} (m : Tab α) (f : α → β) (k : Nat) : Tab.find? (m.map (fun e => (e.1, f e.2))) k = (Tab.find? m k).map f := by
  induction m with
  | nil => rfl
  | cons e r ih =>
    simp only [List.map_cons, Tab.find?]
    split
    · rfl
    · exact ih

/-- One valid entry of a new group is not refused while the table has room (R271). -/
theorem State.groupRefused_new (hvalid : gValid b = true) (hnew : s.grp (gGid b) = none) (hok : s.entryOk none b = true)
    (hroom : s.groups.length < 4096) : s.groupRefused [b] 0 (s.groups.map (fun g => (g.1, g.2.entry))) = none := by
  have hfits : ¬ 4096 < (Tab.insert (s.groups.map (fun g => (g.1, g.2.entry))) (gGid b) b).length := by
    have hle := Tab.length_insert_le (s.groups.map (fun g => (g.1, g.2.entry))) (gGid b) b
    rw [List.length_map] at hle
    omega
  have hold : Tab.find? (s.groups.map (fun g => (g.1, g.2.entry))) (gGid b) = none := by
    rw [Tab.find?_map s.groups Grp.entry, ← State.grp, hnew, Option.map_none]
  simp only [State.groupRefused, hold, hok, hvalid, Bool.not_true, Bool.false_eq_true, if_false, if_true, hfits]

/-- A group begins with an entry: its active members are counted, and each has its lease from the stamp on (R416, R418). -/
def State.newGroup (s : State) (stamp : FT64) (e : Bytes) : Grp :=
  let ms := (s.actives e).map (·.1)
  { entry := e, base := ms.length, lease := ms.foldl (fun t m => Tab.insert t m stamp) [], score := [], evicted := [] }

theorem State.applyEntry_new (hvalid : gValid b = true) (hnew : s.grp (gGid b) = none) (stamp : FT64) :
    s.applyEntry stamp b = { s with groups := s.groups.insert (gGid b) (s.newGroup stamp b) } := by
  simp only [State.applyEntry, hvalid, hnew, Bool.not_true, Bool.false_eq_true, if_false]
  rfl

theorem splitRecs_one {n : Nat} (h : b.length = n) : splitRecs n 1 b = [b] := by
  simp [splitRecs, slice, ← h]

/-- A group that is made is not taken over from a twin. -/
theorem State.handover_new (s : State) (gid : Nat) : s.handover none gid = [] := rfl

theorem exec_groupUpdate_serves (h : s.serves d 3 x) (data : HostData) : exec (.groupUpdate d data) s = .next (s.groupUpdate d x data) := by
  rw [show exec (.groupUpdate d data) s = .next (s.runDesc d 3 none (fun x s => s.groupUpdate d x data)) from
    State.does_live (fun s => s.runDesc d 3 none (fun x s => s.groupUpdate d x data)) h.1, State.runDesc_servesAll h]

section GroupUpdate

variable (h : s.AppliesNow d x) (hone : leAt x.bytes 16 2 = 1) (hlen : b.length = 64) (hvalid : gValid b = true) (hnew : s.grp (gGid b) = none)
  (hidle : s.undelivered (gGid b) = false) (hok : s.entryOk none b = true) (hroom : s.groups.length < 4096)
include h hone hlen hvalid hnew hidle hok hroom

theorem State.AppliesNow.groupUpdate_new :
    s.groupUpdate d x (.ok b) = (((s.recordHost (leAt x.bytes 8 8) b).applyBegun d x).applyEntry s.applyStamp.1 b).complete d
      { status := stOk, detail := s.applyStamp.1.toNat } := by
  have hrec := s.recorded_recordHost (leAt x.bytes 8 8) b
  have hlen' : b.length = 64 * 1 := hlen
  simp only [State.groupUpdate, State.podRefuses_solo h.solo, h.stamp, hone, h.withHost_ok hlen', splitRecs_one hlen, List.any_cons, List.any_nil,
    hidle, Bool.or_self, Bool.false_eq_true, if_false]
  generalize s.recordHost (leAt x.bytes 8 8) b = t at hrec ⊢
  have hnone : t.grp (gGid b) = none := (hrec.grp _).trans hnew
  have hbegun : (t.applyBegun d x).grp (gGid b) = none := hnone
  have hpod : t.pod = podSolo := hrec.pod.trans h.solo
  have hstamped : t.applyStamp.2.pod = podSolo := hpod
  have hsolo : ((t.applyBegun d x).applyEntry s.applyStamp.1 b).pod = podSolo := by
    rw [State.applyEntry_new hvalid hbegun]
    exact hpod
  have hstamp : t.applyStamp = (s.applyStamp.1, t.applyStamp.2) := Prod.ext hrec.applyStamp rfl
  have hstands := State.groupRefused_new hvalid hnone ((hrec.entryOk none b).trans hok) (hrec.groups ▸ hroom)
  have hgids : [gGid b].eraseDups = [gGid b] := rfl
  simp only [hstands, List.map_cons, List.map_nil, hgids, hnone]
  rw [hstamp]
  simp only [State.noteUpd_solo hstamped, State.applyBegun_stampFirst (hrec.desc.trans h.desc), List.foldl_cons, List.foldl_nil,
    State.mirror_solo hsolo, List.flatMap_cons, List.flatMap_nil, State.handover_new]
  rfl

theorem State.AppliesNow.groupUpdate_makesGroup : ∃ at_ : FT64, (s.groupUpdate d x (.ok b)).host.applied = some at_ ∧
    (∀ a, s.host.applied = some a → at_ = s.now ∧ precedes a s.now = true ∨ at_ = a + 1) ∧
    s.reports (s.groupUpdate d x (.ok b)) d x 0 0 at_.toNat ∧ ∃ y, (s.groupUpdate d x (.ok b)).grp (gGid b) = some y ∧ y.entry = b ∧ y.cur = {} ∧
      y.base = (s.actives b).length ∧ ∀ k, k ≠ gGid b → (s.groupUpdate d x (.ok b)).grp k = s.grp k := by
  have hrec := s.recorded_recordHost (leAt x.bytes 8 8) b
  rw [h.groupUpdate_new hone hlen hvalid hnew hidle hok hroom]
  generalize s.recordHost (leAt x.bytes 8 8) b = t at hrec ⊢
  have hbegun : (t.applyBegun d x).grp (gGid b) = none := (hrec.grp _).trans hnew
  have hbase : ((t.applyBegun d x).newGroup s.applyStamp.1 b).base = (s.actives b).length := by
    rw [← hrec.actives]
    exact List.length_map _
  have hgrp (w : State) (r : Report) (k : Nat) : (w.complete d r).grp k = w.grp k := by
    rw [(State.postsOnly_complete w d r).rest]
    rfl
  rw [State.applyEntry_new hvalid hbegun]
  obtain ⟨happlied, hreports⟩ := State.reports_applied hrec (u := { t.applyBegun d x with
    groups := t.groups.insert (gGid b) ((t.applyBegun d x).newGroup s.applyStamp.1 b) }) rfl rfl 0
  refine ⟨s.applyStamp.1, happlied, s.applyStamp_later, hreports, (t.applyBegun d x).newGroup s.applyStamp.1 b, ?_, rfl, rfl, hbase,
    fun k hk => ?_⟩
  · rw [hgrp]
    exact Tab.find?_insert_self _ _ _
  · rw [hgrp, ← hrec.grp]
    exact Tab.find?_insert_ne _ _ hk

end GroupUpdate

/-! ### A member's notice (R411, R414) -/

theorem exec_noticeRx_member (hl : s.live = true) {k id : Nat} {g : GIn} {y : Grp}
    (htake : s.take k (fun g => g.h.opcode == 7 && byteAt g.payload 1 == 0) = (some g, u)) (hgrp : u.grp g.gid = some y) (hread : u.readable g = true)
    (hmember : g.h.member < gCount y.entry) (hdown : g.h.member ≠ 0xFFF) (hid : (u.memberEntry y.entry g.h.member).map mId = some id) :
    exec (.noticeRx k) s = .next ((u.gdrop g).moveEndpoint id
      (endpointKey g.smac (((u.frm g.frm).map (fun f => (parseFrame (u.frameBytes f)).vid)).getD 0))) := by
  have hmoves : s.noticeRx k = (u.gdrop g).moveEndpoint id
      (endpointKey g.smac (((u.frm g.frm).map (fun f => (parseFrame (u.frameBytes f)).vid)).getD 0)) := by
    simp only [State.noticeRx, htake, hgrp, hread, beq_eq_false_iff_ne.mpr hdown, hmember, hid, Bool.not_true, Bool.false_eq_true, if_false, if_true]
  exact hmoves ▸ State.does_live (fun s => s.noticeRx k) hl

end Updates

/-- Settles O38: the host's bytes come with what records them, an update that stands takes its stamp before it is written and completes at once, and a
notice moves the endpoint of the member it is of. -/
theorem updatesApplyAtOneStamp : Obligations.UpdatesApplyAtOneStamp := by
  intro s d x b hl
  refine ⟨?_, ?_, fun k g u y id => exec_noticeRx_member hl⟩
  · rintro _ _ _ hserves hpod hwaits hreplayed hide rfl rfl hlen rfl
    have ⟨_, hdesc, _⟩ := hserves
    have happlies : s.AppliesNow d x := ⟨hdesc, hpod, hwaits, hreplayed, hide⟩
    exact ⟨fun T absent hstands => ⟨_, exec_tableWrite_serves hserves _, happlies.tableWrite_applied hlen hstands⟩,
      fun i hrefused => ⟨_, exec_tableWrite_serves hserves _, happlies.tableWrite_reportsRefused hlen hrefused⟩⟩
  · intro hserves hpod hwaits hreplayed hide hone hlen hvalid hnew hidle hok hroom
    have ⟨_, hdesc, _⟩ := hserves
    have happlies : s.AppliesNow d x := ⟨hdesc, hpod, hwaits, hreplayed, hide⟩
    exact ⟨_, exec_groupUpdate_serves hserves _, happlies.groupUpdate_makesGroup hone hlen hvalid hnew hidle hok hroom⟩

end Sys2Proof.Machine
end

section
/-! PROOFS. The free buffers of a pool (R102): segments moved between a ring and a slice's cache keep their number. -/

set_option Elab.async false

namespace Sys2Proof.Machine

/-! ### Entries in segments -/

theorem segCount_eq_sum (l : List Seg) : segCount l = (l.map Seg.n).sum := by
  rw [segCount, List.sum_eq_foldl, List.foldl_map]

@[simp] theorem segCount_nil : segCount [] = 0 := rfl

@[simp] theorem segCount_cons (g : Seg) (l : List Seg) : segCount (g :: l) = g.n + segCount l := by simp [segCount_eq_sum]

@[simp] theorem segCount_append (l m : List Seg) : segCount (l ++ m) = segCount l + segCount m := by simp [segCount_eq_sum]

/-- A split takes `n` entries, or all there are. -/
theorem segCount_segSplit_fst (stride : Nat) (l : List Seg) (n : Nat) : segCount (segSplit stride l n).1 = min n (segCount l) := by
  induction l generalizing n with
  | nil => simp [segSplit]
  | cons g r ih =>
    unfold segSplit
    split_ifs with hzero hall
    · simp [hzero]
    · simp only [segCount_cons, ih]
      omega
    · simp only [segCount_cons, segCount_nil]
      omega

/-- A split loses no entry. -/
theorem segCount_segSplit (stride : Nat) (l : List Seg) (n : Nat) :
    segCount (segSplit stride l n).1 + segCount (segSplit stride l n).2 = segCount l := by
  induction l generalizing n with
  | nil => rfl
  | cons g r ih =>
    unfold segSplit
    split_ifs with hzero hall
    · simp
    · simp only [segCount_cons, Nat.add_assoc, ih]
    · simp only [segCount_cons, segCount_nil]
      omega

/-! ### Sums over a table -/

/-- The sum of `g` over the values that a table lists. -/
def Tab.sumOf {α : Type} (g : α → Nat) (m : Tab α) : Nat := (m.map (fun e => g e.2)).sum

section SumOf

variable {α : Type} (g : α → Nat)

theorem Tab.sumOf_place (m : Tab α) (k : Nat) (v : α) : Tab.sumOf g (Tab.place m k v) = g v + Tab.sumOf g m := by
  induction m with
  | nil => rfl
  | cons e r ih =>
    unfold Tab.place
    split
    · rfl
    · simp only [Tab.sumOf, List.map_cons, List.sum_cons] at ih ⊢
      omega

/-- Of a table whose keys rise, an erased entry takes its value out of the sum; an entry not listed counts as nothing. -/
theorem Tab.sumOf_erase {m : Tab α} (hrising : Tab.rising m = true) {d : α} (hd : g d = 0) (k : Nat) :
    Tab.sumOf g (Tab.erase m k) + g (Tab.get m d k) = Tab.sumOf g m := by
  induction m with
  | nil => simpa [Tab.sumOf, Tab.erase, Tab.get, Tab.find?] using hd
  | cons e r ih =>
    obtain ⟨k', v⟩ := e
    simp only [Tab.rising, Bool.and_eq_true, List.all_eq_true, decide_eq_true_eq] at hrising
    obtain ⟨habove, hrest⟩ := hrising
    by_cases hk : k' = k
    · subst hk
      have hkept : Tab.erase ((k', v) :: r) k' = r := by
        simpa [Tab.erase] using fun a b hab => Nat.ne_of_gt (habove (a, b) hab)
      rw [hkept]
      simp [Tab.get, Tab.find?, Tab.sumOf, Nat.add_comm]
    · have hkept : Tab.erase ((k', v) :: r) k = (k', v) :: Tab.erase r k := by simp [Tab.erase, hk]
      have hget : Tab.get ((k', v) :: r) d k = Tab.get r d k := by simp [Tab.get, Tab.find?, Ne.symm hk]
      have := ih hrest
      rw [hkept, hget]
      simp only [Tab.sumOf, List.map_cons, List.sum_cons] at this ⊢
      omega

theorem Tab.sumOf_put [DecidableEq α] {m : Tab α} {d : α} (hwf : Tab.wf m d = true) (hd : g d = 0) (k : Nat) (v : α) :
    Tab.sumOf g (Tab.put m d k v) + g (Tab.get m d k) = Tab.sumOf g m + g v := by
  have hrising : Tab.rising m = true := (Bool.and_eq_true _ _ ▸ hwf).1
  have herase := Tab.sumOf_erase g hrising hd k
  unfold Tab.put
  split
  · next hv =>
    rw [hv, hd]
    exact herase
  · rw [Tab.insert, Tab.sumOf_place]
    omega

end SumOf

/-! ### A refill and a spill of a pool -/

theorem PoolSt.free_eq (p : PoolSt) : p.free = segCount p.ring + Tab.sumOf segCount p.caches := by
  rw [PoolSt.free, Tab.sumOf, List.sum_eq_foldl, List.foldl_map]

/-- Entries that leave the ring for a cache, or a cache for the ring, keep the pool's free count. -/
theorem PoolSt.free_moved {p : PoolSt} (hwf : Tab.wf p.caches [] = true) (sl : Nat) {ring cache : List Seg}
    (hsum : segCount ring + segCount cache = segCount p.ring + segCount (p.caches.get [] sl)) :
    PoolSt.free { ring := ring, caches := p.caches.put [] sl cache } = p.free := by
  have hcaches := Tab.sumOf_put segCount hwf rfl sl cache
  simp only [PoolSt.free_eq]
  omega

theorem PoolSt.refill_eq (p : PoolSt) (stride sl : Nat) : p.refill stride sl =
    { ring := (segSplit stride p.ring 64).2, caches := p.caches.put [] sl (p.caches.get [] sl ++ (segSplit stride p.ring 64).1) } := rfl

theorem PoolSt.spill_eq (p : PoolSt) (stride sl : Nat) : p.spill stride sl =
    { ring := p.ring ++ (segSplit stride (p.caches.get [] sl) 64).1, caches := p.caches.put [] sl (segSplit stride (p.caches.get [] sl) 64).2 } := rfl

theorem PoolSt.free_refill {p : PoolSt} (hwf : Tab.wf p.caches [] = true) (stride sl : Nat) : (p.refill stride sl).free = p.free := by
  have hsplit := segCount_segSplit stride p.ring 64
  rw [PoolSt.refill_eq]
  exact PoolSt.free_moved hwf sl (by rw [segCount_append]; omega)

theorem PoolSt.free_spill {p : PoolSt} (hwf : Tab.wf p.caches [] = true) (stride sl : Nat) : (p.spill stride sl).free = p.free := by
  have hsplit := segCount_segSplit stride (p.caches.get [] sl) 64
  rw [PoolSt.spill_eq]
  exact PoolSt.free_moved hwf sl (by rw [segCount_append]; omega)

theorem PoolSt.cache_refill (p : PoolSt) (stride sl : Nat) :
    segCount ((p.refill stride sl).caches.get [] sl) = segCount (p.caches.get [] sl) + min 64 (segCount p.ring) := by
  rw [PoolSt.refill_eq, Tab.get_put_self, segCount_append, segCount_segSplit_fst]

theorem PoolSt.cache_spill (p : PoolSt) (stride sl : Nat) (h : 64 ≤ segCount (p.caches.get [] sl)) :
    segCount ((p.spill stride sl).caches.get [] sl) + 64 = segCount (p.caches.get [] sl) := by
  have htaken := segCount_segSplit_fst stride (p.caches.get [] sl) 64
  have hsplit := segCount_segSplit stride (p.caches.get [] sl) 64
  rw [PoolSt.spill_eq, Tab.get_put_self]
  omega

/-! ### The commands (R102) -/

@[simp] theorem State.pool_setPool_self (s : State) (k : Nat) (p : PoolSt) : (s.setPool k p).pool k = p := Tab.get_put_self _ _ _ _

theorem State.pool_setPool_ne (s : State) {k j : Nat} (p : PoolSt) (h : j ≠ k) : (s.setPool k p).pool j = s.pool j := Tab.get_put_ne _ _ _ _ h

/-- From `s` to `t` nothing changes but where the free entries of pool `k` stand. -/
abbrev State.keepsFree (s t : State) (k : Nat) : Prop :=
  (t.pool k).free = (s.pool k).free ∧ (∀ j, j ≠ k → t.pool j = s.pool j) ∧ t = { s with store := { s.store with pools := t.store.pools } }

theorem State.keepsFree_setPool (s : State) {k : Nat} {p : PoolSt} (h : p.free = (s.pool k).free) : s.keepsFree (s.setPool k p) k :=
  ⟨by rw [State.pool_setPool_self, h], fun _ hj => s.pool_setPool_ne p hj, rfl⟩

/-- A refill with no bad entry acts on a cache below refill_low while the ring holds entries. -/
theorem State.cacheRefill_good (s : State) (sl k : Nat) : s.cacheRefill sl k [] =
    if segCount ((s.pool k).caches.get [] sl) < s.reg (POOL_CACHE_CFG_refill_low k) ∧ 0 < segCount (s.pool k).ring then
      s.setPool k ((s.pool k).refill (poolUnits k) sl) else s := by
  simp [State.cacheRefill]

theorem State.cacheRefill_spec {s : State} {k : Nat} (hwf : Tab.wf (s.pool k).caches [] = true) (sl : Nat) :
    s.keepsFree (s.cacheRefill sl k []) k ∧
      (segCount ((s.pool k).caches.get [] sl) < s.reg (POOL_CACHE_CFG_refill_low k) →
        segCount (((s.cacheRefill sl k []).pool k).caches.get [] sl) =
          segCount ((s.pool k).caches.get [] sl) + min 64 (segCount (s.pool k).ring)) := by
  rw [State.cacheRefill_good]
  split
  · refine ⟨s.keepsFree_setPool (PoolSt.free_refill hwf _ _), fun _ => ?_⟩
    rw [State.pool_setPool_self, PoolSt.cache_refill]
  · next hidle => exact ⟨⟨rfl, fun _ _ => rfl, rfl⟩, fun hlow => by omega⟩

theorem State.cacheSpill_spec {s : State} {k : Nat} (hwf : Tab.wf (s.pool k).caches [] = true) (sl : Nat) :
    s.keepsFree (s.cacheSpill sl k) k ∧
      (s.reg (POOL_CACHE_CFG_spill_high k) < segCount ((s.pool k).caches.get [] sl) → 64 ≤ segCount ((s.pool k).caches.get [] sl) →
        segCount (((s.cacheSpill sl k).pool k).caches.get [] sl) + 64 = segCount ((s.pool k).caches.get [] sl)) := by
  unfold State.cacheSpill
  extract_lets p
  split
  · refine ⟨s.keepsFree_setPool (PoolSt.free_spill hwf _ _), fun _ hmany => ?_⟩
    rw [State.pool_setPool_self, PoolSt.cache_spill p _ _ hmany]
  · next hidle => exact ⟨⟨rfl, fun _ _ => rfl, rfl⟩, fun hhigh => absurd hhigh hidle⟩

/-- Settles O16: a split of segments loses none, and a table in canonical form counts each cache once. -/
theorem cachesKeepTheFreeBuffers : Obligations.CachesKeepTheFreeBuffers := by
  intro s sl k hl hwf
  obtain ⟨⟨hfree, hothers, hrest⟩, hrefilled⟩ := State.cacheRefill_spec hwf sl
  obtain ⟨⟨hfree', hothers', hrest'⟩, hspilled⟩ := State.cacheSpill_spec hwf sl
  exact ⟨⟨_, State.does_live (fun s => s.cacheRefill sl k []) hl, hfree, hothers, hrefilled, hrest⟩,
    ⟨_, State.does_live (fun s => s.cacheSpill sl k) hl, hfree', hothers', hspilled, hrest'⟩⟩

end Sys2Proof.Machine
end

section
/-! PROOFS. A program start whose header is uncorrectable (R115, R146): the error is counted in the store before the completion record is posted. -/

set_option Elab.async false

namespace Sys2Proof.Machine

/-! ### A completion ring that is not enabled (R366) -/

/-- A ring that is not enabled takes no record. -/
theorem State.postRec_disabled {s : State} {j : Nat} (h : s.flag (RING_CQ_CFG_en j) = false) (r : CRec) : (s.postRec j r).host.cqs = s.host.cqs := by
  rw [State.postRec_eq, h]
  rfl

theorem State.complete_disabled {s : State} {d : Nat} {x : Desc} (hd : s.desc d = some x) (h : s.flag (RING_CQ_CFG_en x.cq) = false) (r : Report) :
    (s.complete d r).host.cqs = s.host.cqs := by
  rcases State.complete_some hd r with hpost | ⟨-, hquiet⟩
  · rw [hpost, State.postRec_disabled (s := (s.dropDesc d).stamped) h]
    rfl
  · rw [hquiet]
    rfl

/-! ### The count of uncorrectable errors (R114) -/

theorem State.logUe_host (s : State) (addr req : Nat) : (s.logUe addr req).host = s.host := by rw [(s.portWork_logUe addr req).rest]

theorem State.reg_rasContained_ne (s : State) {cause : Nat} (hcause : cause ≠ 1) (unit status index : Nat) {f : Fld} (hoff : 0xA000 ≤ f.off)
    (hlo : f.lo < 64) : (s.rasContained unit cause status index).reg f = s.reg f := by
  have hkey {g : Fld} (hg : g.off < 0xA000) (hglo : g.lo < 64) : f.key ≠ g.key := by
    simp only [Fld.key]
    omega
  rw [State.rasContained, if_neg hcause, State.reg_rasLog_ne _ _ _ _ _ _ (by omega) hlo,
    State.reg_raise_ne _ _ (hkey (by decide) (by decide)) (hkey (by decide) (by decide)), State.reg_count_ne _ _ _ _ (hkey (by decide) (by decide))]

/-- An uncorrectable error is counted, and what logs it leaves the count alone. -/
theorem State.reg_logUe_count (s : State) (addr req : Nat) :
    (s.logUe addr req).reg STORE_CTR_ue_count = (s.reg STORE_CTR_ue_count + 1) % 2 ^ 64 := by
  unfold State.logUe
  extract_lets s1 s2 s3
  have hcount : s1.reg STORE_CTR_ue_count = (s.reg STORE_CTR_ue_count + 1) % 2 ^ 64 :=
    (State.reg_raise_ne _ _ (by decide) (by decide)).trans (s.reg_count_self _ 1)
  have hlog : s2.reg STORE_CTR_ue_count = s1.reg STORE_CTR_ue_count := by
    simp only [s2]
    rw [State.reg_setW1c_ne _ _ _ _ (by decide), State.reg_setReg_ne _ _ _ _ (by decide), State.reg_setReg_ne _ _ _ _ (by decide),
      State.reg_setReg_ne _ _ _ _ (by decide)]
  have hstamp : s3.reg STORE_CTR_ue_count = s2.reg STORE_CTR_ue_count := State.reg_setReg_ne _ _ _ _ (by decide)
  rw [State.reg_rasContained_ne _ (by decide) _ _ _ (by decide) (by decide), hstamp, hlog, hcount]

/-! ### START_PROGRAM with an uncorrectable header -/

theorem have_eq_of_eq {α β : Type} {v : α} {f : α → β} {r : β} (h : f v = r) : (have a := v; f a) = r := h

/-- The error is logged, and the descriptor completes at the failing word. The definition is unfolded as a function and its outer names are taken one
by one, as the kernel must not compare a range check, with its sizes in GiB, with its own value. -/
theorem State.startProgram_headerBad {s : State} {x : Desc} {w : Nat} {ws : List Nat} (himg : s.rangeCheck (leAt x.bytes 8 6) 64 [.program] = none)
    (hargs : s.rangeCheck (leAt x.bytes 16 6) 256 [.program] = none) (hbad : s.badWords (leAt x.bytes 8 6) 64 = w :: ws) (d : Nat) :
    s.startProgram d x = (s.logUe (w * 32) 3).complete d { status := stMemUncorrectable, detail := w * 32 } := by
  rw [show State.startProgram = delta% State.startProgram from rfl]
  refine have_eq_of_eq (have_eq_of_eq (have_eq_of_eq ?_))
  rw [himg, hargs, Option.or_none, hbad]
  rfl

theorem exec_startProgram {s : State} {d : Nat} {x : Desc} (h : s.serves d 2 x) : exec (.startProgram d) s = .next (s.startProgram d x) := by
  rw [show exec (.startProgram d) s = .next (s.runDesc d 2 none (fun x s => s.startProgram d x)) from
    State.does_live (fun s => s.runDesc d 2 none (fun x s => s.startProgram d x)) h.1, State.runDesc_servesAll h]

/-- START_PROGRAM of an image at 32 GiB, where the program region starts, whose argument block is there too. It names a completion ring far beyond the
1,024 that the device has: the place of that ring's enable bit is that of STORE_CTR.ue_count. -/
def startBeyondRings : Desc :=
  { sq := 0, bytes := [2, 0, 0, 0, 0, 0, 0, 0] ++ leBytes 8 0x800000000 ++ leBytes 8 0x800000000 ++ List.replicate 40 0, stamp := 0, arr := 0, cq := 421896 }

/-- Ready, that descriptor taken in, the header's first word uncorrectable, and ue_count one short of its wrap. Intake takes a ring's number from a
field of 10 bits, so no command leaves such a descriptor; the statement's states are not confined to those that commands leave. -/
def countAtWrap : State :=
  { regs := [(HUB_STATUS_ready.key, 1), (STORE_CTR_ue_count.key, 2 ^ 64 - 1)], store := { ue := [0x40000000] }, host := { descs := [(0, startBeyondRings)] } }

theorem serves_countAtWrap : countAtWrap.serves 0 2 startBeyondRings := by decide +kernel

theorem cqEnable_eq_ueCount (s : State) : s.flag (RING_CQ_CFG_en startBeyondRings.cq) = (s.reg STORE_CTR_ue_count != 0) := rfl

/-- Counting the error wraps the count to zero, and the ring takes no record. -/
theorem startProgram_countAtWrap_cqs : (countAtWrap.startProgram 0 startBeyondRings).host.cqs = [] := by
  have hstart : countAtWrap.startProgram 0 startBeyondRings =
      (countAtWrap.logUe (0x40000000 * 32) 3).complete 0 { status := stMemUncorrectable, detail := 0x40000000 * 32 } :=
    State.startProgram_headerBad (ws := []) (by decide +kernel) (by decide +kernel) (by decide +kernel) 0
  have hdesc : (countAtWrap.logUe (0x40000000 * 32) 3).desc 0 = some startBeyondRings := by
    rw [State.desc, State.logUe_host]
    rfl
  have hwrapped : (countAtWrap.logUe (0x40000000 * 32) 3).flag (RING_CQ_CFG_en startBeyondRings.cq) = false := by
    rw [cqEnable_eq_ueCount, State.reg_logUe_count]
    decide +kernel
  rw [hstart, State.complete_disabled hdesc hwrapped, State.logUe_host]
  rfl

/-- Refutes O36: its completion clauses let a descriptor name any completion ring. Where the ring's number is so large that its enable bit shares its
place with the count of uncorrectable errors, counting the header's error disables the ring, and the record that the statement wants is discarded. -/
theorem not_programsLoadAndStart : ¬ Obligations.ProgramsLoadAndStart := by
  intro h
  obtain ⟨-, hstart, -⟩ := h countAtWrap 0 startBeyondRings rfl
  obtain ⟨hbad, -⟩ := hstart _ _ _ _ serves_countAtWrap rfl rfl rfl rfl (by decide +kernel) (by decide +kernel)
  have huncorrectable := hbad 0x40000000 [] (by decide +kernel)
  obtain ⟨-, -, hrecord⟩ := huncorrectable.holds (exec_startProgram serves_countAtWrap)
  obtain ⟨r, hwaiting, -⟩ := hrecord (by decide +kernel) (by decide +kernel) (by decide +kernel)
  rw [State.cq, startProgram_countAtWrap_cqs] at hwaiting
  exact List.append_ne_nil_of_right_ne_nil _ (List.cons_ne_nil r []) hwaiting.symm

end Sys2Proof.Machine
end

section
/-! PROOFS. The store window and the link's time (R95, R96, R361, R443). -/

set_option Elab.async false

namespace Sys2Proof.Machine

section Window

variable {s : State} {a n : Nat} {b : Bytes}

/-- An open window returns good bytes of a range that may be read. -/
theorem State.bar4Read_good (hopen : s.bar4Open = true) (hrange : s.rangeCheck a n [.program, .seedbank] = none) (hgood : s.badWords a n = []) :
    s.bar4Read a n = (s.hubAccess a n).emit (.bar4Read a (some (s.storeRead a n))) := by
  simp [State.bar4Read, hopen, hrange, hgood]

theorem State.bar4Read_closed (hclosed : s.bar4Open = false) : s.bar4Read a n = s.emit (.bar4Read a none) := by
  simp [State.bar4Read, hclosed]

/-- An open window takes a write within the program region that covers no bad word in part. -/
theorem State.bar4Write_good (hopen : s.bar4Open = true) (hrange : s.rangeCheck a b.length [.program] = none)
    (hgood : s.partialUe a b.length = none) : s.bar4Write a b = ((s.storeWrite a b).hubAccess a b.length).emit (.bar4Write a true) := by
  simp [State.bar4Write, hopen, hrange, hgood]

/-- A write through a closed window, or one beyond the program region, is answered with an error and does nothing else. -/
theorem State.bar4Write_refused (h : s.bar4Open = false ∨ (s.rangeCheck a b.length [.program]).isSome = true) :
    s.bar4Write a b = s.emit (.bar4Write a false) := by
  rcases h with h | h <;> simp [State.bar4Write, h]

theorem exec_bar4Read (hl : s.live = true) : exec (.bar4Read a n) s = .next (s.bar4Read a n) := State.does_live (fun s => s.bar4Read a n) hl

theorem exec_bar4Write (hl : s.live = true) : exec (.bar4Write a b) s = .next (s.bar4Write a b) := State.does_live (fun s => s.bar4Write a b) hl

theorem exec_bar4Write_good (hl : s.live = true) (hopen : s.bar4Open = true) (hrange : s.rangeCheck a b.length [.program] = none)
    (hgood : s.partialUe a b.length = none) :
    Yields (.bar4Write a b) s (fun t => t.out = s.out ++ [.bar4Write a true] ∧ t.regs = s.regs ∧
      ∀ i, Mem.get t.store.mem i = if a ≤ i ∧ i < a + b.length then b.getD (i - a) 0 else Mem.get s.store.mem i) :=
  ⟨_, (exec_bar4Write hl).trans (congrArg _ (State.bar4Write_good hopen hrange hgood)), rfl, rfl, fun i => s.storeWrite_get a i b⟩

/-- The link comes up: the milliseconds since the end of the reset fit their field. -/
theorem exec_cxlLinkUp (hl : s.live = true) (hdown : s.sys.cxlUp = false) :
    Yields .cxlLinkUp s (fun t => t.sys.cxlUp = true ∧
      t.reg HUB_BOOT_TIME_link_ms = min 65535 ((s.clk.cyc - s.sys.endCyc) / 1000000)) := by
  refine ⟨s.cxlLinkUp, State.does_live State.cxlLinkUp hl, ?_⟩
  have hfits : min 65535 ((s.clk.cyc - s.sys.endCyc) / 1000000) < 2 ^ HUB_BOOT_TIME_link_ms.w :=
    Nat.lt_of_le_of_lt (Nat.min_le_left _ _) (by decide)
  simp only [State.cxlLinkUp, hdown, Bool.false_eq_true, if_false]
  exact ⟨rfl, (State.reg_setReg_self _ _ _).trans (Nat.mod_eq_of_lt hfits)⟩

end Window

/-- Settles O39: each answer of the window by its own equation, and the byte read after a write by the law of the store's memory. -/
theorem theStoreWindow : Obligations.TheStoreWindow := by
  intro s a n b hl
  refine ⟨fun hopen hrange hgood => ?_, fun hclosed => ⟨?_, ?_⟩, exec_bar4Write_good hl, fun st hrange => ?_, exec_cxlLinkUp hl⟩
  · rw [exec_bar4Read hl, State.bar4Read_good hopen hrange hgood]
  · rw [exec_bar4Read hl, State.bar4Read_closed hclosed]
  · rw [exec_bar4Write hl, State.bar4Write_refused (.inl hclosed)]
  · rw [exec_bar4Write hl, State.bar4Write_refused (.inr (Option.isSome_of_eq_some hrange))]

end Sys2Proof.Machine
end

section
/-! PROOFS. Policer rates while a record of the same register waits for room (R126, R407): the write replaces that record, in SOLO too. -/

set_option Elab.async false

namespace Sys2Proof.Machine

/-- A write of PORT_POL_RATE, carried out and mirrored (R126, R408). -/
theorem exec_policerRateWrite {s : State} (hl : s.live = true) (hr : s.flag HUB_STATUS_ready = true) (p : Port) (l : Lp) (c : Fin 7) (v : Nat) :
    exec (.policerRateWrite p l c v) s = .next (s.hostMirrored p.val (0x2000 + 0x200 * l.val + 0x40 * c.val) v) :=
  (State.does_live (fun s => s.whenReady (fun s => s.hostMirrored p.val (0x2000 + 0x200 * l.val + 0x40 * c.val) v)) hl).trans
    (congrArg _ (State.whenReady_ready (fun s => s.hostMirrored p.val (0x2000 + 0x200 * l.val + 0x40 * c.val) v) hr))

/-- What waits for room keeps its place, and a record of the same kind is replaced (R407). Whether there is a twin is not asked. -/
theorem State.mirrorLatest_held {s : State} {same : Bytes → Bool} (h : s.mir.held.any (fun x => x.recs.any same) = true) (r : Bytes) :
    (s.mirrorLatest r same).mir.held = s.mir.held.map (fun x => { x with recs := x.recs.map (fun y => if same y then r else y) }) := by
  rw [State.mirrorLatest, if_pos h]

/-- The write itself leaves the mirror engine alone. -/
theorem State.policerWrite_mir (s : State) (src c v : Nat) : (s.policerWrite src c v).mir = s.mir := by
  unfold State.policerWrite
  extract_lets p l rise s1 q
  split
  · rfl
  · split <;> rfl

/-- A REG record of PORT_POL_RATE of port 0, logical port 0, class 0, with value `v`, waits for room. -/
def rateWaits (v : Nat) : MirHeld := { recs := [regRec 0 0x2000 v], acts := [], since := 0 }

/-- Clocks running, ready, in SOLO, and a REG record with cir 1 waits for room. Records come to wait while a pod pairs; the statement asks for SOLO
alone, and its states are not confined to those that commands leave. -/
def soloRateWaits : State := { regs := [(HUB_STATUS_ready.key, 1)], mir := { held := [rateWaits 1] } }

/-- A write of 0 to the register replaces the waiting record. -/
theorem hostMirrored_soloRateWaits : (soloRateWaits.hostMirrored 0 0x2000 0).mir.held = [rateWaits 0] := by
  have hmir : (soloRateWaits.writeMirrored 0 0x2000 0).mir = soloRateWaits.mir := by
    rw [State.writeMirrored, if_pos (by decide), State.policerWrite_mir]
  rw [State.hostMirrored, State.mirrorLatest_held (by rw [hmir]; decide +kernel), hmir]
  decide +kernel

/-- Refutes O14: a write of policer rates in SOLO also rewrites a REG record of the same register that waits for room, so not only registers change. -/
theorem not_gatesAndPolicers : ¬ Obligations.GatesAndPolicers := by
  intro h
  obtain ⟨-, -, -, -, hkept⟩ := h soloRateWaits 0 rfl
  have hwrite := hkept 0 0 0 rfl (.inr rfl)
  obtain ⟨-, -, -, -, hsolo⟩ := hwrite.holds (exec_policerRateWrite rfl rfl 0 0 0 0)
  obtain ⟨honly, -⟩ := hsolo rfl
  have hheld : [rateWaits 0] = [rateWaits 1] := hostMirrored_soloRateWaits.symm.trans (congrArg (·.mir.held) honly)
  exact absurd hheld (by decide +kernel)

end Sys2Proof.Machine
end

section
/-! PROOFS. The issue of an instruction (R143, R149, R151, R153–R158, R183, R187, R188, R204): the state in which it acts and what follows its effect are
named once, so that each instruction is the lemma of its effect alone. -/

namespace Sys2Proof.Machine

/-! ### Besides its context an instruction changes registers and channels alone -/

section CtxOnly

variable {s t u : State} {cx : Nat}

theorem ctxOnly_trans (h : ctxOnly cx s t) (h' : ctxOnly cx t u) : ctxOnly cx s u := by
  obtain ⟨hrest, hothers⟩ := h
  obtain ⟨hrest', hothers'⟩ := h'
  exact ⟨by rw [hrest', hrest], fun c hc => (hothers' c hc).trans (hothers c hc)⟩

theorem ctxOnly_modCtx (s : State) (cx : Nat) (f : Ctx → Ctx) : ctxOnly cx s (s.modCtx cx f) :=
  ⟨rfl, fun _ hc => State.ctx_modCtx_ne _ _ _ _ hc⟩

theorem ctxOnly_modChan (s : State) (cx ch : Nat) (f : Chan → Chan) : ctxOnly cx s (s.modChan ch f) := ⟨rfl, fun _ _ => rfl⟩

theorem ctxOnly_count (s : State) (cx : Nat) (f : Fld) (n : Nat) : ctxOnly cx s (s.count f n) := ⟨rfl, fun _ _ => rfl⟩

end CtxOnly

/-! ### The sequencer goes on (R153, R154) -/

/-- Going on moves the pc and the active loops alone. -/
theorem Ctx.goto_rest (k : Ctx) (next fuel : Nat) : k.goto next fuel = { k with pc := (k.goto next fuel).pc, loops := (k.goto next fuel).loops } := by
  induction fuel generalizing k with
  | zero => rfl
  | succ n ih =>
    unfold Ctx.goto
    split
    · split
      · split
        · rfl
        · exact ih _
      · rfl
    · rfl

theorem Ctx.forward_rest (k : Ctx) : k.forward = { k with pc := k.forward.pc, loops := k.forward.loops } := k.goto_rest _ _

/-- Where it goes on is told by the active loops. -/
theorem Ctx.goto_pc_congr {k k' : Ctx} (h : k'.loops = k.loops) (next fuel : Nat) : (k'.goto next fuel).pc = (k.goto next fuel).pc := by
  induction fuel generalizing k k' with
  | zero => rfl
  | succ n ih =>
    unfold Ctx.goto
    rw [h]
    cases k.loops with
    | nil => rfl
    | cons l r =>
      by_cases hend : next = l.last + 1
      · by_cases hmore : 1 < l.left
        · simp only [if_pos hend, if_pos hmore]
        · simp only [if_pos hend, if_neg hmore]
          exact ih rfl
      · simp only [if_neg hend]

theorem Ctx.forward_pc_congr {k k' : Ctx} (hpc : k'.pc = k.pc) (hloops : k'.loops = k.loops) : k'.forward.pc = k.forward.pc := by
  unfold Ctx.forward
  rw [hpc, hloops]
  exact Ctx.goto_pc_congr hloops _ _

/-! ### Before and after the effect of an instruction (R143) -/

/-- The context as its instruction finds it. -/
def Ctx.issuing (k : Ctx) : Ctx := { k with st := .run, waits := 0 }

/-- The next SEQ cycle of the context's core that is free to issue. -/
def State.freeAt (s : State) (cx n : Nat) : State := s.modChan (chOf cx) (fun c => { c with nextSeq := c.nextSeq.put 0 (coreOf cx) n })

/-- The state that the instruction of a context acts on. -/
def State.issuing (s : State) (cx : Nat) : State := (s.modCtx cx Ctx.issuing).freeAt cx (s.issueSeq cx + 1)

/-- The instruction is issued: counted, with the turn of its core. -/
def State.issued (s : State) (cx : Nat) : State :=
  let last := (s.chan (chOf cx)).lastCtx.get 0 (coreOf cx)
  let s := if last = 0 || last = cx % 8 + 1 then s else s.count (CH_CTR_ctx_switches (chOf cx))
  (s.modChan (chOf cx) (fun c => { c with lastCtx := c.lastCtx.put 0 (coreOf cx) (cx % 8 + 1) })).count (CH_CTR_instr_issued (chOf cx))

section Issue

variable {s : State} {cx w op : Nat}

theorem State.runs_issues (h : s.issues cx w op) (f : State → State) : s.runs f = .next (f s) := by
  obtain ⟨hlive, hfatal, -⟩ := h
  exact State.runs_live f hlive hfatal

/-- A context whose turn it is issues, unless its instruction finds no room and leaves the cycle free. -/
theorem State.issue_eq (h : s.issues cx w op) {ok : Nat → Bool} (hok : ok op = true) (f : Ctx → Nat → State → State) : s.issue cx ok f =
    if ((f (s.ctx cx) w (s.issuing cx)).ctx cx).waits = 2
    then (f (s.ctx cx) w (s.issuing cx)).freeAt cx ((s.chan (chOf cx)).nextSeq.get 0 (coreOf cx))
    else (f (s.ctx cx) w (s.issuing cx)).issued cx := by
  obtain ⟨-, -, hword, hmay, hop, hgood⟩ := h
  unfold State.issue
  simp only [hword, hmay, hop, hok, hgood, Bool.not_true, Bool.or_self, Bool.false_eq_true, if_false]
  rfl

@[simp] theorem State.ctx_freeAt (s : State) (cx n c : Nat) : (s.freeAt cx n).ctx c = s.ctx c := rfl

theorem ctxOnly_freeAt (s : State) (cx n : Nat) : ctxOnly cx s (s.freeAt cx n) := ctxOnly_modChan _ _ _ _

@[simp] theorem State.ctx_issuing (s : State) (cx : Nat) : (s.issuing cx).ctx cx = (s.ctx cx).issuing := s.ctx_modCtx_self cx Ctx.issuing

theorem ctxOnly_issuing (s : State) (cx : Nat) : ctxOnly cx s (s.issuing cx) := ctxOnly_trans (ctxOnly_modCtx _ _ _) (ctxOnly_freeAt _ _ _)

/-- The instruction acts in the SEQ cycle that it takes. -/
@[simp] theorem State.seqNow_issuing (s : State) (cx : Nat) : (s.issuing cx).seqNow (chOf cx) (coreOf cx) = s.issueSeq cx := by
  have hnext : ((s.issuing cx).chan (chOf cx)).nextSeq.get 0 (coreOf cx) = s.issueSeq cx + 1 := by
    rw [State.issuing, State.freeAt, State.chan_modChan_self]
    exact Tab.get_put_self (s.chan (chOf cx)).nextSeq 0 (coreOf cx) (s.issueSeq cx + 1)
  have hcyc : (s.issuing cx).clk.cyc * 5 / 4 ≤ s.issueSeq cx := Nat.le_max_left _ _
  rw [State.seqNow, hnext]
  omega

@[simp] theorem State.ctx_issued (s : State) (cx c : Nat) : (s.issued cx).ctx c = s.ctx c := by
  unfold State.issued
  extract_lets last s1
  change s1.ctx c = s.ctx c
  dsimp only [s1]
  split <;> rfl

theorem ctxOnly_issued (s : State) (cx : Nat) : ctxOnly cx s (s.issued cx) := by
  unfold State.issued
  extract_lets last s1
  have hswitch : ctxOnly cx s s1 := by
    dsimp only [s1]
    split
    · exact ⟨rfl, fun _ _ => rfl⟩
    · exact ctxOnly_count _ _ _ _
  exact ctxOnly_trans (ctxOnly_trans hswitch (ctxOnly_modChan _ _ _ _)) (ctxOnly_count _ _ _ _)

theorem State.reg_issued (s : State) (cx : Nat) :
    (s.issued cx).reg (CH_CTR_instr_issued (chOf cx)) = (s.reg (CH_CTR_instr_issued (chOf cx)) + 1) % 2 ^ 64 := by
  unfold State.issued
  extract_lets last s1
  have hswitch : s1.reg (CH_CTR_instr_issued (chOf cx)) = s.reg (CH_CTR_instr_issued (chOf cx)) := by
    dsimp only [s1]
    split
    · rfl
    · refine State.reg_count_ne _ _ _ _ ?_
      simp only [Fld.key, CH_CTR_instr_issued, CH_CTR_ctx_switches]
      omega
  rw [State.reg_count_self, State.reg_modChan, hswitch]
  rfl

/-- An instruction whose effect `u` changes its context alone and leaves it running. -/
theorem State.issue_effect (h : s.issues cx w op) {ok : Nat → Bool} (hok : ok op = true) {f : Ctx → Nat → State → State} {u : State}
    (hu : f (s.ctx cx) w (s.issuing cx) = u) (honly : ctxOnly cx (s.issuing cx) u) (hgoes : (u.ctx cx).waits ≠ 2) :
    ctxOnly cx s (s.issue cx ok f) ∧ (s.issue cx ok f).ctx cx = u.ctx cx ∧
      (s.issue cx ok f).reg (CH_CTR_instr_issued (chOf cx)) = (u.reg (CH_CTR_instr_issued (chOf cx)) + 1) % 2 ^ 64 := by
  rw [State.issue_eq h hok, hu, if_neg hgoes]
  exact ⟨ctxOnly_trans (ctxOnly_trans (ctxOnly_issuing s cx) honly) (ctxOnly_issued u cx), u.ctx_issued cx cx, u.reg_issued cx⟩

end Issue

/-! ### cnt, cmp, loop and brk (R149, R153–R157, R187, R188) -/

section Flow

variable {s : State} {cx : Cx} {w : Nat}

theorem Ctx.waits_setReg (k : Ctx) (cls n v : Nat) : (k.setReg cls n v).waits = k.waits := by
  unfold Ctx.setReg
  split <;> rfl

theorem Ctx.waits_issueReg (k : Ctx) (seq cls n v : Nat) : (k.issueReg seq cls n v).waits = k.waits := by
  unfold Ctx.issueReg
  split
  · rfl
  · exact k.waits_setReg cls n v

theorem Ctx.waits_goto (k : Ctx) (next fuel : Nat) : (k.goto next fuel).waits = k.waits := by rw [Ctx.goto_rest]

theorem Ctx.waits_forward (k : Ctx) : k.forward.waits = k.waits := k.waits_goto _ _

theorem State.modCtx_modCtx (s : State) (cx : Nat) (f g : Ctx → Ctx) : (s.modCtx cx f).modCtx cx g = s.modCtx cx (fun k => g (f k)) := by
  rw [State.modCtx, State.ctx_modCtx_self]
  simp only [State.modCtx, Tab.put_put]

theorem State.next_modCtx (s : State) (cx : Nat) (f : Ctx → Ctx) : (s.modCtx cx f).next cx = s.modCtx cx (fun k => (f k).forward) :=
  s.modCtx_modCtx cx f Ctx.forward

/-- An instruction that changes its context by `g`, which leaves it running. -/
theorem exec_issue_modCtx {c : Instr} {op : Nat} {ok : Nat → Bool} {f : Ctx → Nat → State → State} {g : Ctx → Ctx} (h : s.issues cx w op)
    (hrun : exec c s = .next (s.issue cx ok f)) (hok : ok op = true)
    (hf : f (s.ctx cx) w (s.issuing cx) = (s.issuing cx).modCtx cx g) (hg : ∀ k : Ctx, (g k).waits = k.waits) :
    Yields c s (fun t => ctxOnly cx s t ∧ t.ctx cx = g (s.ctx cx).issuing ∧
      t.reg (CH_CTR_instr_issued (chOf cx)) = (s.reg (CH_CTR_instr_issued (chOf cx)) + 1) % 2 ^ 64) := by
  have hctx : ((s.issuing cx).modCtx cx g).ctx cx = g (s.ctx cx).issuing := by rw [State.ctx_modCtx_self, State.ctx_issuing]
  have hgoes : (g (s.ctx cx).issuing).waits ≠ 2 := by
    rw [hg]
    exact (by decide : 0 ≠ 2)
  obtain ⟨hrest, hself, hcount⟩ := State.issue_effect h hok hf (ctxOnly_modCtx _ _ _) (by rw [hctx]; exact hgoes)
  exact ⟨_, hrun, hrest, hself.trans hctx, hcount⟩

theorem exec_cnt (h : s.issues cx w 3) : exec (.cnt cx) s = .next (s.issueCnt cx) := State.runs_issues h fun s => s.issueCnt cx

theorem exec_cmp (h : s.issues cx w 4) : exec (.cmp cx) s = .next (s.issueCmp cx) := State.runs_issues h fun s => s.issueCmp cx

theorem exec_loop (h : s.issues cx w 1) : exec (.loop cx) s = .next (s.issueLoop cx) := State.runs_issues h fun s => s.issueLoop cx

theorem exec_brk (h : s.issues cx w 2) : exec (.brk cx) s = .next (s.issueBrk cx) := State.runs_issues h fun s => s.issueBrk cx

theorem exec_cnt_writes (h : s.issues cx w 3) {k : Ctx} (hk : k = (s.ctx cx).issuing) {v u : Nat}
    (hv : v = if bits w 14 2 < 2 then bits w 32 48 else k.reg (bits w 16 2) (bits w 18 4)) (hu : u = if bits w 8 2 = 0 then v else v % 2 ^ 32) :
    Yields (.cnt cx) s (fun t => ctxOnly cx s t ∧ t.ctx cx = Ctx.forward (if k.engAt.get 0 (16 * bits w 8 2 + bits w 10 4) = s.issueSeq cx + 1 then k
        else k.setReg (bits w 8 2) (bits w 10 4) (if bits w 14 2 % 2 = 1 then k.reg (bits w 8 2) (bits w 10 4) + u else u)) ∧
      t.reg (CH_CTR_instr_issued (chOf cx)) = (s.reg (CH_CTR_instr_issued (chOf cx)) + 1) % 2 ^ 64) := by
  subst hk hv hu
  refine exec_issue_modCtx (g := fun c => (c.issueReg (s.issueSeq cx) (bits w 8 2) (bits w 10 4) _).forward) h (exec_cnt h) rfl ?_
    fun k => (Ctx.waits_forward _).trans (k.waits_issueReg _ _ _ _)
  dsimp only
  rw [State.seqNow_issuing]
  exact State.next_modCtx _ _ _

theorem exec_cmp_compares (h : s.issues cx w 4) {k : Ctx} (hk : k = (s.ctx cx).issuing) {x y : Nat}
    (hx : x = k.reg (if bitOf w 13 then 2 else 1) (bits w 14 4))
    (hy : y = if bitOf w 18 then bits w 32 32 else k.reg (if bitOf w 19 then 2 else 1) (bits w 20 4)) :
    Yields (.cmp cx) s (fun t => ctxOnly cx s t ∧ t.ctx cx =
      Ctx.forward { k with k := if cmpHolds (bits w 10 3) x y then setBit k.k (bits w 8 2) else clearBit k.k (bits w 8 2) }) := by
  subst hk hx hy
  obtain ⟨t, hrun, honly, hctx, -⟩ := exec_issue_modCtx h (exec_cmp h) rfl (State.next_modCtx _ _ _) fun k => Ctx.waits_forward _
  exact ⟨t, hrun, honly, hctx⟩

theorem exec_loop_enters (h : s.issues cx w 1) {k : Ctx} (hk : k = (s.ctx cx).issuing) {n last : Nat}
    (hn : n = if bitOf w 10 then k.reg 1 (bits w 11 3) else bits w 11 16) (hlast : last = k.pc + bits w 27 12 + 1) :
    Yields (.loop cx) s (fun t => ctxOnly cx s t ∧ t.ctx cx = if n = 0 then k.goto (last + 1) k.loops.length
      else { k with pc := k.pc + 1, loops := { reg := bits w 8 2, first := k.pc + 1, last := last, left := n } :: k.loops }) := by
  subst hk hlast
  by_cases hzero : n = 0
  · obtain ⟨t, hrun, honly, hctx, -⟩ := exec_issue_modCtx h (exec_loop h) rfl (if_pos (hn.symm.trans hzero)) fun k => k.waits_goto _ _
    exact ⟨t, hrun, honly, hctx.trans (if_pos hzero).symm⟩
  · rw [hn] at hzero ⊢
    obtain ⟨t, hrun, honly, hctx, -⟩ := exec_issue_modCtx h (exec_loop h) rfl (if_neg hzero) fun _ => rfl
    exact ⟨t, hrun, honly, hctx.trans (if_neg hzero).symm⟩

theorem exec_brk_leaves (h : s.issues cx w 2) {k : Ctx} (hk : k = (s.ctx cx).issuing) {l : Loop} {r : List Loop}
    (hl : leaveLoop (bits w 8 2) k.loops = some (l, r)) :
    Yields (.brk cx) s (fun t => ctxOnly cx s t ∧ t.ctx cx =
      if bitOf k.k (bits w 10 2) then Ctx.goto { k with loops := r } (l.last + 1) r.length else k.forward) := by
  subst hk
  have hactive : leaveLoop (bits w 8 2) (s.ctx cx).loops = some (l, r) := hl
  by_cases hset : bitOf (s.ctx cx).k (bits w 10 2) = true
  · obtain ⟨t, hrun, honly, hctx, -⟩ := exec_issue_modCtx (g := fun c => Ctx.goto { c with loops := r } (l.last + 1) r.length) h (exec_brk h) rfl
      (by rw [hactive]; exact if_pos hset) fun k => Ctx.waits_goto _ _ _
    exact ⟨t, hrun, honly, hctx.trans (if_pos hset).symm⟩
  · obtain ⟨t, hrun, honly, hctx, -⟩ := exec_issue_modCtx (g := Ctx.forward) h (exec_brk h) rfl
      (by rw [hactive]; exact if_neg hset) Ctx.waits_forward
    exact ⟨t, hrun, honly, hctx.trans (if_neg hset).symm⟩

end Flow

/-- Settles O17: each of the four changes its context by an update of its own, in the SEQ cycle that it takes. -/
theorem sequencerRegistersAndFlow : Obligations.SequencerRegistersAndFlow := by
  intro s cx w k hk
  exact ⟨fun h _ hv _ hu => exec_cnt_writes h hk hv hu, fun h _ _ hx hy => exec_cmp_compares h hk hx hy, fun h _ _ hn hlast => exec_loop_enters h hk hn hlast,
    fun h _ _ hl => exec_brk_leaves h hk hl⟩

end Sys2Proof.Machine
end

section
/-! PROOFS. An engine instruction joins its queue (R149, R151, R158, R183, R204). -/

namespace Sys2Proof.Machine

/-! ### Registers advance (R151) -/

/-- What one slot does to the context, and to the registers that have advanced already. -/
def advanceSlot (seq w r : Nat) (x : Ctx × List Nat) (t : Nat) : Ctx × List Nat :=
  if slUpd t && !x.2.contains (slReg t) then
    (x.1.issueReg seq 0 (slReg t) (((x.1.reg 0 (slReg t) : Int) + r * strideOf w t) % ((2 ^ 48 : Nat) : Int)).toNat, slReg t :: x.2)
  else x

theorem advance_eq (seq w r : Nat) (k : Ctx) :
    advance seq w r k = if r = 0 then k else ([slotA w, slotB w, slotD w].foldl (advanceSlot seq w r) (k, [])).1 := rfl

theorem Ctx.issueReg_address (k : Ctx) (seq n v : Nat) :
    k.issueReg seq 0 n v = { k with a := if k.engAt.get 0 n = seq + 1 then k.a else k.a.put 0 n (v % 2 ^ 48) } := by
  rw [Ctx.issueReg, Nat.mul_zero, Nat.zero_add]
  split <;> rfl

/-- Address registers advance, and nothing else. -/
theorem advance_rest (seq w r : Nat) (k : Ctx) : advance seq w r k = { k with a := (advance seq w r k).a } := by
  rw [advance_eq]
  split
  · rfl
  · refine List.foldlRecOn (motive := fun x : Ctx × List Nat => x.1 = { k with a := x.1.a }) _ _ rfl fun x hx t _ => ?_
    unfold advanceSlot
    split
    · rw [Ctx.issueReg_address, hx]
    · exact hx

/-- How they advance is told by what they hold and by the writes of the engines. -/
theorem advance_a_congr {k k' : Ctx} (ha : k'.a = k.a) (heng : k'.engAt = k.engAt) (seq w r : Nat) :
    (advance seq w r k').a = (advance seq w r k).a := by
  rw [advance_eq, advance_eq]
  split
  · exact ha
  · have hall := List.foldl_rel (l := [slotA w, slotB w, slotD w]) (f := advanceSlot seq w r) (g := advanceSlot seq w r) (a := (k', [])) (b := (k, []))
      (r := fun x y => x.1.a = y.1.a ∧ x.1.engAt = y.1.engAt ∧ x.2 = y.2) ⟨ha, heng, rfl⟩ fun t _ x y ⟨hxa, hxe, hdone⟩ => by
        unfold advanceSlot
        rw [hdone]
        split
        · simp only [Ctx.issueReg_address, Ctx.reg, hxa, hxe, and_self]
        · exact ⟨hxa, hxe, hdone⟩
    exact hall.1

/-! ### Queues (R158) -/

section Queue

variable {s : State} {cx q : Nat} {e : Entry} {upd : Ctx → Ctx}

/-- The context with an entry behind those of a queue. -/
def Ctx.joined (k : Ctx) (now : FT64) (q : Nat) (e : Entry) : Ctx :=
  { k with q := k.q.put [] q (k.queue q ++ [if (k.queue q).isEmpty then k.atHead now e else e]) }

theorem Ctx.queue_joined (k : Ctx) (now : FT64) (q : Nat) (e : Entry) :
    (k.joined now q e).queue q = k.queue q ++ [if (k.queue q).isEmpty then k.atHead now e else e] := Tab.get_put_self k.q [] q _

theorem State.push_eq (s : State) (cx q : Nat) (e : Entry) : s.push cx q e = s.modCtx cx (fun k => k.joined s.now q e) := rfl

/-- A queue with room takes the entry, and the context goes on. -/
theorem State.queueAll_room (h : ((s.ctx cx).queue q).length < 64) (e : Entry) (upd : Ctx → Ctx) :
    s.queueAll cx [q] e upd = s.modCtx cx (fun k => (upd (k.joined s.now q e)).forward) := by
  have hroom : (s.ctx cx).noRoom [q] = false := by simp [Ctx.noRoom, h]
  simp only [State.queueAll, hroom, Bool.false_eq_true, if_false, List.foldl_cons, List.foldl_nil, State.push_eq, State.modCtx_modCtx, State.next_modCtx]

/-- With a full one it waits. -/
theorem State.queueAll_full (h : 64 ≤ ((s.ctx cx).queue q).length) (e : Entry) (upd : Ctx → Ctx) : s.queueAll cx [q] e upd = s.waitOn cx 2 := by
  have hroom : (s.ctx cx).noRoom [q] = true := by simp [Ctx.noRoom, h]
  rw [State.queueAll, hroom]
  rfl

end Queue

/-! ### The instruction (R149, R183, R204) -/

section Engine

variable {s : State} {cx : Cx} {w op : Nat}

/-- What the issue makes of the registers: they advance by `r` repeats in SEQ cycle `seq`, and a precv names the pip of later arrivals. -/
def Ctx.engineUpd (seq w r : Nat) (k : Ctx) : Ctx :=
  let k := advance seq w r k
  if iOp w = 0x51 && bits w 105 6 != 63 then { k with apip := some (bits w 105 6) } else k

theorem Ctx.engineUpd_rest (seq w r : Nat) (k : Ctx) : k.engineUpd seq w r =
    { k with a := (advance seq w r k).a, apip := if iOp w = 0x51 ∧ bits w 105 6 ≠ 63 then some (bits w 105 6) else k.apip } := by
  unfold Ctx.engineUpd
  rw [advance_rest]
  by_cases h : iOp w = 0x51 ∧ bits w 105 6 ≠ 63
  · simp [h]
  · rw [if_neg h, if_neg (by simpa using h)]

theorem Ctx.q_engineUpd (seq w r : Nat) (k : Ctx) : (k.engineUpd seq w r).q = k.q := by rw [Ctx.engineUpd_rest]

theorem Ctx.a_engineUpd (seq w r : Nat) (k : Ctx) : (k.engineUpd seq w r).a = (advance seq w r k).a := by rw [Ctx.engineUpd_rest]

theorem Ctx.apip_engineUpd (seq w r : Nat) (k : Ctx) :
    (k.engineUpd seq w r).apip = if iOp w = 0x51 ∧ bits w 105 6 ≠ 63 then some (bits w 105 6) else k.apip := by rw [Ctx.engineUpd_rest]

theorem Ctx.pc_engineUpd (seq w r : Nat) (k : Ctx) : (k.engineUpd seq w r).pc = k.pc := by rw [Ctx.engineUpd_rest]

theorem Ctx.loops_engineUpd (seq w r : Nat) (k : Ctx) : (k.engineUpd seq w r).loops = k.loops := by rw [Ctx.engineUpd_rest]

theorem Ctx.q_forward (k : Ctx) : k.forward.q = k.q := by rw [Ctx.forward_rest]

theorem Ctx.a_forward (k : Ctx) : k.forward.a = k.a := by rw [Ctx.forward_rest]

theorem Ctx.apip_forward (k : Ctx) : k.forward.apip = k.apip := by rw [Ctx.forward_rest]

theorem targets_engine (h : isEngine (iOp w) = true) : targets w = [iQueue w] := if_pos h

theorem exec_engineIssue (h : s.issues cx w op) : exec (.engineIssue cx) s = .next (s.issueEngine cx) :=
  State.runs_issues h fun s => s.issueEngine cx

/-- The context after an issue in SEQ cycle `seq`. -/
def Ctx.engineIssued (k : Ctx) (now : FT64) (seq w : Nat) : Ctx :=
  ((k.issuing.joined now (iQueue w) (k.entry w)).engineUpd seq w (repeats w (k.reg 1 (bits w 17 3)))).forward

theorem Ctx.engineIssued_spec (k : Ctx) (now : FT64) (seq w : Nat) :
    ((k.engineIssued now seq w).queue (iQueue w)).map (fun e => (e.word, e.pc, e.a, e.b, e.d)) =
        (k.queue (iQueue w)).map (fun e => (e.word, e.pc, e.a, e.b, e.d)) ++
          [(w, k.pc, k.reg 0 (slReg (slotA w)), k.reg 0 (slReg (slotB w)), k.reg 0 (slReg (slotD w)))] ∧
      (k.engineIssued now seq w).a = (advance seq w (repeats w (k.reg 1 (bits w 17 3))) k).a ∧
      (k.engineIssued now seq w).apip = (if iOp w = 0x51 ∧ bits w 105 6 ≠ 63 then some (bits w 105 6) else k.apip) ∧
      (k.engineIssued now seq w).pc = k.forward.pc := by
  refine ⟨?_, ?_, ?_, ?_⟩
  · have hq : (k.engineIssued now seq w).q = (k.issuing.joined now (iQueue w) (k.entry w)).q := by rw [Ctx.engineIssued, Ctx.q_forward, Ctx.q_engineUpd]
    rw [Ctx.queue, hq, ← Ctx.queue, Ctx.queue_joined, List.map_append]
    congr 1
    split <;> rfl
  · rw [Ctx.engineIssued, Ctx.a_forward, Ctx.a_engineUpd]
    exact advance_a_congr (k := k) (k' := k.issuing.joined now (iQueue w) (k.entry w)) rfl rfl seq w _
  · rw [Ctx.engineIssued, Ctx.apip_forward, Ctx.apip_engineUpd]
    rfl
  · exact Ctx.forward_pc_congr (Ctx.pc_engineUpd _ _ _ _) (Ctx.loops_engineUpd _ _ _ _)

/-- With room in the queue it is issued. -/
theorem exec_engineIssue_room (h : s.issues cx w op) (heng : isEngine op = true) (hroom : ((s.ctx cx).queue (iQueue w)).length < 64) :
    Yields (.engineIssue cx) s (fun t => ctxOnly cx s t ∧ t.ctx cx = (s.ctx cx).engineIssued s.now (s.issueSeq cx) w) := by
  have hop : isEngine (iOp w) = true := by
    obtain ⟨-, -, -, -, rfl, -⟩ := h
    exact heng
  have hroom' : (((s.issuing cx).ctx cx).queue (iQueue w)).length < 64 := by rwa [State.ctx_issuing]
  obtain ⟨t, hrun, honly, hctx, -⟩ := exec_issue_modCtx (g := fun c => ((c.joined s.now (iQueue w) ((s.ctx cx).entry w)).engineUpd (s.issueSeq cx) w
    (repeats w ((s.ctx cx).reg 1 (bits w 17 3)))).forward) h (exec_engineIssue h) heng (by
      dsimp only
      rw [targets_engine hop, State.seqNow_issuing]
      exact State.queueAll_room hroom' _ _) fun k => by rw [Ctx.waits_forward, Ctx.engineUpd_rest, Ctx.joined]
  exact ⟨t, hrun, honly, hctx⟩

/-- With a full queue the context waits for room, and the cycle stays free. -/
theorem exec_engineIssue_full (h : s.issues cx w op) (heng : isEngine op = true) (hfull : 64 ≤ ((s.ctx cx).queue (iQueue w)).length) :
    Yields (.engineIssue cx) s (fun t => ctxOnly cx s t ∧
      (t.ctx cx).st = .wait ∧ (t.ctx cx).waits = 2 ∧ (t.ctx cx).pc = (s.ctx cx).pc ∧ (t.ctx cx).q = (s.ctx cx).q) := by
  have hop : isEngine (iOp w) = true := by
    obtain ⟨-, -, -, -, rfl, -⟩ := h
    exact heng
  have hfull' : 64 ≤ (((s.issuing cx).ctx cx).queue (iQueue w)).length := by rwa [State.ctx_issuing]
  have hwait : ((s.issuing cx).waitOn cx 2).ctx cx = { (s.ctx cx).issuing with st := .wait, waits := 2, waitSince := s.clk.cyc, waitAt := s.now } := by
    rw [State.waitOn, State.ctx_modCtx_self, State.ctx_issuing]
    rfl
  have hrun : s.issueEngine cx = ((s.issuing cx).waitOn cx 2).freeAt cx ((s.chan (chOf cx)).nextSeq.get 0 (coreOf cx)) := by
    rw [State.issueEngine, State.issue_eq h heng, targets_engine hop, State.queueAll_full hfull', if_pos (by rw [hwait])]
  rw [Yields, exec_engineIssue h, hrun]
  refine ⟨_, rfl, ctxOnly_trans (ctxOnly_trans (ctxOnly_issuing s cx) (ctxOnly_modCtx _ _ _)) (ctxOnly_freeAt _ _ _), ?_⟩
  rw [State.ctx_freeAt, hwait]
  exact ⟨rfl, rfl, rfl, rfl⟩

end Engine

/-- Settles O19: with room the issue is one update of the context, which keeps apart what joins the queue and what the registers become. -/
theorem engineInstructionsQueue : Obligations.EngineInstructionsQueue := by
  intro s cx w hlive hfatal hword hmay heng hgood
  have h : s.issues cx w (iOp w) := ⟨hlive, hfatal, hword, hmay, rfl, hgood⟩
  refine ⟨fun hroom => ?_, exec_engineIssue_full h heng⟩
  obtain ⟨t, hrun, honly, hctx⟩ := exec_engineIssue_room h heng hroom
  exact ⟨t, hrun, honly, hctx ▸ Ctx.engineIssued_spec _ _ _ _⟩

end Sys2Proof.Machine
end

section
/-! PROOFS. A pwait that clears its pips while another context of its core waits for them (R165): the clear is applied once, so it releases that waiter. -/

namespace Sys2Proof.Machine

theorem exec_pwait {s : State} {cx : Cx} {w : Nat} (h : s.issues cx w 7) : exec (.pwait cx) s = .next (s.issuePwait cx) :=
  State.runs_issues h fun s => s.issuePwait cx

/-- pwait on pip 0 with auto-clear. -/
def clearingPwait : Nat := 7 + 2 ^ 8 + 2 ^ 57

/-- Pip 0 of core 0 has become set. Context 0 comes to a pwait on it that clears; context 1, of the same core, waits in such a pwait and has not been
released yet. -/
def twoPwaits : State :=
  { regs := [((CH_PIP_pips 0 0).key, 1)]
    ctxs := [(0, { st := .run, prog := [clearingPwait] }), (1, { st := .wait, waits := 1, prog := [clearingPwait] })] }

theorem issues_twoPwaits : twoPwaits.issues (0 : Cx) clearingPwait 7 := by decide +kernel

/-- The waiter is released and stands in its wake latency. -/
theorem issuePwait_twoPwaits_waits : ((twoPwaits.issuePwait 0).ctx 1).waits = 3 := by decide +kernel

/-- Refutes O18: its clause for a pwait whose condition holds lets no other context change, but one that clears releases every waiter of its core whose
condition holds in the same cycle (R165). -/
theorem not_pipsBarriersAndHints : ¬ Obligations.PipsBarriersAndHints := by
  intro h
  obtain ⟨-, -, -, -, hpwait, -⟩ := h twoPwaits 0 clearingPwait
  have hissued := hpwait issues_twoPwaits (by decide +kernel)
  obtain ⟨⟨-, hothers⟩, -⟩ := hissued.holds (exec_pwait issues_twoPwaits)
  have hkept : ((twoPwaits.issuePwait 0).ctx 1).waits = (twoPwaits.ctx 1).waits := congrArg Ctx.waits (hothers 1 (by decide))
  exact absurd (issuePwait_twoPwaits_waits.symm.trans hkept) (by decide +kernel)

end Sys2Proof.Machine
end

section
/-! PROOFS. One repeat of an engine's entry (R151, R158–R160, R168, R230): what a row's command does is told by the repeat's own outcome. -/

namespace Sys2Proof.Machine

/-- Every engine row runs one repeat of the head entry of its queue. -/
theorem exec_engineRow {c : Instr} {s : State} {cx q op : Nat} {work : EngineWork} (hrow : engineRow c = some (cx, q, op, work)) (hlive : s.live = true)
    (hfatal : s.sys.fatal = false) : exec c s = .next (s.runRepeat cx q op work.1 work.2) := by
  have hruns := State.runs_live (s := s) (fun s => s.runRepeat cx q op work.1 work.2) hlive hfatal
  unfold engineRow at hrow
  split at hrow
  case h_16 => cases hrow
  all_goals
    cases hrow
    exact hruns

section Repeat

variable {s u : State} {cx q op : Nat} {e : Entry} {r : List Entry} {body : Ctx → Entry → State → Except Nat (Option Rep) × State}
  {fin : Entry → State → State}

/-- The head entry of queue `q` has opcode `op`, and its context runs. -/
structure State.AtHead (s : State) (cx q op : Nat) (e : Entry) (r : List Entry) : Prop where
  queue : (s.ctx cx).queue q = e :: r
  running : (s.ctx cx).running = true
  op : iOp e.word = op

/-- What the outcome of a repeat comes to: the entry fails, waits, leaves its queue or stands at its next repeat. -/
def State.repeatOutcome (cx q : Nat) (e : Entry) (r : List Entry) (fin : Entry → State → State) : Except Nat (Option Rep) × State → State
  | (.error st, s) => (s.serve cx q).failEntry cx q st e
  | (.ok none, s) => s
  | (.ok (some p), s) =>
    let v := ((s.serve cx q).event (chOf cx) q (repeatEvents e.word).1 (repeatEvents e.word).2).noteFlags cx q p.e p.fl
    let f := { p.e.gather p.fl with i := e.i + 1 }
    if f.i = repeats e.word e.cnt then (fin f (v.flushEntry cx q f)).pop cx q else v.setQueue cx q (f :: r)

/-- What the next repeat of an entry comes to: of the count, then of the turn, then of the body's outcome. -/
theorem State.runRepeat_atHead (h : s.AtHead cx q op e r) : s.runRepeat cx q op body fin =
    if 65536 < repeats e.word e.cnt then s.fault cx q stRepeatRange e.pc 0
    else if repeats e.word e.cnt = 0 then s.pop cx q
    else if !s.engineTurn cx q then s
    else State.repeatOutcome cx q e r fin (body (s.ctx cx) e s) := by
  unfold State.runRepeat
  simp only [h.queue, h.running, h.op, Bool.not_true, bne_self_eq_false, Bool.or_self, Bool.false_eq_true, if_false]
  rfl

theorem State.runRepeat_none (h : s.AtHead cx q op e r) (hr : repeats e.word e.cnt = 0) : s.runRepeat cx q op body fin = s.pop cx q := by
  rw [State.runRepeat_atHead h, if_neg (by omega), if_pos hr]

theorem State.runRepeat_range (h : s.AtHead cx q op e r) (hr : 65536 < repeats e.word e.cnt) :
    s.runRepeat cx q op body fin = s.fault cx q stRepeatRange e.pc 0 := by
  rw [State.runRepeat_atHead h, if_pos hr]

section Counted

variable (h : s.AtHead cx q op e r) (hpos : 0 < repeats e.word e.cnt) (hmax : repeats e.word e.cnt ≤ 65536)
include h hpos hmax

theorem State.runRepeat_notTurn (hturn : s.engineTurn cx q = false) : s.runRepeat cx q op body fin = s := by
  rw [State.runRepeat_atHead h, if_neg (by omega), if_neg (by omega), hturn]
  rfl

variable (hturn : s.engineTurn cx q = true)
include hturn

theorem State.runRepeat_done {p : Rep} {v : State} {f : Entry} (hbody : body (s.ctx cx) e s = (.ok (some p), u))
    (hv : v = ((u.serve cx q).event (chOf cx) q (repeatEvents e.word).1 (repeatEvents e.word).2).noteFlags cx q p.e p.fl)
    (hf : f = { p.e.gather p.fl with i := e.i + 1 }) : s.runRepeat cx q op body fin =
      if e.i + 1 = repeats e.word e.cnt then (fin f (v.flushEntry cx q f)).pop cx q else v.setQueue cx q (f :: r) := by
  rw [State.runRepeat_atHead h, if_neg (by omega), if_neg (by omega), hturn, hbody, hv, hf]
  rfl

theorem State.runRepeat_waits (hbody : body (s.ctx cx) e s = (.ok none, u)) : s.runRepeat cx q op body fin = u := by
  rw [State.runRepeat_atHead h, if_neg (by omega), if_neg (by omega), hturn, hbody]
  rfl

theorem State.runRepeat_fails {st : Nat} (hbody : body (s.ctx cx) e s = (.error st, u)) :
    s.runRepeat cx q op body fin = (u.serve cx q).failEntry cx q st e := by
  rw [State.runRepeat_atHead h, if_neg (by omega), if_neg (by omega), hturn, hbody]
  rfl

end Counted

end Repeat

/-- Settles O20: one equation of the repeat for each outcome, of whatever row. -/
theorem engineEntriesRepeat : Obligations.EngineEntriesRepeat := by
  intro c s cx q op work e r hrow hlive hfatal hqueue hrun hop
  have h : s.AtHead cx q op e r := ⟨hqueue, hrun, hop⟩
  rw [exec_engineRow hrow hlive hfatal]
  refine ⟨fun hr => congrArg _ (State.runRepeat_none h hr), fun hr => congrArg _ (State.runRepeat_range h hr),
    fun hpos hmax hturn => congrArg _ (State.runRepeat_notTurn h hpos hmax hturn), fun hpos hmax hturn u => ⟨fun p v f hbody hv hf => ?_, ?_, ?_⟩⟩
  · rw [State.runRepeat_done h hpos hmax hturn hbody hv hf]
    exact ⟨fun hleft => congrArg _ (if_neg hleft), fun hlast => congrArg _ (if_pos hlast)⟩
  · exact fun hbody => congrArg _ (State.runRepeat_waits h hpos hmax hturn hbody)
  · exact fun st hbody => congrArg _ (State.runRepeat_fails h hpos hmax hturn hbody)

end Sys2Proof.Machine
end

section
/-! PROOFS. The life of a context (R141, R143, R147, R148, R167–R169, R231): how it wakes and drains, what its end leaves, its first fault. -/

namespace Sys2Proof.Machine

/-! ### A wait ends (R143) -/

section Wake

variable {s : State} {cx : Nat}

theorem State.endGate_cases (s : State) (cx : Nat) :
    s.endGate cx = s ∨ ∃ n, s.endGate cx = s.count (CH_CTR_gated_cycles (chOf cx)) n := by
  unfold State.endGate
  extract_lets n
  split
  · exact .inl rfl
  · exact .inr ⟨n, rfl⟩

theorem State.endGate_rest (s : State) (cx : Nat) : s.endGate cx = { s with regs := (s.endGate cx).regs, latch := (s.endGate cx).latch } := by
  rcases s.endGate_cases cx with h | ⟨n, h⟩ <;> rw [h]
  rfl

/-- The context after its wait has ended at TIME cycle `cyc`, device time `now`. -/
def Ctx.woken (k : Ctx) (cyc : Nat) (now : FT64) : Ctx := { k with waits := if k.st == .wait then 3 else 0, waitSince := cyc, waitAt := now }

/-- What a wake counts of a core in solo mode. -/
def State.wakeCounted (s : State) (cx : Nat) : State := if s.solo cx then (s.endGate cx).count (CH_CTR_wake_events (chOf cx)) else s

theorem State.wakeCounted_rest (s : State) (cx : Nat) :
    s.wakeCounted cx = { s with regs := (s.wakeCounted cx).regs, latch := (s.wakeCounted cx).latch } := by
  unfold State.wakeCounted
  split
  · rw [s.endGate_rest cx]
    rfl
  · rfl

theorem State.wake_eq (s : State) (cx : Nat) : s.wake cx = (s.wakeCounted cx).modCtx cx (fun k => k.woken s.clk.cyc s.now) := by
  have hrest := s.wakeCounted_rest cx
  have hcyc : (s.wakeCounted cx).clk = s.clk := by rw [hrest]
  rw [← hcyc, show s.now = (s.wakeCounted cx).now by simp only [State.now, hcyc]]
  rfl

theorem State.ctx_wake_self (s : State) (cx : Nat) : (s.wake cx).ctx cx = (s.ctx cx).woken s.clk.cyc s.now := by
  rw [State.wake_eq, State.ctx_modCtx_self, State.wakeCounted_rest]
  rfl

theorem State.wake_rest (s : State) (cx : Nat) :
    s.wake cx = { s with ctxs := (s.wake cx).ctxs, regs := (s.wake cx).regs, latch := (s.wake cx).latch } := by
  rw [State.wake_eq, State.wakeCounted_rest]
  rfl

/-- Registers of a channel that no counter of waits stands at. -/
theorem State.reg_wake_ne (s : State) (cx : Nat) {f : Fld} (hgate : f.key ≠ (CH_CTR_gated_cycles (chOf cx)).key)
    (hwake : f.key ≠ (CH_CTR_wake_events (chOf cx)).key) : (s.wake cx).reg f = s.reg f := by
  rw [State.wake_eq, State.reg_modCtx]
  unfold State.wakeCounted
  split
  · rw [State.reg_count_ne _ _ _ _ hwake]
    rcases s.endGate_cases cx with h | ⟨n, h⟩ <;> rw [h]
    exact State.reg_count_ne _ _ _ _ hgate
  · rfl

end Wake

/-! ### The image is in (R146, R147) -/

section Load

theorem leNat_lt (b : Bytes) : leNat b < 256 ^ b.length := by
  induction b with
  | nil => exact Nat.one_pos
  | cons x r ih =>
    have hx : x.toNat < 256 := x.isLt
    rw [leNat, List.length_cons, Nat.pow_succ]
    omega

theorem leAt_lt (b : Bytes) (i n : Nat) : leAt b i n < 256 ^ n :=
  Nat.lt_of_lt_of_le (leNat_lt _) (Nat.pow_le_pow_right (by decide) (List.length_take_le _ _))

/-- `n` registers of `w` bytes each from offset `o` of the argument block on. -/
def argRegs (arg : Bytes) (n w o : Nat) : Tab Nat := (List.range n).foldl (fun t i => t.put 0 i (leAt arg (o + w * i) w % 2 ^ 48)) []

theorem get_argRegs (arg : Bytes) {n i : Nat} (w o : Nat) (hi : i < n) : (argRegs arg n w o).get 0 i = leAt arg (o + w * i) w % 2 ^ 48 :=
  Tab.get_foldl_put 0 id _ (fun _ _ _ _ hne => hne) [] i (List.mem_range.mpr hi)

/-- Registers of four bytes hold them whole. -/
theorem get_argRegs_word (arg : Bytes) {n i : Nat} (o : Nat) (hi : i < n) : (argRegs arg n 4 o).get 0 i = leAt arg (o + 4 * i) 4 := by
  rw [get_argRegs arg 4 o hi]
  exact Nat.mod_eq_of_lt (Nat.lt_trans (leAt_lt arg _ 4) (by decide))

/-- The context with its image and its registers, which waits. -/
def Ctx.imageIn (k : Ctx) (ws : List Nat) (arg digest : Bytes) (cyc : Nat) : Ctx :=
  { k with
    st := .wait, pc := 0, prog := ws, a := argRegs arg 16 8 0, x := argRegs arg 16 4 128, c := argRegs arg 8 4 192, k := 0, loops := [],
    digest := digest, waitSince := cyc }

variable {s : State} {cx img n : Nat} {ws : List Nat} {arg : Bytes}

/-- An image and an argument block that are readable and pass the checks. -/
theorem State.imageDone_good {v : State} (hst : (s.ctx cx).st = .loading) (himg : img = ((s.ctx cx).d.bind s.desc).elim 0 (fun x => leAt x.bytes 8 6))
    (hn : n = hLength (s.ctx cx).header) (hbad : s.badWords img (64 + 16 * n) = []) (hbad' : s.badWords (s.ctx cx).args 256 = [])
    (hws : ws = imageWords n (s.storeRead (img + 64) (16 * n))) (harg : arg = s.storeRead (s.ctx cx).args 256) (hzero : leAt arg 224 32 = 0)
    (hok : imageOk (s.ctx cx).header ws = true) (hpsets : psetsOk (s.ctx cx).header (coreOf cx) ws = true)
    (hv : v = ((s.hubAccess img (64 + 16 * n)).hubAccess (s.ctx cx).args 256).endGate cx) :
    s.imageDone cx = (v.modCtx cx (fun k => k.imageIn ws arg (sha3 (k.header ++ v.storeRead (img + 64) (16 * n))) v.clk.cyc)).wake cx := by
  unfold State.imageDone
  extract_lets k img' n' bad s1 ws' arg' regs s2
  have himg' : img' = img := himg.symm
  have hn' : n' = n := hn.symm
  have hstore : s1.store = s.store := rfl
  have hloading : (k.st != .loading) = false := by rw [show k.st = .loading from hst]; rfl
  have hreadable : bad = none := by
    dsimp only [bad, k]
    rw [himg', hn', hbad, hbad']
    rfl
  have hws' : ws' = ws := by
    dsimp only [ws', State.storeRead]
    rw [hws, himg', hn', hstore, State.storeRead]
  have harg' : arg' = arg := by
    dsimp only [arg', State.storeRead]
    rw [harg, hstore, State.storeRead]
  have hchecks : (leAt arg 224 32 != 0 || !imageOk k.header ws || !psetsOk k.header (coreOf cx) ws) = false := by
    rw [hzero, hok, hpsets]
    rfl
  have hs2 : s2 = v := by
    dsimp only [s2, s1]
    rw [hv, himg', hn']
  have hregs : regs = argRegs arg := by
    dsimp only [regs]
    rw [harg']
    rfl
  rw [hloading, hreadable, harg', hws', hs2, hregs, himg', hn', if_neg Bool.false_ne_true]
  simp only [hchecks, Bool.false_eq_true, if_false]
  rfl

/-- Its wait for the image ends as any wait does (R143). -/
theorem State.imageIn_wakes {v : State} (hv : v = { s with regs := v.regs, latch := v.latch, pmc := v.pmc }) (ws : List Nat) (arg : Bytes)
    (digest : Ctx → Bytes) {t : State} (ht : t = (v.modCtx cx (fun k => k.imageIn ws arg (digest k) v.clk.cyc)).wake cx) :
    t.ctx cx = ((s.ctx cx).imageIn ws arg (digest (s.ctx cx)) s.clk.cyc).woken s.clk.cyc s.now ∧
      t = { s with ctxs := t.ctxs, regs := t.regs, latch := t.latch, pmc := t.pmc } := by
  constructor
  · rw [ht, State.ctx_wake_self, State.ctx_modCtx_self, hv]
    rfl
  · rw [ht, State.wake_rest, hv]
    rfl

theorem exec_imageLoadDone {cx : Cx} (hl : s.live = true) (hf : s.sys.fatal = false) (hst : (s.ctx cx).st = .loading)
    (himg : img = ((s.ctx cx).d.bind s.desc).elim 0 (fun x => leAt x.bytes 8 6))
    (hn : n = hLength (s.ctx cx).header) (hbad : s.badWords img (64 + 16 * n) = []) (hbad' : s.badWords (s.ctx cx).args 256 = [])
    (hws : ws = imageWords n (s.storeRead (img + 64) (16 * n))) (harg : arg = s.storeRead (s.ctx cx).args 256) (hzero : leAt arg 224 32 = 0)
    (hok : imageOk (s.ctx cx).header ws = true) (hpsets : psetsOk (s.ctx cx).header (coreOf cx) ws = true) :
    Yields (.imageLoadDone cx) s (fun t => (t.ctx cx).st = .wait ∧ (t.ctx cx).waits = 3 ∧ (t.ctx cx).waitSince = s.clk.cyc ∧
      (t.ctx cx).pc = 0 ∧ (t.ctx cx).prog = ws ∧ (t.ctx cx).loops = [] ∧
      (∀ i, i < 16 → (t.ctx cx).reg 0 i = leAt arg (8 * i) 8 % 2 ^ 48 ∧ (t.ctx cx).reg 2 i = leAt arg (128 + 4 * i) 4) ∧
      (∀ i, i < 8 → (t.ctx cx).reg 1 i = leAt arg (192 + 4 * i) 4) ∧
      t = { s with ctxs := t.ctxs, regs := t.regs, latch := t.latch, pmc := t.pmc }) := by
  have hgate := State.endGate_rest ((s.hubAccess img (64 + 16 * n)).hubAccess (s.ctx cx).args 256) cx
  generalize hv : ((s.hubAccess img (64 + 16 * n)).hubAccess (s.ctx cx).args 256).endGate cx = v at hgate
  have hdone := State.imageDone_good hst himg hn hbad hbad' hws harg hzero hok hpsets hv.symm
  refine ⟨_, (State.runs_live (fun s => s.imageDone cx) hl hf).trans (congrArg _ hdone), ?_⟩
  generalize ht : (v.modCtx cx _).wake cx = t
  obtain ⟨hctx, hrest⟩ := State.imageIn_wakes (s := s) (v := v) (by rw [hgate]; rfl) ws arg _ ht.symm
  rw [hctx]
  refine ⟨rfl, rfl, rfl, rfl, rfl, rfl, fun i hi => ⟨?_, get_argRegs_word arg 128 hi⟩, fun i hi => get_argRegs_word arg 192 hi, hrest⟩
  exact (get_argRegs arg 8 0 hi).trans (by rw [Nat.zero_add])

end Load

/-! ### The end of a context (R148, R168, R238, R377) -/

section End

variable {s : State} {cx : Nat}

/-- A descriptor that completes is gone, and every other one stays. -/
theorem State.desc_complete (s : State) (d : Nat) (r : Report) (d' : Nat) : (s.complete d r).desc d' = if d' = d then none else s.desc d' := by
  have hdrop : (s.dropDesc d).desc d' = if d' = d then none else s.desc d' := by
    split
    · next h => exact h ▸ Tab.find?_erase_self s.host.descs d
    · next h => exact Tab.find?_erase_ne s.host.descs h
  cases hd : s.desc d with
  | none =>
    rw [show s.complete d r = s by rw [State.complete, hd]]
    split
    · next h => exact h ▸ hd
    · rfl
  | some x =>
    rcases State.complete_some hd r with h | ⟨-, h⟩ <;> rw [h]
    · rw [State.desc, State.postRec_descs]
      exact hdrop
    · exact hdrop

theorem State.store_complete (s : State) (d : Nat) (r : Report) : (s.complete d r).store = s.store := by rw [(s.postsOnly_complete d r).rest]

/-- A context that holds no buffer and no frame leaves the store as it is; the descriptor of its start completes. -/
theorem State.endCtx_free (hheld : (s.ctx cx).held = []) (hfifo : (s.ctx cx).fifo = []) (status : Nat) :
    (s.endCtx cx status).store = s.store ∧ ∀ d, (s.ctx cx).d = some d → (s.endCtx cx status).desc d = none := by
  unfold State.endCtx
  extract_lets k ch s1 s2 s3 s4 s5 s6 s7
  have h1 : s1.store = s.store := by
    dsimp only [s1]
    rw [s.endGate_rest cx]
  have h2 : s2 = s1 := by
    dsimp only [s2]
    rw [show k.held = [] from hheld, List.foldl_nil]
  have h3 : s3 = s2 := by
    dsimp only [s3]
    rw [show k.fifo = [] from hfifo, List.foldl_nil]
  have h6 : s6.store = s.store := by
    rw [show s6.store = s3.store from rfl, h3, h2, h1]
  have h7 : s7.store = s.store ∧ ∀ d, k.d = some d → s7.desc d = none := by
    dsimp only [s7]
    cases k.d with
    | none => exact ⟨h6, fun _ h => nomatch h⟩
    | some d =>
      refine ⟨(State.store_complete _ _ _).trans h6, fun d' h => ?_⟩
      cases h
      exact (State.desc_complete _ _ _ _).trans (if_pos rfl)
  refine List.foldlRecOn (motive := fun t : State => t.store = s.store ∧ ∀ d, k.d = some d → t.desc d = none) _ _ h7 fun t ht d' _ => ?_
  obtain ⟨hstore, hgone⟩ := ht
  refine ⟨(State.store_complete _ _ _).trans hstore, fun d hd => ?_⟩
  rw [State.completeSt, State.desc_complete, hgone d hd, ite_self]

variable {cx : Cx}

theorem exec_ends {c : Instr} {status : Nat} (hrun : exec c s = .next (s.endCtx cx status)) (hheld : (s.ctx cx).held = [])
    (hfifo : (s.ctx cx).fifo = []) : Yields c s (fun t => t.ctx cx = { step := (s.ctx cx).step, pc := (s.ctx cx).pc } ∧
      (∀ c, c ≠ cx.val → t.ctx c = s.ctx c) ∧ (∀ d, (s.ctx cx).d = some d → t.desc d = none) ∧ t.store = s.store) := by
  obtain ⟨hstore, hgone⟩ := State.endCtx_free hheld hfifo status
  exact ⟨_, hrun, s.ctx_endCtx_self cx status, fun _ hc => s.ctx_endCtx_ne status hc, hgone, hstore⟩

theorem exec_programEnd (hl : s.live = true) (hf : s.sys.fatal = false) (hst : (s.ctx cx).st = .run) (hpast : (s.ctx cx).word = none)
    (hidle : (s.ctx cx).idleQueues = true) : exec (.programEnd cx) s = .next (s.endCtx cx stOk) := by
  have hends : s.programEnd cx = s.endCtx cx stOk := if_pos (by rw [hst, hpast, hidle]; rfl)
  exact (State.runs_live (fun s => s.programEnd cx) hl hf).trans (congrArg _ hends)

theorem exec_drainComplete (hl : s.live = true) (hf : s.sys.fatal = false) (hst : (s.ctx cx).st = .drain) (hidle : (s.ctx cx).idleQueues = true) :
    exec (.drainComplete cx) s = .next (s.endCtx cx ((s.ctx cx).fault.elim stFenced (·.status))) := by
  have hends : s.drainComplete cx = s.endCtx cx ((s.ctx cx).fault.elim stFenced (·.status)) := if_pos (by rw [hst, hidle]; rfl)
  exact (State.runs_live (fun s => s.drainComplete cx) hl hf).trans (congrArg _ hends)

end End

/-! ### The first fault (R167–R169) -/

section Fault

variable {s : State} {cx : Nat}

/-- Queues are discarded, and nothing else changes. -/
theorem State.drainScan_spec (s : State) (cx : Nat) :
    (s.drainScan cx).regs = s.regs ∧ ((s.drainScan cx).ctx cx).st = (s.ctx cx).st ∧ ((s.drainScan cx).ctx cx).fault = (s.ctx cx).fault := by
  unfold State.drainScan
  split
  · refine List.foldlRecOn (motive := fun t : State => t.regs = s.regs ∧ (t.ctx cx).st = (s.ctx cx).st ∧ (t.ctx cx).fault = (s.ctx cx).fault) _ _
      ⟨rfl, rfl, rfl⟩ fun t ht q _ => ?_
    split
    · split
      · obtain ⟨hregs, hst, hfault⟩ := ht
        rw [State.ctx_modCtx_self]
        exact ⟨hregs, hst, hfault⟩
      · exact ht
    · exact ht
  · exact ⟨rfl, rfl, rfl⟩

/-- A context drains with the fault that it has reported. -/
theorem State.drain_spec (s : State) (cx : Nat) : ((s.drain cx).ctx cx).st = .drain ∧ ((s.drain cx).ctx cx).fault = (s.ctx cx).fault ∧
    ∀ f : Fld, f.key ≠ (CH_CTR_gated_cycles (chOf cx)).key → f.key ≠ (CH_CTR_wake_events (chOf cx)).key → (s.drain cx).reg f = s.reg f := by
  unfold State.drain
  extract_lets s1
  have h1 : (s1.ctx cx).fault = (s.ctx cx).fault ∧
      ∀ f : Fld, f.key ≠ (CH_CTR_gated_cycles (chOf cx)).key → f.key ≠ (CH_CTR_wake_events (chOf cx)).key → s1.reg f = s.reg f := by
    dsimp only [s1]
    split
    · exact ⟨by rw [State.ctx_wake_self]; rfl, fun f => s.reg_wake_ne cx⟩
    · exact ⟨rfl, fun _ _ _ => rfl⟩
  obtain ⟨hfault, hreg⟩ := h1
  obtain ⟨hregs', hst', hfault'⟩ := (s1.modCtx cx (fun k => { k with st := .drain, waits := 0 })).drainScan_spec cx
  refine ⟨?_, ?_, fun f hgate hwake => ?_⟩
  · rw [hst', State.ctx_modCtx_self]
  · rw [hfault', State.ctx_modCtx_self]
    exact hfault
  · rw [State.reg, hregs']
    exact hreg f hgate hwake

/-- Fields at other places have other keys. -/
theorem Fld.key_ne_of_off {f g : Fld} (hf : f.lo < 64) (hg : g.lo < 64) (h : f.off ≠ g.off ∨ f.lo ≠ g.lo) : f.key ≠ g.key := by
  simp only [Fld.key]
  omega

/-- The fault is logged in the context's own registers (R169). -/
theorem State.reg_logFault (s : State) (cx : Nat) (f : CtxFault) :
    (s.logFault cx f).reg (CH_CTX_FAULT_status (chOf cx) (cx % 32)) = f.status % 2 ^ 8 := by
  have hfield {g : Fld} (hlo : g.lo < 64) (hg : 0 < g.lo) (s : State) (v : Nat) :
      (s.setReg g v).reg (CH_CTX_FAULT_status (chOf cx) (cx % 32)) = s.reg (CH_CTX_FAULT_status (chOf cx) (cx % 32)) :=
    State.reg_setReg_ne _ _ _ _ (Fld.key_ne_of_off (by decide : 0 < 64) hlo (.inr (Nat.ne_of_lt hg)))
  have hstamp : (CH_CTX_FAULT_status (chOf cx) (cx % 32)).key ≠ (CH_CTX_FAULT_STAMP_stamp (chOf cx) (cx % 32)).key := by
    simp only [Fld.key, CH_CTX_FAULT_status, CH_CTX_FAULT_STAMP_stamp]
    omega
  unfold State.logFault
  rw [State.reg_stamped, State.reg_setReg_ne _ _ _ _ hstamp, hfield (Nat.lt_of_sub_eq_succ rfl) (Nat.lt_of_sub_eq_succ rfl),
    hfield (Nat.lt_of_sub_eq_succ rfl) (Nat.lt_of_sub_eq_succ rfl), hfield (Nat.lt_of_sub_eq_succ rfl) (Nat.lt_of_sub_eq_succ rfl),
    hfield (Nat.lt_of_sub_eq_succ rfl) (Nat.lt_of_sub_eq_succ rfl), State.reg_setReg_self]
  rfl

/-- The state that has reported a timeout of a context, before the queue is discarded and the context drains. -/
def State.timeoutLogged (s : State) (cx : Nat) (f : CtxFault) : State :=
  (((s.modCtx cx (fun k => { k with fault := some f })).logFault cx f).raise (evCh (chOf cx) (CH_INTR_STATUS_fault_ev (chOf cx)))).raise
    (evCh (chOf cx) (CH_INTR_STATUS_timeout_ev (chOf cx)))

theorem State.faultAgo_timeout (hrun : (s.ctx cx).running = true) (hnone : (s.ctx cx).fault = none) {unit instr ago : Nat} {f : CtxFault}
    (hf : f = { status := stTimeout, unit := unit, instr := instr, rep := 0, seq := s.seqNow (chOf cx) (coreOf cx) - ago }) :
    s.faultAgo cx unit stTimeout instr 0 ago =
      (if unit < 5 then (s.timeoutLogged cx f).setQueue cx unit [] else s.timeoutLogged cx f).drain cx := by
  have hfirst : f.first none = true := rfl
  unfold State.faultAgo
  simp only [Ctx.not_idle_of_running hrun, hnone, ← hf, hfirst, Bool.false_eq_true, if_false, if_true, Option.isSome_none]
  rfl

theorem State.timeoutLogged_spec (s : State) (cx : Nat) (f : CtxFault) : ((s.timeoutLogged cx f).ctx cx).fault = some f ∧
    (s.timeoutLogged cx f).reg (CH_CTX_FAULT_status (chOf cx) (cx % 32)) = f.status % 2 ^ 8 ∧
    (s.timeoutLogged cx f).flag (CH_INTR_STATUS_timeout_ev (chOf cx)) = true := by
  have hevent (g : Fld) (hlo : g.lo < 64) (hg : g.off = 0x80000c + 0x100000 * chOf cx) (s : State) :
      (s.raise (evCh (chOf cx) g)).reg (CH_CTX_FAULT_status (chOf cx) (cx % 32)) = s.reg (CH_CTX_FAULT_status (chOf cx) (cx % 32)) := by
    refine State.reg_raise_ne _ _ (Fld.key_ne_of_off (by decide : 0 < 64) hlo (.inl ?_)) (Fld.key_ne_of_off (by decide : 0 < 64) (by decide) (.inl ?_))
    · simp only [evCh, hg, CH_CTX_FAULT_status]
      omega
    · simp only [CH_CTX_FAULT_status, HUB_MSIX_PBA_pending]
      omega
  refine ⟨?_, ?_, State.flag_raise_self _ Nat.one_pos (Fld.key_ne_of_off (by decide : 1 < 64) (by decide) (.inl ?_))⟩
  · have hctxs : (s.timeoutLogged cx f).ctxs = (s.modCtx cx (fun k => { k with fault := some f })).ctxs := by
      rw [State.timeoutLogged, State.raise_ctxs, State.raise_ctxs]
      rfl
    rw [State.ctx, hctxs, ← State.ctx, State.ctx_modCtx_self]
  · rw [State.timeoutLogged, hevent _ (Nat.lt_of_sub_eq_succ rfl) rfl, hevent _ (Nat.lt_of_sub_eq_succ rfl) rfl, State.reg_logFault]
  · simp only [evCh, CH_INTR_STATUS_timeout_ev, HUB_MSIX_PBA_pending]
    omega

/-- A context that the watchdog faults first drains with its timeout logged. -/
theorem State.faultAgo_timeout_spec (hrun : (s.ctx cx).running = true) (hnone : (s.ctx cx).fault = none) (unit instr ago : Nat) :
    let t := s.faultAgo cx unit stTimeout instr 0 ago
    (t.ctx cx).st = .drain ∧ (t.ctx cx).fault = some
      { status := stTimeout, unit := unit, instr := instr, rep := 0, seq := s.seqNow (chOf cx) (coreOf cx) - ago } ∧
      t.reg (CH_CTX_FAULT_status (chOf cx) (cx % 32)) = 8 ∧ t.flag (CH_INTR_STATUS_timeout_ev (chOf cx)) = true := by
  intro t
  obtain ⟨hfault, hstatus, hevent⟩ := s.timeoutLogged_spec cx
    { status := stTimeout, unit := unit, instr := instr, rep := 0, seq := s.seqNow (chOf cx) (coreOf cx) - ago }
  have ht : t = _ := State.faultAgo_timeout hrun hnone rfl
  generalize s.timeoutLogged cx _ = u at hfault hstatus hevent ht
  have hqueue : ((if unit < 5 then u.setQueue cx unit [] else u).ctx cx).fault = (u.ctx cx).fault ∧
      ∀ f, (if unit < 5 then u.setQueue cx unit [] else u).reg f = u.reg f := by
    split
    · exact ⟨by rw [State.setQueue, State.ctx_modCtx_self], fun _ => rfl⟩
    · exact ⟨rfl, fun _ => rfl⟩
  obtain ⟨hsame, hregs⟩ := hqueue
  obtain ⟨hst, hfault', hreg⟩ := State.drain_spec (if unit < 5 then u.setQueue cx unit [] else u) cx
  rw [ht]
  refine ⟨hst, hfault'.trans (hsame.trans hfault), ((hreg _ ?_ ?_).trans (hregs _)).trans hstatus,
    (State.flag_congr ((hreg _ ?_ ?_).trans (hregs _))).trans hevent⟩ <;>
  · refine Fld.key_ne_of_off (Nat.lt_of_sub_eq_succ rfl) (Nat.lt_of_sub_eq_succ rfl) (.inl ?_)
    simp only [CH_CTX_FAULT_status, CH_INTR_STATUS_timeout_ev, CH_CTR_gated_cycles, CH_CTR_wake_events]
    omega

/-- One wait has lasted beyond the timeout. -/
theorem State.watchdog_one (hrun : (s.ctx cx).running = true) (hlim : 0 < s.reg (CH_WDOG_CFG_timeout (chOf cx))) {u p : Nat} {since : FT64}
    (hlate : (s.ctx cx).timed.filter (fun x => decide ((((s.reg (CH_WDOG_CFG_timeout (chOf cx)) * 256000 : Nat)) : Int) < ftDiff x.2.2 s.now)) =
      [(u, p, since)]) : s.watchdog cx = s.faultAgo cx u stTimeout p 0
        (coreCycles ((ftDiff since s.now - ((s.reg (CH_WDOG_CFG_timeout (chOf cx)) * 256000 : Nat) : Int)).toNat / 256)) := by
  have hscale : s.reg (CH_WDOG_CFG_timeout (chOf cx)) * 1000 * 256 = s.reg (CH_WDOG_CFG_timeout (chOf cx)) * 256000 := by omega
  have hlate' : (s.ctx cx).timed.filter (fun x => decide (0 < ftDiff x.2.2 s.now - ((s.reg (CH_WDOG_CFG_timeout (chOf cx)) * 1000 * 256 : Nat) : Int))) =
      [(u, p, since)] := by
    rw [← hlate, hscale]
    exact List.filter_congr fun x _ => decide_eq_decide.mpr Int.sub_pos
  have hon : (decide (s.reg (CH_WDOG_CFG_timeout (chOf cx)) * 1000 = 0) || !(s.ctx cx).running) = false := by
    rw [hrun, decide_eq_false (by omega)]
    rfl
  unfold State.watchdog
  extract_lets k lim late
  rw [if_neg (Bool.eq_false_iff.mp hon)]
  rw [show k.timed.filter (fun x => decide (0 < late x.2.2)) = [(u, p, since)] from hlate']
  simp only [sortBy, insertBy, List.foldl_cons, List.foldl_nil, late, lim, hscale]

theorem exec_watchdogTimeout {cx : Cx} (hl : s.live = true) (hf : s.sys.fatal = false) : exec (.watchdogTimeout cx) s = .next (s.watchdog cx) :=
  State.runs_live (fun s => s.watchdog cx) hl hf

end Fault

/-! ### Registers of a channel (R73, R141, R231) -/

section Registers

variable {s : State} {ch : Ch}

/-- Four cores whose contexts are all IDLE take their bits of the value. -/
theorem State.coreCfgWrite_idle {ch : Nat} (hidle : ∀ j, j < 32 → (s.ctx (32 * ch + j)).st = .idle) (v : Nat) :
    s.coreCfgWrite ch v = s.setReg (CH_CORE_CFG_solo ch) (v % 16) := by
  have hfree (core : Nat) (hc : core < 4) : (List.range 8).any (fun j => (s.ctx (32 * ch + 8 * core + j)).st != .idle) = false := by
    rw [List.any_eq_false]
    intro j hj
    have hst := hidle (8 * core + j) (by have := List.mem_range.mp hj; omega)
    rw [Nat.add_assoc, hst]
    decide
  have hbits : 0 + 2 ^ 0 * bits v 0 1 + 2 ^ 1 * bits v 1 1 + 2 ^ 2 * bits v 2 1 + 2 ^ 3 * bits v 3 1 = v % 16 := by
    simp only [bits]
    omega
  unfold State.coreCfgWrite
  extract_lets old busy
  have hbusy : busy 0 = false ∧ busy 1 = false ∧ busy 2 = false ∧ busy 3 = false :=
    ⟨hfree 0 (by omega), hfree 1 (by omega), hfree 2 (by omega), hfree 3 (by omega)⟩
  obtain ⟨h0, h1, h2, h3⟩ := hbusy
  rw [show List.range 4 = [0, 1, 2, 3] from rfl, ← hbits]
  simp only [List.foldl_cons, List.foldl_nil, h0, h1, h2, h3, Bool.false_eq_true, if_false]

theorem exec_chCoreCfgWrite (hl : s.live = true) (hr : s.flag HUB_STATUS_ready = true) (hidle : ∀ j, j < 32 → (s.ctx (32 * ch + j)).st = .idle)
    (v : Nat) : exec (.chCoreCfgWrite ch v) s = .next (s.setReg (CH_CORE_CFG_solo ch) (v % 16)) := by
  have hwrite : s.whenReady (fun s => s.coreCfgWrite ch v) = s.setReg (CH_CORE_CFG_solo ch) (v % 16) :=
    (State.whenReady_ready _ hr).trans (State.coreCfgWrite_idle hidle v)
  exact (State.does_live (fun s => s.whenReady (fun s => s.coreCfgWrite ch v)) hl).trans (congrArg _ hwrite)

theorem State.clears_congr {t u : State} (h : ∀ f, u.reg f = s.reg f) {hit but : Nat → Bool} (hclears : u.clears t hit but) : s.clears t hit but := by
  intro f hlo
  rw [← h f]
  exact hclears f hlo

/-- With nothing counted in the cycle the counters of the channel are cleared; waits under way count from now on. -/
theorem State.chCtrClear_spec {ch o : Nat} (hcounts : s.latchNow.counts = []) (ho : o = 0x800000 + 0x100000 * ch) :
    s.clears (s.chCtrClear ch) (fun a => offIn (o + 0x408) (o + 0x430) a || offIn (o + 0x1000) (o + 0x1048) a || offIn (o + 0x1100) (o + 0x1130) a ||
      offIn (o + 0x1200) (o + 0x1230) a) (fun _ => false) ∧
      s.chCtrClear ch = { s with regs := (s.chCtrClear ch).regs, ctxs := (s.chCtrClear ch).ctxs, chans := (s.chCtrClear ch).chans } := by
  subst ho
  unfold State.chCtrClear
  extract_lets o s1 s2
  have h1 : s1 = { s with ctxs := s1.ctxs } := by
    refine List.foldlRecOn (motive := fun t : State => t = { s with ctxs := t.ctxs }) _ _ rfl fun t ht c _ => ?_
    split
    · rw [ht]
      rfl
    · exact ht
  have hchan {t : State} (ht : t = { s with ctxs := t.ctxs }) (f : Chan → Chan) :
      t.modChan ch f = { s with ctxs := (t.modChan ch f).ctxs, chans := (t.modChan ch f).chans } := by
    rw [ht]
    rfl
  have h2 : s2 = { s with ctxs := s2.ctxs, chans := s2.chans } := hchan h1 _
  generalize s2 = u at h2
  constructor
  · refine State.clears_congr (u := u) (fun f => by rw [h2]; rfl) (State.clears_clearCounters (by rw [h2]; exact hcounts) fun f hlo => ?_)
    rw [keyIn_key hlo, keyIn_key hlo, keyIn_key hlo, keyIn_key hlo]
  · rw [State.clearCounters_rest, h2]

theorem exec_chCounterClear {o : Nat} (hl : s.live = true) (hr : s.flag HUB_STATUS_ready = true) (hcounts : s.latchNow.counts = [])
    (ho : o = 0x800000 + 0x100000 * ch) : Yields (.chCounterClear ch) s (fun t =>
      s.clears t (fun a => offIn (o + 0x408) (o + 0x430) a || offIn (o + 0x1000) (o + 0x1048) a || offIn (o + 0x1100) (o + 0x1130) a ||
        offIn (o + 0x1200) (o + 0x1230) a) (fun _ => false) ∧ t = { s with regs := t.regs, ctxs := t.ctxs, chans := t.chans }) :=
  ⟨_, (State.does_live (fun s => s.whenReady (fun s => s.chCtrClear ch)) hl).trans
    (congrArg _ (State.whenReady_ready (fun s => s.chCtrClear ch) hr)), State.chCtrClear_spec hcounts ho⟩

/-- A rearm with no inv of the same cycle ends the record's validity. -/
theorem exec_excRearm (hl : s.live = true) (hr : s.flag HUB_STATUS_ready = true) (hnone : (s.chan ch).lastInv = none) :
    exec (.excRearm ch) s = .next (s.setReg (CH_EXC_INV_SRC_valid ch) 0) := by
  have hrearm : s.excRearm ch = s.setReg (CH_EXC_INV_SRC_valid ch) 0 := by
    unfold State.excRearm
    extract_lets s1
    rw [show (s1.chan ch).lastInv = none from hnone]
  exact (State.does_live (fun s => s.whenReady (fun s => s.excRearm ch)) hl).trans
    (congrArg _ ((State.whenReady_ready (fun s => s.excRearm ch) hr).trans hrearm))

end Registers

/-- Settles O22: an image that comes in wakes its context, an end with nothing held leaves the store, the one late wait is the first fault, and the
registers of a channel are written by one equation each. -/
theorem contextLife : Obligations.ContextLife := by
  intro s cx k hl hf hk
  subst hk
  refine ⟨fun _ _ _ _ hst himg hn hbad hbad' hws harg hzero hok hpsets => exec_imageLoadDone hl hf hst himg hn hbad hbad' hws harg hzero hok hpsets,
    fun hst hpast hidle hheld hfifo => exec_ends (exec_programEnd hl hf hst hpast hidle) hheld hfifo,
    fun hst hidle hheld hfifo => exec_ends (exec_drainComplete hl hf hst hidle) hheld hfifo, fun u p since hrun hnone hlim hlate => ?_,
    fun ch v hr hidle => exec_chCoreCfgWrite hl hr hidle v, fun ch o hr hcounts ho => exec_chCounterClear hl hr hcounts ho,
    fun ch hr hnone => exec_excRearm hl hr hnone⟩
  exact ⟨_, (exec_watchdogTimeout hl hf).trans (congrArg _ (State.watchdog_one hrun hlim hlate)), State.faultAgo_timeout_spec hrun hnone u p _⟩

end Sys2Proof.Machine
end

section
/-! PROOFS. Start ramps, tile starts and spare tiles (R171–R176). -/

namespace Sys2Proof.Machine

section Ramps

variable {s : State} {ch : Nat}

/-! ### Tile starts (R171, R172) -/

/-- A channel is half of a compute die. -/
theorem exec_tileStartAdmit {ch : Ch} (hl : s.live = true) (hf : s.sys.fatal = false) (hd : ch.val / 2 < 4) (hh : ch.val % 2 < 2) :
    exec (.tileStartAdmit ⟨ch.val / 2, hd⟩ ⟨ch.val % 2, hh⟩) s = .next (s.tileStarts ch) := by
  have hrun : exec (.tileStartAdmit ⟨ch.val / 2, hd⟩ ⟨ch.val % 2, hh⟩) s = .next (s.tileStarts (2 * (ch.val / 2) + ch.val % 2)) :=
    State.runs_live (fun s => s.tileStarts (2 * (ch.val / 2) + ch.val % 2)) hl hf
  rwa [Nat.div_add_mod] at hrun

theorem State.tileStarts_none (h : s.startsWanted ch = []) :
    s.tileStarts ch = (s.modChan ch (fun c => { c with stallAt := none })).setReg (CH_STATUS_ramp_active ch) 0 := by
  unfold State.tileStarts
  rw [h]
  rfl

theorem State.tileStarts_quiet (h : s.startsWanted ch ≠ []) (hquiet : s.quietCh ch = true) :
    s.tileStarts ch = s.modChan ch (fun c => { c with rampWanted := some (c.rampWanted.getD s.clk.cyc) }) := by
  unfold State.tileStarts
  extract_lets c all now
  rw [if_neg (by rwa [List.isEmpty_iff]), if_pos hquiet]

/-- The cycles that a tile start has waited are counted. -/
def State.stallCounted (s : State) (ch : Nat) : State :=
  match (s.chan ch).stallAt with | some t => s.count (CH_CTR_ramp_stall_cycles ch) (s.coreNow (ch / 2) - t) | none => s

theorem State.stallCounted_rest (s : State) (ch : Nat) :
    s.stallCounted ch = { s with regs := (s.stallCounted ch).regs, latch := (s.stallCounted ch).latch } := by
  unfold State.stallCounted
  split <;> rfl

/-- The channel with `go` admitted in the window of CORE cycle `now`, which has admitted `used` before; `left` still wait. -/
def Chan.startTiles (c : Chan) (go left : List Nat) (now used : Nat) : Chan :=
  { c with admitted := c.admitted ++ go, window := (now / 8, used + go.length), stallAt := if !left.isEmpty then some now else none }

/-- A channel at work admits what its window has left. -/
theorem State.tileStarts_work (h : s.startsWanted ch ≠ []) (hwork : s.quietCh ch = false) {now used : Nat} (hnow : now = s.coreNow (ch / 2))
    (hused : used = if (s.chan ch).window.1 = now / 8 then (s.chan ch).window.2 else 0) : s.tileStarts ch =
      let all := s.startsWanted ch
      let t := (s.stallCounted ch).modChan ch (fun c => c.startTiles (all.take (16 - used)) (all.drop (16 - used)) now used)
      if !(all.drop (16 - used)).isEmpty then t else t.setReg (CH_STATUS_ramp_active ch) 0 := by
  subst hnow hused
  unfold State.tileStarts
  extract_lets c all now used go left s1 s2 t
  rw [if_neg (by rwa [List.isEmpty_iff]), if_neg (by rw [hwork]; decide)]
  rfl

theorem exec_tileStarts_work {ch : Ch} {all : List Nat} {now used : Nat} (hl : s.live = true) (hf : s.sys.fatal = false) (hall : all = s.startsWanted ch)
    (hsome : all ≠ []) (hwork : s.quietCh ch = false) (hnow : now = s.coreNow (ch / 2))
    (hused : used = if (s.chan ch).window.1 = now / 8 then (s.chan ch).window.2 else 0) (hd : ch.val / 2 < 4) (hh : ch.val % 2 < 2) :
    Yields (.tileStartAdmit ⟨ch.val / 2, hd⟩ ⟨ch.val % 2, hh⟩) s (fun t => (t.chan ch).admitted = (s.chan ch).admitted ++ all.take (16 - used) ∧
      (t.chan ch).window = (now / 8, used + (all.take (16 - used)).length) ∧ (t.chan ch).stallAt = (if all.drop (16 - used) = [] then none else some now) ∧
      (∀ c, c ≠ ch.val → t.chan c = s.chan c) ∧ t = { s with chans := t.chans, regs := t.regs, latch := t.latch }) := by
  subst hall
  refine ⟨_, (exec_tileStartAdmit hl hf hd hh).trans (congrArg _ (State.tileStarts_work hsome hwork hnow hused)), ?_⟩
  have hstall := s.stallCounted_rest ch
  have hchans : (s.stallCounted ch).chans = s.chans := by rw [hstall]
  extract_lets all t
  have hself : t.chan ch = (s.chan ch).startTiles (all.take (16 - used)) (all.drop (16 - used)) now used := by
    dsimp only [t]
    rw [State.chan_modChan_self, State.chan, hchans, State.chan]
  have hothers (c : Nat) (hc : c ≠ ch.val) : t.chan c = s.chan c := by
    dsimp only [t]
    rw [State.chan_modChan_ne _ _ _ hc, State.chan, hchans, State.chan]
  have hrest : t = { s with chans := t.chans, regs := t.regs, latch := t.latch } := by
    dsimp only [t]
    rw [hstall]
    rfl
  generalize t = u at hself hothers hrest
  have hend (c : Nat) : (if !(all.drop (16 - used)).isEmpty then u else u.setReg (CH_STATUS_ramp_active ch) 0).chan c = u.chan c := by
    split <;> rfl
  have hstall : (if !(all.drop (16 - used)).isEmpty then some now else none) = if all.drop (16 - used) = [] then none else some now := by
    cases all.drop (16 - used) <;> rfl
  have hself' := (hend ch).trans hself
  refine ⟨congrArg Chan.admitted hself', congrArg Chan.window hself', (congrArg Chan.stallAt hself').trans hstall, fun c hc => (hend c).trans (hothers c hc), ?_⟩
  split
  · exact hrest
  · rw [hrest]
    rfl

theorem exec_tileStarts_quiet {ch : Ch} (hl : s.live = true) (hf : s.sys.fatal = false) (hsome : s.startsWanted ch ≠ []) (hquiet : s.quietCh ch = true)
    (hd : ch.val / 2 < 4) (hh : ch.val % 2 < 2) : Yields (.tileStartAdmit ⟨ch.val / 2, hd⟩ ⟨ch.val % 2, hh⟩) s (fun t =>
      (t.chan ch).admitted = (s.chan ch).admitted ∧ (t.chan ch).rampWanted = some ((s.chan ch).rampWanted.getD s.clk.cyc) ∧
        t = { s with chans := t.chans }) := by
  refine ⟨_, (exec_tileStartAdmit hl hf hd hh).trans (congrArg _ (State.tileStarts_quiet hsome hquiet)), ?_⟩
  refine ⟨?_, ?_, rfl⟩
  · rw [State.chan_modChan_self]
  · rw [State.chan_modChan_self]

/-! ### Ramps (R172, R353) -/

theorem exec_rampOpen {ch : Ch} (hl : s.live = true) (hf : s.sys.fatal = false) (hnext : s.nextRamp = some ch.val)
    (hfree : ∀ c, s.pmc.ramp = some c → 129 ≤ s.coreNow 4 - c) : Yields (.rampOpen ch) s (fun t =>
      (t.chan ch).rampWanted = none ∧ t.flag (CH_STATUS_ramp_active ch) = true ∧ t.pmc.ramp = some (s.coreNow 4)) := by
  have hopen : s.rampOpen ch = (({ s with pmc := { s.pmc with ramp := some (s.coreNow 4) } } : State).modChan ch
      (fun c => { c with rampWanted := none })).setReg (CH_STATUS_ramp_active ch) 1 := by
    unfold State.rampOpen
    rw [hnext]
    cases hramp : s.pmc.ramp with
    | none => exact if_neg (by simp)
    | some c => exact if_neg (by simp [hfree c hramp])
  refine ⟨_, (State.runs_live (fun s => s.rampOpen ch) hl hf).trans (congrArg _ hopen), ?_, ?_, rfl⟩
  · rw [State.chan, State.setReg_chans, ← State.chan, State.chan_modChan_self]
  · rw [State.flag_setReg_self]
    rfl

/-! ### Spare tiles (R174, R176) -/

theorem exec_tileFail {ch : Ch} {g : Fin 16} (hl : s.live = true) : exec (.tileFail ch g) s = .next (s.tileFail ch g) :=
  State.does_live (fun s => s.tileFail ch g) hl

/-- The M entry of context `c` of a channel fails when it uses a tile of the group. -/
def State.tileFault (s : State) (ch g c : Nat) : State :=
  match ((s.ctx (32 * ch + c)).queue 0).head? with
  | some e =>
    if (s.ctx (32 * ch + c)).running && isEngine (iOp e.word) && bitOf (hTiles (s.ctx (32 * ch + c)).header) g && bitOf (gmaskOf e.word) g then
      s.failEntry (32 * ch + c) 0 stTileFault e
    else s
  | none => s

theorem State.tileFail_eq (s : State) (ch g : Nat) : s.tileFail ch g = ((List.range 32).foldl (State.tileFault · ch g ·) s).groupFails ch g := rfl

theorem State.tileFault_empty {c : Nat} (h : (s.ctx (32 * ch + c)).queue 0 = []) (g : Nat) : s.tileFault ch g c = s := by
  unfold State.tileFault
  rw [h]
  rfl

/-- Contexts without an M entry are passed over. -/
theorem State.tileFaults_empty {l : List Nat} (h : ∀ c ∈ l, (s.ctx (32 * ch + c)).queue 0 = []) (g : Nat) :
    l.foldl (State.tileFault · ch g ·) s = s :=
  List.foldlRecOn (motive := fun t : State => t = s) _ _ rfl fun t ht c hc => by rw [ht, State.tileFault_empty (h c hc)]

theorem bitOf_eq_testBit (v i : Nat) : bitOf v i = v.testBit i := by
  rw [Nat.testBit_eq_decide_div_mod_eq]
  rfl

theorem bitOf_mod_two_pow {v i w : Nat} (h : i < w) : bitOf (v % 2 ^ w) i = bitOf v i := by
  simp [bitOf_eq_testBit, Nat.testBit_mod_two_pow, h]

theorem bitOf_clearBit_self (v i : Nat) : bitOf (clearBit v i) i = false := by
  unfold clearBit
  split
  · next h =>
    have hodd : v / 2 ^ i % 2 = 1 := by simpa [bitOf] using h
    have hdiv := Nat.sub_mul_div v (2 ^ i) 1
    rw [Nat.mul_one] at hdiv
    rw [bitOf, hdiv, beq_eq_false_iff_ne]
    omega
  · next h => exact Bool.eq_false_iff.mpr h

/-- The group's bit of a capability falls. -/
theorem State.bitOf_dropCap (s : State) {f : Nat → Nat → Fld} (hw : (f (ch / 4) (ch % 4)).w = 16) (g : Fin 16) :
    bitOf ((s.dropCap f ch g).reg (f (ch / 4) (ch % 4))) g = false := by
  rw [State.dropCap, State.reg_setReg_self, hw, bitOf_mod_two_pow g.isLt, bitOf_clearBit_self]

/-- A group with its spare asks for a remap. -/
theorem State.groupFails_spare {g : Nat} (hfree : s.reg (CH_SPARE_STATUS_group ch g) = 0)
    (hspare : bitOf (s.reg (HUB_CAPS_SPARE_ch (ch / 4) (ch % 4))) g = true) : s.groupFails ch g = s.setReg (CH_SPARE_STATUS_group ch g) 2 := by
  unfold State.groupFails
  rw [hfree, hspare]
  rfl

/-- A group without its spare is absent. -/
theorem State.groupFails_absent {g : Nat} (hspare : bitOf (s.reg (HUB_CAPS_SPARE_ch (ch / 4) (ch % 4))) g = false) :
    s.groupFails ch g = (s.setReg (CH_SPARE_STATUS_group ch g) 3).dropCap HUB_CAPS_PRESENT_ch ch g := by
  unfold State.groupFails
  rw [hspare, Bool.and_false]
  rfl

theorem exec_tileFail_unused {ch : Ch} {g : Fin 16} (hl : s.live = true) (hempty : ∀ j, j < 32 → (s.ctx (32 * ch + j)).queue 0 = []) :
    exec (.tileFail ch g) s = .next (s.groupFails ch g) := by
  rw [exec_tileFail hl, State.tileFail_eq, State.tileFaults_empty fun c hc => hempty c (List.mem_range.mp hc)]

theorem exec_tileFail_absent {ch : Ch} {g : Fin 16} (hl : s.live = true) (hempty : ∀ j, j < 32 → (s.ctx (32 * ch + j)).queue 0 = [])
    (hspare : bitOf (s.reg (HUB_CAPS_SPARE_ch (ch / 4) (ch % 4))) g = false) : Yields (.tileFail ch g) s (fun t =>
      t.reg (CH_SPARE_STATUS_group ch g) = 3 ∧ bitOf (t.reg (HUB_CAPS_PRESENT_ch (ch / 4) (ch % 4))) g = false) := by
  refine ⟨_, (exec_tileFail_unused hl hempty).trans (congrArg _ (State.groupFails_absent hspare)), ?_, State.bitOf_dropCap _ rfl g⟩
  rw [State.dropCap, State.reg_setReg_ne, State.reg_setReg_self]
  · rfl
  · simp only [Fld.key, CH_SPARE_STATUS_group, HUB_CAPS_PRESENT_ch]
    omega

theorem State.ctx_drainScan_ne (s : State) {cx c : Nat} (h : c ≠ cx) : (s.drainScan cx).ctx c = s.ctx c := by
  unfold State.drainScan
  split
  · refine List.foldlRecOn (motive := fun t : State => t.ctx c = s.ctx c) _ _ rfl fun t ht q _ => ?_
    split
    · split
      · rw [State.ctx_modCtx_ne _ _ _ _ h, ht]
      · exact ht
    · exact ht
  · rfl

theorem State.ctx_drain_ne (s : State) {cx c : Nat} (h : c ≠ cx) : (s.drain cx).ctx c = s.ctx c := by
  obtain ⟨-, -, hwake⟩ := s.wake_spec cx
  unfold State.drain
  rw [State.ctx_drainScan_ne _ h, State.ctx_modCtx_ne _ _ _ _ h]
  split
  · exact hwake c h
  · rfl

theorem State.logFault_ctx (s : State) (cx : Nat) (f : CtxFault) (c : Nat) : (s.logFault cx f).ctx c = s.ctx c := rfl

theorem State.ctx_faultAgo_ne (s : State) {cx c : Nat} (h : c ≠ cx) (unit status instr rep ago : Nat) :
    (s.faultAgo cx unit status instr rep ago).ctx c = s.ctx c := by
  unfold State.faultAgo
  extract_lets k ch f s1 s2 s3 s4
  have hreported : s1.ctx c = s.ctx c := by
    dsimp only [s1]
    split
    · rw [State.logFault_ctx, State.ctx_modCtx_ne _ _ _ _ h]
    · rfl
  have hcounted : s2.ctxs = s1.ctxs := by
    dsimp only [s2]
    split <;> rfl
  have hraised : s4.ctxs = s2.ctxs := by
    dsimp only [s4]
    split
    · exact (State.raise_ctxs _ _).trans (State.raise_ctxs _ _)
    · exact State.raise_ctxs _ _
  have hlogged : s4.ctx c = s.ctx c := by rw [State.ctx, hraised, hcounted, ← State.ctx, hreported]
  split
  · rfl
  · rw [State.ctx_drain_ne _ h]
    split
    · rw [State.setQueue, State.ctx_modCtx_ne _ _ _ _ h, hlogged]
    · exact hlogged

/-- The fault of an entry changes no other context. -/
theorem State.ctx_failEntry_ne (s : State) {cx c : Nat} (q st : Nat) (e : Entry) (h : c ≠ cx) : (s.failEntry cx q st e).ctx c = s.ctx c :=
  (State.ctx_faultAgo_ne _ h _ _ _ _ _).trans (State.ctx_modCtx_ne _ _ _ _ h)

/-- Contexts before and after `i` are passed over. -/
theorem range_around {i n : Nat} (hi : i < n) : List.range n = List.range i ++ i :: List.range' (i + 1) (n - (i + 1)) := by
  have hjoin := List.range'_append_1 (s := 0) (m := i) (n := n - (i + 1) + 1)
  rw [Nat.zero_add, show i + (n - (i + 1) + 1) = n by omega] at hjoin
  rw [← List.range'_succ, List.range_eq_range', List.range_eq_range', hjoin]

/-- The one M entry that uses a tile of the group faults. -/
theorem State.tileFaults_one {g i : Nat} {e : Entry} {r : List Entry} (hi : i < 32)
    (hothers : ∀ j, j < 32 → j ≠ i → (s.ctx (32 * ch + j)).queue 0 = []) (hhead : (s.ctx (32 * ch + i)).queue 0 = e :: r)
    (hrun : (s.ctx (32 * ch + i)).running = true) (heng : isEngine (iOp e.word) = true) (htiles : bitOf (hTiles (s.ctx (32 * ch + i)).header) g = true)
    (hmask : bitOf (gmaskOf e.word) g = true) :
    (List.range 32).foldl (State.tileFault · ch g ·) s = s.failEntry (32 * ch + i) 0 stTileFault e := by
  have hfails : s.tileFault ch g i = s.failEntry (32 * ch + i) 0 stTileFault e := by
    unfold State.tileFault
    rw [hhead]
    simp only [List.head?_cons, hrun, heng, htiles, hmask, Bool.and_self, if_true]
  have hbefore : (List.range i).foldl (State.tileFault · ch g ·) s = s := by
    refine State.tileFaults_empty (fun c hc => ?_) g
    have hlt := List.mem_range.mp hc
    exact hothers c (by omega) (by omega)
  have hafter : (List.range' (i + 1) (32 - (i + 1))).foldl (State.tileFault · ch g ·) (s.failEntry (32 * ch + i) 0 stTileFault e) =
      s.failEntry (32 * ch + i) 0 stTileFault e := by
    refine State.tileFaults_empty (fun c hc => ?_) g
    obtain ⟨hlo, hhi⟩ := List.mem_range'_1.mp hc
    rw [State.ctx_failEntry_ne _ _ _ _ (by omega)]
    exact hothers c (by omega) (by omega)
  rw [range_around hi, List.foldl_append, List.foldl_cons, hbefore, hfails, hafter]

theorem exec_tileFail_one {ch : Ch} {g : Fin 16} {i : Nat} {e : Entry} {r : List Entry} (hl : s.live = true) (hi : i < 32)
    (hothers : ∀ j, j < 32 → j ≠ i → (s.ctx (32 * ch + j)).queue 0 = []) (hhead : (s.ctx (32 * ch + i)).queue 0 = e :: r)
    (hrun : (s.ctx (32 * ch + i)).running = true) (heng : isEngine (iOp e.word) = true) (htiles : bitOf (hTiles (s.ctx (32 * ch + i)).header) g = true)
    (hmask : bitOf (gmaskOf e.word) g = true) :
    exec (.tileFail ch g) s = .next ((s.failEntry (32 * ch + i) 0 stTileFault e).groupFails ch g) := by
  rw [exec_tileFail hl, State.tileFail_eq, State.tileFaults_one hi hothers hhead hrun heng htiles hmask]

theorem exec_spareRemapApply {ch : Ch} {g : Fin 16} (hl : s.live = true) (hwaits : s.reg (CH_SPARE_STATUS_group ch g) = 2)
    (hfree : bitOf (s.reg (CH_TILE_HOLD_held ch)) g = false) : Yields (.spareRemapApply ch g) s (fun t =>
      t.reg (CH_SPARE_STATUS_group ch g) = 1 ∧ bitOf (t.reg (HUB_CAPS_SPARE_ch (ch / 4) (ch % 4))) g = false ∧
        t.flag (CH_INTR_STATUS_remap_ev ch) = true) := by
  have hremap : s.spareRemap ch g =
      ((s.setReg (CH_SPARE_STATUS_group ch g) 1).dropCap HUB_CAPS_SPARE_ch ch g).raise (evCh ch (CH_INTR_STATUS_remap_ev ch)) := by
    unfold State.spareRemap
    rw [hwaits, hfree]
    rfl
  refine ⟨_, (State.does_live (fun s => s.spareRemap ch g) hl).trans (congrArg _ hremap), ?_, ?_, State.flag_raise_self _ Nat.one_pos ?_⟩
  · rw [State.reg_raise_ne, State.dropCap, State.reg_setReg_ne, State.reg_setReg_self]
    · rfl
    all_goals
      simp only [Fld.key, evCh, CH_SPARE_STATUS_group, HUB_CAPS_SPARE_ch, CH_INTR_STATUS_remap_ev, HUB_MSIX_PBA_pending]
      omega
  · rw [State.reg_raise_ne, State.bitOf_dropCap _ rfl]
    all_goals
      simp only [Fld.key, evCh, HUB_CAPS_SPARE_ch, CH_INTR_STATUS_remap_ev, HUB_MSIX_PBA_pending]
      omega
  · simp only [Fld.key, evCh, CH_INTR_STATUS_remap_ev, HUB_MSIX_PBA_pending]
    omega

end Ramps

/-- Settles O23: an admission is the window's share of the waiting starts, a quiet channel waits for its ramp, and a failed group passes over every
context but the one whose M entry uses it. -/
theorem rampsAndTiles : Obligations.RampsAndTiles := by
  intro s ch g all hl hf hall
  subst hall
  refine ⟨fun hsome hwork _ _ hnow hused => exec_tileStarts_work hl hf rfl hsome hwork hnow hused _ _,
    fun hsome hquiet => exec_tileStarts_quiet hl hf hsome hquiet _ _,
    fun hnone => (exec_tileStartAdmit hl hf _ _).trans (congrArg _ (State.tileStarts_none hnone)), exec_rampOpen hl hf,
    fun hempty => ⟨fun hgroup hspare => (exec_tileFail_unused hl hempty).trans (congrArg _ (State.groupFails_spare hgroup hspare)),
      exec_tileFail_absent hl hempty⟩,
    fun _ _ _ hi hothers hhead hrun heng htiles hmask => exec_tileFail_one hl hi hothers hhead hrun heng htiles hmask, exec_spareRemapApply hl⟩

end Sys2Proof.Machine
end

section
/-! PROOFS. Bytes as arrays (R6, R209): a range of a memory byte by byte, fields of concatenations, pieces of one length laid end to end. -/

namespace Sys2Proof.Machine

/-! ### Bytes of a memory -/

@[simp] theorem Mem.length_read (m : Mem) (a n : Nat) : (Mem.read m a n).length = n := by simp [Mem.read]

/-- A range reads byte by byte. -/
theorem Mem.read_eq_map (m : Mem) (a n : Nat) : Mem.read m a n = (List.range n).map (fun i => Mem.get m (a + i)) := by
  refine List.map_congr_left fun i hi => ?_
  have hin : i < n := List.mem_range.mp hi
  exact congrArg (Option.getD · 0) (Tab.find?_filter m (fun j => decide (a ≤ j) && decide (j < a + n)) (a + i) (by simp [hin]))

theorem Mem.getElem_read (m : Mem) (a n i : Nat) (hi : i < (Mem.read m a n).length) : (Mem.read m a n)[i] = Mem.get m (a + i) := by
  simp [Mem.read_eq_map]

theorem Mem.getD_read (m : Mem) (a : Nat) {n i : Nat} (hi : i < n) : (Mem.read m a n).getD i 0 = Mem.get m (a + i) := by
  rw [List.getD_eq_getElem _ _ (by simpa using hi), Mem.getElem_read]

/-- A part of a range. -/
theorem Mem.slice_read (m : Mem) (a : Nat) {n i k : Nat} (h : i + k ≤ n) : slice (Mem.read m a n) i k = Mem.read m (a + i) k := by
  refine List.ext_getElem (by simp [slice]; omega) fun j _ _ => ?_
  simp [slice, Mem.getElem_read, Nat.add_assoc]

/-- A range that holds the bytes of `b`. -/
theorem Mem.read_eq_of_get {m : Mem} {a : Nat} {b : Bytes} (h : ∀ i, i < b.length → Mem.get m (a + i) = b.getD i 0) : Mem.read m a b.length = b := by
  refine List.ext_getElem (Mem.length_read m a _) fun i _ hi => ?_
  rw [Mem.getElem_read, h i hi, List.getD_eq_getElem _ _ hi]

/-! ### Fields -/

/-- A field of one byte. -/
theorem leAt_one (b : Bytes) (i : Nat) : leAt b i 1 = byteAt b i := by
  by_cases h : i < b.length
  · simp [leAt, slice, byteAt, List.take_one, leNat, h]
  · simp [leAt, slice, byteAt, List.drop_eq_nil_of_le (Nat.le_of_not_lt h), leNat, List.getElem?_eq_none (Nat.le_of_not_lt h)]

/-- The field behind `p`. -/
theorem leAt_append (p r : Bytes) (n v : Nat) : leAt (p ++ (leBytes n v ++ r)) p.length n = v % 256 ^ n := by
  rw [leAt, slice, List.drop_left, List.take_left' (length_leBytes n v), leNat_leBytes]

theorem leAt_eq_of_length {p r : Bytes} {n i v : Nat} (h : p.length = i) : leAt (p ++ (leBytes n v ++ r)) i n = v % 256 ^ n := h ▸ leAt_append p r n v

/-! ### Pieces of one length -/

section Pieces

variable {α β : Type} {w : Nat}

/-- Piece `i` of pieces of length `w` laid end to end. -/
theorem take_drop_flatten {l : List (List α)} (h : ∀ x ∈ l, x.length = w) {i : Nat} (hi : i < l.length) :
    (l.flatten.drop (w * i)).take w = l[i] := by
  induction l generalizing i with
  | nil => exact absurd hi (Nat.not_lt_zero i)
  | cons x r ih =>
    have hx : x.length = w := h x (List.mem_cons_self ..)
    cases i with
    | zero => simp [List.take_left' hx]
    | succ i =>
      have hdrop : (x ++ r.flatten).drop (w * (i + 1)) = r.flatten.drop (w * i) := by
        rw [Nat.mul_succ, Nat.add_comm, ← List.drop_drop, ← hx, List.drop_left]
      rw [List.flatten_cons, hdrop]
      exact ih (fun y hy => h y (List.mem_cons_of_mem _ hy)) (Nat.lt_of_succ_lt_succ hi)

theorem length_flatten_pieces {l : List (List α)} (h : ∀ x ∈ l, x.length = w) : l.flatten.length = w * l.length := by
  rw [List.length_flatten, List.map_congr_left h, List.map_const', List.sum_replicate, smul_eq_mul, Nat.mul_comm]

theorem slice_flatten {l : List Bytes} (h : ∀ x ∈ l, x.length = w) {i : Nat} (hi : i < l.length) : slice l.flatten (w * i) w = l[i] :=
  take_drop_flatten h hi

/-- Element `j` of piece `i`. -/
theorem getD_flatMap {f : β → List α} {l : List β} (h : ∀ x ∈ l, (f x).length = w) {i j : Nat} (hi : i < l.length) (hj : j < w) (d : α) :
    (l.flatMap f).getD (w * i + j) d = (f l[i]).getD j d := by
  have hlen : ∀ y ∈ l.map f, y.length = w := by simpa using h
  have hpiece := take_drop_flatten hlen (i := i) (by simpa using hi)
  rw [List.getElem_map] at hpiece
  rw [List.flatMap_def, List.getD_eq_getElem?_getD, List.getD_eq_getElem?_getD, ← hpiece, List.getElem?_take_of_lt hj, List.getElem?_drop]

theorem length_flatMap_pieces {f : β → List α} {l : List β} (h : ∀ x ∈ l, (f x).length = w) : (l.flatMap f).length = w * l.length := by
  rw [List.flatMap_def, length_flatten_pieces (w := w) (by simpa using h), List.length_map]

end Pieces

/-- Number `i` of an array of numbers of `n` bytes each. -/
theorem leAt_flatMap_leBytes (n : Nat) {l : List Nat} {i : Nat} (hi : i < l.length) : leAt (l.flatMap (leBytes n)) (n * i) n = l[i] % 256 ^ n := by
  have hslice := slice_flatten (w := n) (l := l.map (leBytes n)) (by simp [length_leBytes]) (i := i) (by simpa using hi)
  rw [leAt, List.flatMap_def, hslice, List.getElem_map, leNat_leBytes]

theorem length_flatMap_leBytes (n : Nat) (l : List Nat) : (l.flatMap (leBytes n)).length = n * l.length :=
  length_flatMap_pieces fun _ _ => length_leBytes n _

end Sys2Proof.Machine
end

section
/-! PROOFS. Operands in the scratch window (R150–R152, R184, R185, R431): what passes the checks, what it reads, and what a write leaves of the channel. -/

namespace Sys2Proof.Machine

section Scratch

variable {s t u : State} {ch cx : Nat} {k : Ctx} {x : Use}

/-- An operand lies aligned inside the scratch window of a context. -/
structure Ctx.Holds (k : Ctx) (x : Use) : Prop where
  space : x.loc.space = 1
  aligned : x.misaligned = false
  inside : x.loc.addr + x.n ≤ k.winLen

/-- Where it starts in the scratch of the channel. -/
def Ctx.place (k : Ctx) (x : Use) : Nat := k.win + x.loc.addr.toNat

/-- The bytes it reads. -/
def Ctx.bytesOf (k : Ctx) (m : Mem) (x : Use) : Bytes := Mem.read m (k.place x) x.n

section Loc

variable {w t r xr i n a align : Nat}

/-- An operand of scratch space, by its offset in the window. -/
theorem Ctx.holds_loc (hspace : slSpace t = 1) (haddr : (locOf w t r xr i 0).addr = (a : Int)) (h32 : a % 32 = 0) (hin : a + n ≤ k.winLen)
    (halign : align ∣ 32) : k.Holds ⟨locOf w t r xr i 0, n, align⟩ := by
  have hloc : (locOf w t r xr i 0).space = 1 := by
    rw [locOf, if_neg (by omega)]
    exact hspace
  have hmod : a % align = 0 := Nat.mod_eq_zero_of_dvd (halign.trans (Nat.dvd_of_mod_eq_zero h32))
  refine ⟨hloc, ?_, ?_⟩
  · rw [Use.misaligned, haddr, ← Int.natCast_mod, hmod]
    exact Bool.and_false _
  · rw [haddr]
    exact_mod_cast hin

theorem Ctx.place_loc (haddr : (locOf w t r xr i 0).addr = (a : Int)) : k.place ⟨locOf w t r xr i 0, n, align⟩ = k.win + a := by
  rw [Ctx.place, haddr, Int.toNat_natCast]

/-- What `inScratch` says of the operand. -/
theorem State.inScratch.holds (h : s.inScratch cx w t r xr i n a) (halign : align ∣ 32) : (s.ctx cx).Holds ⟨locOf w t r xr i 0, n, align⟩ := by
  obtain ⟨hspace, haddr, h32, hin, -⟩ := h
  exact Ctx.holds_loc hspace haddr h32 hin halign

theorem State.inScratch.place (h : s.inScratch cx w t r xr i n a) : (s.ctx cx).place ⟨locOf w t r xr i 0, n, align⟩ = (s.ctx cx).win + a := by
  obtain ⟨-, haddr, -⟩ := h
  exact Ctx.place_loc haddr

theorem State.inScratch.bytesOf (h : s.inScratch cx w t r xr i n a) :
    (s.ctx cx).bytesOf (s.chan (chOf cx)).scratch ⟨locOf w t r xr i 0, n, align⟩ = s.scr cx a n := by
  rw [Ctx.bytesOf, h.place, State.scr]

end Loc

/-! ### Checks -/

theorem Ctx.Holds.useRange (h : k.Holds x) : s.useRange k x = none := by
  unfold State.useRange
  rw [h.space]
  split
  · rfl
  · exact if_pos h.inside

theorem State.useChecks_holds {us : List Use} (h : ∀ x ∈ us, k.Holds x) : s.useChecks k us = none := by
  have halign : us.any Use.misaligned = false := List.any_eq_false.mpr fun x hx => by simp [(h x hx).aligned]
  have hrange : us.findSome? (s.useRange k) = none := List.findSome?_eq_none_iff.mpr fun x hx => (h x hx).useRange
  have hhandle : us.any (fun u => u.loc.space == 3 && (s.useUnit k u).isNone) = false :=
    List.any_eq_false.mpr fun x hx => by simp [(h x hx).space]
  rw [State.useChecks, halign, hrange, hhandle]
  rfl

/-! ### Reads -/

/-- From `s` to `t` scratch has been read: nothing changes but the events that a channel counts. -/
structure State.ReadsOf (ch : Nat) (s t : State) : Prop where
  rest : t = { s with chans := t.chans }
  chan : t.chan ch = { s.chan ch with events := (t.chan ch).events }

theorem State.ReadsOf.refl (s : State) : s.ReadsOf ch s := ⟨rfl, rfl⟩

theorem State.ReadsOf.trans (h : s.ReadsOf ch t) (h' : t.ReadsOf ch u) : s.ReadsOf ch u where
  rest := by rw [h'.rest, h.rest]
  chan := by rw [h'.chan, h.chan]

theorem State.readsOf_event (s : State) (ch engine cls n : Nat) : s.ReadsOf ch (s.event ch engine cls n) where
  rest := rfl
  chan := by rw [State.event, State.chan_modChan_self]

theorem State.ReadsOf.scratch (h : s.ReadsOf ch t) : (t.chan ch).scratch = (s.chan ch).scratch := by rw [h.chan]

theorem State.ReadsOf.scratchUe (h : s.ReadsOf ch t) : (t.chan ch).scratchUe = (s.chan ch).scratchUe := by rw [h.chan]

theorem State.ReadsOf.ctx (h : s.ReadsOf ch t) (c : Nat) : t.ctx c = s.ctx c := by
  rw [h.rest]
  rfl

theorem State.ReadsOf.reg (h : s.ReadsOf ch t) (f : Fld) : t.reg f = s.reg f := by
  rw [h.rest]
  rfl

/-- An operand in scratch is read. -/
theorem State.useRead_holds (hue : (s.chan ch).scratchUe = []) (h : k.Holds x) (host : HostData) :
    ∃ t, s.useRead ch k host x = (.ok (k.bytesOf (s.chan ch).scratch x), t) ∧ s.ReadsOf ch t := by
  unfold State.useRead
  by_cases hn : x.n = 0
  · refine ⟨s, ?_, .refl s⟩
    rw [if_pos hn, Ctx.bytesOf, hn]
    rfl
  · refine ⟨s.event ch 6 8 (ceilDiv x.n 32), ?_, s.readsOf_event ..⟩
    rw [if_neg hn, h.space]
    simp [hue, Ctx.bytesOf, Ctx.place]

theorem State.readAll_holds {us : List Use} (hue : (s.chan ch).scratchUe = []) (h : ∀ x ∈ us, k.Holds x) (host : HostData) :
    ∃ t, s.readAll ch k host us = (.ok (us.map (k.bytesOf (s.chan ch).scratch)), t) ∧ s.ReadsOf ch t := by
  induction us generalizing s with
  | nil => exact ⟨s, rfl, .refl s⟩
  | cons x r ih =>
    obtain ⟨v, hread, hv⟩ := State.useRead_holds hue (h x (List.mem_cons_self ..)) host
    obtain ⟨t, hrest, ht⟩ := ih (hv.scratchUe.trans hue) fun y hy => h y (List.mem_cons_of_mem _ hy)
    refine ⟨t, ?_, hv.trans ht⟩
    rw [State.readAll, hread]
    simp only [hrest, hv.scratch, List.map_cons]

/-! ### Writes -/

/-- From `s` to `t` the bytes `b` have been written to the scratch of a channel from address `a` on. -/
structure State.WritesTo (ch a : Nat) (b : Bytes) (s t : State) : Prop where
  rest : t = { s with chans := t.chans }
  chan : t.chan ch = { s.chan ch with scratch := (t.chan ch).scratch, events := (t.chan ch).events }
  get : ∀ i, Mem.get (t.chan ch).scratch i = if a ≤ i ∧ i < a + b.length then b.getD (i - a) 0 else Mem.get (s.chan ch).scratch i

theorem State.WritesTo.ctx {a : Nat} {b : Bytes} (h : State.WritesTo ch a b s t) (c : Nat) : t.ctx c = s.ctx c := by
  rw [h.rest]
  rfl

/-- What has been written is read back. -/
theorem State.WritesTo.read {a : Nat} {b : Bytes} (h : State.WritesTo ch a b s t) : Mem.read (t.chan ch).scratch a b.length = b :=
  Mem.read_eq_of_get fun i hi => by rw [h.get, if_pos (by omega), Nat.add_sub_cancel_left]

theorem State.ReadsOf.writesTo {a : Nat} {b : Bytes} (h : s.ReadsOf ch t) (h' : State.WritesTo ch a b t u) : State.WritesTo ch a b s u where
  rest := by rw [h'.rest, h.rest]
  chan := by rw [h'.chan, h.chan]
  get i := by rw [h'.get, h.scratch]

/-- An operand in scratch is written. -/
theorem State.useWrite_holds (hue : (s.chan ch).scratchUe = []) (h : k.Holds x) (b : Bytes) :
    ∃ t, s.useWrite ch k x b = (none, t) ∧ State.WritesTo ch (k.place x) b s t := by
  unfold State.useWrite
  cases b with
  | nil => exact ⟨s, rfl, rfl, rfl, fun i => (if_neg (by simp only [List.length_nil]; omega)).symm⟩
  | cons c r =>
    rw [h.space]
    simp only [hue, List.isEmpty_cons, Bool.false_eq_true, if_false, List.any_nil]
    refine ⟨_, rfl, rfl, ?_, fun i => ?_⟩
    · simp [State.event, hue]
    · simp [State.event, Mem.get_write, Ctx.place]

theorem State.writeMeets_holds (hue : (s.chan ch).scratchUe = []) (h : k.Holds x) (how : HostEnd) : s.writeMeets ch k how x = none := by
  obtain ⟨t, hwrite, -⟩ := State.useWrite_holds hue h (List.replicate x.n 0)
  unfold State.writeMeets
  rw [h.space, hwrite]
  rfl

/-! ### A repeat that reads and writes scratch -/

/-- Operands that lie in scratch are read before the result is written (R184); a write that is not asked for is dropped. -/
theorem State.transfer_holds {rd : List Use} {o : Bytes} {os : List Bytes} {e' : Entry} {fl : List (Flags × ExcCoord)} {host : HostData}
    {f : List Bytes → Except Nat (List Bytes × List (Flags × ExcCoord) × Entry)} (hue : (s.chan (chOf cx)).scratchUe = [])
    (hrd : ∀ y ∈ rd, k.Holds y) (hwr : k.Holds x) (hf : f (rd.map (k.bytesOf (s.chan (chOf cx)).scratch)) = .ok (o :: os, fl, e')) :
    ∃ t, s.transfer cx k host rd [x] f = (.ok (some { e := e', fl := fl }), t) ∧ State.WritesTo (chOf cx) (k.place x) o s t := by
  obtain ⟨v, hread, hv⟩ := State.readAll_holds (s := s) hue hrd host
  have hue' : (v.chan (chOf cx)).scratchUe = [] := hv.scratchUe.trans hue
  obtain ⟨t, hwrite, ht⟩ := State.useWrite_holds hue' hwr o
  have hchecks : s.useChecks k (rd ++ [x]) = none := State.useChecks_holds fun y hy => by
    rcases List.mem_append.mp hy with hy | hy
    · exact hrd y hy
    · exact List.mem_singleton.mp hy ▸ hwr
  refine ⟨t, ?_, hv.writesTo ht⟩
  unfold State.transfer
  simp only [hchecks, hread, hf, List.findSome?_cons, State.writeMeets_holds hue' hwr, List.findSome?_nil, List.zip_cons_cons, List.zip_nil_left,
    State.writeAll, hwrite]

end Scratch

end Sys2Proof.Machine
end

section
/-! PROOFS. The last repeat of an entry (R151, R158–R160, R230): from the effect of the repeat to the state in which the entry has left its queue. -/

namespace Sys2Proof.Machine

/-- A completed entry leaves its queue, and what stands behind it comes to the head. -/
def Ctx.popped (k : Ctx) (now : FT64) (q : Nat) : Ctx :=
  { k with q := k.q.put [] q (match (k.queue q).drop 1 with
    | e :: r => k.atHead now e :: r
    | [] => []) }

theorem Ctx.queue_popped (k : Ctx) (now : FT64) (q : Nat) :
    ((k.popped now q).queue q).map (·.word) = ((k.queue q).drop 1).map (·.word) := by
  rw [Ctx.popped, Ctx.queue, Tab.get_put_self]
  split
  · next h =>
    rw [h]
    rfl
  · next h => rw [h]

/-- The engine has served the repeat of an instruction, its events are counted, and what the entry has gathered joins the program's report. -/
def State.repeated (u : State) (cx q w : Nat) (f : Entry) : State :=
  ((u.serve cx q).event (chOf cx) q (repeatEvents w).1 (repeatEvents w).2).flushEntry cx q f

section Last

variable {s t u : State} {cx q op : Nat} {e : Entry} {r : List Entry} {work : EngineWork} {c : Instr}

theorem Entry.gather_nil (e : Entry) : e.gather [] = e := by
  have hinv : (match e.inv with | some c => some c | none => firstInv []) = e.inv := by cases e.inv <;> rfl
  exact congrArg (fun o => { e with inv := o }) hinv

theorem State.lastRepeat.atHead (h : s.lastRepeat cx q op e r) : s.AtHead cx q op e r := by
  obtain ⟨-, -, hqueue, hst, hop, -⟩ := h
  exact ⟨hqueue, by rw [Ctx.running, hst]; rfl, hop⟩

/-- The last repeat of an entry, none of whose elements raises a flag. -/
theorem exec_lastRepeat {e' : Entry} (hrow : engineRow c = some (cx, q, op, work)) (h : s.lastRepeat cx q op e r)
    (hbody : work.1 (s.ctx cx) e s = (.ok (some { e := e' }), u)) :
    exec c s = .next ((work.2 { e' with i := e.i + 1 } (u.repeated cx q e.word { e' with i := e.i + 1 })).pop cx q) := by
  have hhead := h.atHead
  obtain ⟨hlive, hfatal, -, -, -, hmax, hlast, hturn⟩ := h
  rw [exec_engineRow hrow hlive hfatal, State.runRepeat_done hhead (by omega) hmax hturn hbody rfl rfl, if_pos hlast, Entry.gather_nil]
  rfl

theorem State.ctx_repeated (u : State) (cx q w : Nat) (f : Entry) : (u.repeated cx q w f).ctx cx =
    { u.ctx cx with exc := ((u.repeated cx q w f).ctx cx).exc, inv := ((u.repeated cx q w f).ctx cx).inv } := by
  rw [State.repeated, State.flushEntry, State.ctx_modCtx_self]
  rfl

theorem State.rest_repeated (u : State) (cx q w : Nat) (f : Entry) :
    u.repeated cx q w f = { u with chans := (u.repeated cx q w f).chans, ctxs := (u.repeated cx q w f).ctxs } := rfl

theorem State.chan_repeated (u : State) (cx q w : Nat) (f : Entry) : (u.repeated cx q w f).chan (chOf cx) = { u.chan (chOf cx) with
    served := ((u.repeated cx q w f).chan (chOf cx)).served, events := ((u.repeated cx q w f).chan (chOf cx)).events } := by
  have hchan : (u.repeated cx q w f).chan (chOf cx) = ((u.serve cx q).event (chOf cx) q (repeatEvents w).1 (repeatEvents w).2).chan (chOf cx) := rfl
  rw [hchan, State.event, State.chan_modChan_self, State.serve, State.chan_modChan_self]

theorem State.pop_eq (s : State) (cx q : Nat) {t : State} (ht : t = s.modCtx cx (fun k => k.popped s.now q)) : s.pop cx q =
    State.drainScan (if (t.ctx cx).st == .wait && (t.ctx cx).waits == 2 && !(t.ctx cx).noRoom (Machine.targets ((t.ctx cx).word.getD 0)) then t.wake cx
      else t) cx := by
  subst ht
  rfl

/-- A running context waits for no room, and has no queue to discard. -/
theorem State.pop_run (hst : (s.ctx cx).st = .run) : s.pop cx q = s.modCtx cx (fun k => k.popped s.now q) := by
  have hst' : ((s.modCtx cx (fun k => k.popped s.now q)).ctx cx).st = .run := by rw [State.ctx_modCtx_self]; exact hst
  rw [s.pop_eq cx q rfl]
  generalize s.modCtx cx (fun k => k.popped s.now q) = t at hst' ⊢
  have hnorun : ((t.ctx cx).st == .wait) = false ∧ ((t.ctx cx).st == .drain) = false := by rw [hst']; exact ⟨rfl, rfl⟩
  rw [hnorun.1, Bool.false_and, Bool.false_and, if_neg Bool.false_ne_true, State.drainScan, hnorun.2, if_neg Bool.false_ne_true]

/-- From `s` to `t` an entry of a running context has completed: its context holds what it held, but for the queue and the report, and the memories of
the channel are as they were. -/
structure State.Completes (cx q : Nat) (s t : State) : Prop where
  rest : t = { s with chans := t.chans, ctxs := t.ctxs }
  chan : t.chan (chOf cx) = { s.chan (chOf cx) with served := (t.chan (chOf cx)).served, events := (t.chan (chOf cx)).events }
  ctx : t.ctx cx = { s.ctx cx with q := (t.ctx cx).q, exc := (t.ctx cx).exc, inv := (t.ctx cx).inv }
  queue : ((t.ctx cx).queue q).map (·.word) = (((s.ctx cx).queue q).drop 1).map (·.word)

theorem State.Completes.scratch (h : State.Completes cx q s t) : (t.chan (chOf cx)).scratch = (s.chan (chOf cx)).scratch := by rw [h.chan]

theorem State.Completes.bank (h : State.Completes cx q s t) (tile b : Nat) : t.bank (chOf cx) tile b = s.bank (chOf cx) tile b := by
  rw [State.bank, h.chan, State.bank]

theorem State.Completes.win (h : State.Completes cx q s t) : (t.ctx cx).win = (s.ctx cx).win := by rw [h.ctx]

theorem State.Completes.scr (h : State.Completes cx q s t) (a n : Nat) : t.scr cx a n = s.scr cx a n := by
  rw [State.scr, h.scratch, h.win, State.scr]

theorem State.Completes.reg (h : State.Completes cx q s t) (f : Fld) : t.reg f = s.reg f := by
  rw [h.rest]
  rfl

/-- The head leaves the queue of a running context. -/
theorem State.completes_pop (hst : (s.ctx cx).st = .run) (hrest : t = { s with chans := t.chans, ctxs := t.ctxs })
    (hchan : t.chan (chOf cx) = { s.chan (chOf cx) with served := (t.chan (chOf cx)).served, events := (t.chan (chOf cx)).events })
    (hctx : t.ctx cx = { s.ctx cx with exc := (t.ctx cx).exc, inv := (t.ctx cx).inv }) : State.Completes cx q s (t.pop cx q) := by
  rw [State.pop_run (by rw [hctx]; exact hst)]
  refine ⟨by rw [hrest]; rfl, hchan, ?_, ?_⟩
  · rw [State.ctx_modCtx_self, Ctx.popped, hctx]
  · rw [State.ctx_modCtx_self, Ctx.queue_popped, hctx]
    rfl

theorem State.completes_pop_repeated (hst : (u.ctx cx).st = .run) (w : Nat) (f : Entry) : State.Completes cx q u ((u.repeated cx q w f).pop cx q) :=
  State.completes_pop hst (u.rest_repeated cx q w f) (u.chan_repeated cx q w f) (u.ctx_repeated cx q w f)

/-- A completion that writes a register of the context: `g`, which looks at no report and leaves the state of the context alone. -/
theorem State.completes_pop_modCtx {g : Ctx → Ctx} (hst : (u.ctx cx).st = .run)
    (hg : ∀ (k : Ctx) x y, g { k with exc := x, inv := y } = { g k with exc := x, inv := y }) (hrun : ∀ k : Ctx, (g k).st = k.st) (w : Nat) (f : Entry) :
    State.Completes cx q (u.modCtx cx g) (((u.repeated cx q w f).modCtx cx g).pop cx q) := by
  have hrest := u.rest_repeated cx q w f
  have hctx := u.ctx_repeated cx q w f
  have hchan := u.chan_repeated cx q w f
  generalize u.repeated cx q w f = v at hrest hctx hchan ⊢
  refine State.completes_pop (by rw [State.ctx_modCtx_self, hrun, hst]) (by rw [hrest]; rfl) hchan ?_
  rw [State.ctx_modCtx_self, State.ctx_modCtx_self, hctx, hg]

/-- The last repeat of an entry whose completion writes nothing. -/
theorem exec_lastRepeat_completes {body : Ctx → Entry → State → Except Nat (Option Rep) × State} {e' : Entry}
    (hrow : engineRow c = some (cx, q, op, body, fun _ s => s)) (h : s.lastRepeat cx q op e r)
    (hbody : body (s.ctx cx) e s = (.ok (some { e := e' }), u)) (hctx : (u.ctx cx).st = (s.ctx cx).st) :
    ∃ t, exec c s = .next t ∧ State.Completes cx q u t :=
  have hst : (u.ctx cx).st = .run := by
    obtain ⟨-, -, -, hst, -⟩ := h
    exact hctx.trans hst
  ⟨_, exec_lastRepeat hrow h hbody, State.completes_pop_repeated hst _ _⟩

/-- The queue behind the last repeat of its head. -/
theorem State.Completes.queue_lastRepeat (h : State.Completes cx q u t) (hlast : s.lastRepeat cx q op e r) (hq : (u.ctx cx).q = (s.ctx cx).q) :
    ((t.ctx cx).queue q).map (·.word) = r.map (·.word) := by
  obtain ⟨-, -, hqueue, -⟩ := hlast
  have hsame : (u.ctx cx).queue q = e :: r := by rw [Ctx.queue, hq]; exact hqueue
  rw [h.queue, hsame]
  rfl

end Last

/-! ### Repeats whose operands lie in scratch -/

section Transfer

variable {s : State} {cx q op : Nat} {e : Entry} {r : List Entry} {c : Instr} {body : Ctx → Entry → State → Except Nat (Option Rep) × State}

/-- From `s` to `t` the last repeat of an entry has written the bytes `b` to scratch from address `a` on, and the entry has left its queue. -/
structure State.Leaves (cx q a : Nat) (b : Bytes) (r : List Entry) (s t : State) : Prop where
  queue : ((t.ctx cx).queue q).map (·.word) = r.map (·.word)
  win : (t.ctx cx).win = (s.ctx cx).win
  get : ∀ i, Mem.get (t.chan (chOf cx)).scratch i = if a ≤ i ∧ i < a + b.length then b.getD (i - a) 0 else Mem.get (s.chan (chOf cx)).scratch i

theorem State.Leaves.read {a : Nat} {b : Bytes} {t : State} (h : State.Leaves cx q a b r s t) : Mem.read (t.chan (chOf cx)).scratch a b.length = b :=
  Mem.read_eq_of_get fun i hi => by rw [h.get, if_pos (by omega), Nat.add_sub_cancel_left]

/-- The result as the program finds it in its window. -/
theorem State.Leaves.scr {a n : Nat} {b : Bytes} {t : State} (h : State.Leaves cx q ((s.ctx cx).win + a) b r s t) (hn : b.length = n) : t.scr cx a n = b := by
  rw [State.scr, h.win, ← hn, h.read]

/-- A completion that leaves everything as it is. -/
theorem exec_leaves_of_fin {fin : Entry → State → State} {u : State} {a : Nat} {b : Bytes} {e' : Entry} (hrow : engineRow c = some (cx, q, op, body, fin))
    (h : s.lastRepeat cx q op e r) (hbody : body (s.ctx cx) e s = (.ok (some { e := e' }), u)) (hfin : ∀ v, fin { e' with i := e.i + 1 } v = v)
    (hctx : u.ctx cx = s.ctx cx)
    (hget : ∀ i, Mem.get (u.chan (chOf cx)).scratch i = if a ≤ i ∧ i < a + b.length then b.getD (i - a) 0 else Mem.get (s.chan (chOf cx)).scratch i) :
    Yields c s (State.Leaves cx q a b r s) := by
  have ⟨_, _, _, hst, _⟩ := h
  have hrun := (exec_lastRepeat hrow h hbody).trans (congrArg (fun v => Host.Outcome.next (State.pop v cx q)) (hfin _))
  have ht := u.completes_pop_repeated (q := q) (by rw [hctx]; exact hst) e.word { e' with i := e.i + 1 }
  refine ⟨_, hrun, ht.queue_lastRepeat h (by rw [hctx]), by rw [ht.win, hctx], fun i => ?_⟩
  rw [ht.scratch, hget]

theorem exec_leaves {u : State} {a : Nat} {b : Bytes} {e' : Entry} (hrow : engineRow c = some (cx, q, op, body, fun _ s => s))
    (h : s.lastRepeat cx q op e r) (hbody : body (s.ctx cx) e s = (.ok (some { e := e' }), u)) (hctx : u.ctx cx = s.ctx cx)
    (hget : ∀ i, Mem.get (u.chan (chOf cx)).scratch i = if a ≤ i ∧ i < a + b.length then b.getD (i - a) 0 else Mem.get (s.chan (chOf cx)).scratch i) :
    Yields c s (State.Leaves cx q a b r s) := exec_leaves_of_fin hrow h hbody (fun _ => rfl) hctx hget

/-- A row whose repeat is one transfer, of operands in scratch to a destination in scratch. -/
theorem exec_transfer_leaves {host : HostData} {rd : List Use} {x : Use} {f : List Bytes → Except Nat (List Bytes × List (Flags × ExcCoord) × Entry)}
    {o : Bytes} {os : List Bytes} {e' : Entry} (hrow : engineRow c = some (cx, q, op, body, fun _ s => s)) (h : s.lastRepeat cx q op e r)
    (hue : (s.chan (chOf cx)).scratchUe = []) (hbody : body (s.ctx cx) e s = s.transfer cx (s.ctx cx) host rd [x] f)
    (hrd : ∀ y ∈ rd, (s.ctx cx).Holds y) (hwr : (s.ctx cx).Holds x)
    (hf : f (rd.map ((s.ctx cx).bytesOf (s.chan (chOf cx)).scratch)) = .ok (o :: os, [], e')) :
    Yields c s (State.Leaves cx q ((s.ctx cx).place x) o r s) := by
  obtain ⟨u, htransfer, hu⟩ := State.transfer_holds (host := host) hue hrd hwr hf
  exact exec_leaves hrow h (hbody.trans htransfer) (hu.ctx cx) hu.get

end Transfer

end Sys2Proof.Machine
end

section
/-! PROOFS. Loops (R153–R156, R188): where the sequencer goes on at the end of a pass and elsewhere, and what a counter written later leaves of the
loops in progress. -/

namespace Sys2Proof.Machine

section Loops

variable {k : Ctx} {l : Loop} {r : List Loop}

/-- No pass of the innermost loop ends here. -/
theorem Ctx.forward_inside (h : ∀ l r, k.loops = l :: r → k.pc ≠ l.last) : k.forward = { k with pc := k.pc + 1 } := by
  suffices hgoto : ∀ ls, k.loops = ls → k.goto (k.pc + 1) ls.length = { k with pc := k.pc + 1 } from hgoto _ rfl
  intro ls hloops
  cases ls with
  | nil => rfl
  | cons l r =>
    have hne : k.pc + 1 ≠ l.last + 1 := by
      have := h l r hloops
      omega
    simp only [List.length_cons, Ctx.goto, hloops, if_neg hne]

/-- A pass ends and passes are left. -/
theorem Ctx.forward_again (hloops : k.loops = l :: r) (hend : k.pc = l.last) (hleft : 1 < l.left) :
    k.forward = { k with pc := l.first, loops := { l with left := l.left - 1 } :: r } := by
  unfold Ctx.forward
  simp only [hloops, List.length_cons, Ctx.goto, hend, if_true, if_pos hleft]

/-- The last pass ends, and no outer loop ends its pass at the same instruction. -/
theorem Ctx.forward_leaves (hloops : k.loops = l :: r) (hend : k.pc = l.last) (hleft : l.left ≤ 1) (hout : ∀ o q, r = o :: q → l.last ≠ o.last) :
    k.forward = { k with pc := l.last + 1, loops := r } := by
  unfold Ctx.forward
  simp only [hloops, List.length_cons, Ctx.goto, hend, if_true, if_neg (Nat.not_lt.mpr hleft)]
  cases r with
  | nil => rfl
  | cons o q =>
    have hne : l.last + 1 ≠ o.last + 1 := by
      have := hout o q rfl
      omega
    simp only [List.length_cons, Ctx.goto, if_neg hne]

/-- A register written leaves the pc and the loops alone. -/
theorem Ctx.flow_setReg (k : Ctx) (cls n v : Nat) : (k.setReg cls n v).pc = k.pc ∧ (k.setReg cls n v).loops = k.loops := by
  unfold Ctx.setReg
  split <;> exact ⟨rfl, rfl⟩

end Loops

/-- A cnt inside a body goes on to the next instruction, with every loop as it was. -/
theorem exec_cnt_loops {s : State} {cx : Cx} {w : Nat} {k : Ctx} (h : s.issues cx w 3) (hk : k = (s.ctx cx).issuing)
    (hin : ∀ l r, k.loops = l :: r → k.pc ≠ l.last) : Yields (.cnt cx) s (fun t => (t.ctx cx).loops = k.loops ∧ (t.ctx cx).pc = k.pc + 1) := by
  obtain ⟨t, hrun, -, hctx, -⟩ := exec_cnt_writes h hk rfl rfl
  refine ⟨t, hrun, ?_⟩
  have hflow : ∀ k' : Ctx, k'.pc = k.pc ∧ k'.loops = k.loops → k'.forward.loops = k.loops ∧ k'.forward.pc = k.pc + 1 := by
    rintro k' ⟨hpc, hloops⟩
    rw [Ctx.forward_inside (by rw [hloops, hpc]; exact hin)]
    exact ⟨hloops, congrArg (· + 1) hpc⟩
  beta_reduce
  rw [hctx]
  refine hflow _ ?_
  split
  · exact ⟨rfl, rfl⟩
  · exact k.flow_setReg _ _ _

/-- Settles O54: the count is latched at the entry of the loop; from there on the passes left stand with the loop. -/
theorem loopsCountFromACounter : Obligations.LoopsCountFromACounter := by
  intro s cx w k hk
  refine ⟨fun h hcsel n hn => ?_, fun h _ hin => exec_cnt_loops h hk hin, fun l r hloops hend =>
    ⟨Ctx.forward_again hloops hend, fun hleft hout => Ctx.forward_leaves hloops hend hleft hout⟩⟩
  obtain ⟨t, hrun, -, hctx⟩ := exec_loop_enters h hk (n := n) (by rw [if_pos hcsel]; exact hn) rfl
  refine ⟨fun hne => ⟨t, hrun, ?_⟩, fun hzero => ⟨t, hrun, ?_⟩⟩
  · beta_reduce
    rw [hctx, if_neg hne]
    exact ⟨rfl, rfl⟩
  · beta_reduce
    rw [hctx, if_pos hzero]

end Sys2Proof.Machine
end

section
/-! PROOFS. Accumulator banks (R193, R237, R238) and the repeats of M entries (R171): banks of several tiles replaced, and mmz at any of its repeats. -/

namespace Sys2Proof.Machine

/-! ### Banks -/

section Banks

variable {s : State} {ch b : Nat} {l : List (Nat × Bank)}

/-- The bank of each tile that is given one. -/
theorem State.bank_setBanks_mem (hkeys : ∀ x ∈ l, ∀ y ∈ l, y ≠ x → y.1 ≠ x.1) {x : Nat × Bank} (hx : x ∈ l) :
    (s.setBanks ch b l).bank ch x.1 b = x.2 := by
  have hfold := Tab.get_foldl_put ({} : Bank) (fun x : Nat × Bank => 4 * x.1 + b) Prod.snd (l := l)
    (fun x hx y hy hne heq => hkeys x hx y hy hne (by omega)) (s.chan ch).banks x hx
  rw [State.bank, State.setBanks, State.chan_modChan_self]
  exact hfold

/-- Every other bank stays. -/
theorem State.bank_setBanks_other {x c : Nat} (hb : b < 4) (hc : c < 4) (h : (∀ y ∈ l, y.1 ≠ x) ∨ c ≠ b) :
    (s.setBanks ch b l).bank ch x c = s.bank ch x c := by
  rw [State.bank, State.setBanks, State.chan_modChan_self, State.bank]
  refine List.foldlRecOn (motive := fun t : Tab Bank => t.get {} (4 * x + c) = (s.chan ch).banks.get {} (4 * x + c)) l _ rfl fun t ht y hy => ?_
  refine (Tab.get_put_ne _ _ _ _ ?_).trans ht
  rcases h with h | h
  · have := h y hy
    omega
  · omega

/-- A change of a channel beside its banks. -/
theorem State.bank_modChan (s : State) (ch : Nat) {f : Chan → Chan} (hf : ∀ c : Chan, (f c).banks = c.banks) (x c : Nat) :
    (s.modChan ch f).bank ch x c = s.bank ch x c := by rw [State.bank, State.chan_modChan_self, hf, State.bank]

/-- The bank as reset leaves it holds +0 everywhere. -/
theorem Bank.elems_zero (i : Nat) : ({} : Bank).elems.getD i 0 = 0 := by
  change (List.replicate 1024 0).getD i 0 = 0
  rw [List.getD_eq_getElem?_getD, List.getElem?_replicate]
  split <;> rfl

/-- No tile stands twice in a gmask. -/
theorem nodup_tilesOf (g : Nat) : (tilesOf g).Nodup := by
  refine List.nodup_flatMap.mpr ⟨fun k _ => List.Nodup.map (fun i j hij => by simpa using hij) List.nodup_range, ?_⟩
  refine (List.nodup_range.filter (bitOf g)).imp fun {a c} hne => ?_
  refine List.disjoint_left.mpr fun x hx hy => ?_
  obtain ⟨i, hi, rfl⟩ := List.mem_map.mp hx
  obtain ⟨j, hj, heq⟩ := List.mem_map.mp hy
  have hi' := List.mem_range.mp hi
  have hj' := List.mem_range.mp hj
  omega

end Banks

/-! ### Repeats of M entries -/

section Tiles

variable {s u : State} {cx : Nat} {k : Ctx} {e : Entry} {p : Option Rep}

/-- The starts admitted for tiles have been used. -/
def State.started (s : State) (ch : Nat) (tiles : List Nat) : State :=
  s.modChan ch (fun c => { c with admitted := c.admitted.filter (fun t => !tiles.contains t) })

/-- Once its tiles may begin, a repeat has its effect. -/
theorem State.inTiles_open {body : Ctx → Entry → State → Except Nat (Option Rep) × State}
    (hopen : s.tilesOpen (chOf cx) (tilesOf (gmaskOf e.word)) = true)
    (hbody : body k e s = (.ok p, u)) : State.inTiles cx body k e s = (.ok p, u.started (chOf cx) (tilesOf (gmaskOf e.word))) := by
  unfold State.inTiles State.begin_
  rw [hbody]
  exact if_pos hopen

theorem State.bank_started (s : State) (ch : Nat) (tiles : List Nat) (x c : Nat) : (s.started ch tiles).bank ch x c = s.bank ch x c :=
  s.bank_modChan ch (f := fun c => { c with admitted := c.admitted.filter (fun t => !tiles.contains t) }) (fun _ => rfl) x c

theorem State.bank_tilesWork (s : State) (ch : Nat) (l : List (Nat × Nat)) (x c : Nat) : (s.tilesWork ch l).bank ch x c = s.bank ch x c :=
  s.bank_modChan ch (f := fun c => { c with
    tileAt := l.foldl (fun t x => if x.2 = 0 then t else t.put 0 x.1 (s.coreNow (ch / 2) + x.2 + 1)) c.tileAt }) (fun _ => rfl) x c

/-- What a repeat of mmz leaves. -/
def State.zeroed (s : State) (cx : Nat) (e : Entry) : State :=
  ((s.setBanks (chOf cx) ((bankOf e.word + e.i) % 4) ((tilesOf (gmaskOf e.word)).map (fun t => (t, {})))).tilesWork (chOf cx)
    ((tilesOf (gmaskOf e.word)).map (fun t => (t, 8)))).started (chOf cx) (tilesOf (gmaskOf e.word))

theorem State.mmz_open (hopen : s.tilesOpen (chOf cx) (tilesOf (gmaskOf e.word)) = true) :
    State.inTiles cx (State.mmzBody cx) k e s = (.ok (some { e := e }), s.zeroed cx e) := State.inTiles_open hopen rfl

theorem State.rest_zeroed (s : State) (cx : Nat) (e : Entry) : s.zeroed cx e = { s with chans := (s.zeroed cx e).chans } := rfl

/-- Repeat i zeroes bank (bank + i) mod 4 of its tiles. -/
theorem State.bank_zeroed (s : State) (cx : Nat) (e : Entry) : ∀ x ∈ tilesOf (gmaskOf e.word),
    (s.zeroed cx e).bank (chOf cx) x ((bankOf e.word + e.i) % 4) = {} := by
  intro x hx
  rw [State.zeroed, State.bank_started, State.bank_tilesWork]
  refine State.bank_setBanks_mem (fun y hy z hz hne heq => ?_) (List.mem_map_of_mem (f := fun t => (t, ({} : Bank))) hx)
  obtain ⟨i, -, rfl⟩ := List.mem_map.mp hy
  obtain ⟨j, -, rfl⟩ := List.mem_map.mp hz
  exact hne (congrArg (·, ({} : Bank)) heq)

theorem State.bank_zeroed_other (s : State) (cx : Nat) (e : Entry) : ∀ x b, b < 4 →
    (x ∉ tilesOf (gmaskOf e.word) ∨ b ≠ (bankOf e.word + e.i) % 4) → (s.zeroed cx e).bank (chOf cx) x b = s.bank (chOf cx) x b := by
  intro x b hb h
  rw [State.zeroed, State.bank_started, State.bank_tilesWork]
  refine State.bank_setBanks_other (Nat.mod_lt _ (by decide)) hb (h.imp_left fun hx y hy heq => ?_)
  obtain ⟨i, hi, rfl⟩ := List.mem_map.mp hy
  exact hx (heq ▸ hi)

end Tiles

/-! ### mmz at any repeat -/

section Mmz

variable {s : State} {cx q : Nat}

/-- Queues are discarded in DRAIN, and contexts alone change. -/
theorem State.rest_drainScan (s : State) (cx : Nat) : s.drainScan cx = { s with ctxs := (s.drainScan cx).ctxs } := by
  unfold State.drainScan
  split
  · refine List.foldlRecOn (motive := fun t : State => t = { s with ctxs := t.ctxs }) _ _ rfl fun t ht q _ => ?_
    split
    · split
      · rw [ht]
        rfl
      · exact ht
    · exact ht
  · rfl

/-- An entry that leaves its queue may wake its context. -/
theorem State.rest_pop (s : State) (cx q : Nat) :
    s.pop cx q = { s with ctxs := (s.pop cx q).ctxs, regs := (s.pop cx q).regs, latch := (s.pop cx q).latch } := by
  have hpopped : s.modCtx cx (fun k => k.popped s.now q) = { s with ctxs := (s.modCtx cx (fun k => k.popped s.now q)).ctxs } := rfl
  rw [s.pop_eq cx q rfl]
  generalize s.modCtx cx (fun k => k.popped s.now q) = t at hpopped ⊢
  rw [State.rest_drainScan]
  split
  · rw [State.wake_rest, hpopped]
  · rw [hpopped]

/-- A repeat that raises no flag: the last one completes its entry, any other leaves it at the next repeat. -/
theorem State.repeatOutcome_noFlags (e : Entry) (r : List Entry) (fin : Entry → State → State) (e' : Entry) (u : State) :
    State.repeatOutcome cx q e r fin (.ok (some { e := e' }), u) =
      if e.i + 1 = repeats e.word e.cnt then (fin { e' with i := e.i + 1 } (u.repeated cx q e.word { e' with i := e.i + 1 })).pop cx q
      else ((u.serve cx q).event (chOf cx) q (repeatEvents e.word).1 (repeatEvents e.word).2).setQueue cx q ({ e' with i := e.i + 1 } :: r) := by
  have hentry : ({ e'.gather [] with i := e.i + 1 } : Entry) = { e' with i := e.i + 1 } := by rw [Entry.gather_nil]
  rw [← hentry]
  rfl

/-- Besides its effect it changes contexts, registers and what the channel counts of it. -/
theorem State.repeatOutcome_rest {e : Entry} {r : List Entry} {u t : State}
    (ht : t = State.repeatOutcome cx q e r (fun _ s => s) (.ok (some { e := e }), u)) :
    t = { u with chans := t.chans, ctxs := t.ctxs, regs := t.regs, latch := t.latch } ∧ ∀ x b, t.bank (chOf cx) x b = u.bank (chOf cx) x b := by
  have hbank (f : Entry) (x b : Nat) : (u.repeated cx q e.word f).bank (chOf cx) x b = u.bank (chOf cx) x b := by
    rw [State.bank, State.chan_repeated, State.bank]
  rw [ht, State.repeatOutcome_noFlags]
  split
  · have hrest := u.rest_repeated cx q e.word { e with i := e.i + 1 }
    have hbank := hbank { e with i := e.i + 1 }
    generalize u.repeated cx q e.word { e with i := e.i + 1 } = v at hrest hbank ⊢
    have hpop := v.rest_pop cx q
    refine ⟨by rw [hpop, hrest], fun x b => ?_⟩
    rw [State.bank, State.chan, hpop]
    exact hbank x b
  · exact ⟨rfl, hbank e⟩

end Mmz

/-- Settles O53: no operand stands between the repeat and its tiles. -/
theorem mmzZeroesItsBank : Obligations.MmzZeroesItsBank := by
  intro s cx e r hlive hfatal hqueue hrun hop hi hmax hopen
  have hhead : s.AtHead cx 0 0x11 e r := ⟨hqueue, hrun, hop⟩
  have hexec := exec_engineRow (c := .mmz cx) rfl hlive hfatal
  rw [State.runRepeat_atHead hhead, if_neg (by omega), if_neg (by omega), show s.engineTurn cx 0 = true from rfl, Bool.not_true,
    if_neg Bool.false_ne_true] at hexec
  dsimp only at hexec
  rw [State.mmz_open hopen] at hexec
  refine ⟨_, hexec, ?_⟩
  generalize ht : State.repeatOutcome cx 0 e r (fun _ s => s) (.ok (some { e := e }), s.zeroed cx e) = t
  obtain ⟨hrest, hbank⟩ := State.repeatOutcome_rest ht.symm
  refine ⟨fun x hx i _ => ?_, fun x b hb h => ?_, by rw [hrest, State.rest_zeroed]⟩
  · have hzero := s.bank_zeroed cx e x hx
    exact (congrArg (fun b : Bank => b.elems.getD i 0) ((hbank _ _).trans hzero)).trans (Bank.elems_zero i)
  · exact (hbank x b).trans (s.bank_zeroed_other cx e x b hb h)

end Sys2Proof.Machine
end

section
/-! PROOFS. mov, srt and pfree (R184, R197, R201, R206), with mmz the rows whose results the scratch window, the banks and the store show whole. -/

namespace Sys2Proof.Machine

/-! ### Sorting -/

section Sorting

variable {α : Type} {le : α → α → Bool}

theorem insertBy_eq_orderedInsert (le : α → α → Bool) (x : α) (l : List α) : insertBy le x l = l.orderedInsert (fun a b => le a b = true) x := by
  induction l with
  | nil => rfl
  | cons y r ih =>
    rw [insertBy, List.orderedInsert_cons, ih]

theorem sortBy_eq_insertionSort (le : α → α → Bool) (l : List α) : sortBy le l = l.insertionSort (fun a b => le a b = true) := by
  induction l with
  | nil => rfl
  | cons x r ih => rw [sortBy, List.insertionSort_cons, ih, insertBy_eq_orderedInsert]

theorem perm_sortBy (le : α → α → Bool) (l : List α) : (sortBy le l).Perm l := sortBy_eq_insertionSort le l ▸ List.perm_insertionSort _ l

theorem pairwise_sortBy (htotal : ∀ x y, le x y = true ∨ le y x = true) (htrans : ∀ x y z, le x y = true → le y z = true → le x z = true)
    (l : List α) :
    (sortBy le l).Pairwise (fun x y => le x y = true) := by
  have : Std.Total (fun a b => le a b = true) := ⟨htotal⟩
  have : IsTrans α (fun a b => le a b = true) := ⟨htrans⟩
  exact sortBy_eq_insertionSort le l ▸ List.pairwise_insertionSort _ l

end Sorting

/-! ### Records -/

theorem length_records (n : Nat) (b : Bytes) : (records n b).length = n := by simp [records]

theorem length_of_mem_records {n : Nat} {b x : Bytes} (hb : b.length = 8 * n) (hx : x ∈ records n b) : x.length = 8 := by
  obtain ⟨j, hj, rfl⟩ := List.mem_map.mp hx
  have hj' := List.mem_range.mp hj
  rw [slice, List.length_take, List.length_drop]
  omega

/-- Records laid end to end are read back. -/
theorem records_flatten {l : List Bytes} (h : ∀ x ∈ l, x.length = 8) : records l.length l.flatten = l := by
  refine List.ext_getElem (length_records _ _) fun i _ hi => ?_
  simp only [records, List.getElem_map, List.getElem_range]
  exact slice_flatten h hi

/-! ### mov and srt -/

section Engines

variable {s : State} {cx : Cx} {e : Entry} {r : List Entry} {src dst n : Nat}

theorem exec_mov_scratch {host : HostData} (h : s.lastRepeat cx 3 0x40 e r) (hn : n = moveLen e.word) (hA : slSpace (slotA e.word) = 1)
    (hD : slSpace (slotD e.word) = 1) (hsrc : (locOf e.word (slotA e.word) e.a e.xa e.i 0).addr = (src : Int))
    (hdst : (locOf e.word (slotD e.word) e.d e.xd e.i 0).addr = (dst : Int)) (hsrc32 : src % 32 = 0) (hdst32 : dst % 32 = 0)
    (hsrcIn : src + n ≤ (s.ctx cx).winLen) (hdstIn : dst + n ≤ (s.ctx cx).winLen) (hue : (s.chan (chOf cx)).scratchUe = []) :
    Yields (.mov cx host) s (State.Leaves cx 3 ((s.ctx cx).win + dst) (s.scr cx src n) r s) := by
  have hbody : State.movBody cx host (s.ctx cx) e s = s.transfer cx (s.ctx cx) host [⟨locOf e.word (slotA e.word) e.a e.xa e.i 0, n, 32⟩]
      [⟨locOf e.word (slotD e.word) e.d e.xd e.i 0, n, 32⟩] (fun bs => .ok ([bs.headD []], [], e)) := by
    unfold State.movBody
    simp only [hA, hD, hn, moveAlign, show (1 : Nat) ≠ 3 from by decide, if_false]
  have hread : (s.ctx cx).bytesOf (s.chan (chOf cx)).scratch ⟨locOf e.word (slotA e.word) e.a e.xa e.i 0, n, 32⟩ = s.scr cx src n := by
    rw [Ctx.bytesOf, Ctx.place_loc hsrc, State.scr]
  rw [← Ctx.place_loc (n := n) (align := 32) hdst]
  refine exec_transfer_leaves (os := []) (e' := e) rfl h hue hbody (fun y hy => ?_) (Ctx.holds_loc hD hdst hdst32 hdstIn (by decide)) ?_
  · exact List.mem_singleton.mp hy ▸ Ctx.holds_loc hA hsrc hsrc32 hsrcIn (by decide)
  · rw [List.map_singleton, hread]
    rfl

/-- The order of srt. -/
def srtOrder (w : Nat) (x y : Bytes) : Bool :=
  if bitOf w 110 then decide (recKey (bits w 108 2) y ≤ recKey (bits w 108 2) x) else decide (recKey (bits w 108 2) x ≤ recKey (bits w 108 2) y)

theorem State.srtBody_eq (cx : Nat) (k : Ctx) (e : Entry) (s : State) : State.srtBody cx k e s =
    s.transfer cx k .error [⟨locOf e.word (slotA e.word) e.a e.xa e.i 0, 8 * 2 ^ bits e.word 104 4, 32⟩]
      [⟨locOf e.word (slotD e.word) e.d e.xd e.i 0, 8 * 2 ^ bits e.word 104 4, 32⟩]
      (fun bs => .ok ([(sortBy (srtOrder e.word) (records (2 ^ bits e.word 104 4) (bs.headD []))).flatten], [], e)) := rfl

theorem exec_srt_scratch (h : s.lastRepeat cx 2 0x30 e r) (hn : n = 2 ^ bits e.word 104 4) (hA : slSpace (slotA e.word) = 1)
    (hD : slSpace (slotD e.word) = 1) (hsrc : (locOf e.word (slotA e.word) e.a e.xa e.i 0).addr = (src : Int))
    (hdst : (locOf e.word (slotD e.word) e.d e.xd e.i 0).addr = (dst : Int)) (hsrc32 : src % 32 = 0) (hdst32 : dst % 32 = 0)
    (hsrcIn : src + 8 * n ≤ (s.ctx cx).winLen) (hdstIn : dst + 8 * n ≤ (s.ctx cx).winLen) (hue : (s.chan (chOf cx)).scratchUe = []) :
    Yields (.srt cx) s (State.Leaves cx 2 ((s.ctx cx).win + dst) (sortBy (srtOrder e.word) (records n (s.scr cx src (8 * n)))).flatten r s) := by
  subst hn
  have hread : (s.ctx cx).bytesOf (s.chan (chOf cx)).scratch ⟨locOf e.word (slotA e.word) e.a e.xa e.i 0, 8 * 2 ^ bits e.word 104 4, 32⟩ =
      s.scr cx src (8 * 2 ^ bits e.word 104 4) := by
    rw [Ctx.bytesOf, Ctx.place_loc hsrc, State.scr]
  rw [← Ctx.place_loc (n := 8 * 2 ^ bits e.word 104 4) (align := 32) hdst]
  refine exec_transfer_leaves (host := .error) (os := []) (e' := e) rfl h hue (State.srtBody_eq _ _ _ _) (fun y hy => ?_)
    (Ctx.holds_loc hD hdst hdst32 hdstIn (by decide)) ?_
  · exact List.mem_singleton.mp hy ▸ Ctx.holds_loc hA hsrc hsrc32 hsrcIn (by decide)
  · rw [List.map_singleton, hread]
    rfl

/-- In ascending order no record comes before one of a smaller key. -/
theorem pairwise_srtOrder {w : Nat} (hasc : bitOf w 110 = false) (l : List Bytes) :
    (sortBy (srtOrder w) l).Pairwise (fun x y => recKey (bits w 108 2) x ≤ recKey (bits w 108 2) y) := by
  have horder (x y : Bytes) : srtOrder w x y = true ↔ recKey (bits w 108 2) x ≤ recKey (bits w 108 2) y := by
    rw [srtOrder, hasc, if_neg Bool.false_ne_true, decide_eq_true_iff]
  refine (pairwise_sortBy (fun x y => ?_) (fun x y z => ?_) l).imp fun {x y} => (horder x y).mp
  · rw [horder, horder]
    exact Int.le_total _ _
  · rw [horder, horder, horder]
    exact Int.le_trans

/-! ### mmz and pfree -/

theorem exec_mmz_open (h : s.lastRepeat cx 0 0x11 e r) (hopen : s.tilesOpen (chOf cx) (tilesOf (gmaskOf e.word)) = true) :
    Yields (.mmz cx) s (fun t => ((t.ctx cx).queue 0).map (·.word) = r.map (·.word) ∧
      (∀ x ∈ tilesOf (gmaskOf e.word), t.bank (chOf cx) x ((bankOf e.word + e.i) % 4) = {}) ∧
      (∀ x b, b < 4 → (x ∉ tilesOf (gmaskOf e.word) ∨ b ≠ (bankOf e.word + e.i) % 4) → t.bank (chOf cx) x b = s.bank (chOf cx) x b)) := by
  obtain ⟨t, hrun, ht⟩ := exec_lastRepeat_completes (c := .mmz cx) rfl h (State.mmz_open hopen) rfl
  exact ⟨t, hrun, ht.queue_lastRepeat h rfl, fun x hx => (ht.bank x _).trans (s.bank_zeroed cx e x hx),
    fun x b hb hx => (ht.bank x b).trans (s.bank_zeroed_other cx e x b hb hx)⟩

/-- The last share of a buffer is released: it is held no longer, whatever the change of the charge brings about (R105). -/
theorem State.bufs_release {u home : Nat} {b : Buf} (hb : s.store.bufs.find? u = some b) (hshares : b.shares ≤ 1) :
    (s.release u home).store.bufs = s.store.bufs.erase u := by
  unfold State.release
  rw [hb]
  dsimp only
  rw [if_neg (Nat.not_lt.mpr hshares)]
  split
  · rfl
  · rw [(State.portWork_usageSync _ _).store]
    rfl

theorem exec_pfree_held {u : Nat} {b : Buf} (h : s.lastRepeat cx 4 0x52 e r)
    (hu : (locOf e.word (slotA e.word) e.a e.xa e.i 0).handle.bind s.handleUnit = some u) (hheld : (s.ctx cx).held.contains u = true)
    (hb : s.store.bufs.find? u = some b) (hshares : b.shares ≤ 1) : Yields (.pfree cx) s (fun t => ((t.ctx cx).queue 4).map (·.word) = r.map (·.word) ∧
      t.store.bufs.find? u = none ∧ (t.ctx cx).held = (s.ctx cx).held.erase u) := by
  generalize hv : (s.modCtx cx (fun k => { k with held := k.held.erase u })).release u (s.home (chOf cx)) = v
  have hbody : State.pfreeBody cx (s.ctx cx) e s = (.ok (some { e := e }), v) := by
    unfold State.pfreeBody
    rw [hu, Option.filter_some, if_pos hheld, ← hv]
  have hbufs : v.store.bufs = s.store.bufs.erase u := hv ▸ State.bufs_release hb hshares
  have hctx : v.ctx cx = { s.ctx cx with held := (s.ctx cx).held.erase u } := by
    rw [← hv, (State.storeWork_release _ _ _).rest]
    exact s.ctx_modCtx_self cx (fun k => { k with held := k.held.erase u })
  obtain ⟨t, hrun, ht⟩ := exec_lastRepeat_completes (c := .pfree cx) rfl h hbody (by rw [hctx])
  refine ⟨t, hrun, ht.queue_lastRepeat h (by rw [hctx]), ?_, by rw [ht.ctx, hctx]⟩
  rw [ht.rest, hbufs]
  exact Tab.find?_erase_self _ u

end Engines

/-- Settles O21: mov and srt are transfers within scratch, mmz and pfree have an effect of their own; the entry leaves its queue behind each. -/
theorem engineResultsInScratch : Obligations.EngineResultsInScratch := by
  intro s cx e r src dst
  refine ⟨fun n host h hn hA hD hsrc hdst hsrc32 hdst32 hsrcIn hdstIn hue => ?_, fun n kt h hn hkt hasc hA hD hsrc hdst hsrc32 hdst32 hsrcIn hdstIn hue => ?_,
    fun h hopen => exec_mmz_open h hopen, fun u b h hu hheld hb hshares => exec_pfree_held h hu hheld hb hshares⟩
  · obtain ⟨t, hrun, ht⟩ := exec_mov_scratch (host := host) h hn hA hD hsrc hdst hsrc32 hdst32 hsrcIn hdstIn hue
    refine ⟨t, hrun, ht.queue, fun a => ?_⟩
    rw [ht.get, State.scr, Mem.length_read]
    split
    · next hin => exact Mem.getD_read _ _ (by omega)
    · rfl
  · subst hkt
    obtain ⟨t, hrun, ht⟩ := exec_srt_scratch h hn hA hD hsrc hdst hsrc32 hdst32 hsrcIn hdstIn hue
    have hread := ht.read
    generalize hl : sortBy (srtOrder e.word) (records n (s.scr cx src (8 * n))) = l at hread
    have hperm : l.Perm (records n (s.scr cx src (8 * n))) := hl ▸ perm_sortBy _ _
    have hlen : l.length = n := hperm.length_eq.trans (length_records _ _)
    have hrec : ∀ x ∈ l, x.length = 8 := fun x hx => length_of_mem_records (Mem.length_read _ _ _) (hperm.mem_iff.mp hx)
    rw [length_flatten_pieces hrec, hlen] at hread
    have hout : records n (Mem.read (t.chan (chOf cx)).scratch ((s.ctx cx).win + dst) (8 * n)) = l := by
      rw [hread, ← hlen]
      exact records_flatten hrec
    refine ⟨t, hrun, ht.queue, ?_, ?_⟩
    · rw [hout]
      exact hperm
    · rw [hout, ← hl]
      exact pairwise_srtOrder hasc _

end Sys2Proof.Machine
end

section
/-! PROOFS. Fields of fields (R5), two's complement (R195, R241), and integers as values of a format (R208, R220, R223). -/

namespace Sys2Proof.Machine

/-! ### Fields of fields -/

theorem bits_bits (v lo : Nat) {n i j : Nat} (h : i + j ≤ n) : bits (bits v lo n) i j = bits v (lo + i) j := by
  have hsplit : 2 ^ n = 2 ^ i * 2 ^ (n - i) := by rw [← pow_add, Nat.add_sub_cancel' (by omega)]
  rw [bits, bits, bits, hsplit, Nat.mod_mul_right_div_self, Nat.mod_mod_of_dvd _ (pow_dvd_pow 2 (by omega)), Nat.div_div_eq_div_mul, ← pow_add]

theorem bitOf_eq_bits (v i : Nat) : bitOf v i = (bits v i 1 == 1) := rfl

/-- A field of zero is zero in its parts. -/
theorem bits_of_bits_zero {v lo n : Nat} (h : bits v lo n = 0) (i : Nat) {j : Nat} (hij : i + j ≤ n) : bits v (lo + i) j = 0 := by
  rw [← bits_bits v lo hij, h, bits, Nat.zero_div, Nat.zero_mod]

theorem bitOf_of_bits_zero {v lo n : Nat} (h : bits v lo n = 0) (i : Nat) (hi : i + 1 ≤ n) : bitOf v (lo + i) = false := by
  rw [bitOf_eq_bits, bits_of_bits_zero h i hi]
  rfl

/-! ### Two's complement -/

theorem signed_emod (w v : Nat) : signed w v % ((2 ^ w : Nat) : Int) = ((v % 2 ^ w : Nat) : Int) := by
  unfold signed
  split
  · exact_mod_cast Nat.mod_mod v (2 ^ w)
  · rw [Int.sub_emod_right]
    exact_mod_cast Nat.mod_mod v (2 ^ w)

theorem signed_bounds {w : Nat} (hw : 0 < w) (v : Nat) : -((2 ^ (w - 1) : Nat) : Int) ≤ signed w v ∧ signed w v < ((2 ^ (w - 1) : Nat) : Int) := by
  have htwice : 2 ^ w = 2 * 2 ^ (w - 1) := by rw [← pow_succ', Nat.sub_add_cancel hw]
  have hlt : v % 2 ^ w < 2 ^ w := Nat.mod_lt _ (Nat.two_pow_pos w)
  unfold signed
  split <;> omega

theorem unsigned_natCast (w n : Nat) : unsigned w (n : Int) = n % 2 ^ w := by
  rw [unsigned, ← Int.natCast_mod, Int.toNat_natCast]

theorem unsigned_congr {w : Nat} {x y : Int} (h : x % ((2 ^ w : Nat) : Int) = y % ((2 ^ w : Nat) : Int)) : unsigned w x = unsigned w y :=
  congrArg Int.toNat h

theorem unsigned_signed (w v : Nat) : unsigned w (signed w v) = v % 2 ^ w := by
  rw [unsigned, signed_emod, Int.toNat_natCast]

/-- Sums wrap. -/
theorem unsigned_signed_add (w x y : Nat) : unsigned w (signed w x + signed w y) = (x + y) % 2 ^ w := by
  rw [← unsigned_natCast]
  refine unsigned_congr ?_
  rw [Int.add_emod, signed_emod, signed_emod, Int.natCast_add, Int.add_emod x, Int.natCast_mod, Int.natCast_mod]

/-! ### Integers as values -/

/-- An integer of 32 bits converts into INT32 as it is. -/
theorem convert_ofInt {i : Int} (hlo : -((2 ^ 31 : Nat) : Int) ≤ i) (hhi : i < ((2 ^ 31 : Nat) : Int)) : convert (ofInt i) 0xA 0 0 = (unsigned 32 i, 0) := by
  have hround : roundMag (decide (i < 0)) i.natAbs 0 0 0 0 = (i.natAbs, true) := by simp [roundMag]
  have hconvert : convert (ofInt i) 0xA 0 0 = if decide (i < 0) = true then (if 2 ^ 31 < i.natAbs then (2 ^ 31, fInv) else ((2 ^ 32 - i.natAbs) % 2 ^ 32, 0))
      else if 2 ^ 31 ≤ i.natAbs then (2 ^ 31 - 1, fInv) else (i.natAbs, 0) := by
    simp only [convert, fmtOf, intWidth, ofInt, hround, if_true]
  rw [hconvert, unsigned]
  by_cases hneg : i < 0
  · rw [if_pos (decide_eq_true hneg), if_neg (by omega)]
    refine Prod.ext ?_ rfl
    change (2 ^ 32 - i.natAbs) % 2 ^ 32 = _
    omega
  · rw [if_neg (by simpa using hneg), if_neg (by omega)]
    refine Prod.ext ?_ rfl
    change i.natAbs = _
    omega

/-- Zero added to an integer leaves it. -/
theorem add_zero_ofInt (i : Int) : FVal.add 0 (ofInt i) (.fin false 0 0) = (ofInt i, 0) := by
  have hgrid : onGrid (decide (i < 0)) i.natAbs 0 0 + onGrid false 0 0 0 = i := by
    unfold onGrid
    by_cases hneg : i < 0
    · simp [hneg, abs_of_neg hneg]
    · simp [hneg, abs_of_nonneg (Int.not_lt.mp hneg)]
  simp only [FVal.add, ofInt, min_self, hgrid]
  split
  · next h =>
    subst h
    rfl
  · rfl

theorem mul_one_ofInt (i : Int) : FVal.mul (ofInt i) (.fin false 1 0) = (ofInt i, 0) := by
  simp [FVal.mul, ofInt]

/-- An element of an integer bank, written as INT32 without epilogue, is its 32 bits (R226). -/
theorem cvtElement_int (c : Nat) : cvtElement (bankVal 2 c) none 0xA 0 0 none = (c % 2 ^ 32, 0) := by
  have hval : bankVal 2 c = ofInt (signed 32 c) := rfl
  obtain ⟨hlo, hhi⟩ := signed_bounds (w := 32) (by decide) c
  have hconvert := convert_ofInt hlo hhi
  rw [unsigned_signed] at hconvert
  simp only [cvtElement, hval, Option.getD_none, mul_one_ofInt, add_zero_ofInt, hconvert, FVal.isNan, Bool.not_true, Bool.false_and,
    Bool.false_eq_true, if_false]
  rfl

end Sys2Proof.Machine
end

section
/-! PROOFS. vop and red on INT32 (R195, R196, R213): a lane is an integer operation that wraps, and raises no flag. -/

namespace Sys2Proof.Machine

/-! ### INT32 arrays -/

theorem element_int32 (b : Bytes) (i : Nat) : element 0xA b i = leAt b (4 * i) 4 := by
  rw [Nat.mul_comm]
  rfl

theorem pack_int32 (vs : List Nat) : pack 0xA vs = vs.flatMap (leBytes 4) := rfl

/-- Element `i` of an array that a function of the index gives. -/
theorem leAt_pack_int32 {n i : Nat} (hi : i < n) (f : Nat → Nat) : leAt (pack 0xA ((List.range n).map f)) (4 * i) 4 = f i % 2 ^ 32 := by
  have hmod : (256 : Nat) ^ 4 = 2 ^ 32 := by norm_num
  rw [pack_int32, leAt_flatMap_leBytes 4 (by simpa using hi), List.getElem_map, List.getElem_range, hmod]

theorem length_pack_int32 (vs : List Nat) : (pack 0xA vs).length = 4 * vs.length := length_flatMap_leBytes 4 vs

/-- Without flags nothing is noted. -/
theorem laneFlags_nil {l : List (Nat × Flags)} (h : ∀ x ∈ l, x.2 = 0) (rep : Nat) : laneFlags rep l = [] := by
  refine List.filterMap_eq_nil_iff.mpr fun x hx => ?_
  obtain ⟨c, i⟩ := x
  have hc : c ∈ l := (List.mem_zipIdx' hx).2 ▸ List.getElem_mem _
  exact if_pos (h c hc)

/-! ### vop -/

section Vop

variable {s : State} {cx : Cx} {e : Entry} {r : List Entry} {a b d : Nat}

/-- Lane `i` of a vop without D operand, of arrays `x` and `y`. -/
def vopLane (k : Ctx) (e : Entry) (rnd : Nat) (x y : Bytes) (i : Nat) : Nat × Flags :=
  vopElement (bits e.word 104 5) (iFa e.word) (iFd e.word) (element (iFa e.word) x i) (element (iFa e.word) y i) (element (iFd e.word) [] i) e.m1 rnd
    (if rnd = 4 then sesame k.seed k.step e.tid ((e.i * 512 + i) % 2 ^ 32) else 0)

def vopLanes (k : Ctx) (e : Entry) (rnd : Nat) (bs : List Bytes) : List (Nat × Flags) :=
  (List.range 512).map (vopLane k e rnd (bs.getD 0 []) (bs.getD 1 []))

theorem State.vopBody_binary {op : Nat} (hop : op = bits e.word 104 5) (hbin : vopBinary op = true) (h3 : op ≠ 3) (k : Ctx) :
    State.vopBody cx k e s = s.transfer cx k .error
      [⟨locOf e.word (slotA e.word) e.a e.xa e.i 0, elemBytes (iFa e.word) 512, 32⟩,
        ⟨locOf e.word (slotB e.word) e.b e.xb e.i 0, elemBytes (iFa e.word) 512, 32⟩]
      [⟨locOf e.word (slotD e.word) e.d e.xd e.i 0, elemBytes (iFd e.word) 512, 32⟩]
      (fun bs => .ok ([pack (iFd e.word) ((vopLanes k e (s.rounding (rndOf e.word)) bs).map (·.1))],
        laneFlags e.i (vopLanes k e (s.rounding (rndOf e.word)) bs), e)) := by
  subst hop
  unfold State.vopBody
  simp only [hbin, if_true, if_neg h3]
  rfl

/-- An integer lane: the operation on the values, modulo the format. -/
theorem vopElement_int {op : Nat} (h6 : op ≠ 6) (x y z xs rnd u : Nat) :
    vopElement op 0xA 0xA x y z xs rnd u = (unsigned 32 (vopInt op (signed 32 x) (signed 32 y) (signed 32 z) xs), 0) := if_neg h6

theorem vopElement_add (x y z xs rnd u : Nat) : vopElement 0 0xA 0xA x y z xs rnd u = ((x + y) % 2 ^ 32, 0) := by
  rw [vopElement_int (by decide), vopInt, unsigned_signed_add]

theorem vopElement_and {x y : Nat} (hx : x < 2 ^ 32) (hy : y < 2 ^ 32) (z xs rnd u : Nat) : vopElement 13 0xA 0xA x y z xs rnd u = (x &&& y, 0) := by
  rw [vopElement_int (by decide), vopInt, unsigned_signed, unsigned_signed, unsigned_signed, Nat.mod_eq_of_lt hx, Nat.mod_eq_of_lt hy,
    Nat.mod_eq_of_lt (Nat.and_lt_two_pow x hy)]

/-- The sum and the bitwise and of two words. -/
def addOrAnd (op x y : Nat) : Nat := if op = 0 then (x + y) % 2 ^ 32 else x &&& y

theorem addOrAnd_lt (op x : Nat) {y : Nat} (hy : y < 2 ^ 32) : addOrAnd op x y < 2 ^ 32 := by
  unfold addOrAnd
  split
  · exact Nat.mod_lt _ (by decide)
  · exact Nat.and_lt_two_pow x hy

theorem vopElement_addOrAnd {op x y : Nat} (hkind : op = 0 ∨ op = 13) (hx : x < 2 ^ 32) (hy : y < 2 ^ 32) (z xs rnd u : Nat) :
    vopElement op 0xA 0xA x y z xs rnd u = (addOrAnd op x y, 0) := by
  rcases hkind with rfl | rfl
  · exact vopElement_add _ _ _ _ _ _
  · exact vopElement_and hx hy _ _ _ _

theorem exec_vop_int {op : Nat} (hop : op = bits e.word 104 5) (hkind : op = 0 ∨ op = 13) (hue : (s.chan (chOf cx)).scratchUe = [])
    (h : s.lastRepeat cx 1 0x20 e r) (hfa : iFa e.word = 0xA) (hfd : iFd e.word = 0xA)
    (hA : s.inScratch cx e.word (slotA e.word) e.a e.xa e.i 2048 a) (hB : s.inScratch cx e.word (slotB e.word) e.b e.xb e.i 2048 b)
    (hD : s.inScratch cx e.word (slotD e.word) e.d e.xd e.i 2048 d) :
    Yields (.vop cx) s (fun t => ((t.ctx cx).queue 1).map (·.word) = r.map (·.word) ∧ ∀ i, i < 512 → leAt (t.scr cx d 2048) (4 * i) 4 =
      (if op = 0 then (leAt (s.scr cx a 2048) (4 * i) 4 + leAt (s.scr cx b 2048) (4 * i) 4) % 2 ^ 32
       else leAt (s.scr cx a 2048) (4 * i) 4 &&& leAt (s.scr cx b 2048) (4 * i) 4)) := by
  have hbin : vopBinary op = true := by rcases hkind with rfl | rfl <;> rfl
  have hbody := State.vopBody_binary (s := s) (cx := cx) hop hbin (by omega) (s.ctx cx)
  generalize hrnd : s.rounding (rndOf e.word) = rnd at hbody
  have hbytes : elemBytes 0xA 512 = 2048 := by decide
  rw [hfa, hfd, hbytes] at hbody
  have hlanes : vopLanes (s.ctx cx) e rnd [s.scr cx a 2048, s.scr cx b 2048] = (List.range 512).map fun i =>
      (addOrAnd op (leAt (s.scr cx a 2048) (4 * i) 4) (leAt (s.scr cx b 2048) (4 * i) 4), 0) := by
    rw [vopLanes, List.getD_cons_zero, List.getD_cons_succ, List.getD_cons_zero]
    refine List.map_congr_left fun i _ => ?_
    rw [vopLane, hfa, hfd, ← hop, element_int32, element_int32]
    exact vopElement_addOrAnd hkind (leAt_lt _ _ 4) (leAt_lt _ _ 4) _ _ _ _
  obtain ⟨t, hrun, ht⟩ := exec_transfer_leaves
    (o := pack 0xA ((List.range 512).map fun i => addOrAnd op (leAt (s.scr cx a 2048) (4 * i) 4) (leAt (s.scr cx b 2048) (4 * i) 4))) (os := []) (e' := e)
    (c := .vop cx) rfl h hue hbody
    (by simp only [List.mem_cons, List.not_mem_nil, or_false, forall_eq_or_imp, forall_eq]; exact ⟨hA.holds (by decide), hB.holds (by decide)⟩)
    (hD.holds (by decide)) (by
      simp only [List.map_cons, List.map_nil, hA.bytesOf, hB.bytesOf, hlanes, List.map_map, Function.comp_def]
      rw [laneFlags_nil (by simp)])
  rw [hD.place] at ht
  refine ⟨t, hrun, ht.queue, fun i hi => ?_⟩
  rw [ht.scr (by rw [length_pack_int32, List.length_map, List.length_range]), leAt_pack_int32 hi, Nat.mod_eq_of_lt (addOrAnd_lt op _ (leAt_lt _ _ 4)),
    addOrAnd]

end Vop

/-! ### red -/

section Red

variable {s : State} {cx : Cx} {e : Entry} {r : List Entry} {a d : Nat}

/-- The lanes of an EAGER red of A and D. -/
def eagerLanes (e : Entry) (bs : List Bytes) : List (Nat × Flags) :=
  (List.range (256 / (elemBits (iFa e.word) / 8))).map (fun i =>
    eager (iFa e.word) (bits e.word 104 4) (element (iFa e.word) (bs.getLastD []) i) (element (iFa e.word) (bs.getD 0 []) i))

theorem State.redBody_eager (hcls : bits e.word 108 2 = 0) (hwt : bitOf e.word 110 = false) (k : Ctx) :
    State.redBody cx k e s = s.transfer cx k .error
      [⟨locOf e.word (slotA e.word) e.a e.xa e.i 0, 256, 32⟩, ⟨locOf e.word (slotD e.word) e.d e.xd e.i 0, 256, 32⟩]
      [⟨locOf e.word (slotD e.word) e.d e.xd e.i 0, 256, 32⟩]
      (fun bs => .ok ([pack (iFa e.word) ((eagerLanes e bs).map (·.1))], laneFlags e.i (eagerLanes e bs), e)) := by
  unfold State.redBody
  simp only [hcls, hwt, if_true, Bool.false_or, Bool.false_eq_true, if_false, bne_self_eq_false]
  rfl

theorem eager_int_sum (x y : Nat) : eager 0xA 0 x y = ((x + y) % 2 ^ 32, 0) := by
  have hsum : eager 0xA 0 x y = (unsigned 32 (signed 32 x + signed 32 y), 0) := rfl
  rw [hsum, unsigned_signed_add]

theorem exec_red_int (hue : (s.chan (chOf cx)).scratchUe = []) (h : s.lastRepeat cx 1 0x21 e r) (hfa : iFa e.word = 0xA) (hmod : bits e.word 104 7 = 0)
    (hA : s.inScratch cx e.word (slotA e.word) e.a e.xa e.i 256 a) (hD : s.inScratch cx e.word (slotD e.word) e.d e.xd e.i 256 d) :
    Yields (.red cx) s (fun t => ((t.ctx cx).queue 1).map (·.word) = r.map (·.word) ∧ ∀ i, i < 64 → leAt (t.scr cx d 256) (4 * i) 4 =
      (leAt (s.scr cx d 256) (4 * i) 4 + leAt (s.scr cx a 256) (4 * i) 4) % 2 ^ 32) := by
  have hop : bits e.word 104 4 = 0 := bits_of_bits_zero hmod 0 (by decide)
  have hbody := State.redBody_eager (s := s) (cx := cx) (bits_of_bits_zero hmod 4 (by decide)) (bitOf_of_bits_zero hmod 6 (by decide)) (s.ctx cx)
  rw [hfa] at hbody
  have hlanes : eagerLanes e [s.scr cx a 256, s.scr cx d 256] = (List.range 64).map fun i =>
      ((leAt (s.scr cx d 256) (4 * i) 4 + leAt (s.scr cx a 256) (4 * i) 4) % 2 ^ 32, 0) := by
    rw [eagerLanes, hfa, hop]
    refine List.map_congr_left fun i _ => ?_
    rw [eager_int_sum, element_int32, element_int32]
    rfl
  obtain ⟨t, hrun, ht⟩ := exec_transfer_leaves
    (o := pack 0xA ((List.range 64).map fun i => (leAt (s.scr cx d 256) (4 * i) 4 + leAt (s.scr cx a 256) (4 * i) 4) % 2 ^ 32)) (os := []) (e' := e)
    (c := .red cx) rfl h hue hbody
    (by simp only [List.mem_cons, List.not_mem_nil, or_false, forall_eq_or_imp, forall_eq]; exact ⟨hA.holds (by decide), hD.holds (by decide)⟩)
    (hD.holds (by decide)) (by
      simp only [List.map_cons, List.map_nil, hA.bytesOf, hD.bytesOf, hlanes, List.map_map, Function.comp_def]
      rw [laneFlags_nil (by simp)])
  rw [hD.place] at ht
  refine ⟨t, hrun, ht.queue, fun i hi => ?_⟩
  rw [ht.scr (by rw [length_pack_int32, List.length_map, List.length_range]), leAt_pack_int32 hi, Nat.mod_mod]

end Red

end Sys2Proof.Machine
end

section
/-! PROOFS. A dense repeat of mma on INT8 (R192, R232, R234, R241): what it fetches, what it counts, and each tile's bank after it. -/

namespace Sys2Proof.Machine

/-! ### Fetches -/

section Fetches

variable {s t u : State} {ch cx : Nat}

/-- From `s` to `t` operands have been fetched: registers count them and the channel its events, but the cycles that operands were late stand. -/
structure State.Fetches (ch : Nat) (s t : State) : Prop where
  rest : t = { s with regs := t.regs, latch := t.latch, chans := t.chans }
  chan : t.chan ch = { s.chan ch with events := (t.chan ch).events }
  wait : t.reg (CH_CTR_operand_wait_cycles ch) = s.reg (CH_CTR_operand_wait_cycles ch)

theorem State.Fetches.trans (h : s.Fetches ch t) (h' : t.Fetches ch u) : s.Fetches ch u where
  rest := by rw [h'.rest, h.rest]
  chan := by rw [h'.chan, h.chan]
  wait := h'.wait.trans h.wait

theorem State.ReadsOf.fetches (h : s.ReadsOf ch t) : s.Fetches ch t := ⟨by rw [h.rest], h.chan, h.reg _⟩

theorem State.fetches_count (s : State) (ch : Nat) {f : Fld} (hf : (CH_CTR_operand_wait_cycles ch).key ≠ f.key) (n : Nat) : s.Fetches ch (s.count f n) :=
  ⟨rfl, rfl, State.reg_count_ne _ _ _ _ hf⟩

theorem State.fetches_countFetch (s : State) (ch space n : Nat) : s.Fetches ch (s.countFetch ch space n) := by
  unfold State.countFetch
  split
  · exact s.fetches_count ch (by simp [Fld.key, CH_CTR_operand_wait_cycles, CH_CTR_store_operand_bytes]) n
  · exact s.fetches_count ch (by simp [Fld.key, CH_CTR_operand_wait_cycles, CH_CTR_scratch_operand_bytes]) n

theorem State.Fetches.ctx (h : s.Fetches ch t) (c : Nat) : t.ctx c = s.ctx c := by
  rw [h.rest]
  rfl

theorem State.Fetches.bank (h : s.Fetches ch t) (x b : Nat) : t.bank ch x b = s.bank ch x b := by rw [State.bank, h.chan, State.bank]

theorem State.Fetches.bankBad (h : s.Fetches ch t) (b : Nat) (tiles : List Nat) : t.bankBad ch b tiles = s.bankBad ch b tiles := by
  rw [State.bankBad, h.chan, State.bankBad]

theorem State.Fetches.scratch (h : s.Fetches ch t) : (t.chan ch).scratch = (s.chan ch).scratch := by rw [h.chan]

theorem State.Fetches.scratchUe (h : s.Fetches ch t) : (t.chan ch).scratchUe = (s.chan ch).scratchUe := by rw [h.chan]

/-- The work of a repeat of mma in its tiles, counted with the cycles that its operands were late. -/
def State.mmaCounted (s : State) (ch w waited n : Nat) (work : List (Nat × Nat)) : State :=
  ((((s.tilesWork ch work).count (CH_CTR_mma_repeats ch)).count (CH_CTR_tile_busy_cycles ch) (work.foldl (fun n x => n + x.2) 0)).event ch 0 (tileClass w)
    (work.foldl (fun n x => n + x.2) 0)).count (CH_CTR_operand_wait_cycles ch) (waited * n)

theorem State.reg_mmaCounted (s : State) (ch w waited n : Nat) (work : List (Nat × Nat)) :
    (s.mmaCounted ch w waited n work).reg (CH_CTR_operand_wait_cycles ch) = (s.reg (CH_CTR_operand_wait_cycles ch) + waited * n) % 2 ^ 64 := by
  have hrepeats : (CH_CTR_operand_wait_cycles ch).key ≠ (CH_CTR_mma_repeats ch).key := by
    simp [Fld.key, CH_CTR_operand_wait_cycles, CH_CTR_mma_repeats]
  have hbusy : (CH_CTR_operand_wait_cycles ch).key ≠ (CH_CTR_tile_busy_cycles ch).key := by
    simp [Fld.key, CH_CTR_operand_wait_cycles, CH_CTR_tile_busy_cycles]
  rw [State.mmaCounted, State.reg_count_self, State.event, State.reg_modChan, State.reg_count_ne _ _ _ _ hbusy, State.reg_count_ne _ _ _ _ hrepeats]
  rfl

theorem State.bank_mmaCounted (s : State) (ch w waited n : Nat) (work : List (Nat × Nat)) (x b : Nat) :
    (s.mmaCounted ch w waited n work).bank ch x b = s.bank ch x b := by
  have hevent : (s.mmaCounted ch w waited n work).bank ch x b =
      (((s.tilesWork ch work).count (CH_CTR_mma_repeats ch)).count (CH_CTR_tile_busy_cycles ch) (work.foldl (fun n x => n + x.2) 0)).bank ch x b :=
    State.bank_modChan _ ch (f := fun c => { c with events := c.events.put 0 (16 * 0 + tileClass w) (c.events.get 0 (16 * 0 + tileClass w) +
      work.foldl (fun n x => n + x.2) 0) }) (fun _ => rfl) x b
  exact hevent.trans (s.bank_tilesWork ch work x b)

end Fetches

/-! ### The blocks of B -/

/-- Bytes further on in an operand of scratch space. -/
theorem locOf_addr_add {w t r x i a off : Nat} (hspace : slSpace t = 1) (haddr : (locOf w t r x i 0).addr = (a : Int)) (hin : a + off < 2 ^ 48) :
    (locOf w t r x i off).addr = ((a + off : Nat) : Int) := by
  have hsp : slSpace t ≠ 3 := by omega
  rw [locOf, if_neg hsp] at haddr ⊢
  dsimp only at haddr ⊢
  omega

theorem locOf_space_add {w t r x i off : Nat} (hspace : slSpace t = 1) : (locOf w t r x i off).space = 1 := by
  rw [locOf, if_neg (by omega)]
  exact hspace

section Blocks

variable {s : State} {cx : Nat} {w t r x i n len b j : Nat}

/-- Operand `j` of several that lie one behind the other. -/
theorem State.inScratch.holds_part (h : s.inScratch cx w t r x i (n * len) b) (hn : n % 32 = 0) (hpos : 0 < n) (hj : j < len) :
    (s.ctx cx).Holds ⟨locOf w t r x i (j * n), n, 32⟩ ∧
      (s.ctx cx).bytesOf (s.chan (chOf cx)).scratch ⟨locOf w t r x i (j * n), n, 32⟩ = slice (s.scr cx b (n * len)) (n * j) n := by
  obtain ⟨hspace, haddr, h32, hin, hend⟩ := h
  have hle : j * n + n ≤ n * len := by
    have := Nat.mul_le_mul_left n (Nat.succ_le_of_lt hj)
    rw [Nat.mul_succ] at this
    rwa [Nat.mul_comm j n]
  have haddr' := locOf_addr_add (off := j * n) hspace haddr (by omega)
  have hmod : (b + j * n) % 32 = 0 := by rw [Nat.add_mod, Nat.mul_mod, h32, hn, Nat.mul_zero]
  refine ⟨⟨locOf_space_add hspace, ?_, ?_⟩, ?_⟩
  · rw [Use.misaligned, haddr', ← Int.natCast_mod, hmod]
    exact Bool.and_false _
  · rw [haddr']
    dsimp only
    omega
  · rw [Ctx.bytesOf, Ctx.place, haddr', Int.toNat_natCast, State.scr, Mem.slice_read _ _ (by rw [Nat.mul_comm n j]; exact hle), Nat.mul_comm n j,
      Nat.add_assoc]

end Blocks

/-! ### One element -/

/-- A byte of a part. -/
theorem byteAt_slice (b : Bytes) (i : Nat) {n k : Nat} (h : k < n) : byteAt (slice b i n) k = byteAt b (i + k) := by
  rw [byteAt, byteAt, slice, List.getD_eq_getElem?_getD, List.getElem?_take_of_lt h, List.getElem?_drop, List.getD_eq_getElem?_getD]

theorem element_int8 (b : Bytes) (i : Nat) : element 0xC b i = byteAt b i := by
  change leAt b (i * 1) 1 = byteAt b i
  rw [Nat.mul_one, leAt_one]

/-- An element of an INT8 repeat: the sum of 32 products joins what the bank held (R241). -/
theorem mmaTile_int8 {w : Nat} (hfa : iFa w = 0xC) (hfd : iFd w = 0xC) (i j : Nat) (a x : Bytes) (old : Bank) {m n : Nat} (hm : m < 32) (hn : n < 32) :
    (mmaTile w i j (dC []) (dTr []) a ⟨2, x⟩ old).1.vals.getD (32 * m + n) 0 = unsigned 32 (signed 32 (old.elems.getD (32 * m + n) 0) +
      ((List.range 32).map (fun k => signed 8 (byteAt a (32 * m + k)) * signed 8 (byteAt x (32 * k + n)))).sum) := by
  have hrow : (32 * m + n) / 32 = m := by omega
  have hcol : (32 * m + n) % 32 = n := by omega
  have hlt : 32 * m + n < 1024 := by omega
  have hview (kk : Nat) : viewElem 0xC (dC []) (dTr []) 2 x kk n = byteAt x (32 * kk + n) := element_int8 x _
  unfold mmaTile
  simp only [hfa, hfd, show (0xA : Nat) ≤ 0xC from by decide, if_true]
  rw [List.getD_eq_getElem _ _ (by simpa using hlt), List.getElem_map, List.getElem_range, hrow, hcol]
  simp only [viewCols, List.map_map, List.getD_eq_getElem?_getD, List.getElem?_map, List.getElem?_range hm, List.getElem?_range hn, Option.map_some,
    Option.getD_some, Function.comp_def, hview, element_int8, mmaInteger, List.zipWith_map, List.zipWith_self, elemBits, List.sum_eq_foldl]

theorem mmaTile_int8_noFlags {w : Nat} (hfa : iFa w = 0xC) (i j c : Nat) (tr : Bool) (a : Bytes) (x : BlockB) (old : Bank) :
    (mmaTile w i j c tr a x old).2 = [] := by
  unfold mmaTile
  simp only [hfa, show (0xA : Nat) ≤ 0xC from by decide, if_true]

/-! ### The repeat -/

section Mma

variable {s : State} {cx : Cx} {e : Entry} {r : List Entry} {a b waited : Nat} {ts : List Nat}

/-- The tiles of a dense repeat with their banks after it. -/
def State.mmaBanks (s : State) (cx : Nat) (w i : Nat) (a : Bytes) (ts : List Nat) (blocks : List Bytes) : List (Nat × Bank × List (Flags × ExcCoord)) :=
  (ts.zip (blocks.map (⟨2, ·⟩))).zipIdx.map (fun ((t, x), j) => (t, mmaTile w i j (dC []) (dTr []) a x (s.bank (chOf cx) t (bankOf w))))

/-- The operands of B, one of 1,024 bytes for each tile. -/
def Entry.blockUses (e : Entry) (n : Nat) : List Use := (List.range n).map (fun j => ⟨locOf e.word (slotB e.word) e.b e.xb e.i (j * 1024), 1024, 32⟩)

/-- The blocks of B as they lie in scratch. -/
def State.blocksOf (s : State) (cx b n : Nat) : List Bytes := (List.range n).map (fun j => slice (s.scr cx b (1024 * n)) (1024 * j) 1024)

theorem State.holds_blockUses {n : Nat} (hB : s.inScratch cx e.word (slotB e.word) e.b e.xb e.i (1024 * n) b) :
    ∀ y ∈ e.blockUses n, (s.ctx cx).Holds y := by
  intro y hy
  obtain ⟨j, hj, rfl⟩ := List.mem_map.mp hy
  exact (hB.holds_part (by decide) (by decide) (List.mem_range.mp hj)).1

theorem State.bytesOf_blockUses {n : Nat} (hB : s.inScratch cx e.word (slotB e.word) e.b e.xb e.i (1024 * n) b) :
    (e.blockUses n).map ((s.ctx cx).bytesOf (s.chan (chOf cx)).scratch) = s.blocksOf cx b n := by
  rw [Entry.blockUses, State.blocksOf, List.map_map]
  refine List.map_congr_left fun j hj => ?_
  rw [Function.comp_apply, (hB.holds_part (by decide) (by decide) (List.mem_range.mp hj)).2]

/-- A dense INT8 repeat whose operands have been read. -/
theorem State.mmaBody_dense {v1 v2 : State} {blocks : List Bytes} {x : Bytes} (hts : ts = tilesOf (gmaskOf e.word)) (hfa : iFa e.word = 0xC)
    (hfd : iFd e.word = 0xC) (hmod : bits e.word 122 3 = 0) (hclash : s.kindClash (chOf cx) (bankOf e.word) 2 ts = false)
    (hchecks : s.useChecks (s.ctx cx) (⟨locOf e.word (slotA e.word) e.a e.xa e.i 0, 1024, 32⟩ :: e.blockUses ts.length) = none)
    (hreadB : s.readAll (chOf cx) (s.ctx cx) .error (e.blockUses ts.length) = (.ok blocks, v1))
    (hreadA : (v1.countFetch (chOf cx) (slSpace (slotB e.word)) ((e.blockUses ts.length).foldl (fun n u => n + u.n) 0)).useRead (chOf cx) (s.ctx cx) .error
      ⟨locOf e.word (slotA e.word) e.a e.xa e.i 0, 1024, 32⟩ = (.ok x, v2))
    (hbad : (v2.countFetch (chOf cx) (slSpace (slotA e.word)) 1024).bankBad (chOf cx) (bankOf e.word) ts = false) :
    ∃ work, State.mmaBody cx waited (s.ctx cx) e s = (.ok (some { e := e }),
      ((v2.countFetch (chOf cx) (slSpace (slotA e.word)) 1024).setBanks (chOf cx) (bankOf e.word)
        (((v2.countFetch (chOf cx) (slSpace (slotA e.word)) 1024).mmaBanks cx e.word e.i x ts blocks).map (fun r => (r.1, r.2.1)))).mmaCounted (chOf cx)
          e.word waited (ts.length / 16) work) := by
  have hsparse : (bits e.word 122 2 != 0) = false := by
    rw [show bits e.word 122 2 = 0 from bits_of_bits_zero hmod 0 (by decide)]
    rfl
  have hmx : bitOf e.word 124 = false := bitOf_of_bits_zero hmod 2 (by decide)
  have hbytes : denseBytes 0xC false = 1024 := by decide
  refine ⟨(ts.zip (blocks.map (⟨2, ·⟩ : Bytes → BlockB))).map (fun (t, _) => (t, 32768 / tileRate e.word)), ?_⟩
  unfold State.mmaBody State.denseBlocks
  simp only [hsparse, hmx, hfa, hfd, hbytes, ← hts, Bool.false_eq_true, if_false, Bool.false_and, show (0xA : Nat) ≤ 0xC from by decide, if_true,
    List.append_nil, hclash]
  rw [Entry.blockUses] at hchecks hreadB hreadA
  simp only [hchecks, hreadB, hreadA, hbad, Bool.false_eq_true, if_false]
  have hflags : (((ts.zip (blocks.map (⟨2, ·⟩ : Bytes → BlockB))).zipIdx.map (fun ((t, y), j) =>
      (t, mmaTile e.word e.i j (dC []) (dTr []) x y ((v2.countFetch (chOf cx) (slSpace (slotA e.word)) 1024).bank (chOf cx) t (bankOf e.word))))).flatMap
        (fun r => r.2.2)) = [] := by
    rw [List.flatMap_map]
    exact List.flatMap_eq_nil_iff.mpr fun r _ => mmaTile_int8_noFlags hfa ..
  rw [hflags]
  rfl

/-- Every tile of the gmask has its bank. -/
theorem State.bank_mmaBanks {v : State} {w i c : Nat} {x : Bytes} {blocks : List Bytes} (hnodup : ts.Nodup) (hlen : blocks.length = ts.length) {j : Nat}
    (hj : j < ts.length) : (v.setBanks (chOf cx) c ((s.mmaBanks cx w i x ts blocks).map (fun r => (r.1, r.2.1)))).bank (chOf cx) ts[j] c =
      (mmaTile w i j (dC []) (dTr []) x ⟨2, blocks[j]⟩ (s.bank (chOf cx) ts[j] (bankOf w))).1 := by
  have hkeys : ((s.mmaBanks cx w i x ts blocks).map (fun r => (r.1, r.2.1))).map Prod.fst = ts := by
    refine List.ext_getElem (by simp [State.mmaBanks, hlen]) fun n _ _ => ?_
    simp [State.mmaBanks]
  have hmem : (ts[j], (mmaTile w i j (dC []) (dTr []) x ⟨2, blocks[j]⟩ (s.bank (chOf cx) ts[j] (bankOf w))).1) ∈
      (s.mmaBanks cx w i x ts blocks).map (fun r => (r.1, r.2.1)) := by
    refine List.mem_of_getElem (i := j) (h := by simp [State.mmaBanks, hlen, hj]) ?_
    simp [State.mmaBanks]
  refine State.bank_setBanks_mem (fun y hy z hz hne heq => hne ?_) hmem
  exact List.inj_on_of_nodup_map (hkeys.symm ▸ hnodup) hz hy heq

theorem exec_mma_int8 (hue : (s.chan (chOf cx)).scratchUe = []) (hts : ts = tilesOf (gmaskOf e.word)) (hopen : s.tilesOpen (chOf cx) ts = true)
    (hbad : s.bankBad (chOf cx) (bankOf e.word) ts = false) (h : s.lastRepeat cx 0 0x10 e r) (hfa : iFa e.word = 0xC) (hfd : iFd e.word = 0xC)
    (hmod : bits e.word 122 3 = 0) (hA : s.inScratch cx e.word (slotA e.word) e.a e.xa e.i 1024 a)
    (hB : s.inScratch cx e.word (slotB e.word) e.b e.xb e.i (1024 * ts.length) b) (hclash : s.kindClash (chOf cx) (bankOf e.word) 2 ts = false) :
    Yields (.mma ⟨cx, waited⟩) s (fun t => t.reg (CH_CTR_operand_wait_cycles (chOf cx)) =
        (s.reg (CH_CTR_operand_wait_cycles (chOf cx)) + waited * (ts.length / 16)) % 2 ^ 64 ∧ ((t.ctx cx).queue 0).map (·.word) = r.map (·.word) ∧
      ∀ j m n, j < ts.length → m < 32 → n < 32 → (t.bank (chOf cx) (ts.getD j 0) (bankOf e.word)).vals.getD (32 * m + n) 0 =
        unsigned 32 (signed 32 ((s.bank (chOf cx) (ts.getD j 0) (bankOf e.word)).elems.getD (32 * m + n) 0) +
          ((List.range 32).map (fun k => signed 8 (byteAt (s.scr cx a 1024) (32 * m + k)) *
            signed 8 (byteAt (s.scr cx b (1024 * ts.length)) (1024 * j + 32 * k + n)))).sum)) := by
  obtain ⟨v1, hreadB, hv1⟩ := State.readAll_holds hue (s.holds_blockUses hB) .error
  have hf1 := hv1.fetches.trans (v1.fetches_countFetch (chOf cx) (slSpace (slotB e.word)) ((e.blockUses ts.length).foldl (fun n u => n + u.n) 0))
  obtain ⟨v2, hreadA, hv2⟩ := State.useRead_holds (hf1.scratchUe.trans hue) (hA.holds (align := 32) (by decide)) .error
  have hf2 := (hf1.trans hv2.fetches).trans (v2.fetches_countFetch (chOf cx) (slSpace (slotA e.word)) 1024)
  rw [hf1.scratch, hA.bytesOf] at hreadA
  rw [State.bytesOf_blockUses hB] at hreadB
  have hchecks : s.useChecks (s.ctx cx) (⟨locOf e.word (slotA e.word) e.a e.xa e.i 0, 1024, 32⟩ :: e.blockUses ts.length) = none :=
    State.useChecks_holds fun y hy => (List.mem_cons.mp hy).elim (fun hy => hy ▸ hA.holds (by decide)) (s.holds_blockUses hB y)
  obtain ⟨work, hbody⟩ := State.mmaBody_dense (waited := waited) hts hfa hfd hmod hclash hchecks hreadB hreadA ((hf2.bankBad _ _).trans hbad)
  generalize v2.countFetch (chOf cx) (slSpace (slotA e.word)) 1024 = v at hf2 hbody
  have hbody' := State.inTiles_open (hts ▸ hopen) hbody
  obtain ⟨t, hrun, ht⟩ := exec_lastRepeat_completes (c := .mma ⟨cx, waited⟩) rfl h hbody' (congrArg Ctx.st (hf2.ctx cx))
  refine ⟨t, hrun, ?_, ht.queue_lastRepeat h (congrArg Ctx.q (hf2.ctx cx)), fun j m n hj hm hn => ?_⟩
  · refine (ht.reg _).trans ((State.reg_mmaCounted ..).trans ?_)
    exact congrArg (fun c => (c + waited * (ts.length / 16)) % 2 ^ 64) hf2.wait
  · have hnodup : ts.Nodup := hts ▸ nodup_tilesOf _
    have hlen : (s.blocksOf cx b ts.length).length = ts.length := by simp [State.blocksOf]
    have hblock : (s.blocksOf cx b ts.length)[j] = slice (s.scr cx b (1024 * ts.length)) (1024 * j) 1024 := by simp [State.blocksOf]
    rw [List.getD_eq_getElem _ _ hj, ht.bank, State.bank_started, State.bank_mmaCounted, State.bank_mmaBanks hnodup hlen hj, hf2.bank, hblock,
      mmaTile_int8 hfa hfd _ _ _ _ _ hm hn]
    refine congrArg (fun l : List Int => unsigned 32 (_ + l.sum)) (List.map_congr_left fun k hk => ?_)
    rw [byteAt_slice _ _ (by have := List.mem_range.mp hk; omega), Nat.add_assoc]

end Mma

end Sys2Proof.Machine
end

section
/-! PROOFS. cvt of an integer bank without epilogue (R194, R226, R237), and what the matrix engine and the vector complex compute (R192, R195, R196). -/

namespace Sys2Proof.Machine

/-! ### The codes of a bank -/

/-- What cvt writes of integer banks: element by element, row by row across the tiles. -/
def State.cvtCodes (s : State) (ch b : Nat) (ts : List Nat) : List Nat :=
  (List.range 32).flatMap (fun m => ts.flatMap (fun x => (List.range 32).map (fun c => (s.bank ch x b).elems.getD (32 * m + c) 0 % 2 ^ 32)))

section Codes

variable {s : State} {ch b : Nat} {ts : List Nat}

theorem State.length_cvtRow (s : State) (ch b m : Nat) (ts : List Nat) :
    (ts.flatMap (fun x => (List.range 32).map (fun c => (s.bank ch x b).elems.getD (32 * m + c) 0 % 2 ^ 32))).length = 32 * ts.length :=
  length_flatMap_pieces fun _ _ => by rw [List.length_map, List.length_range]

theorem State.length_cvtCodes (s : State) (ch b : Nat) (ts : List Nat) : (s.cvtCodes ch b ts).length = 1024 * ts.length := by
  rw [State.cvtCodes, length_flatMap_pieces (w := 32 * ts.length) fun m _ => s.length_cvtRow ch b m ts, List.length_range]
  omega

theorem State.getD_cvtCodes {j m c : Nat} (hj : j < ts.length) (hm : m < 32) (hc : c < 32) :
    (s.cvtCodes ch b ts).getD (32 * ts.length * m + (32 * j + c)) 0 = (s.bank ch (ts.getD j 0) b).elems.getD (32 * m + c) 0 % 2 ^ 32 := by
  rw [State.cvtCodes, getD_flatMap (fun m _ => s.length_cvtRow ch b m ts) (by rwa [List.length_range]) (by omega), List.getElem_range,
    getD_flatMap (w := 32) (fun _ _ => by rw [List.length_map, List.length_range]) hj hc, List.getD_eq_getElem _ _ hj,
    List.getD_eq_getElem _ _ (by rwa [List.length_map, List.length_range]), List.getElem_map, List.getElem_range]

/-- A row of a tile: without flags, each element as its 32 bits. -/
theorem cvtRow_int {k : Ctx} {e : Entry} (hfd : iFd e.word = 0xA) (hmx : bitOf e.word 126 = false) (n m j : Nat) (vs : List Nat) :
    (cvtRow k e n 0 m j [] (((vs.map (bankVal 2)).drop (32 * m)).take 32)).1 = (List.range 32).map (fun c => (vs.getD (32 * m + c) 0 % 2 ^ 32, 0)) := by
  unfold cvtRow
  simp only [hmx, hfd, Bool.false_eq_true, if_false, List.getElem?_nil, show (0 : Nat) ≠ 4 from by decide]
  refine List.map_congr_left fun c hc => ?_
  have hzero : (.fin false 0 0 : FVal) = bankVal 2 0 := rfl
  rw [List.getD_eq_getElem?_getD, List.getElem?_take_of_lt (List.mem_range.mp hc), List.getElem?_drop, ← List.getD_eq_getElem?_getD, hzero, List.getD_map]
  exact cvtElement_int _

/-- The kinds that an integer cvt meets. -/
theorem State.kind_of_noClash (h : s.kindClash ch b 2 ts = false) : ∀ x ∈ ts, (s.bank ch x b).kind = 0 ∨ (s.bank ch x b).kind = 2 := by
  intro x hx
  have := List.any_eq_false.mp h x hx
  simp only [Bool.and_eq_true, bne_iff_ne, ne_eq, not_and, Decidable.not_not] at this
  by_cases h0 : (s.bank ch x b).kind = 0
  · exact .inl h0
  · exact .inr (this h0)

end Codes

/-! ### The repeat -/

theorem flatMap_zipIdx_fst {α β : Type} (f : α → List β) (l : List α) : l.zipIdx.flatMap (fun p => f p.1) = l.flatMap f := by
  conv_rhs => rw [← List.zipIdx_map_fst 0 l, List.flatMap_map]

theorem noFlags_zipIdx (l : List Nat) (g : Nat → ExcCoord) :
    (l.map (fun x => (x, (0 : Flags)))).zipIdx.filterMap (fun (c, i) => if c.2 = 0 then none else some (c.2, g i)) = [] := by
  refine List.filterMap_eq_nil_iff.mpr fun x hx => ?_
  obtain ⟨c, i⟩ := x
  obtain ⟨n, -, rfl⟩ := List.mem_map.mp ((List.mem_zipIdx' hx).2 ▸ List.getElem_mem _)
  rfl

section Cvt

variable {s u : State} {cx : Cx} {e : Entry} {r : List Entry} {d : Nat} {ts : List Nat}

/-- The values of the banks of an integer cvt. -/
theorem State.cvtVals_int {c : Nat} (hclash : s.kindClash (chOf cx) c 2 ts = false) :
    ts.map (fun x => (s.bank (chOf cx) x c).elems.map (bankVal (if (s.bank (chOf cx) x c).kind = 0 then 2 else (s.bank (chOf cx) x c).kind))) =
      ts.map (fun x => (s.bank (chOf cx) x c).elems.map (bankVal 2)) := by
  refine List.map_congr_left fun x hx => ?_
  rcases State.kind_of_noClash hclash x hx with h | h <;> rw [h] <;> rfl

/-- All rows of all tiles. -/
theorem State.cvtRows_int {k : Ctx} {c : Nat} (hfd : iFd e.word = 0xA) (hmx : bitOf e.word 126 = false) (n : Nat) :
    ((List.range 32).map (fun m => (ts.map (fun x => (s.bank (chOf cx) x c).elems.map (bankVal 2))).zipIdx.map
      (fun (v, j) => cvtRow k e n 0 m j [] ((v.drop (32 * m)).take 32)))).flatMap (fun l => l.flatMap (fun x => x.1)) =
    (s.cvtCodes (chOf cx) c ts).map (·, 0) := by
  rw [State.cvtCodes, List.flatMap_map, List.map_flatMap]
  refine List.flatMap_congr fun m _ => ?_
  rw [List.zipIdx_map, List.map_map, List.flatMap_map, List.map_flatMap]
  refine Eq.trans (List.flatMap_congr fun p _ => ?_) (flatMap_zipIdx_fst (fun x =>
    ((List.range 32).map (fun c' => (s.bank (chOf cx) x c).elems.getD (32 * m + c') 0 % 2 ^ 32)).map (·, 0)) ts)
  rw [List.map_map]
  exact cvtRow_int hfd hmx n m p.2 _

/-- The operand that cvt writes. -/
def Entry.cvtUse (e : Entry) (n : Nat) : Use := ⟨locOf e.word (slotD e.word) e.d e.xd e.i 0, 4096 * n, 32⟩

/-- The work of a repeat of cvt in its tiles, which may leave their banks at +0. -/
def State.cvtDone (s : State) (ch b w : Nat) (ts : List Nat) : State :=
  ((if bitOf w 127 then s.setBanks ch b (ts.map (fun x => (x, {}))) else s.setBanks ch b []).tilesWork ch (ts.map (fun x => (x, 64)))).count
    (CH_CTR_cvt_repeats ch)

theorem State.scratch_cvtDone (s : State) (ch b w : Nat) (ts : List Nat) : ((s.cvtDone ch b w ts).chan ch).scratch = (s.chan ch).scratch := by
  have hset (l : List (Nat × Bank)) : ((s.setBanks ch b l).chan ch).scratch = (s.chan ch).scratch := by rw [State.setBanks, State.chan_modChan_self]
  have hwork (v : State) (l : List (Nat × Nat)) : (((v.tilesWork ch l).count (CH_CTR_cvt_repeats ch)).chan ch).scratch = (v.chan ch).scratch := by
    have hchan : ((v.tilesWork ch l).count (CH_CTR_cvt_repeats ch)).chan ch = (v.tilesWork ch l).chan ch := rfl
    rw [hchan, State.tilesWork, State.chan_modChan_self]
  rw [State.cvtDone, hwork]
  split
  · exact hset _
  · exact hset _

theorem State.ctx_cvtDone (s : State) (ch b w : Nat) (ts : List Nat) (c : Nat) : (s.cvtDone ch b w ts).ctx c = s.ctx c := by
  rw [State.cvtDone]
  split <;> rfl

theorem State.cvtBody_int (hts : ts = tilesOf (gmaskOf e.word)) (hop : iOp e.word = 0x12) (hfa : iFa e.word = 0xA) (hfd : iFd e.word = 0xA)
    (hmod : bits e.word 122 5 = 0) (hbad : s.bankBad (chOf cx) ((bankOf e.word + e.i) % 4) ts = false)
    (hclash : s.kindClash (chOf cx) ((bankOf e.word + e.i) % 4) 2 ts = false) (hD : (s.ctx cx).Holds (e.cvtUse ts.length))
    (hwrite : (s.countFetch (chOf cx) (slSpace (slotA e.word)) 0).useWrite (chOf cx) (s.ctx cx) (e.cvtUse ts.length)
      (pack 0xA (s.cvtCodes (chOf cx) ((bankOf e.word + e.i) % 4) ts)) = (none, u)) :
    State.cvtBody cx (s.ctx cx) e s = (.ok (some { e := e }), u.cvtDone (chOf cx) ((bankOf e.word + e.i) % 4) e.word ts) := by
  have hrnd : rndOf e.word = 0 := by
    rw [rndOf, if_pos hop]
    exact bits_of_bits_zero hmod 0 (by decide)
  have hep : bitOf e.word 125 = false := bitOf_of_bits_zero hmod 3 (by decide)
  have hmx : bitOf e.word 126 = false := bitOf_of_bits_zero hmod 4 (by decide)
  have huse : ({ loc := locOf e.word (slotD e.word) e.d e.xd e.i 0, n := elemBytes 0xA (1024 * ts.length) + 32 * ts.length * bit1 false } : Use) =
      e.cvtUse ts.length := by
    have hbytes : elemBytes 0xA (1024 * ts.length) = 4096 * ts.length := by
      change 1024 * ts.length * 32 / 8 = _
      omega
    rw [hbytes]
    rfl
  have hchecks : s.useChecks (s.ctx cx) [e.cvtUse ts.length] = none :=
    State.useChecks_holds fun y hy => List.mem_singleton.mp hy ▸ hD
  have hround (v : State) : v.rounding 0 = 0 := rfl
  have hbank := (s.fetches_countFetch (chOf cx) (slSpace (slotA e.word)) 0).bank
  unfold State.cvtBody
  simp only [← hts, hfd, hmx, hep, hfa, hrnd, Bool.false_eq_true, if_false, if_true, List.nil_append, huse, hchecks, hclash, hbad, State.readAll,
    List.foldl_nil, List.headD_nil, List.length_nil, Nat.zero_div, List.range_zero, List.map_nil, hround, hbank, State.cvtVals_int hclash,
    State.cvtRows_int hfd hmx, List.append_nil, List.map_map, Function.comp_def, List.map_id', hwrite]
  rw [noFlags_zipIdx _ fun i => { rep := e.i, row := i / (32 * ts.length), col := i % (32 * ts.length), k := 0x1FFFFF }]
  rfl

theorem exec_cvt_int (hue : (s.chan (chOf cx)).scratchUe = []) (hts : ts = tilesOf (gmaskOf e.word)) (hopen : s.tilesOpen (chOf cx) ts = true)
    (hbad : s.bankBad (chOf cx) ((bankOf e.word + e.i) % 4) ts = false) (h : s.lastRepeat cx 0 0x12 e r) (hfa : iFa e.word = 0xA) (hfd : iFd e.word = 0xA)
    (hmod : bits e.word 122 5 = 0) (hD : s.inScratch cx e.word (slotD e.word) e.d e.xd e.i (4096 * ts.length) d)
    (hclash : s.kindClash (chOf cx) ((bankOf e.word + e.i) % 4) 2 ts = false) :
    Yields (.cvt cx) s (State.Leaves cx 0 ((s.ctx cx).win + d) (pack 0xA (s.cvtCodes (chOf cx) ((bankOf e.word + e.i) % 4) ts)) r s) := by
  obtain ⟨-, -, hop⟩ := h.atHead
  have hfetch := s.fetches_countFetch (chOf cx) (slSpace (slotA e.word)) 0
  have hholds : (s.ctx cx).Holds (e.cvtUse ts.length) := hD.holds (by decide)
  have hplace : (s.ctx cx).place (e.cvtUse ts.length) = (s.ctx cx).win + d := hD.place
  obtain ⟨u, hwrite, hu⟩ := State.useWrite_holds (hfetch.scratchUe.trans hue) hholds (pack 0xA (s.cvtCodes (chOf cx) ((bankOf e.word + e.i) % 4) ts))
  have hbody := State.inTiles_open (hts ▸ hopen) (State.cvtBody_int hts hop hfa hfd hmod hbad hclash hholds hwrite)
  rw [hplace] at hu
  refine exec_leaves (c := .cvt cx) rfl h hbody ?_ fun i => ?_
  · exact (State.ctx_cvtDone ..).trans ((hu.ctx _).trans (hfetch.ctx _))
  · rw [State.started, State.chan_modChan_self]
    dsimp only
    rw [State.scratch_cvtDone, hu.get, hfetch.scratch]

end Cvt

/-- Settles O55: the clauses are the four rows' results, integer by integer. -/
theorem matrixAndVectorResults : Obligations.MatrixAndVectorResults := by
  intro s cx e r a b d hue
  refine ⟨fun ts waited hts hopen hbad h hfa hfd hmod hA hB hclash => exec_mma_int8 hue hts hopen hbad h hfa hfd hmod hA hB hclash,
    fun ts n hts hn hopen hbad h hfa hfd hmod hD hclash => ?_, fun op hop hkind h hfa hfd hA hB hD => exec_vop_int hop hkind hue h hfa hfd hA hB hD,
    fun h hfa hmod hA hD => exec_red_int hue h hfa hmod hA hD⟩
  subst hn
  obtain ⟨t, hrun, ht⟩ := exec_cvt_int hue hts hopen hbad h hfa hfd hmod hD hclash
  have hlen := s.length_cvtCodes (chOf cx) ((bankOf e.word + e.i) % 4) ts
  refine ⟨t, hrun, ht.queue, fun j m c hj hm hc => ?_⟩
  have hrow : 32 * ts.length * m + 32 * ts.length ≤ 1024 * ts.length := by
    calc 32 * ts.length * m + 32 * ts.length = 32 * ts.length * (m + 1) := by ring
      _ ≤ 32 * ts.length * 32 := Nat.mul_le_mul_left _ hm
      _ = 1024 * ts.length := by ring
  have hin : 32 * ts.length * m + (32 * j + c) < (s.cvtCodes (chOf cx) ((bankOf e.word + e.i) % 4) ts).length := by omega
  have hcode := s.getD_cvtCodes (b := (bankOf e.word + e.i) % 4) (ch := chOf cx) hj hm hc
  have hmod32 : (256 : Nat) ^ 4 = 2 ^ 32 := by norm_num
  rw [List.getD_eq_getElem _ _ hin] at hcode
  rw [ht.scr (by rw [length_pack_int32]; omega), pack_int32, Nat.add_assoc, leAt_flatMap_leBytes 4 hin, hcode, hmod32, Nat.mod_mod]

end Sys2Proof.Machine
end

section
/-! PROOFS. flt, hst, gat and sct on operands in scratch (R199, R200, R202), and the receive record of a holding precv (R204). -/

namespace Sys2Proof.Machine

/-! ### gat and sct -/

section Index

variable {s : State} {cx : Cx} {e : Entry} {r : List Entry} {a b d v : Nat}

/-- An operand of gat or sct, at index `i`. -/
def moveUse (w t reg x i : Nat) : Use := ⟨locOf w t reg x i 0, moveLen w, moveAlign (slSpace t)⟩

theorem State.inScratch.holds_moveUse {w t reg x i : Nat} (h : s.inScratch cx w t reg x i (moveLen w) a) : (s.ctx cx).Holds (moveUse w t reg x i) := by
  have hspace := h.1
  exact h.holds (by rw [hspace]; decide)

theorem State.inScratch.place_moveUse {w t reg x i : Nat} (h : s.inScratch cx w t reg x i (moveLen w) a) :
    (s.ctx cx).place (moveUse w t reg x i) = (s.ctx cx).win + a := h.place

theorem State.inScratch.bytesOf_moveUse {w t reg x i : Nat} (h : s.inScratch cx w t reg x i (moveLen w) a) :
    (s.ctx cx).bytesOf (s.chan (chOf cx)).scratch (moveUse w t reg x i) = s.scr cx a (moveLen w) := h.bytesOf

/-- An index in range: the operand that it names is moved from `src` to `dst`. -/
theorem State.indexBody_in (gather : Bool) (host : HostData) {src dst : Use} (hue : (s.chan (chOf cx)).scratchUe = [])
    (hv : v = leNat (s.scr cx b 4)) (hin : v < e.m1) (hB : s.inScratch cx e.word (slotB e.word) e.b e.xb e.i 4 b)
    (hsrc : src = moveUse e.word (slotA e.word) e.a e.xa (if gather then v else e.i))
    (hdst : dst = moveUse e.word (slotD e.word) e.d e.xd (if gather then e.i else v)) (hA : (s.ctx cx).Holds src) (hD : (s.ctx cx).Holds dst) :
    ∃ u, State.indexBody cx gather host (s.ctx cx) e s = (.ok (some { e := e }), u) ∧
      State.WritesTo (chOf cx) ((s.ctx cx).place dst) ((s.ctx cx).bytesOf (s.chan (chOf cx)).scratch src) s u := by
  obtain ⟨v1, hread, hv1⟩ := State.useRead_holds (k := s.ctx cx) hue (hB.holds (align := 4) (by decide)) .error
  obtain ⟨u, htransfer, hu⟩ := State.transfer_holds (s := v1) (k := s.ctx cx) (rd := [src]) (x := dst) (host := host) (os := []) (fl := []) (e' := e)
    (o := (s.ctx cx).bytesOf (s.chan (chOf cx)).scratch src) (f := fun bs => .ok ([bs.headD []], [], e)) (hv1.scratchUe.trans hue)
    (fun y hy => List.mem_singleton.mp hy ▸ hA) hD (by rw [hv1.scratch]; rfl)
  rw [hB.bytesOf] at hread
  refine ⟨u, ?_, hv1.writesTo hu⟩
  have hchecks (x : Use) (hx : (s.ctx cx).Holds x) : s.useChecks (s.ctx cx) [⟨locOf e.word (slotB e.word) e.b e.xb e.i 0, 4, 4⟩, x] = none :=
    State.useChecks_holds fun y hy => by
      rcases List.mem_cons.mp hy with rfl | hy
      · exact hB.holds (by decide)
      · exact List.mem_singleton.mp hy ▸ hx
  unfold State.indexBody
  cases gather with
  | true =>
    rw [moveUse, if_pos rfl] at hsrc hdst
    simp only [if_true, ← hdst, hchecks dst hD, hread, ← hv, if_neg (Nat.not_le.mpr hin), ← hsrc, htransfer]
  | false =>
    rw [moveUse, if_neg Bool.false_ne_true] at hsrc hdst
    simp only [Bool.false_eq_true, if_false, ← hsrc, hchecks src hA, hread, ← hv, if_neg (Nat.not_le.mpr hin), ← hdst, htransfer]

theorem State.indexFin_none {f : Entry} (h : bitOf f.word 120 = false) (u : State) : State.indexFin cx f u = u := by rw [State.indexFin, h]; rfl

theorem exec_gat_scratch {n : Nat} (host : HostData) (hue : (s.chan (chOf cx)).scratchUe = []) (hn : n = moveLen e.word) (hcount : bitOf e.word 120 = false)
    (hv : v = leNat (s.scr cx b 4)) (hin : v < e.m1) (hB : s.inScratch cx e.word (slotB e.word) e.b e.xb e.i 4 b) (h : s.lastRepeat cx 3 0x41 e r)
    (hA : s.inScratch cx e.word (slotA e.word) e.a e.xa v n a) (hD : s.inScratch cx e.word (slotD e.word) e.d e.xd e.i n d) :
    Yields (.gat cx host) s (fun t => t.scr cx d n = s.scr cx a n) := by
  subst hn
  obtain ⟨u, hbody, hu⟩ := State.indexBody_in true host hue hv hin hB rfl rfl hA.holds_moveUse hD.holds_moveUse
  simp only [if_true, hA.bytesOf_moveUse, hD.place_moveUse] at hu
  obtain ⟨t, hrun, ht⟩ := exec_leaves_of_fin (c := .gat cx host) rfl h hbody (State.indexFin_none hcount) (hu.ctx _) hu.get
  exact ⟨t, hrun, ht.scr (Mem.length_read ..)⟩

theorem exec_sct_scratch {n : Nat} (host : HostData) (hue : (s.chan (chOf cx)).scratchUe = []) (hn : n = moveLen e.word) (hcount : bitOf e.word 120 = false)
    (hv : v = leNat (s.scr cx b 4)) (hin : v < e.m1) (hB : s.inScratch cx e.word (slotB e.word) e.b e.xb e.i 4 b) (h : s.lastRepeat cx 3 0x42 e r)
    (hA : s.inScratch cx e.word (slotA e.word) e.a e.xa e.i n a) (hD : s.inScratch cx e.word (slotD e.word) e.d e.xd v n d) :
    Yields (.sct cx host) s (fun t => t.scr cx d n = s.scr cx a n) := by
  subst hn
  obtain ⟨u, hbody, hu⟩ := State.indexBody_in false host hue hv hin hB rfl rfl hA.holds_moveUse hD.holds_moveUse
  simp only [Bool.false_eq_true, if_false, hA.bytesOf_moveUse, hD.place_moveUse] at hu
  obtain ⟨t, hrun, ht⟩ := exec_leaves_of_fin (c := .sct cx host) rfl h hbody (State.indexFin_none hcount) (hu.ctx _) hu.get
  exact ⟨t, hrun, ht.scr (Mem.length_read ..)⟩

end Index

/-! ### hst -/

/-- The counters after: the records of each bin have joined what it held. -/
theorem histogram_counts (bins cap : Nat) {keys : List Nat} (hkeys : ∀ x ∈ keys, x < bins) {ctr : List Nat} (hlen : ctr.length = bins) :
    ∃ c slots, histogram bins cap keys ctr = some (c, slots) ∧ c.length = bins ∧
      ∀ q, q < bins → c.getD q 0 % 2 ^ 32 = (ctr.getD q 0 + (keys.filter (· == q)).length) % 2 ^ 32 := by
  induction keys generalizing ctr with
  | nil => exact ⟨ctr, [], rfl, hlen, fun q _ => rfl⟩
  | cons x l ih =>
    have hx : x < bins := hkeys x (List.mem_cons_self ..)
    obtain ⟨c, slots, hrest, hclen, hc⟩ := ih (fun y hy => hkeys y (List.mem_cons_of_mem _ hy))
      (ctr := ctr.set x ((ctr.getD x 0 + 1) % 2 ^ 32)) (by rw [List.length_set, hlen])
    refine ⟨c, (if ctr.getD x 0 < cap then (x * cap + ctr.getD x 0) % 2 ^ 32 else 0xFFFFFFFF) :: slots, ?_, hclen, fun q hq => (hc q hq).trans ?_⟩
    · rw [histogram, if_neg (by omega)]
      simp only [hrest, Option.map_some]
    rw [List.getD_eq_getElem _ _ (by rw [List.length_set]; omega), List.getElem_set, List.filter_cons]
    by_cases hxq : x = q
    · subst hxq
      rw [if_pos rfl, beq_self_eq_true, if_pos rfl, List.length_cons]
      omega
    · rw [if_neg hxq, if_neg (by simpa using hxq), ← List.getD_eq_getElem _ 0]

section Hst

variable {s : State} {cx : Cx} {e : Entry} {r : List Entry} {a d n bins : Nat}

/-- The bins of the records, and the counters before. -/
def hstKeys (w n : Nat) (b : Bytes) : List Nat := (List.range n).map (fun j => leAt b (8 * j + 4 * bits w 120 1) 4)

def hstCounters (bins : Nat) (b : Bytes) : List Nat := (List.range bins).map (fun q => leAt b (4 * q) 4)

theorem State.hstBody_noSlots (hcap : bitOf e.word 121 = false) (k : Ctx) : State.hstBody cx k e s = s.transfer cx k .error
    [⟨locOf e.word (slotA e.word) e.a e.xa e.i 0, 8 * 2 ^ bits e.word 116 4, 32⟩,
      ⟨locOf e.word (slotD e.word) e.d e.xd e.i 0, 4 * (bits e.word 104 12 + 1), 32⟩]
    [⟨locOf e.word (slotD e.word) e.d e.xd e.i 0, 4 * (bits e.word 104 12 + 1), 32⟩]
    (fun bs => match histogram (bits e.word 104 12 + 1) e.m1 (hstKeys e.word (2 ^ bits e.word 116 4) (bs.getD 0 []))
        (hstCounters (bits e.word 104 12 + 1) (bs.getD 1 [])) with
      | none => .error stIndexRange
      | some (c, slots) => .ok ([c.flatMap (leBytes 4), slots.flatMap (leBytes 4)], [], e)) := by
  unfold State.hstBody
  simp only [hcap, Bool.false_eq_true, if_false]
  rfl

theorem exec_hst_scratch (hue : (s.chan (chOf cx)).scratchUe = []) (hn : n = 2 ^ bits e.word 116 4) (hbins : bins = bits e.word 104 12 + 1)
    (h : s.lastRepeat cx 2 0x33 e r) (hcap : bitOf e.word 121 = false) (hA : s.inScratch cx e.word (slotA e.word) e.a e.xa e.i (8 * n) a)
    (hD : s.inScratch cx e.word (slotD e.word) e.d e.xd e.i (4 * bins) d) {key : Nat → Nat}
    (hkey : key = (fun j => leAt (s.scr cx a (8 * n)) (8 * j + 4 * bits e.word 120 1) 4)) (hrange : ∀ j, j < n → key j < bins) :
    Yields (.hst cx) s (fun t => ∀ q, q < bins → leAt (t.scr cx d (4 * bins)) (4 * q) 4 =
      (leAt (s.scr cx d (4 * bins)) (4 * q) 4 + ((List.range n).filter (fun j => key j == q)).length) % 2 ^ 32) := by
  have hbody := State.hstBody_noSlots (s := s) (cx := cx) hcap (s.ctx cx)
  rw [← hn, ← hbins] at hbody
  have hkeys : hstKeys e.word n (s.scr cx a (8 * n)) = (List.range n).map key := by rw [hkey]; rfl
  have hin : ∀ x ∈ (List.range n).map key, x < bins := fun x hx => by
    obtain ⟨j, hj, rfl⟩ := List.mem_map.mp hx
    exact hrange j (List.mem_range.mp hj)
  obtain ⟨c, slots, hist, hlen, hc⟩ := histogram_counts bins e.m1 hin (ctr := hstCounters bins (s.scr cx d (4 * bins)))
    (by rw [hstCounters, List.length_map, List.length_range])
  obtain ⟨t, hrun, ht⟩ := exec_transfer_leaves (o := c.flatMap (leBytes 4)) (os := [slots.flatMap (leBytes 4)]) (e' := e) (c := .hst cx) rfl h hue hbody
    (by simp only [List.mem_cons, List.not_mem_nil, or_false, forall_eq_or_imp, forall_eq]; exact ⟨hA.holds (by decide), hD.holds (by decide)⟩)
    (hD.holds (by decide)) (by
      simp only [List.map_cons, List.map_nil, hA.bytesOf, hD.bytesOf, List.getD_cons_zero, List.getD_cons_succ, hkeys, hist])
  rw [hD.place] at ht
  refine ⟨t, hrun, fun q hq => ?_⟩
  have hctr : (hstCounters bins (s.scr cx d (4 * bins))).getD q 0 = leAt (s.scr cx d (4 * bins)) (4 * q) 4 := by
    rw [hstCounters, List.getD_eq_getElem _ _ (by rwa [List.length_map, List.length_range]), List.getElem_map, List.getElem_range]
  have hq' : q < c.length := hlen ▸ hq
  have hmod32 : (256 : Nat) ^ 4 = 2 ^ 32 := by norm_num
  rw [ht.scr (by rw [length_flatMap_leBytes, hlen]), leAt_flatMap_leBytes 4 hq', hmod32, ← List.getD_eq_getElem _ 0 hq', hc q hq, hctr, List.filter_map,
    List.length_map]
  rfl

end Hst

end Sys2Proof.Machine
end

section
/-! PROOFS. flt and a holding precv (R199, R204), whose completions write registers of the context (R149). -/

namespace Sys2Proof.Machine

/-! ### Registers written at a completion -/

/-- A register of a context, written in SEQ cycle `at - 1` (R149). -/
def Ctx.wrote (k : Ctx) (cls n v cyc : Nat) : Ctx := { k.setReg cls n v with engAt := k.engAt.put 0 (16 * cls + n) cyc }

section Wrote

variable (k : Ctx) (cls n v cyc : Nat)

theorem State.engineReg_eq (s : State) (cx : Nat) :
    s.engineReg cx cls n v = s.modCtx cx (fun k => k.wrote cls n v (s.seqNow (chOf cx) (coreOf cx) + 1)) := rfl

/-- It changes the registers alone. -/
theorem Ctx.wrote_rest : k.wrote cls n v cyc =
    { k with a := (k.wrote cls n v cyc).a, c := (k.wrote cls n v cyc).c, x := (k.wrote cls n v cyc).x, engAt := (k.wrote cls n v cyc).engAt } := by
  unfold Ctx.wrote Ctx.setReg
  split <;> rfl

theorem Ctx.wrote_st : (k.wrote cls n v cyc).st = k.st := by rw [Ctx.wrote_rest]

theorem Ctx.wrote_win : (k.wrote cls n v cyc).win = k.win := by rw [Ctx.wrote_rest]

/-- It looks at no report. -/
theorem Ctx.wrote_report (x : Nat) (y : Option CtxInv) :
    Ctx.wrote { k with exc := x, inv := y } cls n v cyc = { k.wrote cls n v cyc with exc := x, inv := y } := by
  unfold Ctx.wrote Ctx.setReg
  split <;> rfl

theorem Ctx.reg_wrote_a : (k.wrote 0 n v cyc).reg 0 n = v % 2 ^ 48 := Tab.get_put_self ..

theorem Ctx.reg_wrote_c : (k.wrote 1 n v cyc).reg 1 n = v % 2 ^ 32 := Tab.get_put_self ..

theorem Ctx.reg_wrote_x (m : Nat) : (k.wrote 2 n v cyc).reg 0 m = k.reg 0 m := rfl

end Wrote

theorem State.Completes.ctxReg {cx q : Nat} {s t : State} (h : State.Completes cx q s t) (cls n : Nat) : (t.ctx cx).reg cls n = (s.ctx cx).reg cls n := by
  rw [h.ctx]
  rfl

/-! ### flt -/

section Flt

variable {s : State} {cx : Cx} {e : Entry} {r : List Entry} {a d n : Nat} {out : List Bytes}

theorem length_filter_records {m : Nat} {b : Bytes} (p : Bytes → Bool) : ((records m b).filter p).length ≤ m :=
  (List.length_filter_le _ _).trans_eq (length_records m b)

/-- The test of u32 keys for less. -/
theorem fltTest_lt (x y : Nat) : fltTest 0 2 x y = decide (x < y) := decide_eq_decide.mpr Int.ofNat_lt

theorem State.fltBody_lt (hue : (s.chan (chOf cx)).scratchUe = []) (hi : e.i = 0) (hacc : e.acc = 0) (hrel : bits e.word 104 3 = 2)
    (hkt : bits e.word 107 2 = 0) (hn : n = 2 ^ bits e.word 116 4) (hA : s.inScratch cx e.word (slotA e.word) e.a e.xa e.i (8 * n) a)
    (hD : s.inScratch cx e.word (slotD e.word) e.d e.xd e.i (8 * n) d)
    (hout : out = (records n (s.scr cx a (8 * n))).filter (fun x => decide (leAt x 0 4 < e.m1))) :
    ∃ u, State.fltBody cx (s.ctx cx) e s = (.ok (some { e := { e with acc := out.length } }), u) ∧
      State.WritesTo (chOf cx) ((s.ctx cx).win + d) out.flatten s u := by
  have hle : out.length ≤ n := hout ▸ length_filter_records _
  have hDle : s.inScratch cx e.word (slotD e.word) e.d e.xd 0 (8 * out.length) d := by
    obtain ⟨hspace, haddr, h32, hin, hend⟩ := hD
    exact ⟨hspace, hi ▸ haddr, h32, by omega, by omega⟩
  obtain ⟨v1, hread, hv1⟩ := State.useRead_holds (k := s.ctx cx) hue (hA.holds (align := 32) (by decide)) .error
  have hholds : (s.ctx cx).Holds ⟨locOf e.word (slotD e.word) e.d e.xd 0 0, 8 * out.length, 1⟩ := hDle.holds (by decide)
  obtain ⟨u, hwrite, hu⟩ := State.useWrite_holds (s := v1) (k := s.ctx cx) (hv1.scratchUe.trans hue) hholds out.flatten
  rw [hA.bytesOf] at hread
  rw [hDle.place] at hu
  refine ⟨u, ?_, hv1.writesTo hu⟩
  have hchecks : s.useChecks (s.ctx cx) [⟨locOf e.word (slotA e.word) e.a e.xa e.i 0, 8 * n, 32⟩,
      ⟨locOf e.word (slotD e.word) e.d e.xd 0 0, 0, 32⟩] = none :=
    State.useChecks_holds fun y hy => by
      rcases List.mem_cons.mp hy with rfl | hy
      · exact hA.holds (by decide)
      · obtain ⟨hspace, haddr, h32, hin, -⟩ := hDle
        exact List.mem_singleton.mp hy ▸ Ctx.holds_loc hspace haddr h32 (by omega) (by decide)
  unfold State.fltBody
  simp only [← hn, hkt, hrel, hacc, fltTest_lt, hchecks, hread, ← hout, Nat.cast_zero, Int.mul_zero, Int.add_zero, Ctx.Holds.useRange hholds, hwrite,
    Nat.zero_add]

theorem exec_flt_scratch (hue : (s.chan (chOf cx)).scratchUe = []) (hn : n = 2 ^ bits e.word 116 4) (h : s.lastRepeat cx 2 0x32 e r) (hi : e.i = 0)
    (hacc : e.acc = 0) (hrel : bits e.word 104 3 = 2) (hkt : bits e.word 107 2 = 0) (hA : s.inScratch cx e.word (slotA e.word) e.a e.xa e.i (8 * n) a)
    (hD : s.inScratch cx e.word (slotD e.word) e.d e.xd e.i (8 * n) d)
    (hout : out = (records n (s.scr cx a (8 * n))).filter (fun x => decide (leAt x 0 4 < e.m1))) :
    Yields (.flt cx) s (fun t => t.scr cx d (8 * out.length) = out.flatten ∧ (t.ctx cx).reg 1 (bits e.word 113 3) = out.length) := by
  have ⟨_, _, _, hst, _⟩ := h
  obtain ⟨u, hbody, hu⟩ := State.fltBody_lt hue hi hacc hrel hkt hn hA hD hout
  have hrec : ∀ x ∈ out, x.length = 8 := fun x hx =>
    length_of_mem_records (Mem.length_read _ _ (8 * n)) (List.mem_of_mem_filter (hout ▸ hx))
  have hlen : out.length < 2 ^ 32 := by
    have hle : out.length ≤ n := hout ▸ length_filter_records _
    have hpow : n ≤ 2 ^ 15 := hn ▸ Nat.pow_le_pow_right (by decide) (by rw [bits]; omega)
    omega
  refine ⟨_, exec_lastRepeat (c := .flt cx) rfl h hbody, ?_⟩
  dsimp only
  rw [State.writeCount, State.engineReg_eq]
  have ht := State.completes_pop_modCtx (q := 2) (u := u) (cx := cx) (by rw [hu.ctx]; exact hst)
    (g := fun k => k.wrote 1 (bits e.word 113 3) out.length
      ((u.repeated cx 2 e.word { e with i := e.i + 1, acc := out.length }).seqNow (chOf cx) (coreOf cx) + 1))
    (fun k _ _ => k.wrote_report ..) (fun k => k.wrote_st ..) e.word { e with i := e.i + 1, acc := out.length }
  refine ⟨?_, (ht.ctxReg ..).trans ?_⟩
  · rw [ht.scr, State.scr, State.ctx_modCtx_self, Ctx.wrote_win, hu.ctx, ← length_flatten_pieces hrec]
    exact hu.read
  · rw [State.ctx_modCtx_self, Ctx.reg_wrote_c, Nat.mod_eq_of_lt hlen]

end Flt

/-! ### A precv that holds its frame -/

section Precv

variable {s : State} {cx : Cx} {e : Entry} {r : List Entry} {d : Nat} {x : RxItem} {q : List RxItem} {f : Frm}

theorem length_rxRecord (h : Nat) (f : Frm) (tag : Nat) (cut held : Bool) : (rxRecord h f tag cut held).length = 32 := by
  simp only [rxRecord, List.length_append, length_leBytes]

/-- Numbers, each with its width, as they lie one behind the other. -/
def fieldBytes (l : List (Nat × Nat)) : Bytes := l.flatMap (fun x => leBytes x.1 x.2)

theorem length_fieldBytes (l : List (Nat × Nat)) : (fieldBytes l).length = (l.map (·.1)).sum := by
  rw [fieldBytes, List.length_flatMap]
  exact congrArg List.sum (List.map_congr_left fun x _ => length_leBytes x.1 x.2)

theorem leAt_fieldBytes (l l' : List (Nat × Nat)) (n v : Nat) : leAt (fieldBytes (l ++ (n, v) :: l')) (l.map (·.1)).sum n = v % 256 ^ n := by
  rw [fieldBytes, List.flatMap_append, List.flatMap_cons]
  exact leAt_eq_of_length (length_fieldBytes l)

theorem rxRecord_eq (h : Nat) (f : Frm) (tag : Nat) (cut held : Bool) : rxRecord h f tag cut held =
    fieldBytes [(8, h), (8, f.stamp.toNat), (4, f.len), (1, f.src), (1, tag), (1, f.cls), (1, bit1 cut + 2 * bit1 held), (4, f.arr), (4, 0)] := by
  simp only [rxRecord, fieldBytes, List.flatMap_cons, List.flatMap_nil, List.append_assoc, List.append_nil]

/-- The fields of a receive record. -/
theorem rxRecord_fields (h : Nat) (f : Frm) (tag : Nat) (cut held : Bool) {b : Bytes} (hb : b = rxRecord h f tag cut held) :
    leAt b 0 8 = h % 2 ^ 64 ∧ leAt b 8 8 = f.stamp.toNat ∧ leAt b 16 4 = f.len % 2 ^ 32 ∧ byteAt b 21 = tag % 256 ∧ byteAt b 22 = f.cls % 256 ∧
      byteAt b 23 = (bit1 cut + 2 * bit1 held) % 256 := by
  have hstamp : f.stamp.toNat % 256 ^ 8 = f.stamp.toNat := Nat.mod_eq_of_lt f.stamp.isLt
  rw [hb, rxRecord_eq, ← leAt_one, ← leAt_one, ← leAt_one]
  refine ⟨leAt_fieldBytes [] _ 8 h, (leAt_fieldBytes [(8, h)] _ 8 _).trans hstamp, leAt_fieldBytes [(8, h), (8, _)] _ 4 _,
    leAt_fieldBytes [(8, h), (8, _), (4, _), (1, _)] _ 1 _, leAt_fieldBytes [(8, h), (8, _), (4, _), (1, _), (1, _)] _ 1 _,
    leAt_fieldBytes [(8, h), (8, _), (4, _), (1, _), (1, _), (1, _)] _ 1 _⟩

/-- What a precv leaves of its context: the oldest frame is held. -/
def Ctx.tookFrame (k : Ctx) (rest : List RxItem) (unit : Nat) : Ctx := { k with fifo := rest, held := k.held ++ [unit] }

theorem State.precvBody_hold (hue : (s.chan (chOf cx)).scratchUe = []) (hhold : bitOf e.word 104 = true) (hfifo : (s.ctx cx).fifo = x :: q)
    (hf : s.frm x.frm = some f) (hD : s.inScratch cx e.word (slotD e.word) e.d e.xd e.i 32 d) :
    ∃ u, State.precvBody cx (s.ctx cx) e s = (.ok (some { e := { e with acc := s.handle f.unit } }),
        ({ u with frames := u.frames.erase x.frm }).modCtx cx (fun k => k.tookFrame q f.unit)) ∧
      State.WritesTo (chOf cx) ((s.ctx cx).win + d) (rxRecord (s.handle f.unit) f x.tag false true) s u := by
  have hholds : (s.ctx cx).Holds ⟨locOf e.word (slotD e.word) e.d e.xd e.i 0, 32, 32⟩ := hD.holds (by decide)
  obtain ⟨u, hwrite, hu⟩ := State.useWrite_holds hue hholds (rxRecord (s.handle f.unit) f x.tag false true)
  rw [hD.place] at hu
  refine ⟨u, ?_, hu⟩
  have hchecks : s.useChecks (s.ctx cx) [⟨locOf e.word (slotD e.word) e.d e.xd e.i 0, 32, 32⟩] = none :=
    State.useChecks_holds fun y hy => List.mem_singleton.mp hy ▸ hholds
  unfold State.precvBody
  simp only [hfifo, hf, hhold, if_true, hchecks, hwrite]
  rfl

theorem State.precvFin_hold {g : Entry} (hhold : bitOf g.word 104 = true) (v : State) : State.precvFin cx g v = v.modCtx cx (fun k =>
    (k.wrote 0 (slReg (slotA g.word)) (g.acc % 2 ^ 48) (v.seqNow (chOf cx) (coreOf cx) + 1)).wrote 2 (slReg (slotA g.word)) (g.acc / 2 ^ 48)
      (v.seqNow (chOf cx) (coreOf cx) + 1)) := by
  rw [State.precvFin, if_pos hhold, State.engineReg_eq, State.engineReg_eq, State.modCtx_modCtx]
  rfl

theorem exec_precv_hold (hue : (s.chan (chOf cx)).scratchUe = []) (h : s.lastRepeat cx 4 0x51 e r) (hhold : bitOf e.word 104 = true)
    (hfifo : (s.ctx cx).fifo = x :: q) (hf : s.frm x.frm = some f) (hD : s.inScratch cx e.word (slotD e.word) e.d e.xd e.i 32 d) (hlen : f.len < 2 ^ 32) :
    Yields (.precv cx) s (fun t => (t.ctx cx).fifo = q ∧ (t.ctx cx).held = (s.ctx cx).held ++ [f.unit] ∧ t.store = s.store ∧
      (t.ctx cx).reg 0 (slReg (slotA e.word)) = s.handle f.unit % 2 ^ 48 ∧ leAt (t.scr cx d 32) 0 8 = s.handle f.unit % 2 ^ 64 ∧
      leAt (t.scr cx d 32) 8 8 = f.stamp.toNat ∧ leAt (t.scr cx d 32) 16 4 = f.len ∧ byteAt (t.scr cx d 32) 21 = x.tag % 256 ∧
      byteAt (t.scr cx d 32) 22 = f.cls % 256 ∧ byteAt (t.scr cx d 32) 23 = 2) := by
  have ⟨_, _, _, hst, _⟩ := h
  obtain ⟨u, hbody, hu⟩ := State.precvBody_hold hue hhold hfifo hf hD
  generalize hv : ({ u with frames := u.frames.erase x.frm } : State).modCtx cx (fun k => k.tookFrame q f.unit) = v at hbody
  have hctx : v.ctx cx = (s.ctx cx).tookFrame q f.unit := by
    rw [← hv, State.ctx_modCtx_self]
    exact congrArg (Ctx.tookFrame · q f.unit) (hu.ctx cx)
  have hscratch : (v.chan (chOf cx)).scratch = (u.chan (chOf cx)).scratch := by
    rw [← hv]
    rfl
  have hstore : v.store = s.store := by
    rw [← hv, State.modCtx, hu.rest]
  refine ⟨_, exec_lastRepeat (c := .precv cx) rfl h hbody, ?_⟩
  dsimp only
  rw [State.precvFin_hold (g := { e with i := e.i + 1, acc := s.handle f.unit }) hhold]
  dsimp only
  generalize (v.repeated cx 4 e.word { e with i := e.i + 1, acc := s.handle f.unit }).seqNow (chOf cx) (coreOf cx) + 1 = cyc
  have ht := State.completes_pop_modCtx (q := 4) (u := v) (cx := cx) (by rw [hctx]; exact hst)
    (g := fun k => (k.wrote 0 (slReg (slotA e.word)) (s.handle f.unit % 2 ^ 48) cyc).wrote 2 (slReg (slotA e.word)) (s.handle f.unit / 2 ^ 48) cyc)
    (fun k _ _ => (congrArg (Ctx.wrote · 2 _ _ _) (k.wrote_report ..)).trans (Ctx.wrote_report ..)) (fun k => by rw [Ctx.wrote_st, Ctx.wrote_st]) e.word
    { e with i := e.i + 1, acc := s.handle f.unit }
  generalize ((v.repeated cx 4 e.word { e with i := e.i + 1, acc := s.handle f.unit }).modCtx cx _).pop cx 4 = t at ht ⊢
  have hread : t.scr cx d 32 = rxRecord (s.handle f.unit) f x.tag false true := by
    rw [ht.scr, State.scr, State.ctx_modCtx_self, Ctx.wrote_win, Ctx.wrote_win, hctx, ← length_rxRecord (s.handle f.unit) f x.tag false true]
    exact (congrArg (Mem.read · _ _) hscratch).trans hu.read
  obtain ⟨hhandle, hstamp, hlength, htag, hcls, hflags⟩ := rxRecord_fields _ _ _ _ _ hread
  have hk := ht.ctx
  rw [State.ctx_modCtx_self, Ctx.wrote_rest, Ctx.wrote_rest, hctx] at hk
  refine ⟨by rw [hk]; rfl, by rw [hk]; rfl, by rw [ht.rest]; exact hstore, ?_, hhandle, hstamp, hlength.trans (Nat.mod_eq_of_lt hlen), htag, hcls, hflags⟩
  rw [ht.ctxReg, State.ctx_modCtx_self, Ctx.reg_wrote_x, Ctx.reg_wrote_a, Nat.mod_mod]

end Precv

end Sys2Proof.Machine
end

section
/-! PROOFS. tpk with k = 1 (R198): values rank in a linear order, and the record is that of the lowest index among the highest rank. -/

namespace Sys2Proof.Machine

/-! ### The order of values -/

/-- A value as a number; NaN and the infinities have a class of their own. -/
def FVal.class_ : FVal → Nat
  | .nan _ => 0
  | .inf neg => if neg then 1 else 3
  | .fin _ _ _ => 2

def FVal.number : FVal → ℚ
  | .fin neg m e => (if neg then -(m : ℚ) else m) * 2 ^ e
  | _ => 0

/-- NaN ranks lowest, then the values by size. -/
def FVal.rank (v : FVal) : ℕ ×ₗ ℚ := toLex (v.class_, v.number)

theorem number_onGrid (neg : Bool) (m : Nat) {e q : Int} (h : q ≤ e) : (FVal.fin neg m e).number = (onGrid neg m e q : ℚ) * 2 ^ q := by
  have hpow : (2 : ℚ) ^ e = 2 ^ (e - q).toNat * 2 ^ q := by
    rw [← zpow_natCast, ← zpow_add₀ (by norm_num)]
    congr 1
    omega
  rw [FVal.number, onGrid, hpow]
  cases neg <;> simp [mul_assoc]

theorem onGrid_lt_iff (n : Bool) (m : Nat) (e : Int) (n' : Bool) (m' : Nat) (e' : Int) :
    onGrid n m e (min e e') < onGrid n' m' e' (min e e') ↔ (FVal.fin n m e).number < (FVal.fin n' m' e').number := by
  rw [number_onGrid n m (min_le_left e e'), number_onGrid n' m' (min_le_right e e'), mul_lt_mul_iff_left₀ (by positivity), Int.cast_lt]

theorem FVal.rank_lt_iff (x y : FVal) : x.rank < y.rank ↔ x.class_ < y.class_ ∨ x.class_ = y.class_ ∧ x.number < y.number := Prod.Lex.toLex_lt_toLex

/-- Selection goes by rank. -/
theorem ranksAbove_iff (x y : FVal) : ranksAbove x y = true ↔ y.rank < x.rank := by
  rw [FVal.rank_lt_iff]
  cases x with
  | nan => cases y <;> simp [ranksAbove, FVal.isNan, FVal.class_, FVal.number]
  | inf a =>
    cases y with
    | nan => cases a <;> simp [ranksAbove, FVal.isNan, FVal.class_]
    | inf b => cases a <;> cases b <;> simp [ranksAbove, FVal.isNan, FVal.lt, FVal.class_, FVal.number]
    | fin n m e => cases a <;> simp [ranksAbove, FVal.isNan, FVal.lt, FVal.class_]
  | fin n m e =>
    cases y with
    | nan => simp [ranksAbove, FVal.isNan, FVal.class_]
    | inf b => cases b <;> simp [ranksAbove, FVal.isNan, FVal.lt, FVal.class_]
    | fin n' m' e' => simp [ranksAbove, FVal.isNan, FVal.lt, FVal.class_, onGrid_lt_iff]

theorem ranksAbove_false_iff (x y : FVal) : ranksAbove x y = false ↔ x.rank ≤ y.rank := by
  rw [← Bool.not_eq_true, ranksAbove_iff, not_lt]

/-- The order of tpk: by rank downwards, equal ranks by index. -/
def tpkOrder (v : Nat → FVal) (i j : Nat) : Bool := ranksAbove (v i) (v j) || (!ranksAbove (v j) (v i) && decide (i ≤ j))

theorem tpkOrder_iff (v : Nat → FVal) (i j : Nat) : tpkOrder v i j = true ↔ (v j).rank < (v i).rank ∨ ((v j).rank ≤ (v i).rank ∧ i ≤ j) := by
  simp only [tpkOrder, Bool.or_eq_true, Bool.and_eq_true, Bool.not_eq_true', decide_eq_true_eq, ranksAbove_iff, ranksAbove_false_iff]

theorem tpkOrder_total (v : Nat → FVal) (i j : Nat) : tpkOrder v i j = true ∨ tpkOrder v j i = true := by
  rw [tpkOrder_iff, tpkOrder_iff]
  rcases lt_trichotomy (v i).rank (v j).rank with h | h | h
  · exact .inr (.inl h)
  · exact (Nat.le_total i j).imp (fun hij => .inr ⟨h.ge, hij⟩) (fun hij => .inr ⟨h.le, hij⟩)
  · exact .inl (.inl h)

theorem tpkOrder_trans (v : Nat → FVal) (i j k : Nat) (hij : tpkOrder v i j = true) (hjk : tpkOrder v j k = true) : tpkOrder v i k = true := by
  rw [tpkOrder_iff] at hij hjk ⊢
  rcases hij with hij | ⟨hij, hle⟩
  · exact .inl (hjk.elim (·.trans hij) fun h => h.1.trans_lt hij)
  · exact hjk.imp (·.trans_le hij) fun ⟨h, hle'⟩ => ⟨h.trans hij, hle.trans hle'⟩

/-- The first index of the order holds a largest value, and no lower index does. -/
theorem head_sortBy_tpkOrder (v : Nat → FVal) {n : Nat} (hn : 0 < n) : ∃ i l, sortBy (tpkOrder v) (List.range n) = i :: l ∧ i < n ∧
    (∀ j, j < n → ranksAbove (v j) (v i) = false) ∧ ∀ j, j < i → ranksAbove (v i) (v j) = true := by
  have hperm := perm_sortBy (tpkOrder v) (List.range n)
  have hsorted := pairwise_sortBy (tpkOrder_total v) (tpkOrder_trans v) (List.range n)
  generalize sortBy (tpkOrder v) (List.range n) = l at hperm hsorted
  cases l with
  | nil =>
    have hlen := hperm.length_eq
    rw [List.length_range, List.length_nil] at hlen
    omega
  | cons i l =>
    have hi : i < n := List.mem_range.mp (hperm.mem_iff.mp (List.mem_cons_self ..))
    have hfirst (j : Nat) (hj : j < n) : tpkOrder v i j = true := by
      rcases List.mem_cons.mp (hperm.mem_iff.mpr (List.mem_range.mpr hj)) with rfl | hmem
      · exact (tpkOrder_total v j j).elim id id
      · exact (List.pairwise_cons.mp hsorted).1 j hmem
    refine ⟨i, l, rfl, hi, fun j hj => ?_, fun j hj => ?_⟩
    · exact (ranksAbove_false_iff _ _).mpr (((tpkOrder_iff v i j).mp (hfirst j hj)).elim le_of_lt And.left)
    · exact (ranksAbove_iff _ _).mpr (((tpkOrder_iff v i j).mp (hfirst j (hj.trans hi))).elim id fun h => absurd h.2 (Nat.not_le.mpr hj))

/-! ### The record -/

section Tpk

variable {s : State} {cx : Cx} {e : Entry} {r : List Entry} {a d n : Nat}

/-- The values that tpk selects from. -/
def tpkVals (n : Nat) (b : Bytes) (i : Nat) : FVal := decodeVal 1 ((elements 1 n b).getD i 0)

theorem tpkVals_of_lt {n i : Nat} (b : Bytes) (hi : i < n) : tpkVals n b i = decodeVal 1 (leAt b (4 * i) 4) := by
  have helem : element 1 b i = leAt b (4 * i) 4 := by
    rw [Nat.mul_comm]
    rfl
  rw [tpkVals, elements, List.getD_eq_getElem _ _ (by rwa [List.length_map, List.length_range]), List.getElem_map, List.getElem_range, helem]

theorem State.tpkBody_f32 (hfa : iFa e.word = 1) (hk : bits e.word 104 3 = 0) (hvo : bitOf e.word 119 = false) (hn : n = bits e.word 107 12 + 1) (k : Ctx) :
    State.tpkBody cx k e s = s.transfer cx k .error [⟨locOf e.word (slotA e.word) e.a e.xa e.i 0, 4 * n, 32⟩]
      [⟨locOf e.word (slotD e.word) e.d e.xd e.i 0, 8, 32⟩]
      (fun bs => .ok ([((sortBy (tpkOrder (tpkVals n (bs.headD []))) (List.range n)).take 1).flatMap (fun i => leBytes 4 i ++ leBytes 4 e.i),
        ((sortBy (tpkOrder (tpkVals n (bs.headD []))) (List.range n)).take 1).flatMap
          (fun i => leBytes 4 (convert (tpkVals n (bs.headD []) i) 1 0 0).1)], [], e)) := by
  have hbytes : elemBytes 1 n = 4 * n := by
    change n * 32 / 8 = 4 * n
    omega
  unfold State.tpkBody
  simp only [hfa, hk, hvo, ← hn, hbytes, Bool.false_eq_true, if_false]
  rfl

theorem exec_tpk_scratch (hue : (s.chan (chOf cx)).scratchUe = []) (hn : n = bits e.word 107 12 + 1) (h : s.lastRepeat cx 2 0x31 e r) (hfa : iFa e.word = 1)
    (hk : bits e.word 104 3 = 0) (hvo : bitOf e.word 119 = false) (hA : s.inScratch cx e.word (slotA e.word) e.a e.xa e.i (4 * n) a)
    (hD : s.inScratch cx e.word (slotD e.word) e.d e.xd e.i 8 d) {v : Nat → FVal} (hv : v = (fun i => decodeVal 1 (leAt (s.scr cx a (4 * n)) (4 * i) 4))) :
    Yields (.tpk cx) s (fun t => leAt (t.scr cx d 8) 4 4 = e.i ∧ ∃ i, leAt (t.scr cx d 8) 0 4 = i ∧ i < n ∧
      (∀ j, j < n → ranksAbove (v j) (v i) = false) ∧ ∀ j, j < i → ranksAbove (v i) (v j) = true) := by
  have ⟨_, _, _, _, _, hmax, hlast, _⟩ := h
  have hn32 : n ≤ 2 ^ 12 := by
    rw [hn, bits]
    omega
  obtain ⟨i, l, hsort, hi, htop, hlow⟩ := head_sortBy_tpkOrder (tpkVals n (s.scr cx a (4 * n))) (n := n) (by omega)
  obtain ⟨t, hrun, ht⟩ := exec_transfer_leaves (o := fieldBytes [(4, i), (4, e.i)])
    (os := [leBytes 4 (convert (tpkVals n (s.scr cx a (4 * n)) i) 1 0 0).1]) (e' := e) (c := .tpk cx) rfl h hue
    (State.tpkBody_f32 hfa hk hvo hn (s.ctx cx)) (fun y hy => List.mem_singleton.mp hy ▸ hA.holds (by decide)) (hD.holds (by decide)) (by
      simp only [List.map_cons, List.map_nil, hA.bytesOf, List.headD_cons, hsort, List.take_succ_cons, List.take_zero, List.flatMap_cons, List.flatMap_nil,
        List.append_nil, fieldBytes])
  rw [hD.place] at ht
  have hread := ht.scr (n := 8) (length_fieldBytes _)
  have hval (j : Nat) (hj : j < n) : tpkVals n (s.scr cx a (4 * n)) j = v j := by rw [tpkVals_of_lt _ hj, hv]
  rw [hval i hi] at htop hlow
  refine ⟨t, hrun, ?_, i, ?_, hi, fun j hj => ?_, fun j hj => ?_⟩
  · rw [hread]
    exact (leAt_fieldBytes [(4, i)] [] 4 e.i).trans (Nat.mod_eq_of_lt (by omega))
  · rw [hread]
    exact (leAt_fieldBytes [] [(4, e.i)] 4 i).trans (Nat.mod_eq_of_lt (by omega))
  · exact hval j hj ▸ htop j hj
  · exact hval j (hj.trans hi) ▸ hlow j hj

end Tpk

end Sys2Proof.Machine
end

section
/-! PROOFS. What originates a frame looks at no channel and at no context (R109, R269): each operation of the store, the ports and the look-up gives the same
whatever these hold, and leaves them as they are. -/

namespace Sys2Proof.Machine

/-- The state with other channels and contexts. -/
def State.on (s : State) (c : Tab Chan) (k : Tab Ctx) : State := { s with chans := c, ctxs := k }

/-- A result with the state that it leaves. -/
def State.onSnd {α : Type} (x : α × State) (c : Tab Chan) (k : Tab Ctx) : α × State := (x.1, x.2.on c k)

section On

variable (s : State) (c : Tab Chan) (k : Tab Ctx)

theorem State.on_self : s.on s.chans s.ctxs = s := rfl

theorem State.on_foldl {α : Type} {f : State → α → State} (h : ∀ s x, f (s.on c k) x = (f s x).on c k) (l : List α) :
    l.foldl f (s.on c k) = (l.foldl f s).on c k := by
  induction l generalizing s with
  | nil => rfl
  | cons x r ih => rw [List.foldl_cons, List.foldl_cons, h, ih]

theorem State.on_ite (p : Prop) [Decidable p] (t u : State) : (if p then t else u).on c k = if p then t.on c k else u.on c k :=
  apply_ite (State.on · c k) p t u

theorem State.onSnd_ite {α : Type} (p : Prop) [Decidable p] (x y : α × State) :
    State.onSnd (if p then x else y) c k = if p then State.onSnd x c k else State.onSnd y c k := apply_ite (State.onSnd · c k) p x y

theorem State.onSnd_mk {α : Type} (a : α) (t : State) : State.onSnd (a, t) c k = (a, t.on c k) := rfl

/-- The store changed. -/
theorem State.on_store (x : StoreSt) : ({ s.on c k with store := x } : State) = ({ s with store := x } : State).on c k := rfl

/-! ### Counters and frames on a port -/

theorem State.on_setReg (f : Fld) (v : Nat) : (s.on c k).setReg f v = (s.setReg f v).on c k := rfl

theorem State.on_count (f : Fld) (n : Nat) : (s.on c k).count f n = (s.count f n).on c k := rfl

theorem State.on_countSat (f : Fld) (n : Nat) : (s.on c k).countSat f n = (s.countSat f n).on c k := rfl

theorem State.on_modEg (src : Nat) (f : Egress → Egress) : (s.on c k).modEg src f = (s.modEg src f).on c k := rfl

theorem State.on_countL (f : Nat → Nat → Fld) (src n : Nat) : (s.on c k).countL f src n = (s.countL f src n).on c k := by
  rw [State.countL, State.countL, State.on_ite]
  rfl

theorem State.on_countM (f : Nat → Nat → Fld) (g : Nat → Fld) (src n : Nat) : (s.on c k).countM f g src n = (s.countM f g src n).on c k := by
  rw [State.countM, State.countM, State.on_ite, State.on_countL]
  rfl

theorem State.on_putFrame (src : Nat) (seq : Option Nat) (b : Bytes) (good : Bool) (stamp : FT64) :
    (s.on c k).putFrame src seq b good stamp = (s.putFrame src seq b good stamp).on c k := by
  have hemit : (s.on c k).emit (.frame src ((s.on c k).preamble src seq) b good stamp) = (s.emit (.frame src (s.preamble src seq) b good stamp)).on c k := rfl
  rw [State.putFrame, hemit, State.on_countM, State.on_countM, State.putFrame]

theorem State.on_stamped : (s.on c k).stamped = s.stamped.on c k := rfl

theorem State.on_holdSent (src : Nat) (h : Held) : (s.on c k).holdSent src h = (s.holdSent src h).on c k := rfl

theorem State.on_takeSeq (src : Nat) : (s.on c k).takeSeq src = State.onSnd (s.takeSeq src) c k := rfl

theorem State.on_sendNow (src : Nat) (x : CtlTx) : (s.on c k).sendNow src x = (s.sendNow src x).on c k := by
  have hreplaying : (s.on c k).replaying = s.replaying := rfl
  have hstamp : (s.on c k).txStamp src = s.txStamp src := rfl
  have hllr (t : State) : (t.on c k).llrOn src = t.llrOn src := rfl
  unfold State.sendNow
  simp only [hreplaying, hstamp, hllr, State.on_count, State.on_stamped, ← State.on_ite, State.on_takeSeq, State.onSnd, State.on_putFrame, State.on_holdSent]
  refine Eq.trans ?_ (State.on_ite c k _ _ _).symm
  cases x.start <;> rfl

theorem State.on_flushCtl (src n : Nat) : (s.on c k).flushCtl src n = (s.flushCtl src n).on c k := by
  induction n generalizing s with
  | zero => rfl
  | succ n ih =>
    have hfirst : firstReady (fun x => (s.on c k).retryRoom src (x.bytes.length + 4)) ((s.on c k).link src).eg.ctlq =
        firstReady (fun x => s.retryRoom src (x.bytes.length + 4)) (s.link src).eg.ctlq := rfl
    rw [State.flushCtl, State.flushCtl, hfirst]
    cases firstReady (fun x => s.retryRoom src (x.bytes.length + 4)) (s.link src).eg.ctlq with
    | none => rfl
    | some x =>
      dsimp only
      rw [State.on_modEg, State.on_sendNow, ih]

theorem State.on_flush (src : Nat) : (s.on c k).flush src = (s.flush src).on c k := by
  have hlink : (s.on c k).link src = s.link src := rfl
  rw [State.flush, hlink, State.on_flushCtl, State.flush, State.on_ite]

theorem State.on_sendCtl (src : Nat) (x : CtlTx) : (s.on c k).sendCtl src x = (s.sendCtl src x).on c k := by
  rw [State.sendCtl, State.on_modEg, State.on_flush, State.sendCtl]

theorem State.on_sendPfc (src : Nat) (l : List (Nat × Nat)) : (s.on c k).sendPfc src l = (s.sendPfc src l).on c k := by
  have hup : (s.on c k).isUp src = s.isUp src := rfl
  have hmode : (s.on c k).fcMode src = s.fcMode src := rfl
  have hstation : (s.on c k).station (src / 8) = s.station (src / 8) := rfl
  rw [State.sendPfc, hup, hmode, hstation, State.on_sendCtl, State.on_countL, State.sendPfc, State.on_ite]

theorem State.on_sendCredit (src : Nat) : (s.on c k).sendCredit src = (s.sendCredit src).on c k := by
  have hech (o : Nat) (b : Bytes) : (s.on c k).portEch src o b = s.portEch src o b := rfl
  have hlink : (s.on c k).link src = s.link src := rfl
  unfold State.sendCredit State.sendEch
  simp only [hech, hlink, State.on_sendCtl]

/-! ### The store -/

theorem State.on_setLink (src : Nat) (l : Link) : (s.on c k).setLink src l = (s.setLink src l).on c k := rfl

theorem State.on_creditSync (src : Nat) : (s.on c k).creditSync src = (s.creditSync src).on c k := by
  have hup : (s.on c k).isUp src = s.isUp src := rfl
  have hmode : (s.on c k).fcMode src = s.fcMode src := rfl
  have hlink : (s.on c k).link src = s.link src := rfl
  have hlossless (x : Nat) : (s.on c k).lossless (src / 8) x = s.lossless (src / 8) x := rfl
  have hlimit (x : Nat) : (s.on c k).creditLimit src x = s.creditLimit src x := rfl
  unfold State.creditSync
  simp only [hup, hmode, hlink, hlossless, hlimit, State.on_setLink, State.on_sendCredit, ← State.on_ite]

theorem State.on_creditPort (p : Nat) : (s.on c k).creditPort p = (s.creditPort p).on c k :=
  s.on_foldl c k (fun s l => s.on_creditSync c k (8 * p + l)) _

theorem State.on_bpSync : (s.on c k).bpSync = s.bpSync.on c k := by
  have hholds (o : Nat) : (s.on c k).bpHolds o = s.bpHolds o := rfl
  have hpairs (o : Nat) : (s.on c k).ownerPairs o = s.ownerPairs o := rfl
  have hstore (t : State) : (t.on c k).store = t.store := rfl
  have hregs (l : List Nat) (g : Nat → Nat) : l.foldl (fun s o => s.setReg (POOL_OWN_CTRL_bp o) (g o)) (s.on c k) =
      (l.foldl (fun s o => s.setReg (POOL_OWN_CTRL_bp o) (g o)) s).on c k := s.on_foldl c k (fun s o => s.on_setReg c k _ _) l
  have hpfc (t : State) (l : List Nat) (g : State → Nat → List (Nat × Nat)) (hg : ∀ s src, g (s.on c k) src = g s src) :
      l.foldl (fun s src => s.sendPfc src (g s src)) (t.on c k) = (l.foldl (fun s src => s.sendPfc src (g s src)) t).on c k :=
    t.on_foldl c k (fun s src => by rw [hg, State.on_sendPfc]) l
  have hsync (t : State) (l : List Nat) : l.foldl State.creditSync (t.on c k) = (l.foldl State.creditSync t).on c k :=
    t.on_foldl c k (fun s src => s.on_creditSync c k src) l
  unfold State.bpSync
  simp only [hholds, hpairs, hstore s, hregs]
  rw [hstore, State.on_store, hpfc _ _ _ fun _ _ => rfl, hsync]

theorem State.on_usageSync (o : Nat) : (s.on c k).usageSync o = (s.usageSync o).on c k := by
  rw [State.usageSync, State.on_bpSync, State.on_creditPort, ← State.on_ite, State.usageSync]

theorem State.on_setPool (i : Nat) (p : PoolSt) : (s.on c k).setPool i p = (s.setPool i p).on c k := rfl

theorem State.on_setUsage (o v : Nat) : (s.on c k).setUsage o v = (s.setUsage o v).on c k := rfl

theorem State.on_release (unit home : Nat) : (s.on c k).release unit home = (s.release unit home).on c k := by
  have hstore : (s.on c k).store = s.store := rfl
  have hpool (t : State) (p : Nat) : (t.on c k).pool p = t.pool p := rfl
  have husage (t : State) (o : Nat) : (t.on c k).usage o = t.usage o := rfl
  unfold State.release
  simp only [↓State.on_store, hstore, hpool, husage, State.on_setPool, State.on_setUsage, State.on_usageSync, ← State.on_ite]
  cases s.store.bufs.find? unit <;> rfl

theorem State.on_takeBuffer (i home : Nat) : (s.on c k).takeBuffer i home = (s.takeBuffer i home).map (fun x => (x.1, x.2.on c k)) := by
  have hpool : (s.on c k).pool i = s.pool i := rfl
  have hdraw : (s.on c k).draw = (s.draw.1, s.draw.2.on c k) := rfl
  unfold State.takeBuffer
  simp only [hpool, hdraw]
  generalize (if ((s.pool i).serving home).isSome = true then s.pool i else (s.pool i).refill (poolUnits i) home) = p
  cases p.serving home with
  | none => rfl
  | some sl =>
    dsimp only
    cases segTake (poolUnits i) (p.caches.get [] sl) (pick (segCount (p.caches.get [] sl)) s.draw.1) <;> rfl

theorem State.on_grant (o len i : Nat) (reserved : Bool) (home : Nat) (src : Option (Nat × Nat)) :
    (s.on c k).grant o len i reserved home src = (s.grant o len i reserved home src).map (fun x => (x.1, x.2.on c k)) := by
  have hchoose : (s.on c k).choosePool i reserved = s.choosePool i reserved := rfl
  have havail : (s.on c k).poolAvailable i reserved = s.poolAvailable i reserved := rfl
  have hstore (t : State) : (t.on c k).store = t.store := rfl
  have husage (t : State) : (t.on c k).usage o = t.usage o := rfl
  unfold State.grant
  simp only [hchoose, havail, State.on_countSat, ← State.on_ite, State.on_takeBuffer]
  cases s.choosePool i reserved with
  | none => rfl
  | some j =>
    dsimp only
    cases (if (s.poolAvailable i reserved || i == 5) = true then s else s.countSat (POOL_COUNTS_fallback_out i)).takeBuffer j home with
    | none => rfl
    | some x => simp only [Option.map_some, hstore, State.on_store, husage, State.on_setUsage, State.on_usageSync]

theorem State.on_request (o len : Nat) (rx : Bool) (home : Nat) (src : Option (Nat × Nat)) :
    (s.on c k).request o len rx home src = State.onSnd (s.request o len rx home src) c k := by
  have hadmit (n : Nat) : (s.on c k).admitShared o n rx = s.admitShared o n rx := rfl
  unfold State.request
  simp only [hadmit, State.on_countSat, ← State.on_ite, State.on_grant]
  cases poolFor len with
  | none => rfl
  | some i =>
    dsimp only
    cases s.admitShared o (ceilDiv len 256) rx with
    | error r => rfl
    | ok reserved =>
      dsimp only
      cases s.grant o len i reserved home src <;> rfl

theorem State.on_share (unit n last : Nat) : (s.on c k).share unit n last = (s.share unit n last).on c k := by
  have hstore : (s.on c k).store = s.store := rfl
  have husage (t : State) (o : Nat) : (t.on c k).usage o = t.usage o := rfl
  unfold State.share
  simp only [↓State.on_store, hstore, husage, State.on_setUsage, State.on_usageSync, ← State.on_ite]
  cases s.store.bufs.find? unit <;> rfl

end On

end Sys2Proof.Machine
end

section
/-! PROOFS. The look-up, egress and what originates a frame (R74–R90, R109, R269) look at no channel and at no context. -/

namespace Sys2Proof.Machine

section On

variable (s : State) (c : Tab Chan) (k : Tab Ctx)

/-! ### Egress -/

theorem State.on_modFrm (id : Nat) (f : Frm → Frm) : (s.on c k).modFrm id f = (s.modFrm id f).on c k := by
  have hframes : (s.on c k).frames = s.frames := rfl
  rw [State.modFrm, State.modFrm, hframes]
  cases s.frames.find? id <;> rfl

theorem State.on_copyDone (id src : Nat) : (s.on c k).copyDone id src = (s.copyDone id src).on c k := by
  have hfrm : (s.on c k).frm id = s.frm id := rfl
  have hhome : (s.on c k).portHome src = s.portHome src := rfl
  have herase (t : State) : ({ t.on c k with frames := (t.on c k).frames.erase id } : State) = ({ t with frames := t.frames.erase id } : State).on c k := rfl
  unfold State.copyDone
  rw [hfrm]
  cases s.frm id with
  | none => rfl
  | some f => simp only [hhome, State.on_release, herase, State.on_modFrm, ← State.on_ite]

theorem State.on_creditClock (src : Nat) : (s.on c k).creditClock src = (s.creditClock src).on c k := by
  have hmode : (s.on c k).fcMode src = s.fcMode src := rfl
  have hpast : (s.on c k).creditPast src = s.creditPast src := rfl
  have hwaits : (s.on c k).creditWaits src = s.creditWaits src := rfl
  have hnow (t : State) : (t.on c k).now = t.now := rfl
  unfold State.creditClock
  simp only [hmode, hpast, hwaits, State.on_countL, ← State.on_ite, State.on_modEg, hnow]

theorem State.on_enqueue (src : Nat) (x : Copy) : (s.on c k).enqueue src x = (s.enqueue src x).on c k := by
  have hfrm (t : State) (id : Nat) : (t.on c k).frm id = t.frm id := rfl
  have hup (t : State) : (t.on c k).isUp src = t.isUp src := rfl
  unfold State.enqueue
  simp only [State.on_countL, ← State.on_ite, hfrm, hup, State.on_modEg, State.on_creditClock, State.on_copyDone]
  generalize (if x.rep = true then s.countL PORT_LCTR_mcast_copies src else s) = t
  cases t.frm x.frm <;> rfl

theorem State.on_spread (id : Nat) (rep : Bool) (owner : Nat) (l : List (Nat × Copy)) :
    (s.on c k).spread id rep owner l = (s.spread id rep owner l).on c k := by
  have hfrm : (s.on c k).frm id = s.frm id := rfl
  have hqueue (t : State) (l : List (Nat × Copy)) : l.foldl (fun s x => s.enqueue x.1 x.2) (t.on c k) = (l.foldl (fun s x => s.enqueue x.1 x.2) t).on c k :=
    t.on_foldl c k (fun s x => s.on_enqueue c k x.1 x.2) l
  unfold State.spread
  rw [hfrm]
  cases s.frm id with
  | none => rfl
  | some f => simp only [State.on_share, ← State.on_ite, State.on_modFrm, hqueue]

/-! ### The look-up -/

theorem State.on_hop (cnt : Nat) (rx : Bool) (b : Bytes) (p : Parsed) (route : Bool) (i : Nat) :
    (s.on c k).hop cnt rx b p route i = State.onSnd (s.hop cnt rx b p route i) c k := by
  have htables : (s.on c k).tables = s.tables := rfl
  have htype (p : Nat) : (s.on c k).echType p = s.echType p := rfl
  have hmax (p : Nat) : (s.on c k).maxFrame p = s.maxFrame p := rfl
  unfold State.hop
  simp only [htables, htype, hmax, State.on_countL, ← State.onSnd_mk]
  cases s.tables.nexthop.find? i with
  | none => rfl
  | some e =>
    dsimp only
    cases headerLen b p (s.echType (cnt / 8)) <;> simp only [← State.onSnd_ite]

/-- One more next hop of an action. -/
def hopStep (cnt : Nat) (rx : Bool) (b : Bytes) (p : Parsed) (route : Bool) (x : List (Nat × Edit) × State) (i : Nat) : List (Nat × Edit) × State :=
  match x.2.hop cnt rx b p route i with
  | (some h, s) => (x.1 ++ [h], s)
  | (none, s) => (x.1, s)

theorem State.hops_eq (cnt : Nat) (rx : Bool) (b : Bytes) (p : Parsed) (route : Bool) (l : List Nat) :
    s.hops cnt rx b p route l = l.foldl (hopStep cnt rx b p route) ([], s) := rfl

theorem State.on_hopStep (cnt : Nat) (rx : Bool) (b : Bytes) (p : Parsed) (route : Bool) (x : List (Nat × Edit) × State) (i : Nat) :
    hopStep cnt rx b p route (State.onSnd x c k) i = State.onSnd (hopStep cnt rx b p route x i) c k := by
  unfold hopStep
  rw [State.onSnd, State.on_hop]
  rcases x.2.hop cnt rx b p route i with ⟨_ | h, t⟩ <;> rfl

theorem State.on_hops (cnt : Nat) (rx : Bool) (b : Bytes) (p : Parsed) (route : Bool) (l : List Nat) :
    (s.on c k).hops cnt rx b p route l = State.onSnd (s.hops cnt rx b p route l) c k := by
  rw [State.hops_eq, State.hops_eq, ← State.onSnd_mk]
  generalize (([] : List (Nat × Edit)), s) = x
  induction l generalizing x with
  | nil => rfl
  | cons i r ih => rw [List.foldl_cons, List.foldl_cons, State.on_hopStep, ih]

theorem State.on_act (cnt : Nat) (rx : Bool) (b : Bytes) (p : Parsed) (a : Nat) :
    (s.on c k).act cnt rx b p a = State.onSnd (s.act cnt rx b p a) c k := by
  have htables : (s.on c k).tables = s.tables := rfl
  have hlive : (s.on c k).nhLive = s.nhLive := rfl
  have hseed : (s.on c k).reg (PORT_HASH_SEED_seed (cnt / 8)) = s.reg (PORT_HASH_SEED_seed (cnt / 8)) := rfl
  have htype : (s.on c k).echType (cnt / 8) = s.echType (cnt / 8) := rfl
  unfold State.act
  simp only [htables, hlive, hseed, htype, State.on_countL, State.on_hops]
  split_ifs
  · rfl
  · rfl
  · rcases s.hops cnt rx b p (bitOf a 3) [bits a 8 16] with ⟨_ | h, t⟩ <;> rfl
  · rfl
  · generalize s.hops cnt rx b p (bitOf a 3) [_] = x
    rcases x with ⟨_ | h, t⟩ <;> rfl
  · cases s.tables.repl.find? (bits a 8 16) with
    | none => rfl
    | some r =>
      dsimp only
      rcases s.hops cnt rx b p (bitOf a 3) (nhList r) with ⟨_ | h, t⟩ <;> rfl

theorem State.on_lookup (cnt : Nat) (rx row9 : Bool) (b : Bytes) (p : Parsed) :
    (s.on c k).lookup cnt rx row9 b p = State.onSnd (s.lookup cnt rx row9 b p) c k := by
  have htables : (s.on c k).tables = s.tables := rfl
  have hstation : (s.on c k).station (cnt / 8) = s.station (cnt / 8) := rfl
  unfold State.lookup
  simp only [htables, hstation, State.on_countL, State.on_act]
  split_ifs
  · cases p.ip with
    | none => rfl
    | some ip =>
      dsimp only
      split_ifs
      · rfl
      · cases lpm s.tables.v6 128 (beNat ip.dst) 128 <;> rfl
      · cases lpm s.tables.v4 32 (beNat ip.dst) 32 <;> rfl
  · rfl
  · cases s.tables.endpoint.find? (endpointKey p.dmac p.vid) <;> rfl

/-! ### A frame from a buffer -/

theorem State.on_sendBuffer (ch unit len cls : Nat) (device oneStep : Bool) (bind : Option Nat) (src : Nat) (stamp : FT64) :
    (s.on c k).sendBuffer ch unit len cls device oneStep bind src stamp = State.onSnd (s.sendBuffer ch unit len cls device oneStep bind src stamp) c k := by
  have hread : (s.on c k).storeRead (unit * 256) len = s.storeRead (unit * 256) len := rfl
  have hhome (t : State) : (t.on c k).home ch = t.home ch := rfl
  have hstore (t : State) : (t.on c k).store = t.store := rfl
  have harrival (t : State) : (t.on c k).arrival src = State.onSnd (t.arrival src) c k := rfl
  have hframe (t : State) (f : Frm) : (t.on c k).newFrame f = State.onSnd (t.newFrame f) c k := rfl
  have htype (t : State) (p : Nat) : (t.on c k).echType p = t.echType p := rfl
  have hlossless (t : State) (p n : Nat) : (t.on c k).lossless p n = t.lossless p n := rfl
  unfold State.sendBuffer
  simp only [hread, State.on_lookup]
  cases bind with
  | some eg => simp only [hstore, harrival, State.onSnd, htype, hlossless, hframe, State.on_spread]
  | none =>
    dsimp only
    rcases s.lookup (24 * ch) false device (s.storeRead (unit * 256) len) (parseFrame (s.storeRead (unit * 256) len)) with ⟨r, t⟩
    cases r with
    | drop => simp only [State.onSnd, hhome, State.on_release]
    | prog => simp only [State.onSnd, hhome, State.on_count, State.on_release]
    | copies rep l => simp only [hstore, harrival, State.onSnd, htype, hlossless, hframe, State.on_spread]

theorem State.on_originate (ch o : Nat) (b : Bytes) (cls : Nat) (device oneStep : Bool) (bind : Option Nat) :
    (s.on c k).originate ch o b cls device oneStep bind = State.onSnd (s.originate ch o b cls device oneStep bind) c k := by
  have hhome : (s.on c k).home ch = s.home ch := rfl
  rw [State.originate, State.originate, hhome, State.on_request]
  rcases s.request o (b.length + 4) false (s.home ch) none with ⟨_ | unit, t⟩
  · rfl
  · have hwrite (x : Bytes) : ((t.on c k).storeWrite (unit * 256) x).hubAccess 0 b.length = ((t.storeWrite (unit * 256) x).hubAccess 0 b.length).on c k := rfl
    simp only [State.onSnd, hwrite]
    exact State.on_sendBuffer ..

end On

end Sys2Proof.Machine
end

section
/-! PROOFS. psend of operands in scratch (R205, R269), and what the sort and filter unit and the movers leave (R198–R205). -/

namespace Sys2Proof.Machine

section Psend

variable {s : State} {cx : Cx} {e : Entry} {r : List Entry} {a b : Nat}

/-- Reading operands first changes nothing of what is sent, and sending changes no channel and no context. -/
theorem State.ReadsOf.originate {t u : State} {ch : Nat} (h : s.ReadsOf ch t) (o : Nat) (bytes : Bytes) (cls : Nat) (oneStep : Bool) (bind : Option Nat)
    {x : Sent} (hsend : s.originate ch o bytes cls false oneStep bind = (x, u)) :
    t.originate ch o bytes cls false oneStep bind = (x, u.on t.chans t.ctxs) ∧ u.ctxs = s.ctxs := by
  have hself := s.on_originate s.chans s.ctxs ch o bytes cls false oneStep bind
  have hother := s.on_originate t.chans t.ctxs ch o bytes cls false oneStep bind
  have ht : s.on t.chans t.ctxs = t := by
    rw [State.on, h.rest]
  rw [State.on_self, hsend] at hself
  rw [ht, hsend] at hother
  exact ⟨hother, congrArg (fun y : Sent × State => y.2.ctxs) hself⟩

theorem exec_psend_scratch (hue : (s.chan (chOf cx)).scratchUe = []) {hl : Nat} {x : Sent} {u : State} (hhl : hl = bits e.word 117 6)
    (h : s.lastRepeat cx 4 0x50 e r) (hmin : 60 ≤ hl + e.m1) (hmax : hl + e.m1 ≤ 65596) (hbind : bitOf e.word 107 = true → e.m2 < 192)
    (hA : s.inScratch cx e.word (slotA e.word) e.a e.xa e.i hl a) (hB : s.inScratch cx e.word (slotB e.word) e.b e.xb e.i e.m1 b)
    (hsend : s.originate (chOf cx) (ownerOf cx) (s.scr cx a hl ++ s.scr cx b e.m1) (bits e.word 104 3) false (bitOf e.word 116)
      (if bitOf e.word 107 then some e.m2 else none) = (x, u)) (hx : x ≠ .refused) :
    Yields (.psend cx) s (fun t => ((t.ctx cx).queue 4).map (·.word) = r.map (·.word) ∧
      t = { u with chans := t.chans, ctxs := t.ctxs, regs := t.regs, latch := t.latch, out := t.out }) := by
  have hspace : slSpace (slotB e.word) ≠ 3 := by
    have := hB.1
    omega
  have huses : ∀ y ∈ [(⟨locOf e.word (slotA e.word) e.a e.xa e.i 0, hl, 1⟩ : Use), ⟨locOf e.word (slotB e.word) e.b e.xb e.i 0, e.m1, 32⟩],
      (s.ctx cx).Holds y := by
    simp only [List.mem_cons, List.not_mem_nil, or_false, forall_eq_or_imp, forall_eq]
    exact ⟨hA.holds (by decide), hB.holds (by decide)⟩
  obtain ⟨v, hread, hv⟩ := State.readAll_holds hue huses .error
  simp only [List.map_cons, List.map_nil, hA.bytesOf, hB.bytesOf] at hread
  obtain ⟨hsent, hctxs⟩ := hv.originate _ _ _ _ _ hsend
  have hlen : ¬ (decide (hl + e.m1 < 60) || decide (65596 < hl + e.m1)) = true := by
    simp only [Bool.or_eq_true, decide_eq_true_eq]
    omega
  have hm2 : ¬ (bitOf e.word 107 && decide (191 < e.m2)) = true := by
    simp only [Bool.and_eq_true, decide_eq_true_eq, not_and]
    intro h107
    have := hbind h107
    omega
  have hbody : State.psendBody cx (s.ctx cx) e s = (.ok (some { e := e }), u.on v.chans v.ctxs) := by
    unfold State.psendBody
    simp only [← hhl, if_neg hspace, State.useChecks_holds huses, if_neg hlen, if_neg hm2, hread, List.flatten_cons, List.flatten_nil, List.append_nil]
    rw [hsent]
    cases x with
    | refused => exact absurd rfl hx
    | _ => rfl
  have hctx : (u.on v.chans v.ctxs).ctx cx = s.ctx cx := hv.ctx cx
  obtain ⟨t, hrun, ht⟩ := exec_lastRepeat_completes (c := .psend cx) rfl h hbody (by rw [hctx])
  refine ⟨t, hrun, ht.queue_lastRepeat h (by rw [hctx]), ?_⟩
  rw [ht.rest]
  rfl

end Psend

/-- Settles O56: each clause is its row's last repeat, on operands that lie in scratch. -/
theorem sortFilterAndMoverResults : Obligations.SortFilterAndMoverResults := by
  intro s cx e r a b d hue
  exact ⟨fun n v hn h hfa hk hvo hA hD hv => exec_tpk_scratch hue hn h hfa hk hvo hA hD hv,
    fun n out hn h hi hacc hrel hkt hA hD hout => exec_flt_scratch hue hn h hi hacc hrel hkt hA hD hout,
    fun n bins key hn hbins h hcap hA hD hkey hrange => exec_hst_scratch hue hn hbins h hcap hA hD hkey hrange,
    fun n v host hn hcount hv hin hB => ⟨fun h hA hD => exec_gat_scratch host hue hn hcount hv hin hB h hA hD,
      fun h hA hD => exec_sct_scratch host hue hn hcount hv hin hB h hA hD⟩,
    fun hl x u hhl h hmin hmax hbind hA hB hsend hx => exec_psend_scratch hue hhl h hmin hmax hbind hA hB hsend hx,
    fun x q f h hhold hfifo hf hD hlen => exec_precv_hold hue h hhold hfifo hf hD hlen⟩

end Sys2Proof.Machine
end
